-- ==== Sys2Proof/Word.lean ====
section
/-! DEFINITION. Sys2Proof/Word.lean: the byte and word types of the register windows, descriptors and frames. -/

namespace Sys2Proof

/-- One byte of a descriptor, record, frame or buffer (R7). -/
abbrev Byte := BitVec 8

/-- One 32-bit register word of BAR0 or BAR2. -/
abbrev Word := BitVec 32

end Sys2Proof
end

