-- ==== Sys2Proof/Config.lean ====
section
/-! DEFINITION. Sys2Proof/Config.lean: what manufacture, strapping or the firmware image fixes in one module,
estimates whose formulas stand outside the spec, and the free values. None of these constants has a body, so
no proof can see a value. -/

namespace Sys2Proof

/-- The free values: the value the spec leaves open at the n-th use is `freeNat n` (log entry 2). -/
opaque Config.freeNat : Nat → Nat

/-! Fused, strapped, factory and image constants (log entry 3). -/

/-- Serial number, low and high word (HST_ID_SERIAL, R364). -/
opaque Config.serialLo : Nat
opaque Config.serialHi : Nat
/-- Hardware stepping (HST_ID_PART.HW_STEP, R364). -/
opaque Config.hwStep : Nat
/-- PTP clockIdentity (ETH_CLOCK_ID, R97). -/
opaque Config.clockIdLo : Nat
opaque Config.clockIdHi : Nat
/-- Ageing bound A of the OCXO (TTU_DR_AGE, R82). -/
opaque Config.drAge : Nat
/-- GLONASS code-phase biases (OBS_GLO_BIAS, R143). -/
opaque Config.gloBiasL1 : Nat
opaque Config.gloBiasL2 : Nat
/-- The slot strap: 0 slot A, 1 slot B (TWN_STATUS.SLOT, R340). -/
opaque Config.slotStrap : Nat
/-- The running image carries the ISO 11783-5 option (CAN_GLOBAL.ISO_AVAIL, R399). -/
opaque Config.isoAvail : Nat
/-- The fused minimum SVN at manufacture (BOOT_SLOT.SVN_MIN, R498). -/
opaque Config.svnMin : Nat
/-- The device root key DRK, 32 bytes (R449). -/
opaque Config.deviceRoot : List Byte

/-! What Sextant and the Fix Engine estimate by formulas that stand outside the spec (log entry 69). -/

/-- The angle of a vector (y, x) in 2⁻³² cycle (the four-quadrant arctangent of R108). -/
opaque Config.arctan2 : Int → Int → Int
/-- A loop filter (R108): order, bandwidth field, integration time in ms, what the filter keeps, the error as numerator and
denominator; what it then keeps, its output rate first. -/
opaque Config.loopFilter : Nat → Nat → Nat → List Int → Int × Int → List Int
/-- C/N0 in 0.01 dB-Hz: integration time, the value before, prompt power, noise power (R106). -/
opaque Config.cn0Est : Nat → Nat → Int → Int → Nat
/-- The phase lock indicator in 0.001: integration time, the value before, prompt, noise power (R106, R111). -/
opaque Config.lockEst : Nat → Nat → Int × Int → Int → Nat

/-- The base time solution (R129) at an epoch: RMS residual and clock offset in 2⁻¹⁶ ns, from the antenna's position where it
is known, and of every observable the parameters of its ephemeris set, its signal and its pseudorange in 2⁻²⁴ µm. -/
opaque Config.baseSolution : Option (Int × Int × Int) → Nat → List (List Nat × Nat × Int) → Nat × Int
/-- The single-point position of an epoch in 0.1 mm (R132), from the ephemeris set and the code of every satellite. -/
opaque Config.pointPosition : Nat → List (List Nat × Int) → Int × Int × Int
/-- A satellite's position in 0.1 mm, by the parameters of its ephemeris set and a TB1 instant in 2⁻¹⁶ ns; its clock's
share of a pseudorange in 2⁻²⁴ µm (R152, R160). -/
opaque Config.satPos : List Nat → Nat → Int × Int × Int
opaque Config.satClock : List Nat → Nat → Int
/-- The geometric range in 2⁻²⁴ µm, and the elevation in 0.01° of the second point seen from the first. -/
opaque Config.geoRange : Int × Int × Int → Int × Int × Int → Int
opaque Config.elevation : Int × Int × Int → Int × Int × Int → Int
/-- The filter's prediction and update: the numbers that weigh them, the state vector before, the double differences, and
the integers held as constraints; the state vector after (R162 and the text before it). -/
opaque Config.floatUpdate : List Int → List Int → List (List Int) → List (List Int) → List Int
/-- East and north speed in mm/s, horizontal and vertical standard deviation in mm of a state vector. -/
opaque Config.filtVel : List Int → Int × Int
opaque Config.filtSig : List Int → Nat × Nat
/-- The double-difference carrier residual of a row in 2⁻³² cycle, for the state a vector predicts after a number of ms; that
of a row with its integer in mm (R158, R168). -/
opaque Config.slipResidual : List Int → Nat → List Int → Int
opaque Config.heldResidual : List Int → List Int → Int → Nat
/-- The float values of a set of ambiguities in a state vector in 2⁻³² cycle, and their covariance in 2⁻⁶⁴ cycle² (R164). -/
opaque Config.ambFloat : List Int → List (List Int) → List Int
opaque Config.ambCov : List Int → List (List Int) → List (List Int)
/-- The decorrelation proposed for a covariance, and its inverse (R164). -/
opaque Config.decorrelate : List (List Int) → List (List Int) × List (List Int)
/-- The bootstrapped failure rate in 10⁻⁶ from the conditional variances (R167). -/
opaque Config.bootFailure : List Rat → Nat
/-- The ratio in 0.01 of a set whose best vector has the distance 0, of which R166 gives none. -/
opaque Config.ratioOpen : Nat

/-- The factory noise reference of band b (R123). -/
opaque Config.factoryNoise : Nat → Nat
/-- The body of RTCM message n with the fields given: the encoding of RTCM 10403.3, which stands outside the spec (R139). -/
opaque Config.rtcmBody : Nat → List Int → List Byte

/-! What the boot ROM and the fuses hold for the check of an image (R486). -/

/-- The public key, X then Y, and the image key, 32 bytes. -/
opaque Config.imageSignKey : List Byte
opaque Config.imageKey : List Byte

end Sys2Proof
end

