-- ==== Sys2Proof/Machine/Terms.lean ====
section
/-! DEFINITION. Sys2Proof/Machine/Terms.lean: the operands of the commands, and what the engines hold that a snapshot
carries to a joining shadow (R337). -/

namespace Sys2Proof

/-- The six modes, in the order of the R6 table. -/
inductive Mode where
  | boot | maintenance | shadow | lead | halt | dead
  deriving DecidableEq, Repr

/-- Which descriptor a ring command came from: SQ number, index in the SQ, TAG (R348, R351), and the time-counter
cycle (4 ns) of the tick at which its subsystem receives it. `cut`: the link goes down, or the function is put in D3hot,
when the command has written so many bytes of its buffer (R524). -/
structure Handle where
  sq  : Nat
  idx : Nat
  tag : Nat
  cyc : Nat
  cut : Option Nat := none
  deriving DecidableEq, Repr

/-- What a buffer read brought back (R350 row 6): an error, or the bytes. -/
structure BufIn where
  err  : Bool
  data : List Byte
  deriving DecidableEq, Repr

/-- An engine's use of its slot (R55): time held in 0.1 µs, and whether requests were pending at its end. -/
structure SlotUse where
  held    : Nat
  pending : Bool
  deriving DecidableEq, Repr

/-- The circumstances of a stop release: the cycle of the tick, the latency measured (STP_LAST.LAT_NS), and whether
both copies of the armed frame are uncorrectable (R253). -/
structure RelIn where
  cyc      : Nat
  latNs    : Nat
  storeBad : Bool
  deriving DecidableEq, Repr

/-- A stamp field of a descriptor (R11). -/
structure StampIn where
  sub : Nat
  ns  : Nat
  sec : Nat
  deriving DecidableEq, Repr

/-- What the boot code meets (R482): the self-test passes; the executable slot reads back as it was written; a copy of
the configuration record is valid; the outcome of the check of each commit record (0 as written, 1 its fleet slot does
not match, 2 its CHECK is wrong); the Logbook records whose check fails, by SEQ; the boot code sets SEAL; the level of
TAMPER_N. -/
structure BootIn where
  selfTest : Bool
  slotOk   : Bool
  cfgOk    : Bool
  rec0     : Nat
  rec1     : Nat
  logBad   : List Nat
  sealSet  : Bool
  tamperN  : Bool
  deriving DecidableEq, Repr

/-- A received CAN frame (R381): identifier, IDE, RTR, FDF, BRS, ESI, DLC, data bytes, and the SOF sample point in
2⁻¹⁶ ns after the tick boundary, negative before it. -/
structure CanRx where
  id    : Nat
  ide   : Bool
  rtr   : Bool
  fdf   : Bool
  brs   : Bool
  esi   : Bool
  dlc   : Nat
  data  : List Byte
  sofAt : Int
  deriving DecidableEq, Repr

/-- What errors on a bus have made of a channel's fault confinement (R377, R388): the transmit error counter, the errors
detected, and the attempts of the offered frame among them that it repeats. -/
structure CanErrs where
  tec     : Nat
  frames  : Nat
  retries : Nat
  deriving DecidableEq, Repr

/-- The frames whose deadline is judged at a boundary (R386): the stop-class buffer, whose offered frame may be on the bus,
or a transmit buffer. -/
inductive CanLate where
  | stop (onBus : Bool)
  | txb (b : Fin 3)
  deriving DecidableEq, Repr

/-- What the transceiver of a sleeping channel sees (R395). -/
inductive CanWakeIn where
  | pattern
  | frame (id : Nat) (ide : Bool) (dlc : Nat) (data : List Byte)
  | errors
  deriving DecidableEq, Repr

/-- A grandmaster dataset as Announce carries it (R93). -/
structure GmData where
  id         : Nat
  prio1      : Nat
  clockClass : Nat
  accuracy   : Nat
  variance   : Nat
  prio2      : Nat
  timeSource : Nat
  utc        : Nat
  utcValid   : Bool
  deriving DecidableEq, Repr

/-- A portIdentity of IEEE 1588-2019: clockIdentity and portNumber. -/
structure PortId where
  clock : Nat
  port  : Nat
  deriving DecidableEq, Repr

/-- Where a PTP message is sent (R86): the multicast address (IPv4 or MAC), the UDP port or EtherType, and the UDP
checksum. -/
structure PtpTo where
  group    : Nat
  port     : Nat
  checksum : Nat
  deriving DecidableEq, Repr

/-- The header of a PTP message (R86): over UDP (IPv4) or IEEE 802.3, its domain and sdoId, its sender, its sequenceId and
its correctionField in 2⁻¹⁶ ns. -/
structure PtpHdr where
  udp    : Bool
  domain : Nat
  sdoId  : Nat
  src    : PortId
  seq    : Nat
  corr   : Int
  deriving DecidableEq, Repr

/-- The messages of R86. `at_`: the instant of the tick, in 2⁻¹⁶ ns, at which the first octet after the SFD crosses the
GMII; times of the message in 2⁻¹⁶ ns of the PTP domain; `req`: the requesting port. A Pdelay_Req is answered: `tx`, the
instant at which the answer leaves, and `taken`, the entries the engine has taken from the stamp FIFO by then. -/
inductive PtpMsg where
  | sync (origin : Int) (twoStep : Bool) (at_ : Nat)
  | followUp (origin : Int)
  | delayReq (at_ : Nat)
  | delayResp (t4 : Int) (req : PortId)
  | pdelayReq (at_ tx taken : Nat)
  | pdelayResp (t2 : Int) (twoStep : Bool) (req : PortId) (at_ : Nat)
  | pdelayFollowUp (t3 : Int) (req : PortId)
  | announce (gm : GmData) (steps : Nat)
  deriving DecidableEq, Repr

/-- What a port receives (R85): a PTP message of R86, or any other frame. -/
inductive PtpRx where
  | other
  | msg (hd : PtpHdr) (m : PtpMsg)
  deriving DecidableEq, Repr

/-- A message with an egress stamp (R88): the instant of the tick, in 2⁻¹⁶ ns, at which its first octet after the SFD crosses
the GMII, and the entries the engine has taken from the stamp FIFO by then. -/
structure EgressIn where
  at_   : Nat
  taken : Nat
  deriving DecidableEq, Repr

/-- The position of a solution (R170): ECEF in 0.1 mm, east and north speed in mm/s, standard deviations in mm. -/
structure SolPos where
  x    : Int
  y    : Int
  z    : Int
  ve   : Int
  vn   : Int
  sigH : Nat
  sigV : Nat
  deriving DecidableEq, Repr

/-- What a filter keeps of an observation for the next record (R152, R158): satellite and signal, the epoch's tick, the
carrier unwrapped in 2⁻¹⁶ cycle, LOCK_T, HALF_CYCLE of rover and base, and the integer at which its ambiguity is held. -/
structure Amb where
  sig   : Nat
  sv    : Nat
  te    : Nat
  carr  : Int
  lockT : Nat
  halfR : Bool
  halfB : Bool
  int   : Option Int
  deriving DecidableEq, Repr

/-- A rover filter (R162): its state while not PAUSED, updates since EMPTY after the first, the ratio of the last test, its
position, its state vector as the estimator keeps it, what it keeps of each observation, and by group the reference
satellite (R155). -/
structure FixFilt where
  st     : Nat := 0
  after  : Nat := 0
  ratio  : Nat := 0
  pos    : Option (Int × Int × Int) := none
  vec    : List Int := []
  te     : Nat := 0
  ambs   : List Amb := []
  refs   : List ((Nat × Int) × Nat) := []
  deriving DecidableEq, Repr

/-- The end of a solution (R172, R174): the cluster time it took in µs, and the cycle of the tick. -/
structure DoneIn where
  us  : Nat
  cyc : Nat
  deriving DecidableEq, Repr

/-- Full-rate samples of a stream since the last background window (R419): the instant of the first in 2⁻¹⁶ ns after the
tick boundary, and their bytes. A record of the digital lines carries in its upper word the time-counter cycles since
the tick boundary. -/
structure GltIn where
  stream : Fin 8
  at_    : Nat
  data   : List Byte
  deriving DecidableEq, Repr

/-- What falls in one trigger sample (R423, R424): edges (line, rising, instant in 2⁻¹⁶ ns after the tick boundary, as
the TDC places it), samples of streams with the one before (stream, I and Q before, I and Q, sampling instant), events
raised (source, instant), and whether a tick boundary is in it. -/
structure GltSample where
  edges   : List (Nat × Bool × Nat)
  samples : List (Nat × (Int × Int) × (Int × Int) × Nat)
  events  : List (Nat × Nat)
  tick    : Bool
  cyc     : Nat
  deriving DecidableEq, Repr

/-- The kinds of ring. -/
inductive RingKind where
  | sq | cq | eq
  deriving DecidableEq, Repr

/-- The configuration space of the endpoint as the host has written it (R342): Bus Master Enable, MSI-X Enable and Function
Mask, Max_Payload_Size and Max_Read_Request_Size in bytes, ECRC generation and checking. -/
structure PcieCfg where
  bme      : Bool := false
  msixEn   : Bool := false
  funcMask : Bool := false
  mps      : Nat := 128
  mrrs     : Nat := 512
  ecrcGen  : Bool := false
  ecrcChk  : Bool := false
  deriving DecidableEq, Repr

/-- An uplink frame received on a transceiver in a slot: its header (R281), its arrival error in ns (R305), its tag as
received, checked under the key its KEY_ID names, and its clear payload. -/
structure UplinkRx where
  hb      : Fin 2
  slot    : Fin 7
  kind    : Nat
  rover   : Nat
  frag    : Nat
  keyId   : Nat
  seq     : Nat
  rstat   : Nat
  rsv     : Nat
  tag     : Nat
  err     : Int
  payload : List Byte
  deriving DecidableEq, Repr

/-- A homing in progress (R414): its command, direction (true: positive), use of the index, speeds in 0.01 microstep/s,
HOME_OFFSET, MAX_TRAVEL; phase, microsteps of the phase, velocity in 2⁻¹⁶ of V, phase accumulator; decelerating after the
trip of phase 1; the COUNTER value held before the home edge. -/
structure Homing where
  h        : Handle
  dir      : Bool
  useIndex : Bool
  fast     : Nat
  slow     : Nat
  offset   : Int
  maxTravel : Nat
  phase    : Nat
  travel   : Nat := 0
  vel      : Nat := 0
  acc      : Nat := 0
  stopping : Bool := false
  was      : Int := 0
  deriving DecidableEq, Repr

/-- What the lead carries of a positioner channel to its shadow (R416). -/
structure PosShare where
  counter : Int
  ustep   : Nat
  encOff  : Int
  homed   : Bool
  reason  : Nat
  chatter : Nat
  short   : Bool
  en      : Bool
  homing  : Option Homing
  deriving DecidableEq, Repr

/-- What a key is used for when its share is found uncorrectable (R451, R461): the group session key, the link session keys
of a rover, or a key that only derives or wraps others. -/
inductive KeyUse where
  | group
  | link (rover : Nat)
  | parent
  deriving DecidableEq, Repr

/-- What an uncorrectable word holds (R27, R471). -/
inductive MemUse where
  /-- The Chart segment store, or else the running firmware copy. -/
  | fatal (chart : Bool)
  | filter (rover : Fin 128)
  /-- The observable history of a rover; the base observables. -/
  | history (rover : Fin 128)
  | baseSet
  /-- The ephemerides of a satellite in the working set. -/
  | ephemeris (sat : Nat)
  /-- A word of a flash area: the copy of a dual-copy record it holds (R473). -/
  | flash (area : Nat)
  /-- The packet being written to queue q. -/
  | cellNew (q : Nat)
  /-- The k-th packet of queue q. -/
  | cell (q k : Nat)
  | logBlock (b : Nat)
  /-- A matrix or prices: 0 of the running auction, 1 of the one that preempts it, 2 of the pending one; otherwise the
  prices kept of the last published one. -/
  | auction (which : Nat)
  /-- Block i of the ring of stream k. -/
  | glint (k : Fin 8) (i : Nat)
  /-- A share of a key (R461). -/
  | key (k : KeyUse)
  /-- A word of the channel SRAM of a correlator bank, with the channels whose state it takes (row 2 of R125); of the SRAM of
  a cluster (row 2 of R179). -/
  | bank (b : Fin 17) (bad : List Nat)
  | cluster (c : Fin 9)
  /-- Ionosphere or UTC parameters of a constellation; the frequency channel of a GLONASS slot. -/
  | iono (sys : Nat)
  | utcPar (sys : Nat)
  | gloK (slot : Nat)
  | other
  deriving DecidableEq, Repr

/-- What background work finds or finishes in a window (R469 to R474): words corrected, and an uncorrectable word, of
memory m with the LPDDR5 row that holds them; a scrub pass ended; flash: a write or move of a logical area is programmed,
its block is read back (`ok`), the levelling moves an area, the read scrub has read an area with at most `corr` symbols
corrected in a codeword; the result of a calibration (R472): of the TDC in fs per bin, of band b with its gain change as
num/den and the I/Q imbalance in 0.01 dB, of a transceiver with its detector offset in 0.01 dB, of a POS channel with the
offset in mA and the gain in 0.1 % of the factory value. -/
inductive BgWork where
  | corrected (m : Fin 8) (n : Nat) (row : Option Nat)
  | uncorrectable (m : Fin 8) (row : Option Nat) (what : MemUse)
  | passDone (m : Fin 8)
  | flashWrite (area : Nat)
  | flashRead (ok : Bool)
  | flashLevel
  | flashScrub (area corr : Nat)
  | calTdc (binFs : Nat)
  | calRf (b : Fin 3) (num den : Nat) (iq : Int)
  | calHb (hb : Fin 2) (offset : Int)
  | calPos (n : Fin 4) (offset : Int) (gain : Option Nat)
  deriving DecidableEq, Repr

/-- A background window: µs used, work pending at its end, what Glint has sampled since the last one, and the work. -/
structure BgIn where
  usedUs  : Nat
  pending : Bool
  glt     : List GltIn
  work    : List BgWork
  deriving DecidableEq, Repr

/-- What SVC measures for a telemetry record (R475): baseplate temperature in 0.1 °C, VIN_A, VIN_B and VMOT in mV, power
in 0.1 W. -/
structure TelIn where
  temp  : Int
  vinA  : Nat
  vinB  : Nat
  vmot  : Nat
  power : Nat
  deriving DecidableEq, Repr

/-- The correlators of a channel whose integration period ended before the tick boundary, as (I, Q): early, prompt, late
and noise on the tracked component, and the prompt of the data component where the signal has one (R106, R110). -/
structure CorrIn where
  ch     : Nat
  early  : Int × Int
  prompt : Int × Int
  late   : Int × Int
  noise  : Int × Int
  data   : Option (Int × Int)
  deriving DecidableEq, Repr

/-- The code and carrier state of a channel latched at the epoch (R116): transmit time within the
constellation's week in 2⁻²⁴ µs, carrier in 2⁻³² cycle. -/
structure MeasIn where
  ch      : Nat
  txTime  : Nat
  carrier : Int
  towUnk  : Bool
  deriving DecidableEq, Repr

/-- What an SXT slot finds (R110, R116): the integration periods that have ended, and the states latched at the epoch. -/
structure SxtIn where
  corr : List CorrIn
  meas : List MeasIn
  deriving DecidableEq, Repr

/-- What a search has found beside the code (R114): the GLONASS frequency channel, and the Doppler in mHz. -/
structure CarrierIn where
  freqK : Int
  dop   : Int
  deriving DecidableEq, Repr

/-- A satellite and signal predicted from the base position and the ephemerides: elevation in 0.01°, Doppler in mHz. -/
structure Predicted where
  sig   : Nat
  sv    : Nat
  freqK : Nat
  elev  : Int
  dop   : Int
  deriving DecidableEq, Repr

/-- A demodulated navigation unit (R117 to R119): stamp, which unit of its message it is, its subframe or page number,
whether the decoding converged, what its check found (failed, corrected; by word where it checks words), its bits, whether
it held the preamble or pattern that resolves the polarity, and what its content completes: an ephemeris set, a leap-second
count, a GNSS time (2⁻¹⁶ ns), ionosphere parameters, UTC parameters, the frequency channel of a GLONASS slot. -/
structure NavIn where
  stamp    : Nat
  sub      : Fin 3
  unit     : Nat
  conv     : Bool
  bad      : Bool
  fixed    : Bool
  failMask : Nat
  corrMask : Nat
  data     : List Byte
  polarity : Bool
  eph      : Option (List Nat)
  utc      : Option Nat
  gnssTime : Option Nat
  iono     : Option (List Nat)
  utcPar   : Option (List Nat)
  gloK     : Option (Nat × Int)
  deriving DecidableEq, Repr

/-- What an OBS slot finds beside the records of its epoch: the base clock drift in 2⁻¹⁶ ns over 50 ms (R160). -/
structure ObsIn where
  drift : Int
  deriving DecidableEq, Repr

/-- What the hardware measures by a watch boundary: the frequency loop's bound Δf in 10⁻¹³ (R66), and
what the fields name. -/
structure WatchIn where
  df      : Nat
  /-- The frequency of REF10M_IN against the OCXO model, in 10⁻⁹ (R61). -/
  refPpb  : Int
  /-- The satellites predicted in view (R104). -/
  sats    : List Predicted
  deriving DecidableEq, Repr

/-- What Sextant measures of a band in a tick: input power and power after the notches (R122), AGC gain, whether more than
1 % of the samples were at full scale, and the spectrum's lines as (bin from the centre, excess over the median bin power
in 0.5 dB) (R120). -/
structure BandIn where
  pin   : Nat
  pres  : Nat
  agc   : Nat
  clip  : Bool
  lines : List (Int × Nat)
  deriving DecidableEq, Repr

/-- What the hardware measures by a tick boundary: the antenna bias current in mA (R101); what each band shows; VMOT in mV, driver temperature and peak coil currents in mA (R412, R417); the latches in
which the two stop paths differ, none for the fleet latch (R478); TTU's use of its own slot (R40, R55). -/
structure TickIn where
  biasMa  : Nat
  bands   : List BandIn
  vmotMv  : Nat
  drvTemp : Int
  coilMa  : List Nat
  paths   : List (Option Nat)
  ttuUse  : SlotUse
  deriving DecidableEq, Repr

namespace Machine

/-! ### CPL -/

/-- A packet in a queue: its bytes, and the tick at which it entered. -/
structure Pkt where
  data : List Byte
  tick : Nat
  deriving DecidableEq, Repr

/-- A queue: complete packets oldest first, cells of a packet being written, packets lost since the last read. -/
structure CplQ where
  pkts    : List Pkt := []
  writing : Nat := 0
  lost    : Bool := false
  deriving DecidableEq, Repr

/-- An accepted CPL_QUEUE_SET, effective at the next tick boundary (R372). -/
structure QSet where
  q      : Nat
  create : Bool
  notice : Bool
  maxC   : Nat
  minC   : Nat
  maxP   : Nat
  deriving DecidableEq, Repr

structure CplState where
  queues  : List (Nat × CplQ) := []
  pend    : List QSet := []
  /-- The sum over all queues of the cells held beyond MIN_CELLS. -/
  excess  : Nat := 0
  /-- Cells of abandoned packets that return to the pool at the next tick boundary (R370), by queue. -/
  freeing : List (Nat × Nat) := []
  deriving DecidableEq, Repr

/-! ### LUV -/

/-- The elements a transceiver sends in a tick (R274). -/
inductive ElKind where
  | beacon | ack | notice | copy | downlink | bulk
  deriving DecidableEq, Repr

/-- A planned element: first cycle and end, begun (assembled and stamped), frame bytes and MCS, rover, segments it
takes, its TIMING_ADJ. -/
structure LuvEl where
  kind  : ElKind
  start : Nat
  stop  : Nat
  begun : Bool := false
  frame : List Byte := []
  mcs   : Nat := 1
  rover : Nat := 255
  take  : Nat := 0
  adj   : Option Int := none
  deriving DecidableEq, Repr

/-- The beacon assembled for a tick (R282): stop state, permits by rover bit, key epoch, tag computed. -/
structure BeaconPre where
  tick   : Nat
  stop   : Nat
  permit : Nat
  key    : Nat
  tagged : Bool := false
  deriving DecidableEq, Repr

/-- SLOT_CFG (R278). -/
structure SlotCfg where
  home    : Nat
  ulMcs   : Nat
  dlMcs   : Nat
  ulN     : Nat
  ulStart : Nat
  retry   : Nat
  dlSlot  : Nat
  deriving DecidableEq, Repr

/-- What LUV holds of a rover's assignment: in force; awaiting effect, in the order of acceptance (none inside: removal), each
with its 8 bytes and watch boundaries left; kept until a tick. -/
structure LuvRover where
  cfg  : Option SlotCfg := none
  pend : List (Option SlotCfg × List Byte × Nat) := []
  kept : List (SlotCfg × Nat) := []
  deriving DecidableEq, Repr

/-- A rover record in reassembly (R285): fragment count, cells' length taken, storage granted, fragments by index. -/
structure UpPart where
  cnt   : Nat
  est   : Nat
  ok    : Bool
  frags : List (Nat × List Byte)
  deriving DecidableEq, Repr

/-- A transceiver beside its registers: the PROFILE and CHAN_MHZ it was last started on; the tick at which its channel
check ends, and the check passed. -/
structure LuvHb where
  seen   : Option (Nat × Nat) := none
  done   : Nat := 0
  passed : Bool := false
  deriving DecidableEq, Repr

structure LuvState where
  hbs      : List (Nat × LuvHb) := []
  /-- Channels barred by radar, by centre in MHz: the tick at which the bar ends (R272). -/
  barred   : List (Nat × Nat) := []
  /-- Transceivers that go out at the next tick boundary: index, by a fault. -/
  out      : List (Nat × Bool) := []
  /-- Transceivers whose channel was busy for this tick, and for the next (R273). -/
  busy     : List (Nat × Bool) := []
  busyNext : List (Nat × Bool) := []
  /-- Short control signalling of a transceiver: (tick, cycles) of its bursts in the last 50 ticks. -/
  scs      : List (Nat × List (Nat × Nat)) := []
  /-- Ticks of the lantern frames of the last 3,600 s. -/
  airTicks : List Nat := []
  /-- The cycle of this tick at which the lantern frame in flight ends. -/
  lanEnd   : Nat := 0
  /-- This tick: planned elements by transceiver, and the stop bursts sent (transceiver, first cycle, end). -/
  plan     : List (Nat × List LuvEl) := []
  bursts   : List (Nat × Nat × Nat) := []
  /-- Downlink frames to be assembled again, by transceiver: rover and TIMING_ADJ (R288 row 3). -/
  redo     : List (Nat × List (Nat × Option Int)) := []
  /-- The rover served last in bulk slots, plus 1, by transceiver (R287). -/
  turn     : List (Nat × Nat) := []
  pre      : Option BeaconPre := none
  /-- The fleet latch stood at the last tick boundary (R250). -/
  halted   : Bool := false
  rovers   : List (Nat × LuvRover) := []
  /-- The table in flash (R280), and whether it differs from the one in force. -/
  flash    : List (Nat × SlotCfg) := []
  dirty    : Bool := false
  parts    : List (Nat × Option UpPart) := []
  /-- Frames to acknowledge: tick, transceiver, slot, rover, result, SEQ (R283). -/
  acks     : List (Nat × Nat × Nat × Nat × Nat × Nat) := []
  deriving DecidableEq, Repr

/-! ### SXT -/

/-- What a logical channel holds beside its registers: it holds the satellite and signal its registers name; it has
found that satellite; PULL_IN or
TRACK since this tick; LOCK_RESTART owed; bit boundaries found (data) or secondary code synchronised (pilot); polarity
resolved; a D2 message; watches left in REACQ; its bank is out with no spare; its integration time in ms (R103, R109). -/
structure SxtCh where
  held    : Bool := false
  found   : Bool := false
  since   : Nat := 0
  restart : Bool := false
  sync    : Bool := false
  polar   : Bool := false
  d2      : Bool := false
  left    : Nat := 0
  bankOut : Bool := false
  tcoh    : Nat := 0
  /-- The correlators of the last integration period as (I, Q): early, prompt, late, noise, the data component's prompt,
  and the prompt before (R106, R108). -/
  early   : Int × Int := (0, 0)
  prompt  : Int × Int := (0, 0)
  late    : Int × Int := (0, 0)
  noise   : Int × Int := (0, 0)
  data    : Option (Int × Int) := none
  before  : Int × Int := (0, 0)
  /-- The tick of the loop update before. -/
  last    : Nat := 0
  /-- What the loop filters keep: carrier phase, carrier frequency, code (R108). -/
  pll     : List Int := []
  fll     : List Int := []
  dll     : List Int := []
  /-- The NCO rates in force: carrier in mHz and code in 0.001 chip/s, both against nominal (R110). -/
  carRate : Int := 0
  codRate : Int := 0
  /-- The phase lock indicator in 0.001, and the ticks since which it has been 0.8 or more, below 0.6, and C/N0 below
  LOSS_CN0 (R111). -/
  lock    : Nat := 0
  hiAt    : Option Nat := none
  loAt    : Option Nat := none
  weakAt  : Option Nat := none
  deriving DecidableEq, Repr

/-- A spectral line of a band (R120): its bin from the band centre, its excess over the median bin power in 0.5 dB, and
the consecutive ticks above and not above DETECT_DB. -/
structure SpecLine where
  bin   : Int
  power : Nat
  above : Nat
  below : Nat
  deriving DecidableEq, Repr

/-- A notch: the bin of the line an AUTO notch holds, and the filter as it stands: centre and width in kHz (R120, R121). -/
structure Notch where
  line : Option Int := none
  cur  : Option (Int × Nat) := none
  deriving DecidableEq, Repr

/-- A band's jamming reference (R122, R123): ticks and sum of P_in since its first TRACK; P_ref to the tenth power, with
P_in scaled by 10000; the last 100 ticks' input and residual power, newest first. -/
structure JamRef where
  started : Bool := false
  ticks   : Nat := 0
  sum     : Nat := 0
  refTen  : Option Nat := none
  hist    : List (Nat × Nat) := []
  deriving DecidableEq, Repr

/-- A channel in TRACK as latched at an epoch (R116): what its record carries besides the code and carrier. `deliver`: it
delivers a record (R113 row 4). -/
structure LatchCh where
  ch      : Nat
  sig     : Nat
  sv      : Nat
  freqK   : Nat
  half    : Bool
  restart : Bool
  notch   : Bool
  cn0     : Nat
  doppler : Int
  lockMs  : Nat
  deliver : Bool
  deriving DecidableEq, Repr

/-- A measurement record of an epoch (R116). -/
structure MeasRec where
  ch      : Nat
  sig     : Nat
  sv      : Nat
  freqK   : Nat
  half    : Bool
  restart : Bool
  notch   : Bool
  towUnk  : Bool
  cn0     : Nat
  txTime  : Nat
  carrier : Int
  doppler : Int
  lockMs  : Nat
  epoch   : Nat
  deriving DecidableEq, Repr

structure SxtState where
  chans   : List (Nat × SxtCh) := []
  /-- The slots ran in the tick before (R112). -/
  ran     : Bool := false
  /-- The antenna bias is on; the tick at which a short last switched it off; consecutive ticks below 3 mA (R101). -/
  bias    : Bool := false
  shortAt : Nat := 0
  antLow  : Nat := 0
  /-- The satellites and signals predicted at the last watch boundary (R104, R114). -/
  preds   : List Predicted := []
  /-- Spectral lines by band (R120). -/
  lines   : List (Nat × SpecLine) := []
  notches : List (Nat × Notch) := []
  /-- Lines to engage an AUTO notch, and notches to be released, at the next tick boundary: (band, bin), (band, notch). -/
  engage  : List (Nat × Int) := []
  release : List (Nat × Nat) := []
  /-- Boundaries at which the notch set of a band changed: (band, tick), the last few. -/
  notchAt : List (Nat × Nat) := []
  jam     : List (Nat × JamRef) := []
  /-- Banks that go out at the next tick boundary: bank, channels whose state is uncorrectable, by a fault. -/
  bankOut : List (Nat × List Nat × Bool) := []
  /-- Channels in TRACK latched at the epoch, with the epoch's TB1 stamp and tick. -/
  latch   : Option (List LatchCh × Nat × Nat) := none
  recs    : List MeasRec := []
  /-- SXT_TRACK_READY has been raised; the first GNSS time decoded, with its tick (R114). -/
  ready   : Bool := false
  gnssAt  : Option (Nat × Nat) := none
  deriving DecidableEq, Repr

/-! ### OBS -/

/-- One observable of the base set (R128): pseudorange in 2⁻²⁴ µs × m/s, carrier in 2⁻³² cycle. -/
structure Observable where
  ch      : Nat
  sig     : Nat
  sv      : Nat
  freqK   : Nat
  pr      : Int
  carrier : Int
  doppler : Int
  cn0     : Nat
  lockMs  : Nat
  half    : Bool
  notch   : Bool
  uncorr  : Bool
  deriving DecidableEq, Repr

/-- The base observable set of an epoch: its tick and TB1 stamp, CLK_CORR, and the base clock drift of its base time
solution in 2⁻¹⁶ ns over 50 ms (R160). -/
structure ObsSet where
  tick    : Nat
  epoch   : Nat
  corr    : Bool
  obs     : List Observable
  drift   : Int := 0
  deriving DecidableEq, Repr

/-- An ephemeris set (R137): the TB1 stamp of its reception and its content. -/
structure EphSet where
  stamp   : Nat
  params  : List Nat
  deriving DecidableEq, Repr

/-- What a shadow holds of one satellite and signal (R328): consecutive epochs differenced (at most 10), and the whole
cycles by which its own carrier exceeds the lead's. -/
structure ObsDiff where
  sig    : Nat
  sv     : Nat
  run    : Nat
  cycles : Int
  deriving DecidableEq, Repr

/-- A change of the base position due at the next watch boundary (R131): the source code, or none for the end of VALID. -/
inductive PosNext where
  | set (source : Nat) (x y z : Int) (store : Bool)
  | invalid
  deriving DecidableEq, Repr

structure ObsState where
  x       : Int := 0
  y       : Int := 0
  z       : Int := 0
  /-- The position in flash. -/
  stored  : Option (Int × Int × Int) := none
  next    : Option PosNext := none
  /-- The check of R133, or the survey: epochs counted, sums and sums of squares by axis; SURVEY_SLOW raised. -/
  checking : Bool := false
  count   : Nat := 0
  sums    : Int × Int × Int := (0, 0, 0)
  squares : Int × Int × Int := (0, 0, 0)
  slow    : Bool := false
  ran     : Bool := false
  /-- The set in the base observable store, and epochs formed. -/
  set     : Option ObsSet := none
  epochs  : Nat := 0
  /-- RTCM frames formed for the last epoch, to be queued in the next tick 0 slot (R142). -/
  rtcm    : List (List Byte) := []
  /-- Ephemeris sets by satellite (256 × constellation + number): in use, to come at the next watch boundary, in flash;
  units awaiting confirmation; ages judged since power-up. -/
  eph     : List (Nat × EphSet) := []
  ephNext : List (Nat × EphSet) := []
  flash   : List (Nat × EphSet) := []
  /-- The second copy of each entry in flash, the entries whose second copy is yet to be written, and by satellite the
  tick of the last write, negative across a reset (R138). -/
  flash2  : List (Nat × EphSet) := []
  half    : List Nat := []
  ephAt   : List (Nat × Int) := []
  /-- Ionosphere and UTC parameters by constellation, and the frequency channels of GLONASS slots (R137). -/
  iono    : List (Nat × List Int) := []
  utcPar  : List (Nat × List Int) := []
  gloK    : List (Nat × Int) := []
  unconf  : List (Nat × Nat × List Byte) := []
  judged  : Bool := false
  /-- R328: the shadow's own set not yet differenced; differences; the common clock and bias term of each signal; the
  next set is the first of a new lead. -/
  own     : Option ObsSet := none
  diffs   : List ObsDiff := []
  terms   : List (Nat × Int) := []
  first   : Bool := false
  deriving DecidableEq, Repr

/-! ### FIX -/

/-- A solution in work (R173 to R176): its rover, upload tick u, epoch tick and epoch, cluster time at most needed in
µs (0: its record is still in the Cell Pool), the record loaded, whether its S2 has begun, and the cluster it is loaded
on (none: ready). -/
structure FixJob where
  rover : Nat
  u     : Nat
  te    : Nat
  epoch : Nat
  half  : Bool
  cost  : Nat := 0
  data  : List Byte := []
  begun : Bool := false
  cl    : Option Nat := none
  deriving DecidableEq, Repr

/-- The FLAGS of a solution record (R170). -/
structure SolFlags where
  codeOnly : Bool := false
  carried  : Bool := false
  partialFix : Bool := false
  held     : Bool := false
  reset    : Bool := false
  odo      : Bool := false
  long     : Bool := false
  deriving DecidableEq, Repr

/-- What a solution record carries beside its rover, flags and ticks (R170). -/
structure SolRec where
  quality : Nat
  reason  : Nat
  nSv     : Nat := 0
  nFixed  : Nat := 0
  nAmb    : Nat := 0
  ratio   : Nat := 0
  sol     : Option SolPos := none
  deriving DecidableEq, Repr

/-- What a cluster has computed: the record, its flags, the filter after the epoch where it takes an update, and row 10 of
R163. -/
structure SolOut where
  q       : SolRec
  flags   : SolFlags
  filt    : Option FixFilt := none
  dropped : Bool := false
  deriving DecidableEq, Repr

/-- A full output buffer (R173): its cluster, rover, and the filter it stores. -/
structure OutBuf where
  cl    : Nat
  rover : Nat
  filt  : Option FixFilt
  deriving DecidableEq, Repr

/-- An upload window (R148): its epoch tick and epoch, half, last tick number, rovers with a complete record, rovers
with a fragment accepted, disabled rovers whose record waits to be freed, and whether a closing watch voids it. -/
structure FixWin where
  te    : Nat
  epoch : Nat
  half  : Bool
  last  : Nat
  done  : List Nat := []
  frags : List Nat := []
  free  : List Nat := []
  void  : Bool := false
  deriving DecidableEq, Repr

/-- What FIX holds of a rover beside its registers: its filter in LPDDR5, the tick of its last update, PAUSED since,
FILTER_RESET owed, declared LOST, an uncorrectable filter state, its last solution record, and its latest FIXED position
(epoch tick, FE, FN). -/
structure FixRover where
  filt   : FixFilt := {}
  upd    : Option Nat := none
  paused : Option Nat := none
  reset  : Bool := false
  lost   : Bool := false
  bad    : Bool := false
  sol    : List Byte := []
  fixed  : Option (Nat × Int × Int) := none
  deriving DecidableEq, Repr

structure FixState where
  rovers  : List (Nat × FixRover) := []
  /-- Accepted FIX_ROVER_SET commands for the next boundary: rover, action, rate. -/
  cmds    : List (Nat × Nat × Nat) := []
  jobs    : List FixJob := []
  /-- Full output buffers, oldest first. -/
  outs    : List OutBuf := []
  /-- Solutions completed at or after 980 µs of the last tick (R41). -/
  late    : List (FixJob × SolOut) := []
  win     : Option FixWin := none
  /-- The full and the half epoch of this watch: tick and epoch. -/
  full    : Option (Nat × Nat) := none
  half    : Option (Nat × Nat) := none
  /-- Epochs for which FIX_NO_BASE has been raised. -/
  noBase  : List Nat := []
  /-- The base position last used. -/
  base    : Option (Int × Int × Int) := none
  /-- This watch: tick-in-watch of the last delivery, FIX_LATE records, cluster time in µs. -/
  wTiw    : Nat := 0
  wLate   : Nat := 0
  wBusy   : Nat := 0
  /-- Clusters that go out at the next tick boundary: cluster, by a fault. -/
  clOut   : List (Nat × Bool) := []
  ran     : Bool := false
  deriving DecidableEq, Repr

/-! ### CHT -/

/-- A segment of a corridor (R186, R187): its index, geometry and windows; `first`: the first segment of a NEW or
REPLACE corridor, with its reservation and grant ticks. -/
structure ChtSeg where
  idx    : Nat
  e0     : Int
  n0     : Int
  e1     : Int
  n1     : Int
  width  : Nat
  tEnter : Nat
  tExit  : Nat
  vMax   : Nat
  first  : Bool := false
  resTick : Nat := 0
  grantTick : Option Nat := none
  deriving DecidableEq, Repr

/-- A request that has passed its test (R198 row 1): mode 0 NEW, 1 APPEND, 2 REPLACE. -/
structure ChtPend where
  mode : Nat
  segs : List ChtSeg
  tick : Nat
  h    : Handle
  deriving DecidableEq, Repr

/-- A staging area: centre and radius in mm. -/
structure Stage where
  e   : Int
  n   : Int
  rad : Nat
  deriving DecidableEq, Repr

/-- What Chart holds of a rover: the corridor's segments and its last one (whose end is the rest cap), the request that
has passed its test, the staging area in force and those reserved with their tick and command; due at the next boundary:
the removal of the staging area, releases, a breach, a freeze; the epoch of the latest FIXED record; segments waiting
for the downlink; the mode of the last grant; its first frame has not been sent. -/
structure ChtRover where
  segs    : List ChtSeg := []
  cap     : Option ChtSeg := none
  pend    : Option ChtPend := none
  stage   : Option Stage := none
  stages  : List (Stage × Nat × Handle) := []
  unstage : List Handle := []
  release : List Handle := []
  breach  : Bool := false
  freeze  : Bool := false
  fixedAt : Option Nat := none
  dl      : List ChtSeg := []
  how     : Nat := 0
  dlNew   : Bool := false
  deriving DecidableEq, Repr

/-- A request in the queue: the segments of a CHT_RESERVE, or the area of a CHT_STAGING; its tick of acceptance and the
HST window in it; pair tests already made. -/
structure ChtReq where
  h     : Handle
  rover : Nat
  mode  : Nat
  segs  : List ChtSeg
  area  : Option Stage
  acc   : Nat
  win   : Nat
  done  : Nat
  deriving DecidableEq, Repr

structure ChtState where
  rovers  : List (Nat × ChtRover) := []
  queue   : List ChtReq := []
  /-- In a shadow: reflected requests that its own checks refuse, with the status, until the lead's decision or completion
  is here (R522). -/
  doubt   : List (ChtReq × Nat) := []
  /-- The origin in force, and the one last in force (R185). -/
  origin  : Option (Int × Int × Int) := none
  last    : Option (Int × Int × Int) := none
  mismatch : Bool := false
  /-- Running, and running as lead, at the last boundary. -/
  ran     : Bool := false
  asLead  : Bool := false
  /-- The tick at whose boundary the grant generation last advanced (R199). -/
  genTick : Option Nat := none
  high    : Bool := false
  /-- Items of the last stream that the shadow's own tests do not bear out (R522). -/
  differ  : Nat := 0
  deriving DecidableEq, Repr

/-! ### ASG -/

/-- An auction (R209 to R217): its command, the matrix once read (tasks, idle cost, rows by rover), the bytes of the matrix
that the lead has still to send and the tick of the stream that carried the last of them, in the shadow those it has
received (R213), the parameters in force, and its state: prices, options taken (rover, task; 0xFFFE idle), phase and ε,
bids, watches of bidding, and whether it has bid in this watch. -/
structure Auction where
  h       : Handle
  tag     : Nat
  warm    : Bool
  addr    : Nat
  len     : Nat
  read    : Bool := false
  nTask   : Nat := 0
  idle    : Nat := 0
  rows    : List (Nat × List Nat) := []
  data    : List Byte := []
  sentAt  : Option Nat := none
  bidding : Bool := false
  ended   : Bool := false
  epsEnd  : Nat := 1
  epsDiv  : Nat := 8
  eps     : Nat := 0
  phase   : Nat := 0
  prices  : List Nat := []
  taken   : List (Nat × Nat) := []
  bids    : Nat := 0
  watches : Nat := 0
  warmUsed : Bool := false
  bidNow  : Bool := false
  deriving DecidableEq, Repr

structure AsgState where
  run     : Option Auction := none
  /-- An auction that takes the place of the running one at the next boundary (PREEMPT), and the pending one. -/
  next    : Option Auction := none
  pend    : Option Auction := none
  /-- At the next boundary: the commands whose auctions are abandoned, and those whose auctions are withdrawn. -/
  drop    : List Handle := []
  cancel  : List Handle := []
  /-- Final prices of the last published auction. -/
  prices  : List Nat := []
  ran     : Bool := false
  deriving DecidableEq, Repr

/-! ### PRF -/

/-- The parameters of a channel (R230). -/
structure PrfPar where
  vStart  : Nat := 0
  a1      : Nat := 0
  vSplit  : Nat := 0
  a2      : Nat := 0
  vCruise : Nat := 0
  d2      : Nat := 0
  d1      : Nat := 0
  vStop   : Nat := 0
  target  : Int := 0
  deriving DecidableEq, Repr

/-- A channel (R227 to R241): its sink, state, parameters in force and those accepted for the next update; START given;
HALT given; deceleration values kept under row 2 of R241; speed held under row 3; braking to the target; single rate
under row 4; segments it brakes for; the flags, speed, rate and target of PRF_CH. -/
structure PrfCh where
  kind   : Nat := 0
  sink   : Nat := 0
  armed  : Bool := false
  state  : Nat := 0
  par    : PrfPar := {}
  staged : Option PrfPar := none
  start  : Bool := false
  halt   : Bool := false
  decUse : Option (Nat × Nat) := none
  holdV  : Bool := false
  toTgt  : Bool := false
  clamp  : Bool := false
  slow   : List Nat := []
  decCl  : Bool := false
  rev    : Bool := false
  late   : Bool := false
  hp     : Bool := false
  speed  : Int := 0
  rate   : Nat := 0
  tnow   : Int := 0
  deriving DecidableEq, Repr

/-- A rover sink: its channels by QUEUE_POS; the horizon point (s in 2⁻¹ nm, speed in µm/s) and the target last in
force; HELD; where each segment of its corridor begins in s; the end of the corridor; segments left late; the plan:
(s at the start of a tick, distance over it) from tick planAt on. -/
structure PrfSink where
  chans   : List Nat := []
  s       : Int := 0
  v       : Nat := 0
  tgt     : Option Int := none
  held    : Bool := false
  seen    : List (ChtSeg × Int) := []
  endS    : Option Int := none
  lateSeg : List (Nat × Nat) := []
  plan    : List (Int × Nat) := []
  planAt  : Nat := 0
  deriving DecidableEq, Repr

/-- A positioner sink: its channels by QUEUE_POS; the velocity in 2⁻¹⁶ of V and its direction; the phase accumulator P;
the target last in force; in SHADOW, the microsteps run since COUNTER was adopted (R235, R236). -/
structure PosSink where
  chans : List Nat := []
  vel   : Nat := 0
  pos   : Bool := true
  acc   : Nat := 0
  tgt   : Option Int := none
  ahead : Int := 0
  deriving DecidableEq, Repr

structure PrfState where
  chans   : List (Nat × PrfCh) := []
  rovers  : List (Nat × PrfSink) := []
  poss    : List (Nat × PosSink) := []
  /-- Channels to be unbound at the next tick boundary; channels to be shown in the next slot. -/
  unbinds : List Nat := []
  dirty   : List Nat := []
  ran     : Bool := false
  deriving DecidableEq, Repr

/-! ### SEC -/

/-- A receive window (R301): H (none: empty) and the 64-bit map. -/
structure SecWin where
  h   : Option Nat := none
  map : Nat := 0
  deriving DecidableEq, Repr

structure SecState where
  /-- The previous key epoch while it is accepted, and its boundary count (R311); the last epoch whose acceptance
  ended. -/
  old     : Option Nat := none
  left    : Nat := 0
  expired : Option Nat := none
  /-- Receive windows by rover, under the epoch in force and under the previous one. -/
  win     : List (Nat × SecWin) := []
  winOld  : List (Nat × SecWin) := []
  /-- TX_SEQ by rover (R300). -/
  tx      : List (Nat × Nat) := []
  /-- Arrival errors since the rover's previous downlink frame, in ns (R306). -/
  errs    : List (Nat × List Int) := []
  /-- Rovers heard in this watch; rovers whose LOST clears at the next tick boundary. -/
  heard   : List Nat := []
  back    : List Nat := []
  /-- No frame has been sent under the epoch in force yet. -/
  switch  : Bool := false
  deriving DecidableEq, Repr

end Machine

open Machine

/-- The base position the lead carries to its shadow (R135): state, source, CHECK_DONE, position in 0.1 mm, the position in flash,
and the survey or check in progress: seconds and sigma shown, checking, epochs counted, sums and sums of squares; the change that awaits the next watch boundary. -/
structure BasePos where
  state    : Nat
  source   : Nat
  checked  : Bool
  x        : Int
  y        : Int
  z        : Int
  stored   : Option (Int × Int × Int)
  elapsed  : Nat
  sigma    : Nat
  checking : Bool
  count    : Nat
  sums     : Int × Int × Int
  squares  : Int × Int × Int
  slow     : Bool
  next     : Option Machine.PosNext
  deriving DecidableEq, Repr

/-- What Chart does with a rover's corridor or staging area at a tick boundary (R198, R201): the corridor is granted, the
staging area of a command comes in force or is removed, REST, BREACHED, FROZEN, or released; its expired segments are freed
at a watch boundary (R187). -/
inductive ChtChange where
  | granted
  | staged (h : Handle)
  | unstaged
  | rested
  | breached
  | frozen
  | released
  | freed
  deriving DecidableEq, Repr

/-- One item of the reflection stream (R323). -/
inductive ReflItem where
  /-- Item 1: a Chart decision of the tick: the command, its status, its reservation tick, the conflict record of a
  CONFLICT_REFUSED, its rover, and the CRC-32C of the rover's footprint set after it. -/
  | chart (h : Handle) (status tick : Nat) (conflict : List Byte) (rover crc : Nat)
  /-- Item 1: a change of a rover's corridor or staging area at the boundary of a tick, with the grant generation and the
  CRC-32C of the rover's footprint set after it. -/
  | grant (rover : Nat) (change : ChtChange) (tick gen crc : Nat)
  /-- Item 2: a latch set, or requested again while a resume of it was accepted (rover none: fleet), with its source; an
  accepted resume. -/
  | latch (rover : Option Nat) (source : Nat)
  | resume (h : Handle) (rover : Option Nat)
  /-- Item 3: a descriptor accepted, with the buffer read for it. -/
  | desc (h : Handle) (bytes : List Byte) (buf : BufIn)
  /-- Bytes of the cost matrix of a command, and whether they are its last (R213); a matrix refused, with the status. -/
  | matrix (h : Handle) (data : List Byte) (last : Bool)
  | matrixOut (h : Handle) (status : Nat)
  /-- A step of TB1 accepted (R52), in 2⁻¹⁶ ns. -/
  | step (amt : Int)
  /-- Item 4: the accepted pointer and fetch limit of a submission ring. -/
  | ring (sq acc limit : Nat)
  /-- The completion of handle h has been written at index pos of a CQ (R333). -/
  | compl (cq pos : Nat) (h : Handle)
  /-- Item 5: an uplink frame the lead accepted or acknowledged as a duplicate, in full; TX_SEQ of a rover with the
  TIMING_ADJ of a downlink frame; the group SEQ of a transceiver (R310). -/
  | uplink (f : UplinkRx)
  | txSeq (rover seq : Nat) (adj : Option Int)
  | groupSeq (hb seq : Nat)
  /-- Item 6: the base observable set, the base position with its survey, and the field-frame origin, in 0.1 mm. -/
  | baseSet (set : ObsSet)
  | basePos (o : BasePos)
  | origin (o : Option (Int × Int × Int))
  /-- Item 7: a solution record. -/
  | solution (rover : Nat) (data : List Byte) (filt : FixFilt)
  /-- The state of positioner channel n (R416). -/
  | drive (n : Nat) (p : PosShare)
  /-- The outcome of a queue-fed CAN frame (R392), a frame placed in a host-facing queue (R393), and the ISOBUS address of
  a channel (R396). -/
  | canOut (c : Nat) (h : Handle) (status detail : Nat)
  | canRx (q : Nat) (data : List Byte)
  | isoAddr (c addr : Nat) (claimed : Bool)
  deriving DecidableEq, Repr

/-- An entry of the reflection stream: its place in the lead's order of work, the tick in which the lead noted it, and the
item. The stream carries entries in the order of R323's table; the shadow makes them in the lead's order. -/
structure ReflEntry where
  seq  : Nat
  tick : Nat
  item : ReflItem
  deriving DecidableEq, Repr

/-- The frame of a reflection stream as received: its CRC-32C agrees (R318), and item 8 (R323). -/
structure StreamIn where
  crcOk  : Bool
  digest : Nat
  deriving DecidableEq, Repr

/-- The frame of an acknowledgement as received: its CRC-32C agrees (R318), and whether it is that of item 8 (R324). -/
structure AckIn where
  crcOk  : Bool
  digest : Bool
  deriving DecidableEq, Repr

/-- A Logbook record of the peer in a link status or DEAD frame (R443). `kind`: 1 EVENT, 2 FAULT, 3 NOTE, 4 MEM_FAULT. -/
structure PeerLog where
  kind   : Nat
  source : Nat
  mode   : Nat
  stamp  : Nat
  tick   : Nat
  data   : List Byte
  deriving DecidableEq, Repr

/-- A link status frame of the peer (R318), with what the time transfer and the key exchange of R459 bring. -/
structure StatusIn where
  crcOk    : Bool
  mode     : Mode
  /-- The peer has finished BOOT (R320). -/
  finished : Bool
  tick     : Nat
  epoch    : Nat
  stored   : Nat
  lastRefl : Nat
  /-- Offset of this module's tick boundary from the peer's, in ns (positive: this module's is late). -/
  phaseNs  : Int
  /-- The peer's time state and uncertainty, and its time-master role (R322). -/
  timeState : Nat
  timeSrc  : Nat
  uncert   : Nat
  master   : Bool
  /-- The offset of the master's selected source, in 2⁻¹⁶ ns. -/
  offset   : Int
  /-- The KCV and generation of the peer's fleet key, and its key epoch (R459). -/
  kcv      : Nat
  gen      : Nat
  keyEpoch : Nat
  /-- Every enabled STOP_IN pair of the peer is in RUN and no PAIR_FAULT or OUT_FAULT is latched there (R264). -/
  stopClear : Bool
  /-- The Logbook records it carries (R443). -/
  logs     : List PeerLog
  deriving DecidableEq, Repr

/-- What the lead sends a joiner for its watch boundary (R37, R250, R321, R459): the tick number that begins, TB1 and the
TB2 offset there in 2⁻¹⁶ ns, the phase moved in ns, the lead epoch and the key epoch, and the latches. -/
structure AdoptIn where
  tick     : Nat
  tb1      : Nat
  tb2      : Int
  phaseNs  : Int
  epoch    : Nat
  keyEpoch : Nat
  fleet    : Bool
  targeted : List (Fin 128)
  deriving DecidableEq, Repr

/-- The snapshot of R337 with every delta since: the lead's engines, LUV's assignments and partial records, the drives,
the CAN_SENDs of each channel's queue, the ISOBUS addresses (channel, address, held), latches, descriptors started with their tick of fetch, the read-only registers
(key, stored value) of the engines and the rings, and the size in MiB. -/
structure Snapshot where
  cht      : Machine.ChtState
  fix      : Machine.FixState
  asg      : Machine.AsgState
  prf      : Machine.PrfState
  cpl      : Machine.CplState
  obs      : Machine.ObsState
  sec      : Machine.SecState
  slots    : List (Nat × Machine.LuvRover)
  parts    : List (Nat × Option Machine.UpPart)
  pos      : List (Nat × PosShare)
  handles  : List (Nat × List Handle)
  iso      : List (Nat × Nat × Bool)
  fleet    : Bool
  targeted : List (Fin 128)
  started  : List (Handle × Nat)
  regs     : List (Nat × Nat)
  mib      : Nat
  deriving DecidableEq, Repr

end Sys2Proof
end

