-- ==== Sys2Proof/Syntax.lean ====
section
/-! DEFINITION. Sys2Proof/Syntax.lean: the commands the module takes, one constructor per row of the opcode table. A ring
command carries its handle and the fields of its descriptor; an event carries what the outside world or the measuring
hardware supplies at that moment (Machine/Terms.lean). -/

namespace Sys2Proof

/-- The commands of the opcode table, in the order of its rows: those with operands, then those without. -/
inductive Instr where
  /-- No-operation descriptor that completes with OK (R349) -/
  | hstNop (h : Handle)
  /-- TTU_STEP with MODE 0 steps TB1 by the offset measured at acceptance, through a closing watch (R73) -/
  | ttuStepMeasured (h : Handle) (rsv : Nat)
  /-- TTU_STEP with MODE 1 steps TB1 by the signed AMOUNT_NS, through a closing watch (R73) -/
  | ttuStepAmount (h : Handle) (amountNs : Int) (rsv : Nat)
  /-- TTU_PULSE_SET with ARM arms a once-mode pulse output for an edge at START (R76) -/
  | ttuPulseArm (h : Handle) (index : Nat) (start : StampIn) (rsv : Nat)
  /-- TTU_PULSE_SET with CANCEL disarms a once-mode pulse output without an edge (R78) -/
  | ttuPulseCancel (h : Handle) (index : Nat) (start : StampIn) (rsv : Nat)
  /-- Host supplies the base position, which becomes VALID at the next watch boundary and may be stored (R131) -/
  | obsSetPos (h : Handle) (x y z : Int) (store : Bool) (rsv : Nat)
  /-- FIX_ROVER_SET with ACTION 0 disables a rover; its filter becomes PAUSED (R163) -/
  | fixRoverDisable (h : Handle) (rover rate rsv : Nat)
  /-- FIX_ROVER_SET with ACTION 1 enables a rover at 10 Hz or 20 Hz within the rate load (R147) -/
  | fixRoverEnable (h : Handle) (rover rate rsv : Nat)
  /-- FIX_ROVER_SET with ACTION 2 resets a rover filter to EMPTY (R163) -/
  | fixRoverReset (h : Handle) (rover rate rsv : Nat)
  /-- CHT_RESERVE with MODE NEW validates and conflict-tests a new corridor for a rover (R190) -/
  | chtReserveNew (h : Handle) (rover nSeg bufAddr rsv : Nat) (buf : BufIn)
  /-- CHT_RESERVE with MODE APPEND adds segments to the end of the rover's corridor (R191) -/
  | chtReserveAppend (h : Handle) (rover nSeg bufAddr rsv : Nat) (buf : BufIn)
  /-- CHT_RESERVE with MODE REPLACE replaces every segment of the rover's corridor (R191) -/
  | chtReserveReplace (h : Handle) (rover nSeg bufAddr rsv : Nat) (buf : BufIn)
  /-- Releases a rover's corridor at the next boundary, using FORCE for a BREACHED or FROZEN corridor (R198) -/
  | chtRelease (h : Handle) (rover : Nat) (force : Bool) (rsv : Nat)
  /-- Tests and reserves a staging area for a rover (R201) -/
  | chtStaging (h : Handle) (rover : Nat) (e n : Int) (radius rsv : Nat)
  /-- CHT_STAGING with RADIUS_MM 0 removes the staging area at the next boundary without a test (R201) -/
  | chtStagingRemove (h : Handle) (rover : Nat) (e n : Int) (rsv : Nat)
  /-- Submits a cost matrix as a running or pending auction, with optional WARM and PREEMPT (R212) -/
  | asgSubmit (h : Handle) (warm preempt : Bool) (tag bufAddr bufLen rsv : Nat)
  /-- ASG_CANCEL with PENDING_ONLY 0 abandons the running auction and withdraws the pending one (R224) -/
  | asgCancel (h : Handle) (rsv : Nat)
  /-- ASG_CANCEL with PENDING_ONLY 1 withdraws only the pending auction (R224) -/
  | asgCancelPending (h : Handle) (rsv : Nat)
  /-- Binds a profile channel to a rover or positioner sink at the next free QUEUE_POS (R229) -/
  | prfBind (h : Handle) (channel kind sink rsv : Nat)
  /-- PRF_BIND with KIND 0 unbinds a channel at the next tick boundary and moves the queue up (R229) -/
  | prfUnbind (h : Handle) (channel sink rsv : Nat)
  /-- PRF_PROFILE with ACTION UPDATE merges profile fields, which take effect at the next profile update (R241) -/
  | prfProfileUpdate (h : Handle) (channel fields bufAddr rsv : Nat) (buf : BufIn)
  /-- PRF_PROFILE with ACTION START starts an active IDLE channel, or arms a queued one (R231) -/
  | prfProfileStart (h : Handle) (channel fields bufAddr rsv : Nat) (buf : BufIn)
  /-- PRF_PROFILE with ACTION STOP sets the target to the nearest point reachable with D2 and D1 (R231) -/
  | prfProfileStop (h : Handle) (channel fields bufAddr rsv : Nat) (buf : BufIn)
  /-- PRF_PROFILE with ACTION HALT sets a positioner channel's velocity to 0 at the next update (R231) -/
  | prfProfileHalt (h : Handle) (channel fields bufAddr rsv : Nat) (buf : BufIn)
  /-- STP_STOP with SCOPE 0 sets the fleet latch with source HOST_RING (R264) -/
  | stpStopFleet (h : Handle) (rsv : Nat)
  /-- STP_STOP with SCOPE 1 sets a rover's targeted latch with source HOST_RING (R264) -/
  | stpStopRover (h : Handle) (rover : Nat) (rsv : Nat)
  /-- STP_RESUME with SCOPE 0 clears the fleet latch, HALT to LEAD, after acknowledgement (R264) -/
  | stpResumeFleet (h : Handle) (rsv : Nat)
  /-- STP_RESUME with SCOPE 1 clears a rover's targeted latch after acknowledgement (R264) -/
  | stpResumeRover (h : Handle) (rover : Nat) (rsv : Nat)
  /-- Assigns a rover's slot configuration, effective at the second watch boundary (R279) -/
  | luvSlotSet (h : Handle) (rover : Nat) (cfg : List Byte) (rsv : Nat)
  /-- LUV_SLOT_SET with UL_START 0xFF removes a rover's slot assignment (R280) -/
  | luvSlotRemove (h : Handle) (rover : Nat) (cfg : List Byte) (rsv : Nat)
  /-- TWN_ROLE_SET with ROLE 0 hands the lead to the peer at the second watch boundary (R335) -/
  | twnRoleSetLead (h : Handle) (rsv : Nat)
  /-- TWN_ROLE_SET with ROLE 1 hands the time-master role to the peer (R335) -/
  | twnRoleSetTime (h : Handle) (rsv : Nat)
  /-- CPL_QUEUE_SET with ACTION 1 creates a user queue or changes a queue's limits (R372) -/
  | cplQueueSet (h : Handle) (queue notice maxCells minCells maxPkts rsv : Nat)
  /-- CPL_QUEUE_SET with ACTION 0 deletes a user queue and frees its packets (R372) -/
  | cplQueueDelete (h : Handle) (queue rsv : Nat)
  /-- Copies complete packets from a host-consumed queue into a host buffer (R373) -/
  | cplRead (h : Handle) (queue maxPkts bufLen bufAddr rsv : Nat)
  /-- Places one frame record on CAN_TX_c, with completion after the frame's outcome (R384) -/
  | canSend (h : Handle) (channel bufAddr rsv : Nat) (buf : BufIn)
  /-- CAN_CTRL with ACTION OFF stops a channel and aborts its BAR2-fed buffers (R394) -/
  | canCtrlOff (h : Handle) (channel rsv : Nat)
  /-- CAN_CTRL with ACTION ON integrates the channel and makes it error-active, ending sleep (R394) -/
  | canCtrlOn (h : Handle) (channel rsv : Nat)
  /-- CAN_CTRL with ACTION SLEEP stops the controller and puts the transceiver in low-power mode (R395) -/
  | canCtrlSleep (h : Handle) (channel rsv : Nat)
  /-- CAN_CTRL with ACTION RECOVER starts bus-off recovery when AUTO_RECOVER is 0 (R394) -/
  | canCtrlRecover (h : Handle) (channel rsv : Nat)
  /-- CAN_CTRL with ACTION FLUSH cancels every frame in CAN_TX_c and in the queue-fed buffers (R394) -/
  | canCtrlFlush (h : Handle) (channel rsv : Nat)
  /-- POS_DRIVE with ACTION DISABLE turns a channel's bridges off (R413) -/
  | posDriveDisable (h : Handle) (channel flags rsv : Nat)
  /-- POS_DRIVE with ACTION ENABLE energises the bridges at HOLD_MA, with auto-tune if enabled (R413) -/
  | posDriveEnable (h : Handle) (channel flags rsv : Nat)
  /-- POS_DRIVE with ACTION SET_POS sets COUNTER and HOMED (R413) -/
  | posDriveSetPos (h : Handle) (channel flags : Nat) (position : Int) (rsv : Nat)
  /-- POS_DRIVE with ACTION SYNC_ENC aligns COUNTER and USTEP_INDEX to the encoder without a halt (R413) -/
  | posDriveSyncEnc (h : Handle) (channel flags rsv : Nat)
  /-- POS_DRIVE with ACTION CLEAR clears the chatter latches, SHORT and HALT_REASON (R413) -/
  | posDriveClear (h : Handle) (channel flags rsv : Nat)
  /-- Starts a homing sequence of seek, back-off, approach and optional index phases (R414) -/
  | posHome (h : Handle) (channel flags fast slow : Nat) (offset : Int) (maxTravel rsv : Nat)
  /-- GLT_READ with KIND 0 reads stream blocks from a byte position (R431) -/
  | gltReadBlocks (h : Handle) (stream module flags start bufAddr bufLen rsv : Nat) (peer : BufIn)
  /-- GLT_READ with KIND 1 reads stream blocks from the rewind mark, optionally advancing it (R431) -/
  | gltReadMark (h : Handle) (stream module flags start bufAddr bufLen rsv : Nat) (peer : BufIn)
  /-- GLT_READ with KIND 2 reads the window of a capture for one stream (R431) -/
  | gltReadWindow (h : Handle) (stream module flags start bufAddr bufLen rsv : Nat) (peer : BufIn)
  /-- GLT_READ with KIND 3 reads capture records from a capture number onward (R431) -/
  | gltReadRecords (h : Handle) (stream module flags start bufAddr bufLen rsv : Nat) (peer : BufIn)
  /-- Exports Logbook records from a SEQ onward into a host buffer (R444) -/
  | logRead (h : Handle) (module start bufAddr bufLen rsv : Nat) (peer : BufIn)
  /-- Checks and unwraps a new fleet key and writes it to the pending flash slot (R454) -/
  | kvtKeyLoad (h : Handle) (bufAddr rsv : Nat) (buf : BufIn)
  /-- Advances the key epoch and activates any pending fleet key at a boundary (R455) -/
  | kvtCommit (h : Handle) (rsv : Nat)
  /-- KVT_COMMIT with DISCARD erases the pending key and commits nothing (R465) -/
  | kvtCommitDiscard (h : Handle) (rsv : Nat)
  /-- SVC_UNIT with ACTION OUT takes a spared unit out of service at the next boundary (R476) -/
  | svcUnitOut (h : Handle) (cls index module rsv : Nat)
  /-- SVC_UNIT with ACTION RETURN starts a unit's self-test to return it as standby (R477) -/
  | svcUnitReturn (h : Handle) (cls index module rsv : Nat)
  /-- SVC_UNIT with ACTION RESTORE makes a standby stop path A active at the next watch boundary (R478) -/
  | svcUnitRestore (h : Handle) (cls index module rsv : Nat)
  /-- Reads and verifies a firmware image and writes it to the flash executable slot (R490) -/
  | bootImageLoad (h : Handle) (module bufAddr bufLen rsv : Nat) (buf : BufIn)
  /-- BOOT_CONTROL with ACTION ENTER_MAINT moves the module into MAINTENANCE, by handover where paired (R493) -/
  | enterMaint (h : Handle) (module rsv : Nat)
  /-- BOOT_CONTROL with ACTION LEAVE_MAINT makes the module apply R320 at the next boundary (R492) -/
  | leaveMaint (h : Handle) (module rsv : Nat)
  /-- BOOT_CONTROL with ACTION ACTIVATE starts the installed image without removing supply (R494) -/
  | activate (h : Handle) (module rsv : Nat)
  /-- BOOT_CONTROL with ACTION SAVE_CONFIG stores every RWS field in the configuration record (R491) -/
  | saveConfig (h : Handle) (module rsv : Nat)
  /-- BOOT_CONTROL with ACTION RESET resets the module from MAINTENANCE (R485) -/
  | bootControlReset (h : Handle) (module rsv : Nat)
  /-- A read of the low word of OBS_POS_X, Y or Z latches its high word (R143) -/
  | obsPosLoRead (axis : Fin 3)
  /-- A read of RX_H_LO latches RX_H_HI and both map words of a rover's receive window (R314) -/
  | rxHLoRead (r : Fin 128)
  /-- A read of TX_LO latches TX_HI of a rover (R314) -/
  | txLoRead (r : Fin 128)
  /-- A write of LATCH latches TB0 to TB3 on the same time-counter cycle (R60) -/
  | ttuLatch (value : Word) (cyc : Nat)
  /-- A write of CLEAR clears every MAX_USE and OVR_COUNT field (R56) -/
  | ttuBudgetClr (value : Word)
  /-- Writing 0x5010 moves a PAIRED_SILENT lead to NO_PEER and puts held grants into force (R336) -/
  | soloConfirm (value : Word)
  /-- A write of FORCE meets the FORCE trigger condition (R423) -/
  | gltForce (cyc : Nat)
  /-- Sets a stream's rewind mark at the block now being written (R429) -/
  | markHere (k : Fin 8)
  /-- Makes a stream's rewind mark invalid (R429) -/
  | markClear (k : Fin 8)
  /-- A write of REQ makes a BAR2-fed transmit buffer PENDING, or INVALID, or ABORTED in SHADOW (R382) -/
  | canTxbReq (c : Fin 4) (b : Fin 3)
  /-- A write of ABORT drops a PENDING or held frame of a transmit buffer (R387) -/
  | canTxbAbort (c : Fin 4) (b : Fin 3)
  /-- A write of RELEASE retries a HELD_CLASH frame (R387) -/
  | canTxbRelease (c : Fin 4) (b : Fin 3)
  /-- A write of LOCK freezes a receive mailbox and diverts new frames to its shadow buffer (R391) -/
  | mailboxLock (c : Fin 4) (m : Fin 32) (w1c : Nat)
  /-- A write clearing LOCK applies W1C bits and moves any shadow frame into the mailbox (R391) -/
  | mailboxUnlock (c : Fin 4) (m : Fin 32) (w1c : Nat)
  /-- A write of SAVE stores the staged host window map at the next boundary (R464) -/
  | kvtHwinSave (value : Word) (cyc : Nat)
  /-- Clearing EN of an SQ cancels its fetched unstarted descriptors and keeps FETCH_CI (R361) -/
  | sqEnClear (q : Fin 64)
  /-- Clearing EN of a CQ stops fetching for its SQs and holds its completions (R361) -/
  | cqEnClear (j : Fin 64)
  /-- Clearing EN of an EQ stops event records to it while pending bits are still set (R361) -/
  | eqEnClear (k : Fin 16)
  /-- Setting EN of a ring enables it, or sets FAULT when its base lies outside the host window map (R346) -/
  | ringEnSet (kind : RingKind) (idx : Nat)
  /-- A BAR0 or BAR2 write to a register without its own row, applied field by field (R517) -/
  | registerWrite (addr : Nat) (value : Word) (cyc : Nat)
  /-- A supply qualified for 10 ms starts the power-up sequence in BOOT (R482) -/
  | powerUp (b : BootIn)
  /-- TAMPER_N low for 100 ns zeroises keys, releases a fleet stop, erases fleet slots and leads to DEAD (R462) -/
  | tamper (cyc : Nat)
  /-- A qualified de-energising edge of an enabled STOP_IN pair requests a fleet stop (R245) -/
  | stopInEdge (chan : Fin 4) (rel : RelIn)
  /-- Both channels of a pair energised for REARM_MS put the pair in RUN (R246) -/
  | pairRun (p : Fin 2)
  /-- Channels of a pair differing for DISC_MS latch PAIR_FAULT and raise a fleet stop (R247) -/
  | pairFault (p : Fin 2) (rel : RelIn)
  /-- PAIR_FAULT clears after a joint de-energise followed by REARM_MS energised (R247) -/
  | pairFaultClear (p : Fin 2)
  /-- A pulse on the Byhel STOP pair sets the fleet latch with source PEER (R263) -/
  | peerStop (rel : RelIn)
  /-- A STOP_OUT not off within 10 µs of release latches OUT_FAULT and raises a fleet stop (R262) -/
  | outReadbackFault (n : Fin 4) (rel : RelIn)
  /-- OUT_FAULT clears when readback has matched for 1 tick (R262) -/
  | outFaultClear (n : Fin 4)
  /-- The doorbell read completes and each entry is checked and taken (R360) -/
  | doorbellReadDone (block : List Byte) (cyc : Nat)
  /-- A doorbell read errors or times out after 50 µs; after 8 failures a fleet stop may follow (R360) -/
  | doorbellReadFail (cyc : Nat)
  /-- An HST window opens: descriptors are fetched, completions and event records written (R347) -/
  | hstWindow (use : SlotUse)
  /-- A descriptor read completes and each descriptor is checked and handed over (R350) -/
  | descReadDone (ok : Bool) (descs : List (List Byte)) (bufs : List BufIn) (cyc : Nat)
  /-- When a full EQ has room again, HST writes one HST_EVT_OVERFLOW record to it (R354) -/
  | evtOverflowRecord (k : Fin 16)
  /-- A tick boundary advances the tick number and applies all boundary-timed changes (R35) -/
  | tickBoundary (w : TickIn)
  /-- The start of tick 0 of a watch: measurement epoch and watch-boundary evaluations (R38) -/
  | watchBoundary (w : WatchIn)
  /-- STP arms the fleet and targeted stop frames for tick n + 8 (R251) -/
  | stpArmSlot (ok : Bool) (use : SlotUse)
  /-- Sextant updates the loops of channels whose integration ended before the boundary (R110) -/
  | sxtSlot (use : SlotUse) (x : SxtIn)
  /-- FIX stores finished filter states (S7) and loads ready rovers into cluster buffers (S1) (R173) -/
  | fixSlot (use : SlotUse) (stores loads : Nat)
  /-- In tick 0 OBS forms the base observable set, the base time solution and queues RTCM (R128) -/
  | obsSlot (use : SlotUse) (o : ObsIn)
  /-- Chart runs conflict tests of reservation requests in acceptance order (R195) -/
  | chtSlot (use : SlotUse) (limit : Nat)
  /-- The Assignment Engine makes auction bids (R217) -/
  | asgSlot (use : SlotUse) (bids : Nat)
  /-- PRF computes the horizon point of every rover channel and latches positioner state (R237) -/
  | prfSlot (use : SlotUse)
  /-- Background work is served in order within the 120 µs window (R468) -/
  | backgroundWindow (w : BgIn)
  /-- The lead packs and sends the reflection stream of the tick (R323) -/
  | twnSlot (use : SlotUse) (packed : Nat)
  /-- LUV assembles the beacon of the next tick from the latches and permits (R282) -/
  | beaconAssembly (use : SlotUse)
  /-- SEC computes the authentication tag of the next tick's beacon (R296) -/
  | beaconTag (use : SlotUse)
  /-- A cluster completes a rover solution and the record is delivered (R41) -/
  | fixSolutionDone (r : Fin 128) (x : DoneIn)
  /-- A filter PAUSED for more than 10 watches is discarded to EMPTY (R163) -/
  | filterExpired (r : Fin 128)
  /-- In tick 45 each cluster runs a known-answer test (R178) -/
  | fixKat (results : List (Nat × Bool))
  /-- A failed cluster is replaced by the spare and its solutions are reloaded (R179) -/
  | clusterFault (c : Fin 9)
  /-- A cluster that passes its test rejoins as standby at a watch boundary (R179) -/
  | clusterBack (c : Fin 9)
  /-- After the stable period a standby cluster takes back its role at tick 45 (R179) -/
  | clusterRestored (c : Fin 9)
  /-- After the shadow's acknowledgement a reserved corridor becomes GRANTED at the boundary (R198) -/
  | chtGrant (r : Fin 128)
  /-- The containment window of the last segment ends and the corridor enters REST (R198) -/
  | corridorRest (r : Fin 128)
  /-- An expired segment is freed at the next watch boundary (R187) -/
  | segmentFreed (r : Fin 128)
  /-- A rover unheard for 3 watches is declared LOST, frozen and stopped (R308) -/
  | roverLost (r : Fin 128)
  /-- A received uplink frame is checked, authenticated and sequence-checked (R303) -/
  | uplinkFrameRx (f : UplinkRx)
  /-- A downlink frame is assembled and sent in a rover's DL_SLOT (R286) -/
  | downlinkSlot (hb : Fin 2) (j : Fin 7)
  /-- A bulk frame carries pending segments to a rover (R287) -/
  | bulkSlot (hb : Fin 2) (j : Fin 7)
  /-- In profile EU the channel is assessed in symbols 63 to 67 for the next tick (R273) -/
  | ccaAssess (hb : Fin 2) (busy : Bool)
  /-- Radar detection stops a transceiver, bars the channel and starts a new check (R272) -/
  | radarDetect (hb : Fin 2) (cyc : Nat)
  /-- A channel availability check passes and the transceiver resumes at a watch boundary (R272) -/
  | cacDone (hb : Fin 2)
  /-- The 30 min bar of a radar channel ends (R272) -/
  | channelBarEnd (mhz : Nat)
  /-- A transceiver fails its self-check and the other carries beacons and stops (R291) -/
  | hbFault (hb : Fin 2)
  /-- A transceiver that passes its self-test rejoins as standby (R291) -/
  | hbBack (hb : Fin 2)
  /-- After the stable period a standby transceiver takes back its channel (R291) -/
  | hbRestored (hb : Fin 2)
  /-- A valid beacon received on the air is used for claim and step-down decisions (R332) -/
  | beaconRx (epoch : Nat)
  /-- A link status frame from the peer is received each tick, with time transfer (R318) -/
  | linkStatusFrame (f : StatusIn)
  /-- A DEAD or POWER_FAIL frame from the peer is logged and makes the peer PEER_GONE (R318) -/
  | peerDeadFrame (crcOk powerFail : Bool) (tick : Nat) (logs : List PeerLog)
  /-- No valid frame for 1 tick and no HEALTH signal: the pair state becomes PAIRED_SILENT (R318) -/
  | linkSilent (health : Bool)
  /-- A joining module adopts the lead's tick number and phase at a watch boundary and enters SHADOW (R37) -/
  | tickAdopt (a : AdoptIn)
  /-- The joiner passes its tests and reaches IN_SYNC at a watch boundary (R337) -/
  | twnInSync (snap : Snapshot)
  /-- The shadow receives the reflection stream and applies it at the next boundary (R323) -/
  | reflStreamRx (tick : Nat) (items : List ReflEntry) (x : StreamIn)
  /-- The lead receives the shadow's acknowledgement of the stream (R324) -/
  | reflAckRx (tick : Nat) (a : AckIn) (late : Bool) (results : List (Handle × Nat × Nat))
  /-- A shadow takes the lead at the boundary of its claim (R330) -/
  | twnClaim (tags : List Nat)
  /-- At the named boundary the lead enters SHADOW and the peer claims (R335) -/
  | twnHandover (tags : List Nat)
  /-- An edge on a capture input is time-stamped by the TDC and recorded (R81) -/
  | captEdge (n : Fin 4) (falling : Bool) (at_ : Nat)
  /-- A PPS_IN edge is measured for REF qualification and offset (R61) -/
  | ppsEdge (falling : Bool) (at_ : Nat)
  /-- The selected time source is lost; TTU switches or enters DEAD_RECKONING (R68) -/
  | timeSourceLost (src : Fin 3)
  /-- A pulse output places an edge and writes a pulse record (R76) -/
  | pulseEdge (n : Fin 4)
  /-- A PTP message is received, time-stamped and processed by the protocol engine (R88) -/
  | ptpMessageRx (p : Fin 2) (m : PtpRx)
  /-- A MASTER port sends Sync at its interval (R92) -/
  | ptpSyncTx (p : Fin 2) (x : EgressIn)
  /-- A port sends Announce at its interval (R87) -/
  | ptpAnnounceTx (p : Fin 2)
  /-- A port sends Delay_Req or Pdelay_Req at its interval (R87) -/
  | ptpDelayReqTx (p : Fin 2) (x : EgressIn)
  /-- Announce receipt timeout on the slave port re-runs the BMCA (R96) -/
  | ptpAnnounceTimeout (p : Fin 2) (cyc : Nat)
  /-- A port's link goes down or up; the port leaves or rejoins service (R95) -/
  | ethLinkChange (p : Fin 2) (up : Bool) (cyc : Nat)
  /-- A search or REACQ channel finds its signal and enters PULL_IN (R111) -/
  | acqFound (ch : Fin 1024) (sig sv : Nat) (x : CarrierIn)
  /-- A channel holds the phase lock indicator for 100 ms and enters TRACK (R111) -/
  | chTrack (ch : Fin 1024)
  /-- A TRACK channel loses lock or C/N0 for its time and enters REACQ (R111) -/
  | chLockLoss (ch : Fin 1024)
  /-- A REACQ channel not found within REACQ_WATCHES returns to the search pool (R113) -/
  | reacqExpire (ch : Fin 1024)
  /-- A navigation unit is decoded, checked and queued as a record (R117) -/
  | navUnitDone (ch : Fin 1024) (u : NavIn)
  /-- A spectral line above threshold for 10 ticks engages an AUTO notch (R120) -/
  | notchEngage (b : Fin 3) (bin : Int) (cyc : Nat)
  /-- A line below threshold for 100 ticks releases its notch (R120) -/
  | notchRelease (b : Fin 3) (n : Fin 8)
  /-- After 10 s of tracking a band sets P_ref and leaves UNCALIBRATED (R123) -/
  | jamCalDone (b : Fin 3)
  /-- A failed correlator bank moves its channels to the spare or to OUT (R125) -/
  | bankFault (b : Fin 17) (bad : List Nat)
  /-- A bank passing its self-test rejoins as standby (R125) -/
  | bankBack (b : Fin 17)
  /-- After the stable period a standby bank takes back its channels (R125) -/
  | bankRestored (b : Fin 17)
  /-- A satellite's ephemeris is written to flash at most once every 10 min (R138) -/
  | ephStore (sat : Nat)
  /-- The cost matrix has been read and checked (R211) -/
  | asgMatrixReadDone (h : Handle) (buf : BufIn)
  /-- A positioner channel updates its profile every 1 µs (R236) -/
  | prfPosUpdate (n : Fin 4) (la : Nat)
  /-- A limit or home switch trips on its first qualified active edge (R406) -/
  | switchTrip (n : Fin 4) (sw : Fin 3)
  /-- A switch inactive for DEBOUNCE releases (R406) -/
  | switchRelease (n : Fin 4) (sw : Fin 3)
  /-- The ninth edge within 64 ms latches SWITCH_CHATTER (R407) -/
  | switchChatter (n : Fin 4) (sw : Fin 3)
  /-- The encoder index edge ends homing phase 4 (R414) -/
  | encIndex (n : Fin 4)
  /-- A homing phase exceeds its travel limit and homing faults (R415) -/
  | homeTravelLimit (n : Fin 4)
  /-- The encoder deviation exceeds ENC_STALL and the channel halts (R412) -/
  | encStall (n : Fin 4)
  /-- The load-angle margin stays at the stall level for LA_COUNT full steps (R412) -/
  | laStall (n : Fin 4)
  /-- A phase current above 7,500 mA for 2 µs turns the bridges off (R412) -/
  | phaseShort (n : Fin 4)
  /-- Driver junction at 145 °C turns off all bridges (R412) -/
  | drvOvertemp (celsius : Int)
  /-- Driver temperature reaches 135 °C (R412) -/
  | drvTempWarn (celsius : Int)
  /-- VMOT below 5.5 V for 10 µs turns off all bridges (R412) -/
  | vmotLow (mv : Nat)
  /-- VMOT at 6.0 V for 1 tick re-energises enabled channels (R412) -/
  | vmotOk (mv : Nat)
  /-- HOLD_DELAY without a microstep lowers the current to HOLD_MA (R404) -/
  | posHoldCurrent (n : Fin 4)
  /-- A received CAN frame is filtered into a mailbox or queue (R390) -/
  | canFrameRx (c : Fin 4) (f : CanRx)
  /-- A frame has been sent on the bus and its buffer becomes SENT (R384) -/
  | canTxDone (c : Fin 4) (sofAt : Int)
  /-- A bit error after winning arbitration raises TEC and triggers retransmission (R387) -/
  | canBitError (c : Fin 4)
  /-- The transmit error counter exceeds 255 and the channel is bus-off (R388) -/
  | canBusOff (c : Fin 4)
  /-- The channel becomes error-passive (R388) -/
  | canErrPassive (c : Fin 4) (errs : CanErrs) (rx : Nat)
  /-- Recovery counts 128 recessive sequences and the channel is error-active again (R388) -/
  | canRecovered (c : Fin 4)
  /-- A pending frame whose DEADLINE has passed becomes EXPIRED at the boundary (R386) -/
  | canFrameExpired (c : Fin 4) (frame : CanLate)
  /-- A wake-up pattern or frame wakes a sleeping channel (R395) -/
  | canWake (c : Fin 4) (by_ : CanWakeIn)
  /-- After 250 ms without a contending claim the address is held (R396) -/
  | isoAddrClaimed (c : Fin 4)
  /-- A failed CAN controller is replaced by the spare or the channel goes OFF (R397) -/
  | canCtrlFault (k : Fin 5) (readable : Bool)
  /-- A CAN controller passing its self-test rejoins as standby (R397) -/
  | canCtrlBack (k : Fin 5)
  /-- After the stable period a standby controller takes back its channel (R397) -/
  | canCtrlRestored (k : Fin 5)
  /-- Trigger conditions met in a trigger sample start a capture in READY (R427) -/
  | gltTrigger (x : GltSample)
  /-- PRE_US has passed since FILL began and the machine becomes READY (R426) -/
  | gltFillDone (cyc : Nat)
  /-- POST_US has passed and the capture record is completed (R426) -/
  | gltPostDone (cyc : Nat)
  /-- The hold-off time or trigger count ends and the machine enters REARM (R426) -/
  | gltHoldoffDone (cyc : Nat)
  /-- The Logbook takes a pending record from its queue and writes or merges it (R439) -/
  | logRecordStore (portFault : Bool) (badBlock : Option Nat)
  /-- The pending key slot has been written and read back and the load completes (R454) -/
  | kvtLoadDone (readBack : Bool) (peer : Option (Nat × Nat))
  /-- Both commit record copies have been written and read back (R455) -/
  | kvtRecordsDone (peer : Bool)
  /-- Every 60 s KVT re-masks every key slot (R460) -/
  | kvtRemask (finished : Bool)
  /-- A scrub pass not completed by 110 % of its interval is flagged late (R470) -/
  | scrubLate (m : Fin 8)
  /-- A calibration without an accepted result for 10 intervals sets CAL_STALE (R472) -/
  | calStale (k : Fin 4)
  /-- A unit taken out by a fault is retested every 100 watches (R477) -/
  | unitRetest (cls index : Nat) (pass : Bool)
  /-- In tick 50 each stop path runs a self-test; a failure swaps the active path (R478) -/
  | stopPathSelfTest (passA passB : Bool)
  /-- At 860 µs of tick 99 SVC forms a telemetry record for the host ring (R475) -/
  | telemetry (m : TelIn)
  /-- The image has been programmed and read back in the executable slot (R490) -/
  | imageWriteDone (ok : Bool)
  /-- The re-check of the slot image ends and the pause starts or the command is refused (R495) -/
  | activateCheckDone (ok : Bool)
  /-- After the restart into the new image the module returns to its mode (R495) -/
  | activateReturn (started : Bool)
  /-- A data channel finds the bit boundaries of its signal and leaves 1 ms integration for its configured T_COH (R109) -/
  | bitSync (ch : Fin 1024) (d2 : Bool)
  /-- A pilot channel in TRACK synchronises its secondary code and from then on delivers measurements (R113) -/
  | secondaryCodeSync (ch : Fin 1024)
  /-- After ON or a controller handover, the channel has seen 11 recessive bits and becomes error-active, STATE running (R394) -/
  | canIntegrated (c : Fin 4)
  /-- A quadrature edge on POSn_ENC_A or POSn_ENC_B changes the encoder count, and a change of both lines in one engine clock counts in ENC_ERR (R409) -/
  | encoderEdge (n : Fin 4) (a b : Bool)
  /-- The coil measurement of up to 2 ms after ENABLE ends and KP and KI are set for a 2 kHz loop bandwidth (R405) -/
  | posAutoTuneDone (n : Fin 4) (kp ki : Nat)
  /-- The host sets or clears Bus Master Enable in the endpoint's configuration space, starting or stopping doorbell sampling (R360) -/
  | busMasterEnable (c : PcieCfg)
  /-- A read of TTU_TICK_LO latches the upper half of the tick number into TTU_TICK_HI (R56) -/
  | tickLoRead
  /-- A read of the low word of TTU_OFFSET latches its high word (R82) -/
  | offsetLoRead
  /-- A read of TWN_LAST_REFL low word latches its high word (R340) -/
  | lastReflRead
  /-- A read returns OLDEST_SEQ and rewinds the Logbook read port to the oldest record (R445) -/
  | logPortRewind
  /-- A read returns the next Logbook word and advances the read port (R445) -/
  | logPortData
  /-- A write of ARM starts FILL of the trigger machine at the next tick boundary (R426) -/
  | gltArm
  /-- A write of STOP ends the current trigger state and enters IDLE at the next boundary (R426) -/
  | gltStop
  /-- At the end of BOOT the module chooses its role under R320 or enters MAINTENANCE (R483) -/
  | bootEnd
  /-- VIN_A and VIN_B below 5.5 V for 20 µs stop HEALTH, send POWER_FAIL and release outputs (R485) -/
  | supplyFailure
  /-- A PCIe hot reset resets the module in DEAD, otherwise only the endpoint (R485) -/
  | pcieHotReset
  /-- Link down or D3hot stops sampling, clears ring EN and cancels unstarted descriptors (R361) -/
  | pcieLinkDown
  /-- The link trains with Bus Master Enable set and HST_LINK_UP is raised (R361) -/
  | pcieLinkUp
  /-- A pilot-pair comparator mismatch blocks the pair's writes and leads to DEAD (R21) -/
  | lockstepMismatch
  /-- At each of eight sample points HST issues a read of the doorbell block (R46) -/
  | doorbellSample
  /-- After 100 counted epochs the stored base position is checked against the average (R133) -/
  | obsPosCheck
  /-- At 960 µs a shadow decides whether to claim the lead (R329) -/
  | twnClaimDecision
  /-- At 980 µs Glint takes the staging backlog and may reduce a stream's rate (R422) -/
  | gltBacklogCheck
  /-- At tick u + 20 unfinished solutions are abandoned as FIX_LATE (R176) -/
  | fixDeadline
  /-- At the close of an upload window FIX writes records for rovers without a complete record (R154) -/
  | uploadWindowClose
  /-- Every 10 ticks the lead sends a lantern heartbeat, or a stop burst in its place (R290) -/
  | lanternHeartbeat
  /-- A valid ACK received in a listen tick raises TWN_SPLIT (R332) -/
  | ackRxListen
  /-- Two watches after a commit the old key epoch is discarded (R311) -/
  | oldKeyEnd
  /-- HEALTH reads static energised: the peer is GONE (R317) -/
  | peerGoneSignal
  /-- HEALTH shows no wave while lane frames arrive (R329) -/
  | healthFault
  /-- The peer's LEAD_CLAIM energised makes a lead step down (R332) -/
  | leadClaimSeen
  /-- Both Byhel lanes train (R337) -/
  | twnLinkUp
  /-- After BOOT the module waits for the peer and claims or joins (R320) -/
  | leadElection
  /-- No acknowledgement by the next boundary: the stream is resent and fetching stops (R326) -/
  | reflUnacked
  /-- A lead steps down to SHADOW with STALE set (R332) -/
  | twnStepDown
  /-- REF10M_IN outside ±1 ppm for 1 tick loses the REF source (R61) -/
  | refFreqFault
  /-- At the end E of the closing watch the step is applied to TB1 and TB2 (R52) -/
  | timeStepApply
  /-- The preferred port takes the SLAVE role back after STABLE_WATCHES (R95) -/
  | ethPortBack
  /-- Bias current above 110 mA for 1 tick switches the antenna bias off (R101) -/
  | antShort
  /-- Every 1 s the shorted bias is retried for 1 tick (R101) -/
  | antRetry
  /-- Bias current below 3 mA for 100 ticks reports OPEN (R101) -/
  | antOpen
  /-- Bias current returns to normal after a fault (R101) -/
  | antOk
  /-- A running auction begins bidding once its matrix is read and acknowledged (R213) -/
  | asgAuctionStart
  /-- At 860 µs of tick 99 an ended auction is published (R220) -/
  | asgPublish
  /-- An auction unfinished at tick 99 publishes nothing and continues (R221) -/
  | asgNoResult
  /-- An auction bidding for MAX_WATCHES without ending is abandoned (R221) -/
  | asgAbandonLimit
  /-- Every CAN_REPEAT ticks a stop-class frame is repeated on the stop channels (R259) -/
  | canStopRepeat
  /-- At the named boundary the new key epoch takes effect (R455) -/
  | kvtCommitEffect
  /-- Both configuration record copies have been read back (R491) -/
  | configSaveDone
  /-- The peer's HEALTH wave reappears on the pair after an absence, and HEALTH_IN returns to 1 (R317) -/
  | healthWaveRestored
  deriving DecidableEq, Repr

end Sys2Proof
end

