-- ==== Sys2Proof/Decode.lean ====
section
/-! DEFINITION. Sys2Proof/Decode.lean: the commands that words of the opcode table's bits spell. The table gives no row any
bits: a command reaches the module as a register access, a descriptor in host memory (Machine/Ring.lean reads its bytes)
or an event. -/

namespace Sys2Proof

/-- No word spells a command: no row of the opcode table has bits. -/
def decodeTableWord (_nbits _w : Nat) : Option Instr := none

end Sys2Proof
end

