-- ==== Sys2Proof/Machine/Bits.lean ====
section
/-! DEFINITION. Sys2Proof/Machine/Bits.lean: bit fields, signed values, byte order, checks and integer square root, and
the sparse maps State is built from. -/

namespace Sys2Proof.Machine

/-! ### Sparse maps: a list of (key, value) pairs in one canonical form -/

/-- The value at key `k`, `d` where none is listed. -/
def mget {α : Type} (d : α) : List (Nat × α) → Nat → α
  | [], _ => d
  | (j, v) :: m, k => if j = k then v else mget d m k

/-- The map with key `k` removed. -/
def mdel {α : Type} : List (Nat × α) → Nat → List (Nat × α)
  | [], _ => []
  | (j, v) :: m, k => if j = k then mdel m k else (j, v) :: mdel m k

/-- The map with `v` inserted at key `k` before the first greater key. -/
def mins {α : Type} : List (Nat × α) → Nat → α → List (Nat × α)
  | [], k, v => [(k, v)]
  | (j, u) :: m, k, v => if k < j then (k, v) :: (j, u) :: m else (j, u) :: mins m k v

/-- Write `v` at `k`; a value equal to the default `d` is not listed. -/
def mput {α : Type} [DecidableEq α] (d : α) (m : List (Nat × α)) (k : Nat) (v : α) : List (Nat × α) :=
  if v = d then mdel m k else mins (mdel m k) k v

/-- Strictly rising keys above `lo`, and no listed default. -/
def mwfFrom {α : Type} [DecidableEq α] (d : α) : Nat → List (Nat × α) → Bool
  | _, [] => true
  | lo, (j, v) :: m => decide (lo ≤ j) && decide (v ≠ d) && mwfFrom d (j + 1) m

/-- The canonical form of a map. -/
def mwf {α : Type} [DecidableEq α] (d : α) (m : List (Nat × α)) : Bool := mwfFrom d 0 m

/-! ### Bits and numbers -/

/-- Bits [lsb + width − 1 : lsb] of v. -/
def bitsOf (v lsb width : Nat) : Nat := v / 2 ^ lsb % 2 ^ width

/-- Bit i of v. -/
def bitAt (v i : Nat) : Bool := v / 2 ^ i % 2 = 1

/-- v with bit i set. -/
def setBit (v i : Nat) : Nat := if bitAt v i then v else v + 2 ^ i

/-- v with bit i cleared. -/
def clrBit (v i : Nat) : Nat := if bitAt v i then v - 2 ^ i else v

/-- 1 for true. -/
def b2n (b : Bool) : Nat := if b then 1 else 0

/-- v + 1, saturating at 2^width − 1. -/
def satInc (width v : Nat) : Nat := if v + 1 < 2 ^ width then v + 1 else 2 ^ width - 1

/-- v + n, saturating at 2^width − 1. -/
def satAdd (width v n : Nat) : Nat := if v + n < 2 ^ width then v + n else 2 ^ width - 1

/-- A two's-complement value of the given width as an integer. -/
def toSigned (width v : Nat) : Int :=
  if v % 2 ^ width < 2 ^ (width - 1) then (v % 2 ^ width : Nat) else (v % 2 ^ width : Nat) - (2 ^ width : Nat)

/-- An integer in two's complement. -/
def ofSigned (width : Nat) (i : Int) : Nat := (i % ((2 ^ width : Nat) : Int)).toNat

/-- v held within lo and hi. -/
def clampN (lo hi v : Nat) : Nat := if v < lo then lo else if hi < v then hi else v

/-- v held within −m and m. -/
def clampI (m : Nat) (v : Int) : Int := if v < -(m : Int) then -(m : Int) else if (m : Int) < v then m else v

/-- Round up to whole units. -/
def ceilDiv (a b : Nat) : Nat := (a + b - 1) / b

/-- ⌊√n⌋, by the digits of n in base 4 from the top (fuel: the number of digits). -/
def isqrtFuel : Nat → Nat → Nat
  | 0, _ => 0
  | f + 1, n => let r := 2 * isqrtFuel f (n / 4); if (r + 1) * (r + 1) ≤ n then r + 1 else r

/-- ⌊√n⌋ for n below 4^96. -/
def isqrt (n : Nat) : Nat := isqrtFuel 96 n

/-! ### Bytes (R7: little-endian) -/

/-- n bytes of v, least significant first. -/
def le : Nat → Nat → List Byte
  | 0, _ => []
  | n + 1, v => BitVec.ofNat 8 v :: le n (v / 256)

/-- The number whose bytes, least significant first, are given. -/
def leNat : List Byte → Nat
  | [] => 0
  | b :: bs => b.toNat + 256 * leNat bs

/-- n bytes of v, most significant first. -/
def be (n v : Nat) : List Byte := (le n v).reverse

/-- Bytes off to off + n − 1 as a number. -/
def field (bs : List Byte) (off n : Nat) : Nat := leNat ((bs.drop off).take n)

/-- Padding with zero bytes to length n. -/
def padTo (n : Nat) (bs : List Byte) : List Byte := bs ++ List.replicate (n - bs.length) 0

/-! ### Checks -/

/-- One bit of the reflected CRC-32C (R348: polynomial 0x1EDC_6F41, reflected 0x82F6_3B78). -/
def crc32cBits : Nat → Nat → Nat
  | 0, c => c
  | k + 1, c => crc32cBits k (if c % 2 = 1 then (c / 2) ^^^ 0x82F63B78 else c / 2)

/-- The CRC-32C register after the bytes. -/
def crc32cGo : List Byte → Nat → Nat
  | [], c => c
  | b :: bs, c => crc32cGo bs (crc32cBits 8 (c ^^^ b.toNat))

/-- CRC-32C of R348. -/
def crc32c (bs : List Byte) : Nat := crc32cGo bs 0xFFFFFFFF ^^^ 0xFFFFFFFF

/-- One bit of the CRC-16 of R358 (polynomial 0x1021, no reflection). -/
def crc16Bits : Nat → Nat → Nat
  | 0, c => c
  | k + 1, c => crc16Bits k (if 0x8000 ≤ c then ((c * 2) % 0x10000) ^^^ 0x1021 else c * 2)

/-- The CRC-16 register after the bytes. -/
def crc16Go : List Byte → Nat → Nat
  | [], c => c
  | b :: bs, c => crc16Go bs (crc16Bits 8 (c ^^^ (b.toNat * 256)))

/-- CRC-16 of R358 (initial value 0xFFFF, no final XOR). -/
def crc16 (bs : List Byte) : Nat := crc16Go bs 0xFFFF

/-- One bit of CRC-24Q (polynomial 0x86_4CFB; PRESUMED, log entry 8). -/
def crc24Bits : Nat → Nat → Nat
  | 0, c => c
  | k + 1, c => crc24Bits k (if 0x800000 ≤ c then ((c * 2) % 0x1000000) ^^^ 0x864CFB else c * 2)

/-- The CRC-24Q register after the bytes. -/
def crc24Go : List Byte → Nat → Nat
  | [], c => c
  | b :: bs, c => crc24Go bs (crc24Bits 8 (c ^^^ (b.toNat * 65536)))

/-- CRC-24Q. -/
def crc24q (bs : List Byte) : Nat := crc24Go bs 0

/-! ### Time in units of 2⁻¹⁶ ns -/

/-- One nanosecond. -/
def uNs : Nat := 65536
/-- One tick, 1 ms (R35). -/
def uTick : Nat := 1000000 * uNs
/-- One second. -/
def uSec : Nat := 1000000000 * uNs

/-- A stamp in the 12-byte layout of R11. -/
def stampBytes (u : Nat) : List Byte := le 2 (u % 65536) ++ le 4 (u / 65536 % 1000000000) ++ le 6 (u / uSec)

/-- The stamp a 12-byte field holds. -/
def stampOf (sub ns sec : Nat) : Nat := sec * uSec + ns * uNs + sub

/-- Apply a state change n times, with the index rising from 0. -/
def iter {σ : Type} (f : Nat → σ → σ) : Nat → σ → σ
  | 0, s => s
  | n + 1, s => f n (iter f n s)

end Sys2Proof.Machine
end

