-- ==== Sys2Proof/Machine/Aes.lean ====
section
/-! DEFINITION. Sys2Proof/Machine/Aes.lean: AES-256 and its modes: the block cipher of FIPS 197, GCM of NIST SP 800-38D
(R296), CMAC of NIST SP 800-38B (R448) and the key unwrap of RFC 3394 (R454). The tables are those of FIPS 197 (log
entry 4). A block is the number of its 16 bytes, the first one most significant, so that XOR acts on all of them at once. -/

namespace Sys2Proof.Machine

open Sys2Proof

/-! ### The block cipher -/

/-- The S-box and its inverse, 32 entries in a number, entry 0 lowest. -/
def sboxRows : List Nat :=
  [0xC072A49CAFA2D4ADF04759FA7DC982CA76ABD7FE2B670130C56F6BF27B777C63,
   0x75B227EBE28012079A059618C323C7041531D871F1E5A534CCF73F362693FDB7,
   0xCF584C4A39BECB6A5BB1FC20ED00D153842FE329B3D63B52A05A6E1B1A2C8309,
   0xD2F3FF1021DAB6BCF5389D928F40A351A89F3C507F02F94585334D43FBAAEFD0,
   0xDB0B5EDE14B8EE4688902A22DC4F816073195D643D7EA7C41744975FEC130CCD,
   0x08AE7A65EAF4566CA94ED58D6D37C8E779E4959162ACD3C25C2406490A3A32E0,
   0x9E1DC186B95735610EF6034866B53E708A8BBD4B1F74DDE8C6B4A61C2E2578BA,
   0x16BB54B00F2D99416842E6BF0D89A18CDF2855CEE9871E9B948ED9691198F8E1]
def sboxInvRows : List Nat :=
  [0xCBE9DEC444438E3487FF2F9B8239E37CFBD7F3819EA340BF38A53630D56A0952,
   0x25D18B6D49A25B76B224D92866A12E084EC3FA420B954CEE3D23C2A632947B54,
   0x849D8DA75746155EDAB9EDFD5048706C92B6655DCC5CA4D41698688664F6F872,
   0x6B8A130103BDAFC1020F3FCA8F1E2CD00645B3B80558E4F70AD3BC8C00ABD890,
   0x6EDF751CE837F9E28535ADE72274AC9673E6B4F0CECFF297EADC674F4111913A,
   0xF45ACD78FEC0DB9A2079D2C64B3E56FC1BBE18AA0E62B76F89C5291D711AF147,
   0xEF9CC9939F7AE52D0D4AB519A97F51605FEC8027591012B131C7078833A8DD1F,
   0x7D0C2155631469E126D677BA7E042B17619953833CBBEBC8B0F52AAE4D3BE0A0]

def sboxAt (t : List Nat) (b : Nat) : Nat := (t.getD (b / 32) 0) / 256 ^ (b % 32) % 256
def subByte (b : Nat) : Nat := sboxAt sboxRows b
def subByteInv (b : Nat) : Nat := sboxAt sboxInvRows b

/-- Byte i of a block. -/
def blockByte (v i : Nat) : Nat := v / 256 ^ (15 - i) % 256

/-- SUBBYTES and SHIFTROWS, which turns row r left by r places; the inverse turns it right. -/
def subShift (v : Nat) : Nat :=
  (List.range 16).foldl (fun a i => 256 * a + subByte (blockByte v ((i + 4 * (i % 4)) % 16))) 0
def subShiftInv (v : Nat) : Nat :=
  (List.range 16).foldl (fun a i => 256 * a + subByteInv (blockByte v ((i + 12 * (i % 4)) % 16))) 0

/-- Multiplication of every byte by x in GF(2⁸). -/
def xtimes (v : Nat) : Nat :=
  ((v &&& 0x7F7F7F7F7F7F7F7F7F7F7F7F7F7F7F7F) * 2)
    ^^^ ((v &&& 0x80808080808080808080808080808080) / 128 * 0x1B)

/-- Every column turned by one byte: byte i takes byte i + 1. -/
def turnCols (v : Nat) : Nat :=
  ((v &&& 0x00FFFFFF00FFFFFF00FFFFFF00FFFFFF) * 256) ^^^ ((v &&& 0xFF000000FF000000FF000000FF000000) / 2 ^ 24)

/-- MIXCOLUMNS: byte i of a column becomes 2·b(i) + 3·b(i+1) + b(i+2) + b(i+3). -/
def mixColumns (v : Nat) : Nat :=
  let r := turnCols v
  xtimes (v ^^^ r) ^^^ r ^^^ turnCols r ^^^ turnCols (turnCols r)

/-- Its inverse, with 14, 11, 13 and 9: the same after 4·(b(i) + b(i+2)) has been added to byte i. -/
def mixColumnsInv (v : Nat) : Nat := mixColumns (v ^^^ xtimes (xtimes (v ^^^ turnCols (turnCols v))))

/-- SUBWORD and ROTWORD. -/
def subWord (w : Nat) : Nat := (List.range 4).foldl (fun a i => 256 * a + subByte (w / 256 ^ (3 - i) % 256)) 0
def rotWord (w : Nat) : Nat := w % 2 ^ 24 * 256 + w / 2 ^ 24

/-- The next word of the key schedule from the one eight before and the one before; i is its number. -/
def keyWord (i old last : Nat) : Nat :=
  old ^^^ (if i % 8 = 0 then subWord (rotWord last) ^^^ (2 ^ (i / 8 - 1) * 2 ^ 24)
    else if i % 8 = 4 then subWord last
    else last)

/-- The words of the schedule from word i on, newest first; n more are made. -/
def keyWords : Nat → Nat → List Nat → List Nat
  | 0, _, ws => ws
  | n + 1, i, ws => keyWords n (i + 1) (keyWord i (ws.getD 7 0) (ws.getD 0 0) :: ws)

/-- The number of some bytes, the first one most significant. -/
def beNat (b : List Byte) : Nat := leNat b.reverse

/-- The 15 round keys of a key of 32 bytes. -/
def aesKeys (key : List Byte) : List Nat :=
  let ws := (keyWords 52 8 ((List.range 8).map fun i => beNat (((padTo 32 key).drop (4 * i)).take 4)).reverse).reverse
  (List.range 15).map fun k => (List.range 4).foldl (fun a i => 2 ^ 32 * a + ws.getD (4 * k + i) 0) 0

/-- A block under round keys: the rounds but the first addition. -/
def aesRounds : List Nat → Nat → Nat
  | [], v => v
  | [k], v => subShift v ^^^ k
  | k :: ks, v => aesRounds ks (mixColumns (subShift v) ^^^ k)

/-- The cipher. -/
def aesBlock (ks : List Nat) (v : Nat) : Nat := aesRounds (ks.drop 1) (v ^^^ ks.getD 0 0)

/-- The inverse rounds, with the round keys from the last on. -/
def aesRoundsInv : List Nat → Nat → Nat
  | [], v => v
  | [k], v => subShiftInv v ^^^ k
  | k :: ks, v => aesRoundsInv ks (mixColumnsInv (subShiftInv v ^^^ k))

/-- The inverse cipher. -/
def aesBlockInv (ks : List Nat) (v : Nat) : Nat := aesRoundsInv (ks.reverse.drop 1) (v ^^^ ks.reverse.getD 0 0)

/-- The n blocks at the head of some bytes, the last one padded with zero bytes. -/
def blockNums : Nat → List Byte → List Nat
  | 0, _ => []
  | n + 1, b => beNat (padTo 16 (b.take 16)) :: blockNums n (b.drop 16)

/-! ### GCM (NIST SP 800-38D) -/

/-- The product in GF(2¹²⁸) of the n highest bits of x left, and y. -/
def ghashMul : Nat → Nat → Nat → Nat
  | 0, _, _ => 0
  | n + 1, x, y =>
    (if x / 2 ^ n % 2 = 1 then y else 0) ^^^ ghashMul n x (if y % 2 = 1 then (y / 2) ^^^ (0xE1 * 2 ^ 120) else y / 2)

def ghash (h : Nat) (bs : List Nat) : Nat := bs.foldl (fun y x => ghashMul 128 (y ^^^ x) h) 0

/-- The counter block i of a nonce. -/
def counterBlock (nonce i : Nat) : Nat := beNat (le 12 nonce) * 2 ^ 32 + i

/-- The key stream from counter block 2 on, XORed with the data: both ways. -/
def gcmStream (key : List Byte) (nonce : Nat) (data : List Byte) : List Byte :=
  let ks := aesKeys key
  let stream := (List.range (ceilDiv data.length 16)).flatMap fun i => be 16 (aesBlock ks (counterBlock nonce (i + 2)))
  List.zipWith (fun a b => a ^^^ b) data stream

/-- The ciphertext of a clear text, and the clear text of a ciphertext: key, nonce of 12 bytes. -/
def gcmCipher (key : List Byte) (nonce : Nat) (data : List Byte) : List Byte := gcmStream key nonce data

/-- The tag over authenticated data and ciphertext, as the number of its 16 bytes. -/
def gcmTagOf (key : List Byte) (nonce : Nat) (aad cipher : List Byte) : Nat :=
  let ks := aesKeys key
  let g := ghash (aesBlock ks 0) (blockNums (ceilDiv aad.length 16) aad ++ blockNums (ceilDiv cipher.length 16) cipher
    ++ [8 * aad.length * 2 ^ 64 + 8 * cipher.length])
  leNat (be 16 (g ^^^ aesBlock ks (counterBlock nonce 1)))

/-- The tag over authenticated data and clear text. -/
def gcmTag (key : List Byte) (nonce : Nat) (aad clear : List Byte) : Nat :=
  gcmTagOf key nonce aad (gcmCipher key nonce clear)

/-! ### CMAC (NIST SP 800-38B) -/

/-- Doubling in GF(2¹²⁸): the subkeys. -/
def cmacDouble (v : Nat) : Nat := if v < 2 ^ 127 then 2 * v else (2 * v % 2 ^ 128) ^^^ 0x87

/-- The last block with its subkey: a short one is padded with a one bit and zeros. -/
def cmacLast (l : Nat) (b : List Byte) : Nat :=
  if b.length = 16 then beNat b ^^^ cmacDouble l
  else beNat (padTo 16 (b ++ [0x80])) ^^^ cmacDouble (cmacDouble l)

/-- AES-CMAC, 16 bytes. -/
def cmac (key msg : List Byte) : List Byte :=
  let ks := aesKeys key
  let n := max 1 (ceilDiv msg.length 16) - 1
  let mac := (blockNums n msg).foldl (fun x b => aesBlock ks (x ^^^ b)) 0
  be 16 (aesBlock ks (mac ^^^ cmacLast (aesBlock ks 0) (msg.drop (16 * n))))

/-! ### Key unwrap (RFC 3394) -/

/-- One step back: A, the registers, and the step number t; register i is the one it takes. -/
def unwrapStep (ks : List Nat) (i t : Nat) (x : Nat × List Nat) : Nat × List Nat :=
  let b := aesBlockInv ks ((x.1 ^^^ t) * 2 ^ 64 + x.2.getD i 0)
  (b / 2 ^ 64, x.2.set i (b % 2 ^ 64))

/-- The steps n × 6 down to 1. -/
def unwrapSteps (ks : List Nat) (n : Nat) : Nat → Nat × List Nat → Nat × List Nat
  | 0, x => x
  | t + 1, x => unwrapSteps ks n t (unwrapStep ks (t % n) (t + 1) x)

/-- The key in a wrapped key of n + 1 blocks of 8 bytes; none where the integrity check fails. -/
def aesUnwrap (kek wrapped : List Byte) : Option (List Byte) :=
  let w := (List.range (wrapped.length / 8)).map fun i => beNat ((wrapped.drop (8 * i)).take 8)
  let n := w.length - 1
  let x := unwrapSteps (aesKeys kek) n (6 * n) (w.getD 0 0, w.drop 1)
  if x.1 = 0xA6A6A6A6A6A6A6A6 then some (x.2.flatMap (be 8)) else none

end Sys2Proof.Machine
end

