-- ==== Sys2Proof/Machine/Curve.lean ====
section
/-! DEFINITION. Sys2Proof/Machine/Curve.lean: the curve P-384 (SEC 2), ECDH and ECDSA on it (SEC 1), and SHA-384 (FIPS
180-4), by which the Key Vault and boot judge keys and images (R449, R454, R486; log entry 4). -/

namespace Sys2Proof.Machine

open Sys2Proof

/-! ### The field and the curve -/

/-- The prime, the coefficient b, the base point and its order; the coefficient a is −3. -/
def p384Prime : Nat := 2 ^ 384 - 2 ^ 128 - 2 ^ 96 + 2 ^ 32 - 1
def p384B : Nat :=
  0xB3312FA7E23EE7E4988E056BE3F82D19181D9C6EFE8141120314088F5013875AC656398D8A2ED19D2A85C8EDD3EC2AEF
def p384X : Nat :=
  0xAA87CA22BE8B05378EB1C71EF320AD746E1D3B628BA79B9859F741E082542A385502F25DBF55296C3A545E3872760AB7
def p384Y : Nat :=
  0x3617DE4A96262C6F5D9E98BF9292DC29F8F41DBD289A147CE9DA3113B5F0B8C00A60B1CE1D7E819D7A431D7C90EA0E5F
def p384Order : Nat :=
  0xFFFFFFFFFFFFFFFFFFFFFFFFFFFFFFFFFFFFFFFFFFFFFFFFC7634D81F4372DDF581A0DB248B0A77AECEC196ACCC52973

/-- a^e mod m, by the k bits of e from the top. -/
def powMod (m a e : Nat) : Nat → Nat
  | 0 => 1
  | k + 1 =>
    let r := powMod m a (e / 2) k
    if e % 2 = 1 then r * r % m * a % m else r * r % m

/-- The inverse modulo a prime below 2³⁸⁴. -/
def invMod (m a : Nat) : Nat := powMod m (a % m) (m - 2) 384

/-- a − b modulo m. -/
def subMod (m a b : Nat) : Nat := (a + m - b % m) % m

/-- A point of the curve; none is the point at infinity. -/
abbrev Point := Option (Nat × Nat)

/-- The third point of a line of slope l, mirrored. -/
def lineEnd (l : Nat) (a b : Nat × Nat) : Nat × Nat :=
  let x := subMod p384Prime (subMod p384Prime (l * l) a.1) b.1
  (x, subMod p384Prime (l * subMod p384Prime a.1 x) a.2)

/-- The sum of two points. -/
def pointAdd : Point → Point → Point
  | none, q => q
  | some a, none => some a
  | some a, some b =>
    let m := p384Prime
    if a.1 = b.1 then
      if (a.2 + b.2) % m = 0 then none
      else some (lineEnd (subMod m (3 * a.1 * a.1) 3 * invMod m (2 * a.2) % m) a b)
    else some (lineEnd (subMod m b.2 a.2 * invMod m (subMod m b.1 a.1) % m) a b)

/-- The multiple of a point by the k lowest bits of d, read from the top. -/
def pointMul (q : Nat × Nat) (d : Nat) : Nat → Point
  | 0 => none
  | k + 1 =>
    let r := pointMul q (d / 2) k
    let r := pointAdd r r
    if d % 2 = 1 then pointAdd r (some q) else r

/-- The coordinates of a public key of 96 bytes, X then Y in the order of SEC 1. -/
def pubPoint (b : List Byte) : Nat × Nat := (leNat (b.take 48).reverse, leNat ((b.drop 48).take 48).reverse)

/-- A point of the curve: coordinates below the prime that meet its equation. -/
def onCurve (q : Nat × Nat) : Bool :=
  let m := p384Prime
  decide (q.1 < m) && decide (q.2 < m) && q.2 * q.2 % m == (q.1 * q.1 % m * q.1 + subMod m p384B (3 * q.1)) % m

/-- HOST_PUB of a key record is a point of P-384 (row 3 of R454). -/
def keyPubOk (b : List Byte) : Bool := onCurve (pubPoint b)

/-- The public key X ‖ Y of a private scalar. -/
def p384Public (d : Nat) : List Byte :=
  match pointMul (p384X, p384Y) d 384 with
  | some q => be 48 q.1 ++ be 48 q.2
  | none => []

/-- The shared secret Z of a private scalar and a public key (R449). -/
def p384Shared (d : Nat) (pub : List Byte) : List Byte :=
  match pointMul (pubPoint pub) d 384 with
  | some q => be 48 q.1
  | none => []

/-! ### SHA-384 -/

/-- The round constants, four in a number, the first lowest; the initial hash value, its first word lowest. -/
def shaK : List Nat :=
  [0xE9B5DBA58189DBBCB5C0FBCFEC4D3B2F7137449123EF65CD428A2F98D728AE22,
   0xAB1C5ED5DA6D8118923F82A4AF194F9B59F111F1B605D0193956C25BF348B538,
   0x550C7DC3D5FFB4E2243185BE4EE4B28C12835B0145706FBED807AA98A3030242,
   0xC19BF174CF6926949BDC06A725C7123580DEB1FE3B1696B172BE5D74F27B896F,
   0x240CA1CC77AC9C650FC19DC68B8CD5B5EFBE4786384F25E3E49B69C19EF14AD2,
   0x76F988DA831153B55CB0A9DCBD41FBD44A7484AA6EA6E4832DE92C6F592B0275,
   0xBF597FC7BEEF0EE4B00327C898FB213FA831C66D2DB43210983E5152EE66DFAB,
   0x142929670A0E6E7006CA6351E003826FD5A79147930AA725C6E00BF33DA88FC2,
   0x53380D139D95B3DF4D2C6DFC5AC42AED2E1B21385C26C92627B70A8546D22FFC,
   0x92722C851482353B81C2C92E47EDAEE6766A0ABB3C77B2A8650A73548BAF63DE,
   0xC76C51A30654BE30C24B8B70D0F89791A81A664BBC423001A2BFE8A14CF10364,
   0x106AA07032BBD1B8F40E35855771202AD69906245565A910D192E819D6EF5218,
   0x34B0BCB5E19B48A82748774CDF8EEB991E376C085141AB5319A4C116B8D2D0C8,
   0x682E6FF3D6B2B8A35B9CCA4F7763E3734ED8AA4AE3418ACB391C0CB3C5C95A63,
   0x8CC702081A6439EC84C87814A1F0AB7278A5636F43172F60748F82EE5DEFB2FC,
   0xC67178F2E372532BBEF9A3F7B2C67915A4506CEBDE82BDE990BEFFFA23631E28,
   0xF57D4F7FEE6ED178EADA7DD6CDE0EB1ED186B8C721C0C207CA273ECEEA26619C,
   0x1B710B35131C471B113F9804BEF90DAE0A637DC5A2C898A606F067AA72176FBA,
   0x431D67C49C100D4C3C9EBE0A15C9BEBC32CAAB7B40C7249328DB77F523047D84,
   0x6C44198C4A4758175FCB6FAB3AD6FAEC597F299CFC657E2A4CC5D4BECB3E42B6]
def shaInit : Nat :=
  0x47B5481DBEFA4FA4DB0C2E0D64F98FA78EB44A876858151167332667FFC00B31152FECD8F70E59399159015A3070DD17629A292A367CD507CBBB9D5DC1059ED8

def m64 (v : Nat) : Nat := v % 2 ^ 64
/-- A 64-bit word turned right by n places. -/
def rotr (n v : Nat) : Nat := v / 2 ^ n + v % 2 ^ n * 2 ^ (64 - n)

/-- The words of the message schedule, newest first; n more are made. -/
def shaWords : Nat → List Nat → List Nat
  | 0, w => w
  | n + 1, w =>
    let a := w.getD 14 0
    let b := w.getD 1 0
    let s0 := rotr 1 a ^^^ rotr 8 a ^^^ (a / 2 ^ 7)
    let s1 := rotr 19 b ^^^ rotr 61 b ^^^ (b / 2 ^ 6)
    shaWords n (m64 (s1 + w.getD 6 0 + s0 + w.getD 15 0) :: w)

/-- One round on the eight working variables, with its constant plus its word. -/
def shaRound (v : List Nat) (kw : Nat) : List Nat :=
  match v with
  | [a, b, c, d, e, f, g, h] =>
    let t1 := h + (rotr 14 e ^^^ rotr 18 e ^^^ rotr 41 e) + ((e &&& f) ^^^ ((2 ^ 64 - 1 - e) &&& g)) + kw
    let t2 := (rotr 28 a ^^^ rotr 34 a ^^^ rotr 39 a) + ((a &&& b) ^^^ (a &&& c) ^^^ (b &&& c))
    [m64 (t1 + t2), a, b, c, m64 (d + t1), e, f, g]
  | v => v

/-- The hash value after one more block of 128 bytes. -/
def shaBlock (hv : List Nat) (b : List Byte) : List Nat :=
  let w := (List.range 16).map fun i => leNat ((b.drop (8 * i)).take 8).reverse
  let ws := (shaWords 64 w.reverse).reverse
  let kw := (List.range 80).map fun i => ws.getD i 0 + bitsOf (shaK.getD (i / 4) 0) (64 * (i % 4)) 64
  List.zipWith (fun x y => m64 (x + y)) hv (kw.foldl shaRound hv)

/-- The hash value after n blocks. -/
def shaBlocks : Nat → List Nat → List Byte → List Nat
  | 0, hv, _ => hv
  | n + 1, hv, b => shaBlocks n (shaBlock hv (b.take 128)) (b.drop 128)

/-- SHA-384, as a number. -/
def sha384 (msg : List Byte) : Nat :=
  let z := ceilDiv (msg.length + 17) 128 * 128 - msg.length - 17
  let b := msg ++ le 1 0x80 ++ List.replicate z 0 ++ be 16 (8 * msg.length)
  let hv := shaBlocks (b.length / 128) ((List.range 8).map fun i => bitsOf shaInit (64 * i) 64) b
  (hv.take 6).foldl (fun a x => 2 ^ 64 * a + x) 0

/-! ### ECDSA (SEC 1) -/

/-- The signature r, s over a hash verifies under a public key. -/
def ecdsaOk (pub : Nat × Nat) (hash r s : Nat) : Bool :=
  let n := p384Order
  if r = 0 ∨ n ≤ r ∨ s = 0 ∨ n ≤ s ∨ onCurve pub = false then false
  else
    let w := invMod n s
    match pointAdd (pointMul (p384X, p384Y) (hash % n * w % n) 384) (pointMul pub (r * w % n) 384) with
    | some q => q.1 % n == r
    | none => false

end Sys2Proof.Machine
end

