-- ==== Sys2Proof/Machine/Keys.lean ====
section
/-! DEFINITION. Sys2Proof/Machine/Keys.lean: the key derivation function and the keys of the Key Vault (R448 to R450). A
key is the list of its bytes. -/

namespace Sys2Proof.Machine

open Sys2Proof

/-! ### The counter-mode KDF (R448) -/

/-- An ASCII label, without a terminator. -/
def ascii (s : String) : List Byte := s.toList.map fun c => BitVec.ofNat 8 c.toNat

/-- The input of block i for an output of L bits: [i] ‖ Label ‖ 0x00 ‖ Context ‖ [L]. -/
def kdfInput (label : String) (context : List Byte) (bits i : Nat) : List Byte :=
  le 1 i ++ ascii label ++ le 1 0 ++ context ++ le 2 bits

/-- The blocks 1, 2 and so on under the parent key, truncated to L bits. -/
def kdf (parent : List Byte) (label : String) (context : List Byte) (bits : Nat) : List Byte :=
  ((List.range (ceilDiv bits 128)).flatMap fun i => cmac parent (kdfInput label context bits (i + 1))).take (bits / 8)

/-! ### The keys (R449) -/

/-- The 8 bytes of HST_ID_SERIAL. -/
def serialBytes : List Byte := le 4 Config.serialLo ++ le 4 Config.serialHi

/-- KS: the storage key that wraps keys held in flash. -/
def keyStorage : List Byte := kdf Config.deviceRoot "STORE" serialBytes 256
/-- ID: the private scalar, from the output read as a big-endian integer. -/
def keyIdentity : Nat := leNat (kdf Config.deviceRoot "IDENT" serialBytes 512).reverse % (p384Order - 1) + 1
/-- Word k of KVT_ID_PUB: X then Y of the public key. -/
def idPubWord (k : Nat) : Nat := field (p384Public keyIdentity) (4 * k) 4

/-- GB, LK_r and RWK of a fleet key. -/
def keyGroupBase (fk : List Byte) : List Byte := kdf fk "GROUP" [] 256
def keyLink (fk : List Byte) (r : Nat) : List Byte := kdf fk "LINK" (le 1 r) 256
def keyRenewal (fk : List Byte) : List Byte := kdf fk "RENEW" [] 256
/-- GS_e and LS_r,e: the session keys of key epoch e. -/
def keyGroup (fk : List Byte) (e : Nat) : List Byte := kdf (keyGroupBase fk) "SESSION" (le 4 e) 256
def keySession (fk : List Byte) (r e : Nat) : List Byte := kdf (keyLink fk r) "SESSION" (le 4 e) 256
/-- IW: the install wrap key of a host public key, from the first 32 bytes of the shared secret Z. -/
def keyInstall (hostPub : List Byte) : List Byte :=
  kdf ((padTo 48 (p384Shared keyIdentity hostPub)).take 32) "INSTALL" (hostPub.take 48) 256

/-- The key check value (R450). -/
def kcvOf (key : List Byte) : Nat := leNat ((cmac key (ascii "KCV")).take 4)

end Sys2Proof.Machine
end

