-- ==== Sys2Proof/Machine/State.lean ====
section
/-! DEFINITION. Sys2Proof/Machine/State.lean: everything the spec gives the module to hold, as plain data. Every
register of the spec's tables has its home in `regs` (one entry per field that differs from its reset value); what the
module holds beside its registers stands in one structure per subsystem. -/

namespace Sys2Proof.Machine

/-- The access codes of R9. -/
inductive Access where
  | rw | ro | w1c | wo | rwb | rws
  deriving DecidableEq, Repr

/-- One register field: byte address of its first instance, bits, access code, reset value by index, and the strides
and counts of its indexes. -/
structure Field where
  off   : Nat
  lsb   : Nat
  width : Nat
  acc   : Access
  reset : Nat → Nat → Nat
  s1    : Nat := 0
  c1    : Nat := 1
  s2    : Nat := 0
  c2    : Nat := 1

/-- A command that ends the run by a stop. No meaning of this model stops; the type is inhabited for a command whose
operands name a unit the part does not have (never raised from the table's rows; safe). -/
inductive Fault where
  /-- Raised by no command of the table: the spec gives every command an effect. Safe. -/
  | noSuchUnit
  deriving DecidableEq, Repr

/-- Refusals of the model. -/
inductive Refusal where
  /-- Raised by a dispatch arm that has no meaning yet. Safe: nothing runs. -/
  | notModelled (mnemonic : String)
  deriving DecidableEq, Repr

/-! ### Frames and outputs -/

/-- An armed stop frame (R252): its rover (none: fleet), its key epoch and its tick. -/
structure StopFrame where
  rover : Option Nat
  epoch : Nat
  tick  : Nat
  deriving DecidableEq, Repr

/-- What the last command made the module put out (every output the chapters name, in order). -/
inductive Out where
  /-- Data returned to a host read of a register. -/
  | readData (value : Nat)
  /-- A memory read the module issues to the host. -/
  | hostRead (addr len : Nat)
  /-- A memory write the module issues to the host. -/
  | hostWrite (addr : Nat) (data : List Byte)
  /-- An MSI-X message. -/
  | msix (vector : Nat)
  /-- A stop burst on high-band transceiver hb (0 HB_A, 1 HB_B), starting at the given cycle of the tick. -/
  | stopBurst (hb startCyc : Nat) (frames : List StopFrame)
  /-- Any other frame on the air of a high-band transceiver: cycle at which it starts, MCS, conducted power in 0.5 dBm
  (R270, R271). -/
  | air (hb startCyc mcs : Nat) (power : Int) (frame : List Byte)
  /-- A frame of the lantern link: its sync word, hop channel (profile NA), power in dBm and 8 payload bytes (R289,
  R290). -/
  | lantern (sync : Nat) (chan : Option Nat) (power : Int) (payload : List Byte)
  /-- The lantern frame in flight is cut at a cycle of the tick (R257). -/
  | lanternCut (cyc : Nat)
  /-- The 2 µs pulse on the Byhel STOP pair. -/
  | byhelStop
  /-- A link status, DEAD or POWER_FAIL frame on the Byhel lanes: kind (0 status, 1 DEAD, 2 POWER_FAIL) and content. -/
  | byhelFrame (kind : Nat) (data : List Byte)
  /-- The reflection stream of a tick: its entries in the order of R323, and item 8. -/
  | byhelStream (tick : Nat) (items : List ReflEntry) (digest : Nat)
  /-- Step 4 of R337 in a tick: the MiB of the snapshot transferred so far, and the deltas since it. -/
  | byhelSnapshot (tick done : Nat) (deltas : List ReflEntry)
  /-- An acknowledgement of item 1 or 8 of the stream of a tick. -/
  | byhelAck (tick item : Nat)
  /-- A CAN frame begun on a channel. -/
  | can (ch : Nat) (record : List Byte)
  /-- A PTP message sent on a port, over UDP (IPv4) or IEEE 802.3: where it goes, its messageType and its bytes. -/
  | ptp (port : Nat) (udp : Bool) (dest : PtpTo) (kind : Nat) (data : List Byte)
  /-- A pulse placed on an output: leading edge on its base, width, and whether the pin is high during it (POL). -/
  | pulse (n stamp width : Nat) (high : Bool)
  /-- The level at which an output without a pulse is held: the inactive one of its POL. -/
  | pulseIdle (n : Nat) (high : Bool)
  deriving DecidableEq, Repr

/-! ### GLT -/

/-- A block of a stream's region (R420): its ring index and header, the TB3 time of its first sample and its sample
period in 2⁻¹⁶ ns, its samples, an uncorrectable word in it. -/
structure GltBlock where
  idx     : Nat
  src     : Nat
  decim   : Nat
  flags   : Nat
  seq     : Nat
  stamp   : Nat
  n       : Nat
  dropped : Nat
  t3      : Nat
  per     : Nat
  data    : List Byte
  bad     : Bool := false
  deriving DecidableEq, Repr

/-- Samples in staging: times of the first one on TB3 and on TB_SEL, period, decimation, samples dropped before them,
sample size, bytes. -/
structure GltChunk where
  t3    : Nat
  stamp : Nat
  per   : Nat
  decim : Nat
  drop  : Nat
  size  : Nat
  data  : List Byte
  deriving DecidableEq, Repr

/-- A stream beside its registers: the SRC, BASE_MIB and SIZE_MIB it runs with (none: not started); the ring index, the
block being written and the count of blocks; the blocks in memory by ring index; the levels of R422 and R430; the
decimation phase; what is in staging; samples dropped since the last block; the decimation of the last block; a step
to be flagged; whether the mark is at the block to be written next. -/
structure GltStream where
  seen  : Option (Nat × Nat × Nat) := none
  idx   : Nat := 0
  cur   : Option GltBlock := none
  seq   : Nat := 0
  mem   : List (Nat × Option GltBlock) := []
  d1    : Nat := 0
  d2    : Nat := 0
  ph    : Nat := 0
  stage : List GltChunk := []
  drop  : Nat := 0
  lastD : Nat := 0
  step  : Bool := false
  markNew : Bool := false
  deriving DecidableEq, Repr

/-- A capture record (R428): number, conditions, flags, base, trigger stamp and tick; TB3 times of the start of its
window, of the trigger and of its end; POS by stream with the default 0xFFFF_FFFF; streams whose POS is not known yet;
the first block of the window by stream: ring index and SEQ, plus 1 each. -/
structure GltCapture where
  num    : Nat
  mask   : Nat
  flags  : Nat
  base   : Nat
  stamp  : Nat
  tick   : Nat
  from3  : Nat
  trig3  : Nat
  to3    : Nat
  pos    : List (Nat × Nat) := []
  need   : List Nat := []
  first  : List (Nat × (Nat × Nat)) := []
  deriving DecidableEq, Repr

structure GltState where
  streams  : List (Nat × GltStream) := []
  /-- The records of the last 64 captures, oldest first; captures started. -/
  caps     : List GltCapture := []
  started  : Nat := 0
  /-- ARM and STOP written in this tick; TB3 time at which FILL began; triggers counted in HOLDOFF. -/
  arm      : Bool := false
  stop     : Bool := false
  fill3    : Nat := 0
  holds    : Nat := 0
  /-- Event records raised since the last window, with their instants in the tick, for streams of source 0x0E. -/
  evts     : List (Nat × List Byte) := []
  /-- The backlog at every 980 µs point of this watch was at most 64 KiB. -/
  calm     : Bool := true
  /-- TB3 time of the last step of TB1; of the last dropped sample. -/
  step3    : Option Nat := none
  drop3    : Option Nat := none
  deriving DecidableEq, Repr

/-! ### TTU -/

/-- A closing watch (R52, R53): its number of ticks, the stretch beyond 1 ms in 2⁻¹⁶ ns, and the position and number of
the tick in which the step was accepted (R518). -/
structure Closing where
  n      : Nat
  extra  : Nat
  accPos : Nat
  accNum : Nat
  deriving DecidableEq, Repr

/-- What a pulse output holds beside its registers (R75 to R78): enabled at which base value, its last edge on the base
and on TB3, the elapsed-time rule and STEP flag after a step, and an edge due at the step instant. -/
structure PulseSt where
  fromT    : Nat := 0
  last     : Option Nat := none
  lastTb3  : Nat := 0
  stepped  : Bool := false
  mark     : Bool := false
  atStep   : Option Nat := none
  deriving DecidableEq, Repr

/-- What a capture input holds (R79, R81): its FIFO of records, its last edge on TB3, edges recorded since enabled, a
step seen, an overflow since the last record. -/
structure CaptSt where
  fifo    : List (List Byte) := []
  lastTb3 : Option Nat := none
  count   : Nat := 0
  stepped : Bool := false
  ovf     : Bool := false
  deriving DecidableEq, Repr

/-- TTU beside its registers. Times in 2⁻¹⁶ ns. -/
structure TtuState where
  /-- TB1 and TB3 at the boundary that opened the current tick; the tick's length; TB1's advance over it. -/
  tb1      : Nat := 0
  /-- TB1 at the end of the last tick, before a step of its boundary. -/
  tb1Was   : Nat := 0
  tb3      : Nat := 0
  len      : Nat := 65536000000
  adv      : Nat := 65536000000
  /-- Position of the tick in its watch; the watch boundary of this tick has been taken. -/
  pos      : Nat := 0
  watchDone : Bool := false
  closing  : Option Closing := none
  /-- A tick made longer while it runs (R518): the instant of that, and the length it had until then. -/
  bend     : Option (Nat × Nat) := none
  /-- How far slews have moved TB1 since reset, up to the start of the tick. -/
  slewSum  : Int := 0
  /-- The accepted step, and whether its closing watch has ended. -/
  stepAmt  : Option Int := none
  stepDue  : Bool := false
  /-- The last measured offset; the residual still to be slewed; boundaries in a row within 50 ns (at most 10). -/
  offset   : Int := 0
  resid    : Int := 0
  goodRun  : Nat := 0
  /-- Each offset measured stands with the slews up to its measurement: what TB1 has been slewed since then has gone from
  it (R63, R71). GNSS: the base time solution of the last epoch (satellites, RMS, offset), and watches without one. -/
  gnssSol  : Option (Nat × Nat × Int) := none
  gnssSlew : Int := 0
  gnssNew  : Bool := false
  gnssMiss : Nat := 0
  /-- REF: 10 MHz in range, which it counts as until the first watch boundary (DESIGN CHOICE, log entry 80); last PPS edge on TB3; edges in a row 1 s apart; last offset; last deviations. -/
  refOk    : Bool := true
  ppsLast  : Option Nat := none
  ppsRun   : Nat := 0
  ppsOff   : Int := 0
  ppsSlew  : Int := 0
  ppsDev   : List Int := []
  /-- PTP: tick of the last delivered offset, and the last 16 offsets. -/
  ptpTick  : Option Nat := none
  ptpOffs  : List Int := []
  ptpSlew  : Int := 0
  /-- PTP: the bound of the grandmaster's clockAccuracy in ps (R67), and the port in SLAVE state. -/
  ptpAccPs : Nat := 1000000000
  ptpPort  : Option Nat := none
  /-- Ticks spent disciplining; u₀ of R66 in ns; ticks since loss. -/
  discTicks : Nat := 0
  u0       : Nat := 0
  lossTicks : Nat := 0
  /-- Time each engine has held its resource in this tick, in 0.1 µs. -/
  use      : List (Nat × Nat) := []
  pulses   : List (Nat × PulseSt) := []
  capts    : List (Nat × CaptSt) := []
  deriving DecidableEq, Repr

/-! ### HST -/

/-- A completion due and not yet written (R351, R352). -/
structure Compl where
  h      : Handle
  ftick  : Nat
  status : Nat
  detail : Nat
  deriving DecidableEq, Repr

/-- An event record waiting to be written to its EQ (R353). -/
structure EvtRec where
  source : Nat
  mode   : Nat
  detail : Nat
  tick   : Nat
  eq     : Nat
  deriving DecidableEq, Repr

/-- A fetched descriptor that has not started (R347): where it came from, its tick of fetch, its bytes and what its
buffer read brought. -/
structure Desc where
  h     : Handle
  ftick : Nat
  bytes : List Byte
  buf   : BufIn
  deriving DecidableEq, Repr

/-- HST beside its registers. -/
structure HstState where
  linkUp   : Bool := false
  /-- What the host has written to configuration space (R342). -/
  pcie     : PcieCfg := {}
  /-- Doorbell reads outstanding. -/
  dbReads  : Nat := 0
  /-- Rings in service since the last tick boundary: CQs and EQs (R361). -/
  cqOn     : List (Nat × Bool) := []
  eqOn     : List (Nat × Bool) := []
  /-- Stop-field reference (R359): the doorbell entries whose reference is held, FLEET_REQ and the TGT_REQ words. -/
  dbSeen   : List Nat := []
  dbFleet  : Nat := 0
  dbTgt    : List (Nat × Nat) := []
  /-- HST windows begun in this tick, of the eight of R40. -/
  win      : Nat := 0
  /-- The link has gone down since the last tick boundary. -/
  downPend : Bool := false
  /-- Descriptor positions (SQ, index) whose read is outstanding. -/
  reading  : List (Nat × Nat) := []
  waiting  : List Desc := []
  /-- Descriptors accepted and not completed, with their tick of fetch. -/
  started  : List (Handle × Nat) := []
  compl    : List Compl := []
  evq      : List EvtRec := []
  /-- EQs that lost records and owe an overflow record (R354). -/
  evOvf    : List Nat := []
  /-- The SQ served last, by PRIO (R347). -/
  rr       : List (Nat × Nat) := []
  /-- Rings whose indices return to 0 at the next tick boundary (R346). -/
  idxZero  : List (RingKind × Nat) := []
  /-- Rings to be cleared with FAULT at the next tick boundary (row 3 of R360). -/
  faultPend : List (RingKind × Nat) := []
  deriving DecidableEq, Repr

/-! ### STP -/

/-- The stop path of one transceiver (R255, R256): the burst on the air, when it ends (cycle of the tick), the frames waiting,
in order of release (none: fleet), those left over by the repeat burst, and the cycle until which these wait. -/
structure HbPath where
  onAir   : List (Option Nat) := []
  endCyc  : Nat := 0
  waiting : List (Option Nat) := []
  left    : List (Option Nat) := []
  hold    : Nat := 0
  deriving DecidableEq, Repr

/-- A targeted latch in its windows: repeat ticks left, sent at least once, CAN sends left, tick of the last CAN send. -/
structure TgtWin where
  left    : Nat := 0
  sent    : Bool := false
  canLeft : Nat := 0
  canTick : Nat := 0
  deriving DecidableEq, Repr

/-- An accepted STP_RESUME not yet in effect (R264): its scope, the tick of acceptance, and, in a shadow, whether the
lead's stream has carried its acceptance (R323). -/
structure ResumePend where
  h     : Handle
  rover : Option Nat
  tick  : Nat
  sure  : Bool := true
  deriving DecidableEq, Repr

structure StpState where
  /-- The frames armed, by tick: the key epoch of each (R251). -/
  armed    : List (Nat × Nat) := []
  hbA      : HbPath := {}
  hbB      : HbPath := {}
  tgt      : List (Nat × TgtWin) := []
  canFleet : Nat := 0
  /-- The tick and the cycle of the last fleet release (row 4 of R265). -/
  fleetRel : Nat × Nat := (0, 0)
  resumes  : List ResumePend := []
  deriving DecidableEq, Repr

/-! ### LOG -/

/-- The record kinds of R440. -/
inductive LogKind where
  | event | fault | note | memFault
  deriving DecidableEq, Repr

/-- A Logbook record (R440), or one waiting in the queue (R439) with SEQ 0. -/
structure LogRec where
  kind   : LogKind
  peer   : Bool
  seq    : Nat
  source : Nat
  rep    : Nat
  mode   : Nat
  stamp  : Nat
  tick   : Nat
  lastDt : Nat
  data   : List Byte
  deriving DecidableEq, Repr

/-- A block of the ring with the records it holds, oldest first (R436). -/
structure LogBlock where
  id   : Nat
  recs : List LogRec
  deriving DecidableEq, Repr

structure LogState where
  queue   : List LogRec := []
  /-- Blocks holding records, oldest first; ring blocks not yet used, in ring order. -/
  blocks  : List LogBlock := []
  empty   : List Nat := List.range 124
  spares  : List Nat := [124, 125, 126, 127]
  /-- The read port: SEQ of its record, and word within the record (R445). -/
  portSeq : Nat := 0
  portWord : Nat := 0
  /-- Records to go to the peer in the next link status frame (R443). -/
  toPeer  : List LogRec := []
  deriving DecidableEq, Repr

/-! ### BOOT -/

/-- What the module keeps of an image (R488): FW_VERSION, SVN, the ISO_OPT and SVN_COMMIT flags, and how many of its MPW
entries are used. -/
structure ImageInfo where
  version   : Nat
  svn       : Nat
  iso       : Bool
  svnCommit : Bool
  mpw       : Nat
  deriving DecidableEq, Repr

/-- The image at manufacture (log entry 3). -/
def firstImage : ImageInfo := { version := 0, svn := 1, iso := false, svnCommit := false, mpw := 0 }

structure BootState where
  /-- The executable slot in flash, and whether R486 refuses what it now holds; the running image. -/
  slot     : ImageInfo := firstImage
  slotBad  : Bool := false
  running  : ImageInfo := firstImage
  /-- The configuration record in flash: the RWS fields that differ from their reset values, by register key. -/
  cfg      : Option (List (Nat × Nat)) := none
  /-- Commands in progress: an image being written; records being stored; the re-check of ACTIVATE; its pause, still to
  start or with its ticks so far. -/
  load     : Option (Handle × ImageInfo) := none
  saves    : List (Handle × List (Nat × Nat)) := []
  check    : Option Handle := none
  pause    : Option (Handle × Option Nat) := none
  /-- RESET and LEAVE_MAINT act at the next tick boundary. -/
  reset    : Bool := false
  leave    : Bool := false
  /-- Ticks since reset release; the sealed setup is written and BOOT may end. -/
  ticks    : Nat := 0
  sealed   : Bool := false
  /-- The cause of the last DEAD (R496). -/
  cause    : Nat := 0
  /-- STP events held back until the pause ends (row 6 of R497). -/
  heldEvts : List (Nat × Nat) := []
  deriving DecidableEq, Repr

/-! ### TWN -/

/-- A stream sent and not yet acknowledged (R323 to R326): its tick, the tick up to which every item of orders 1 and 2
has been packed, its entries, and item 8. -/
structure Flight where
  tick  : Nat
  cover : Nat
  items : List ReflEntry
  digest : Nat
  deriving DecidableEq, Repr

/-- A handover agreed (R335): its command, watch boundaries left, the role, and whether the lead goes to MAINTENANCE
(row 2 of R493). -/
structure Handover where
  h     : Handle
  left  : Nat
  role  : Nat
  maint : Bool
  deriving DecidableEq, Repr

structure TwnState where
  /-- The HEALTH wave this module drives; GONE shown; ticks LEAD_CLAIM stays energised; ticks the peer's is shown. -/
  health    : Bool := false
  gone      : Bool := false
  claimLeft : Nat := 0
  claimIn   : Nat := 0
  /-- The module is executing a reflected command of this tick (R323 item 3). -/
  reflecting : Bool := false
  reflTick  : Nat := 0
  /-- A reflected step of TB1 has been accepted in this application. -/
  stepSeen  : Bool := false
  /-- The greatest lead epoch used, adopted or read from the peer, and the one in flash (R321). -/
  maxEpoch  : Nat := 0
  flashEpoch : Nat := 0
  /-- The last reflected tick (R324). -/
  lastRefl  : Nat := 0
  /-- Entries noted; entries that a stream had no room for, which go first in the next one; the number of the next entry;
  streams in flight; the tick up to which orders 1 and 2 were packed. -/
  items     : List ReflEntry := []
  carry     : List ReflEntry := []
  seq       : Nat := 0
  flight    : List Flight := []
  cover     : Nat := 0
  /-- The tick whose item 1 counts as acknowledged at this boundary, at the next one, and at the one after (R324); the one
  up to which orders 1 and 2 have been carried by streams whose item 8 is acknowledged (R326). -/
  ack1      : Nat := 0
  ack1Next  : Nat := 0
  ack1Late  : Nat := 0
  ack8      : Nat := 0
  /-- Ticks in a row with row 1 of R326; nothing is fetched in this tick. -/
  unackRun  : Nat := 0
  noFetch   : Bool := false
  /-- The streams received, to be applied at the next boundary: tick, entries in the lead's order of work, item 8. -/
  rx        : List (Nat × List ReflEntry × Nat) := []
  /-- Filters of the lead that a repair still owes (R327). -/
  owed      : List (Nat × FixFilt) := []
  /-- Completions of reflected commands the lead has already written (R333). -/
  written   : List Handle := []
  /-- The claim decided at 960 µs (R329), as a LAST_CLAIM code. -/
  claim     : Option Nat := none
  handover  : Option Handover := none
  handoverNow : Bool := false
  /-- Handovers agreed while one is pending. -/
  later     : List Handover := []
  /-- Ticks since the peer became PEER_GONE or silent (R329 row 2); ticks without a valid lead beacon in a row; one has
  been heard in this tick. -/
  goneTicks : Nat := 0
  noBeacon  : Nat := 0
  beaconSeen : Bool := false
  /-- The link is silent (R318). -/
  silent    : Bool := false
  /-- Step down at the next boundary. -/
  stepDown  : Bool := false
  /-- An election is in progress (R320); ticks without a status frame; the peer's frame says it has finished BOOT. -/
  electing  : Bool := false
  waitTicks : Nat := 0
  peerFinished : Bool := false
  /-- This module follows the peer's time; the master's state, source, uncertainty (R322). -/
  follows   : Bool := false
  mState    : Nat := 0
  mSrc      : Nat := 3
  mUncert   : Nat := 0xFFFFFFFF
  /-- The peer's stop chain is clear (R264 row 4). -/
  peerStopClear : Bool := true
  /-- The peer's accepted pointers, by submission ring (R333). -/
  accPtr    : List (Nat × Nat) := []
  /-- The fleet keys of the two modules differ, as last compared (R459). -/
  mismatch  : Bool := false
  /-- MODULE 1 commands waiting for the peer's result (in a shadow: MODULE 0 ones), with the refusal (status, detail)
  that completes them when the pair is lost. -/
  peerCmds  : List (Handle × Nat × Nat) := []
  deriving DecidableEq, Repr

/-! ### KVT -/

/-- A KVT_COMMIT accepted (R455): its command, the tick of acceptance, whether the module led then; the ticks in which
its records were written and in which the peer reported its own. -/
structure KvtCommit where
  h       : Handle
  tick    : Nat
  lead    : Bool
  written : Option Nat := none
  peer    : Option Nat := none
  deriving DecidableEq, Repr

/-- A key load waiting for its flash write: its command, generation, KCV and key (R454). -/
structure KvtLoad where
  h   : Handle
  gen : Nat
  kcv : Nat
  key : List Byte
  deriving DecidableEq, Repr

/-- A commit record in flash (R456): its epoch, and the fleet key it names (generation, KCV). -/
structure KvtRec where
  epoch : Nat
  fk    : Option (Nat × Nat)
  deriving DecidableEq, Repr

structure KvtState where
  /-- The volatile keys are present (zeroised in DEAD and by tamper, R462); the group session key can be supplied. -/
  volatile : Bool := false
  gs       : Bool := false
  /-- The stored key epoch: the highest used or adopted (R299, R452). -/
  stored   : Nat := 0
  /-- In flash: the two commit records, the active fleet key (generation, KCV), the pending one, the host window map
  (R464). -/
  copy0    : Option KvtRec := none
  copy1    : Option KvtRec := none
  active   : Option (Nat × Nat) := none
  next     : Option (Nat × Nat) := none
  /-- The active and the pending fleet key themselves, and the fleet key of the previous epoch (R449, R451). -/
  fk       : List Byte := []
  fkNext   : List Byte := []
  fkOld    : List Byte := []
  hwin     : Option (List (Nat × Nat × Nat × Nat)) := none
  /-- Tamper leads to DEAD at the next tick boundary. -/
  dying    : Bool := false
  loads    : List KvtLoad := []
  commit   : Option KvtCommit := none
  /-- Keys that are being derived again (R461). -/
  redo     : List KeyUse := []
  /-- Ticks since the last re-masking began (R460). -/
  mask     : Nat := 0
  deriving DecidableEq, Repr

/-! ### CAN -/

/-- A transmit buffer: its record, and the CAN_SEND it came from where it is queue-fed. -/
structure CanBuf where
  frame : List Byte := []
  h     : Option Handle := none
  deriving DecidableEq, Repr

/-- A mailbox record and its shadow buffer (R391). -/
structure CanBox where
  frame : List Byte := []
  shad  : List Byte := []
  deriving DecidableEq, Repr

/-- A frame that may be on the bus as its channel goes OFF: its buffer (none: the stop-class buffer), its CAN_SEND, and
the frame (R394). -/
structure CanTail where
  buf   : Option Nat
  stop  : Option StopFrame := none
  h     : Option Handle := none
  frame : List Byte := []
  deriving DecidableEq, Repr

/-- A CAN channel beside its registers. -/
structure CanCh where
  /-- The stop-class buffer, fleet frames ahead of targeted ones (R389). -/
  stop    : List StopFrame := []
  /-- The frame it offers (R383): none, the stop-class frame, or a transmit buffer. -/
  offer   : Option (Option Nat) := none
  /-- The stop-class frame it offers. -/
  stopOn  : Option StopFrame := none
  tail    : Option CanTail := none
  bufs    : List (Nat × CanBuf) := []
  boxes   : List (Nat × CanBox) := []
  /-- The CAN_SEND of each packet of CAN_TX_c, oldest first. -/
  handles : List Handle := []
  /-- OFF by CAN_CTRL; CAN_CTRL commands for the next tick boundary. -/
  off     : Bool := false
  acts    : List (Handle × Nat) := []
  /-- Error counters; recovery running; the counters survive the present integration. -/
  tec     : Nat := 0
  rx      : Nat := 0
  recov   : Bool := false
  keep    : Bool := false
  /-- A handover to another controller waits for the bus to be idle: counters taken over or not (R397). -/
  hand    : Option Bool := none
  /-- Queues that lost a frame of this channel since the last one placed. -/
  lostQ   : List Nat := []
  /-- The address claimed or held, the tick of the claim, the addresses of other claims (R396). -/
  iso     : Nat := 0xFE
  isoAt   : Nat := 0
  seen    : List Nat := []
  deriving DecidableEq, Repr

structure CanState where
  chans   : List (Nat × CanCh) := []
  /-- Controllers that go out at the next tick boundary: controller, by a fault, counters readable. -/
  outs    : List (Nat × Bool × Bool) := []
  /-- The module sent frames up to the last boundary. -/
  sending : Bool := false
  deriving DecidableEq, Repr

/-! ### Units with a spare (R476, R477) -/

/-- A unit with a spare: out of service (by a fault), or back and standby; the RETURNs it serves; failed retests; a
self-test passed and its rejoining at the next watch boundary; watches without fault and faults since it rejoined; the
OUTs accepted for it. -/
structure UnitSt where
  out     : Bool := false
  byFault : Bool := false
  standby : Bool := false
  ret     : List Handle := []
  tests   : Nat := 0
  passed  : Bool := false
  stable  : Nat := 0
  faults  : Nat := 0
  outPend : List Handle := []
  deriving DecidableEq, Repr

/-- The SLC flash (R473): erase counts by block; the two copies of the mapping table, each with its number and the block
it stands in, logical areas to physical blocks plus 1; blocks retired; the write or move in progress: its area and the
block programmed; areas whose data a word lost has taken (R27). -/
structure Flash where
  erases : List (Nat × Nat) := []
  map0   : List (Nat × Nat) := []
  map1   : List (Nat × Nat) := []
  seq0   : Nat := 0
  seq1   : Nat := 0
  blk0   : Nat := 0
  blk1   : Nat := 1
  bad    : List Nat := []
  move   : Option (Nat × Nat) := none
  lost   : List Nat := []
  deriving DecidableEq, Repr

/-- SVC beside its registers. -/
structure SvcState where
  /-- Units that are not simply in service, by 2³² × class + index. -/
  units   : List (Nat × UnitSt) := []
  /-- The watch's words corrected and uncorrectable, OVR seen, greatest USED_US, FIX_LATE records (R475). -/
  corr    : Nat := 0
  uncorr  : Nat := 0
  ovr     : Nat := 0
  bgMax   : Nat := 0
  /-- The tick at which background service began. -/
  began   : Nat := 0
  /-- Scrub passes (R469, R470): by memory, the tick at which the pass began, and those already reported late. -/
  scrubAt : List (Nat × Nat) := []
  late    : List Nat := []
  flash   : Flash := {}
  /-- Calibrations: tick of the last accepted result, by 8 × calibration + unit (R472). -/
  calTick : List (Nat × Nat) := []
  /-- The results in use: detector offset of a transceiver, offset and gain of a POS channel. -/
  hbOff   : List (Nat × Int) := []
  posOff  : List (Nat × Int) := []
  posGain : List (Nat × Nat) := []
  /-- Rows in which the last scrub pass corrected a word, and those of the present pass (R471). -/
  rowHit  : List Nat := []
  rowNow  : List Nat := []
  /-- SVC_UNIT OUT of rows, ports and stop paths for the next tick boundary: class, index, by a fault. -/
  outs    : List (Nat × Nat × Bool) := []
  /-- The RESTOREs of stop path A accepted (R478). -/
  restore : List Handle := []
  /-- A telemetry record formed and not yet written (R475). -/
  tel     : Option (List Byte) := none
  deriving DecidableEq, Repr

/-! ### ETH -/

/-- A master a port has heard (IEEE 1588-2019, the default BMCA of R86): its port, the dataset and stepsRemoved of its
last Announce, and the ticks of its last two. -/
structure Foreign where
  src   : PortId
  gm    : GmData
  steps : Nat
  ticks : List Nat
  deriving DecidableEq, Repr

/-- A stamped message whose exchange is not complete: the peer's port, the sequenceId, the stamp at the MDI, what the
messages so far give to be subtracted from the difference of the stamps, the tick of the first local stamp, and the
slews up to the stamp; the tick of the last local stamp of a peer delay exchange. -/
structure Exchange where
  src   : PortId
  seq   : Nat
  stamp : Int
  corr  : Int
  tick  : Nat
  slew  : Int
  last  : Nat := 0
  deriving DecidableEq, Repr

/-- What a port holds beside its registers: the filtered mean path delay in ps (none before the first) and the samples
rejected in a row; the masters heard and the one followed; a Sync waiting for its Follow_Up, the master-to-slave
difference of the last Sync with the tick of its stamp, a Delay_Req or Pdelay_Req sent, a Pdelay_Resp waiting for its
Follow_Up; the sequenceIds of Sync, Announce and requests; entries of the stamp FIFO in use; watches in service; the
register words in force until the next tick boundary, where its configuration was written (R94); it has been out. -/
structure EthPort where
  mpd     : Option Int := none
  rejects : List Int := []
  foreign : List Foreign := []
  parent  : Option Foreign := none
  sync    : Option Exchange := none
  msDiff  : Option (Int × Nat) := none
  req     : Option Exchange := none
  resp    : Option Exchange := none
  syncSeq : Nat := 0
  annSeq  : Nat := 0
  reqSeq  : Nat := 0
  fifo    : Nat := 0
  watches : Nat := 0
  was     : Option (List (Nat × Nat)) := none
  wasOut  : Bool := false
  deriving DecidableEq, Repr

structure EthState where
  ports   : List (Nat × EthPort) := []
  /-- Identity of the grandmaster the BMCA selected; none: the module itself (R98). -/
  gm      : Option Nat := none
  /-- Tick in which TB2 last stepped (row 1 of R96). -/
  stepTick : Option Nat := none
  /-- The leap-second count of navigation data (R93). -/
  navUtc  : Option Nat := none
  deriving DecidableEq, Repr

/-! ### POS -/

/-- A POS_DRIVE command accepted for the next tick boundary (R413). -/
structure DriveCmd where
  h        : Handle
  n        : Nat
  action   : Nat
  homed    : Bool
  position : Int
  deriving DecidableEq, Repr

/-- What a channel holds beside its registers: enabled by POS_DRIVE; bridges off by a fault; RUN_MA in force; stepping; tick of the
last microstep; switch inputs active; encoder lines, count and offset in 2⁻¹⁶ microstep; the first ENABLE has been given,
and the offset is set at the next boundary; load-angle history in microsteps and full steps at the stall level in a row;
auto-tune in progress; the homing; the target currents of phases A and B in µA (R403). -/
structure PosCh where
  en      : Bool := false
  fault   : Bool := false
  run     : Bool := false
  stepping : Bool := false
  last    : Nat := 0
  act     : Nat := 0
  encA    : Bool := false
  encB    : Bool := false
  count   : Int := 0
  encOff  : Int := 0
  enSeen  : Bool := false
  align   : Bool := false
  laHist  : Nat := 0
  laLow   : Nat := 0
  tuning  : Bool := false
  homing  : Option Homing := none
  coil    : Int × Int := (0, 0)
  deriving DecidableEq, Repr

structure PosState where
  chans   : List (Nat × PosCh) := []
  cmds    : List DriveCmd := []
  /-- An overtemperature has been met and the drivers are not yet below 130 °C. -/
  hot     : Bool := false
  /-- After a claim, the tick from which enabled channels are energised (R416). -/
  wait    : Option Nat := none
  /-- The module was leading at the last boundary. -/
  ran     : Bool := false
  deriving DecidableEq, Repr

/-! ### The module -/

/-- The module. -/
structure State where
  /-- The mode in force (R6), read in HST_MODE. -/
  mode    : Mode
  /-- Held in reset after a supply failure until power returns (R485). -/
  held    : Bool
  /-- The tick number (R37). -/
  tick    : Nat
  /-- Register fields that differ from their reset values: key 32 × address + lsb, value XOR reset value. -/
  regs    : List (Nat × Nat)
  /-- How many free values have been drawn. -/
  free    : Nat
  /-- What the last command put out. -/
  out     : List Out
  /-- Raisings already made in this tick, and in this watch, of events limited to one. -/
  onceTick  : List Nat
  onceWatch : List Nat
  /-- The instant of the tick the operands of the command being carried out give, in 2⁻¹⁶ ns (none between commands). -/
  inst    : Option Nat
  /-- The mode the module enters at the next tick boundary. -/
  modeNext : Option Mode
  ttu     : TtuState
  eth     : EthState
  sxt     : SxtState
  obs     : ObsState
  fix     : FixState
  cht     : ChtState
  asg     : AsgState
  prf     : PrfState
  pos     : PosState
  stp     : StpState
  luv     : LuvState
  sec     : SecState
  twn     : TwnState
  hst     : HstState
  cpl     : CplState
  svc     : SvcState
  kvt     : KvtState
  log     : LogState
  glt     : GltState
  can     : CanState
  bt      : BootState
  /-- Commands waiting, first in, first out. -/
  pending : List Instr
  deriving DecidableEq, Repr

/-- The module right after reset release (R482): BOOT, tick 0, every register at its reset value, queue empty. -/
def State.reset : State where
  mode := .boot
  held := false
  tick := 0
  regs := []
  free := 0
  out := []
  onceTick := []
  onceWatch := []
  inst := none
  modeNext := none
  ttu := {}
  eth := {}
  sxt := {}
  obs := {}
  fix := {}
  cht := {}
  asg := {}
  prf := {}
  pos := {}
  stp := {}
  luv := {}
  sec := {}
  twn := {}
  hst := {}
  cpl := {}
  svc := {}
  kvt := {}
  log := {}
  glt := {}
  can := {}
  bt := {}
  pending := []

end Sys2Proof.Machine
end

