-- ==== Sys2Proof/Machine/Regs.lean ====
section
/-! DEFINITION. Sys2Proof/Machine/Regs.lean: every register field the spec's register tables give the module, one
constant per field: its BAR0 byte address (BAR2 counts on from 0x20_0000), its bits, its access code (R9), its reset
value, and its index strides. The rule of each table stands in the heading above its fields. -/

namespace Sys2Proof.Machine

/-- A field without an index. -/
def fld (off lsb width : Nat) (acc : Access) (reset : Nat) : Field :=
  { off := off, lsb := lsb, width := width, acc := acc, reset := fun _ _ => reset }

/-- The field repeated `count` times, `stride` bytes apart. -/
def Field.idx (f : Field) (stride count : Nat) : Field := { f with s1 := stride, c1 := count }

/-- A second index inside the first. -/
def Field.idx2 (f : Field) (stride count : Nat) : Field := { f with s2 := stride, c2 := count }

/-- A reset value that depends on the indexes, or that the part's manufacture fixes. -/
def Field.resetBy (f : Field) (r : Nat → Nat → Nat) : Field := { f with reset := r }

/-- Slot length of engine e in one tick, in units of 0.1 µs (R40, engine order of R56). -/
def ttuSlotLen (e _ : Nat) : Nat :=
  [40, 400, 1600, 6300, 1200, 1000, 200, 300, 150, 100, 400, 4000, 1200].getD e 0

/-- The default correlator spacing k of signal s (R102). -/
def sxtSpacing (s _ : Nat) : Nat :=
  [8, 8, 8, 32, 8, 32, 32, 16, 16, 8, 32, 32, 8, 8, 8, 8, 32, 8].getD s 0

/-- The default coherent integration time of signal s in ms (R102). -/
def sxtTCoh (s _ : Nat) : Nat :=
  [20, 10, 20, 10, 20, 10, 10, 10, 20, 10, 10, 20, 10, 10, 20, 20, 10, 2].getD s 0

/-- The home bank of logical channel c (R126). -/
def sxtHomeBank (c _ : Nat) : Nat := c / 64

/-- The centre in MHz of HB_A and HB_B at reset (R294). -/
def luvChanMhz (n _ : Nat) : Nat := if n = 0 then 5500 else 5560

/-- MAX_PKTS, MAX_CELLS and MIN_CELLS of the fixed queues (R367; CAN queues R384). -/
def cplFixedLimits (q : Nat) : Nat × Nat × Nat :=
  if q < 128 then (2, 14, 7)
  else if q = 128 then (1024, 1024, 64)
  else if q = 129 then (1024, 1024, 256)
  else if q = 130 then (1024, 1024, 0)
  else if q = 131 then (256, 1024, 256)
  else if q = 132 then (2560, 2560, 256)
  else if q = 133 then (1024, 1024, 64)
  else if q = 134 then (16, 80, 10)
  else if 136 ≤ q ∧ q ≤ 139 then (1024, 1024, 64)
  else if 140 ≤ q ∧ q ≤ 143 then (64, 64, 64)
  else (0, 0, 0)

/-- Fixed queues: 0 to 134 and 136 to 143 (R367). -/
def cplFixed (q _ : Nat) : Nat := if q ≤ 134 ∨ (136 ≤ q ∧ q ≤ 143) then 1 else 0
/-- The fixed queues exist from reset (R367). -/
def cplExists (q _ : Nat) : Nat := cplFixed q 0
def cplMaxPkts (q _ : Nat) : Nat := (cplFixedLimits q).1
def cplMaxCells (q _ : Nat) : Nat := (cplFixedLimits q).2.1
def cplMinCells (q _ : Nat) : Nat := (cplFixedLimits q).2.2
/-- The sum of MIN_CELLS over the fixed queues (R368). -/
def cplReservedCells (_ _ : Nat) : Nat := 128 * 7 + 64 + 256 + 0 + 256 + 256 + 64 + 10 + 4 * 64 + 4 * 64


/-! TTU_TICK_LO, R56 -/
def Reg.TTU_TICK_LO.TICK_LO : Field := fld 0x0 0 32 .ro 0

/-! TTU_TICK_HI, R56 -/
def Reg.TTU_TICK_HI.TICK_HI : Field := fld 0x4 0 32 .ro 0

/-! TTU_WATCH_POS, R56 -/
def Reg.TTU_WATCH_POS.TICK_IN_WATCH : Field := fld 0x8 0 7 .ro 0
def Reg.TTU_WATCH_POS.STRETCHED : Field := fld 0x8 7 1 .ro 0

/-! TTU_TICK_CTRL, R56 -/
def Reg.TTU_TICK_CTRL.WATCH_EVT_EN : Field := fld 0xC 0 1 .rw 0

/-! TTU_CLOSING, R56 -/
def Reg.TTU_CLOSING.CLOSING_TICKS : Field := fld 0x10 0 8 .ro 0
def Reg.TTU_CLOSING.STEP_PENDING : Field := fld 0x10 8 1 .ro 0

/-! TTU_STRETCH, R56 -/
def Reg.TTU_STRETCH.STRETCH_NS : Field := fld 0x14 0 20 .ro 0

/-! TTU_LAST_TICK_LEN, R56 -/
def Reg.TTU_LAST_TICK_LEN.LEN_NS : Field := fld 0x18 0 32 .ro 0

/-! TTU_BG_USED, R56 -/
def Reg.TTU_BG_USED.USED_US : Field := fld 0x1C 0 7 .ro 0
def Reg.TTU_BG_USED.BACKLOG_TICKS : Field := fld 0x1C 16 16 .ro 0

/-! TTU_BUDGET_STATUS, R56 -/
def Reg.TTU_BUDGET_STATUS.OVR : Field := fld 0x80 0 13 .w1c 0

/-! TTU_BUDGET_MASK, R56 -/
def Reg.TTU_BUDGET_MASK.EVT_EN : Field := fld 0x84 0 13 .rw 0x1fff

/-! TTU_BUDGET_CLR, R56 -/
def Reg.TTU_BUDGET_CLR.CLEAR : Field := fld 0x88 0 1 .wo 0

/-! TTU_SLOT_USE, R56 (index e, 13) -/
def Reg.TTU_SLOT_USE.MAX_USE : Field := (fld 0x100 0 16 .ro 0).idx 0x8 13
def Reg.TTU_SLOT_USE.SLOT_LEN : Field := ((fld 0x100 16 16 .ro 0).idx 0x8 13).resetBy ttuSlotLen

/-! TTU_SLOT_OVR, R56 (index e, 13) -/
def Reg.TTU_SLOT_OVR.OVR_COUNT : Field := (fld 0x104 0 32 .ro 0).idx 0x8 13

/-! TTU_TIME_CFG, R82 -/
def Reg.TTU_TIME_CFG.PRIO_GNSS : Field := fld 0x200 0 2 .rws 0
def Reg.TTU_TIME_CFG.PRIO_REF : Field := fld 0x200 2 2 .rws 1
def Reg.TTU_TIME_CFG.PRIO_PTP : Field := fld 0x200 4 2 .rws 2
def Reg.TTU_TIME_CFG.EN_GNSS : Field := fld 0x200 8 1 .rws 1
def Reg.TTU_TIME_CFG.EN_REF : Field := fld 0x200 9 1 .rws 0
def Reg.TTU_TIME_CFG.EN_PTP : Field := fld 0x200 10 1 .rws 0
def Reg.TTU_TIME_CFG.PPS_EDGE : Field := fld 0x200 11 1 .rws 0

/-! TTU_PPS_DELAY, R82 -/
def Reg.TTU_PPS_DELAY.DELAY : Field := fld 0x204 0 16 .rws 0

/-! TTU_TB2_OFFSET, R82 -/
def Reg.TTU_TB2_OFFSET.OFFS_S_LO : Field := fld 0x208 0 32 .rws 0x12d53d93
def Reg.TTU_TB2_OFFSET.OFFS_S_HI : Field := fld 0x20C 0 16 .rws 0
def Reg.TTU_TB2_OFFSET.OFFS_NS : Field := fld 0x210 0 30 .rws 0

/-! TTU_TIME_STATE, R82 -/
def Reg.TTU_TIME_STATE.STATE : Field := fld 0x220 0 3 .ro 0
def Reg.TTU_TIME_STATE.SRC : Field := fld 0x220 4 2 .ro 3
def Reg.TTU_TIME_STATE.Q_GNSS : Field := fld 0x220 8 1 .ro 0
def Reg.TTU_TIME_STATE.Q_REF : Field := fld 0x220 9 1 .ro 0
def Reg.TTU_TIME_STATE.Q_PTP : Field := fld 0x220 10 1 .ro 0
def Reg.TTU_TIME_STATE.DISC_24H : Field := fld 0x220 16 1 .ro 0

/-! TTU_UNCERT, R82 -/
def Reg.TTU_UNCERT.UNCERT_NS : Field := fld 0x224 0 32 .ro 0xffffffff

/-! TTU_OFFSET, R82 -/
def Reg.TTU_OFFSET.OFFSET_LO : Field := fld 0x228 0 32 .ro 0
def Reg.TTU_OFFSET.OFFSET_HI : Field := fld 0x22C 0 32 .ro 0

/-! TTU_DISC_TIME, R82 -/
def Reg.TTU_DISC_TIME.DISC_S : Field := fld 0x230 0 32 .ro 0

/-! TTU_REF_UNCERT, R82 -/
def Reg.TTU_REF_UNCERT.REF_UNCERT : Field := fld 0x234 0 32 .rws 0x32

/-! TTU_DR_DF, R82 -/
def Reg.TTU_DR_DF.DF : Field := fld 0x238 0 32 .ro 0xffffffff

/-! TTU_DR_AGE, R82 -/
def Reg.TTU_DR_AGE.AGE : Field := (fld 0x23C 0 32 .ro 0).resetBy (fun _ _ => Config.drAge)

/-! TTU_LATCH, R82 -/
def Reg.TTU_LATCH.LATCH : Field := fld 0x240 0 1 .wo 0

/-! TTU_TB_LATCH, R82 (index n, 4) -/
def Reg.TTU_TB_LATCH.SUB : Field := (fld 0x250 0 16 .ro 0).idx 0x10 4
def Reg.TTU_TB_LATCH.NS : Field := (fld 0x254 0 32 .ro 0).idx 0x10 4
def Reg.TTU_TB_LATCH.S_LO : Field := (fld 0x258 0 32 .ro 0).idx 0x10 4
def Reg.TTU_TB_LATCH.S_HI : Field := (fld 0x25C 0 16 .ro 0).idx 0x10 4

/-! TTU_PULSE, R82 (index n, 4) -/
def Reg.TTU_PULSE.EN : Field := (fld 0x300 0 1 .rws 0).idx 0x40 4
def Reg.TTU_PULSE.MODE : Field := (fld 0x300 1 1 .rws 0).idx 0x40 4
def Reg.TTU_PULSE.TB_SEL : Field := (fld 0x300 2 2 .rws 1).idx 0x40 4
def Reg.TTU_PULSE.POL : Field := (fld 0x300 4 1 .rws 0).idx 0x40 4
def Reg.TTU_PULSE.START_SUB : Field := (fld 0x304 0 16 .rws 0).idx 0x40 4
def Reg.TTU_PULSE.START_NS : Field := (fld 0x308 0 32 .rws 0).idx 0x40 4
def Reg.TTU_PULSE.START_S_LO : Field := (fld 0x30C 0 32 .rws 0).idx 0x40 4
def Reg.TTU_PULSE.START_S_HI : Field := (fld 0x310 0 16 .rws 0).idx 0x40 4
def Reg.TTU_PULSE.PERIOD_NS : Field := (fld 0x314 0 32 .rws 0x3b9aca00).idx 0x40 4
def Reg.TTU_PULSE.PERIOD_SUB : Field := (fld 0x318 0 16 .rws 0).idx 0x40 4
def Reg.TTU_PULSE.WIDTH_NS : Field := (fld 0x31C 0 32 .rws 0x5f5e100).idx 0x40 4
def Reg.TTU_PULSE.COUNT_LO : Field := (fld 0x320 0 32 .ro 0).idx 0x40 4
def Reg.TTU_PULSE.COUNT_HI : Field := (fld 0x324 0 32 .ro 0).idx 0x40 4
def Reg.TTU_PULSE.ARMED : Field := (fld 0x328 0 1 .ro 0).idx 0x40 4
def Reg.TTU_PULSE.LAST_STEP : Field := (fld 0x328 1 1 .ro 0).idx 0x40 4
def Reg.TTU_PULSE.LAST_MISSED : Field := (fld 0x328 2 1 .ro 0).idx 0x40 4

/-! TTU_CAPT, R82 (index n, 4) -/
def Reg.TTU_CAPT.EN : Field := (fld 0x400 0 1 .rws 0).idx 0x20 4
def Reg.TTU_CAPT.EDGE : Field := (fld 0x400 1 2 .rws 1).idx 0x20 4
def Reg.TTU_CAPT.TB_SEL : Field := (fld 0x400 4 2 .rws 1).idx 0x20 4
def Reg.TTU_CAPT.FIFO_LEVEL : Field := (fld 0x404 0 5 .ro 0).idx 0x20 4
def Reg.TTU_CAPT.OVF_COUNT : Field := (fld 0x404 16 16 .ro 0).idx 0x20 4

/-! TTU_TDC_CAL, R82 -/
def Reg.TTU_TDC_CAL.BIN_FS : Field := fld 0x480 0 16 .ro 0x2710
def Reg.TTU_TDC_CAL.CAL_OK : Field := fld 0x480 16 1 .ro 0

/-! ETH_PTP_CFG, R97 -/
def Reg.ETH_PTP_CFG.DOMAIN : Field := fld 0x10000 0 7 .rws 0
def Reg.ETH_PTP_CFG.PRIORITY1 : Field := fld 0x10000 8 8 .rws 0x80
def Reg.ETH_PTP_CFG.PRIORITY2 : Field := fld 0x10000 16 8 .rws 0x80
def Reg.ETH_PTP_CFG.PREF_SLAVE : Field := fld 0x10000 24 1 .rws 0

/-! ETH_UTC, R97 -/
def Reg.ETH_UTC.UTC_OFFSET : Field := fld 0x10004 0 16 .rws 0x25
def Reg.ETH_UTC.FROM_NAV : Field := fld 0x10004 16 1 .ro 0

/-! ETH_CLOCK_ID, R97 -/
def Reg.ETH_CLOCK_ID.ID_LO : Field := (fld 0x10008 0 32 .ro 0).resetBy (fun _ _ => Config.clockIdLo)
def Reg.ETH_CLOCK_ID.ID_HI : Field := (fld 0x1000C 0 32 .ro 0).resetBy (fun _ _ => Config.clockIdHi)

/-! ETH_P_CFG, R97 (index port, 2) -/
def Reg.ETH_P_CFG.EN : Field := (fld 0x10100 0 1 .rws 0).idx 0x80 2
def Reg.ETH_P_CFG.DELAY_MECH : Field := (fld 0x10100 1 1 .rws 0).idx 0x80 2
def Reg.ETH_P_CFG.ONE_STEP : Field := (fld 0x10100 2 1 .rws 0).idx 0x80 2
def Reg.ETH_P_CFG.TRANSPORT : Field := (fld 0x10100 3 1 .rws 0).idx 0x80 2
def Reg.ETH_P_CFG.SLAVE_ONLY : Field := (fld 0x10100 4 1 .rws 0).idx 0x80 2
def Reg.ETH_P_CFG.LOG_ANNOUNCE : Field := (fld 0x10100 8 3 .rws 1).idx 0x80 2
def Reg.ETH_P_CFG.LOG_SYNC : Field := (fld 0x10100 12 4 .rws 0).idx 0x80 2
def Reg.ETH_P_CFG.LOG_MIN_DELAY_REQ : Field := (fld 0x10100 16 4 .rws 0).idx 0x80 2
def Reg.ETH_P_CFG.ANNOUNCE_TIMEOUT : Field := (fld 0x10100 20 4 .rws 3).idx 0x80 2

/-! ETH_P_LAT, R97 (index port, 2) -/
def Reg.ETH_P_LAT.ING_LAT_PS : Field := (fld 0x10104 0 32 .rws 0x35b60).idx 0x80 2
def Reg.ETH_P_LAT.EGR_LAT_PS : Field := (fld 0x10108 0 32 .rws 0x222e0).idx 0x80 2
def Reg.ETH_P_LAT.ASYM_PS : Field := (fld 0x1010C 0 32 .rws 0).idx 0x80 2

/-! ETH_P_PD_JUMP, R97 (index port, 2) -/
def Reg.ETH_P_PD_JUMP.PD_JUMP_NS : Field := (fld 0x10110 0 16 .rws 0x64).idx 0x80 2

/-! ETH_P_STATUS, R97 (index port, 2) -/
def Reg.ETH_P_STATUS.LINK : Field := (fld 0x10120 0 1 .ro 0).idx 0x80 2
def Reg.ETH_P_STATUS.IN_SERVICE : Field := (fld 0x10120 1 1 .ro 0).idx 0x80 2
def Reg.ETH_P_STATUS.PORT_STATE : Field := (fld 0x10120 4 4 .ro 1).idx 0x80 2

/-! ETH_P_MEAS, R97 (index port, 2) -/
def Reg.ETH_P_MEAS.MPD_PS : Field := (fld 0x10124 0 32 .ro 0).idx 0x80 2
def Reg.ETH_P_MEAS.OFFSET_NS : Field := (fld 0x10128 0 32 .ro 0).idx 0x80 2

/-! ETH_P_CNT, R97 (index port, 2) -/
def Reg.ETH_P_CNT.RX_OTHER : Field := (fld 0x10130 0 32 .ro 0).idx 0x80 2
def Reg.ETH_P_CNT.DISCARD_STEP : Field := (fld 0x10134 0 32 .ro 0).idx 0x80 2
def Reg.ETH_P_CNT.STAMP_MISS : Field := (fld 0x10138 0 32 .ro 0).idx 0x80 2
def Reg.ETH_P_CNT.PD_REJECT : Field := (fld 0x1013C 0 32 .ro 0).idx 0x80 2

/-! SXT_CTRL, R126 -/
def Reg.SXT_CTRL.BAND_EN : Field := fld 0x20000 0 3 .rws 7

/-! SXT_ANT_CFG, R126 -/
def Reg.SXT_ANT_CFG.BIAS_EN : Field := fld 0x20004 0 1 .rws 1

/-! SXT_ANT_STATUS, R126 -/
def Reg.SXT_ANT_STATUS.ANT_STATE : Field := fld 0x20008 0 2 .ro 0
def Reg.SXT_ANT_STATUS.CURRENT_MA : Field := fld 0x20008 8 8 .ro 0

/-! SXT_SIG_EN, R126 -/
def Reg.SXT_SIG_EN.SIG_EN : Field := fld 0x20010 0 18 .rws 0x3ffff

/-! SXT_ALLOC, R126 -/
def Reg.SXT_ALLOC.ELEV_MASK : Field := fld 0x20014 0 8 .rws 0
def Reg.SXT_ALLOC.REACQ_WATCHES : Field := fld 0x20014 8 8 .rws 0x64
def Reg.SXT_ALLOC.LOSS_CN0 : Field := fld 0x20014 16 8 .rws 0x16

/-! SXT_NAV_CFG, R126 -/
def Reg.SXT_NAV_CFG.HOST_COPY : Field := fld 0x20018 0 1 .rws 0
def Reg.SXT_NAV_CFG.FAIL_TO_HOST : Field := fld 0x20018 1 1 .rws 1

/-! SXT_STATUS, R126 -/
def Reg.SXT_STATUS.N_TRACK : Field := fld 0x2001C 0 11 .ro 0
def Reg.SXT_STATUS.N_SEARCH : Field := fld 0x2001C 16 11 .ro 0

/-! SXT_COUNTS, R126 -/
def Reg.SXT_COUNTS.NAV_FAIL_COUNT : Field := fld 0x20020 0 32 .ro 0
def Reg.SXT_COUNTS.LOCK_LOSS_COUNT : Field := fld 0x20024 0 32 .ro 0

/-! SXT_SIG, R126 (index s, 18) -/
def Reg.SXT_SIG.SPACING : Field := ((fld 0x20040 0 7 .rws 0).idx 0x10 18).resetBy sxtSpacing
def Reg.SXT_SIG.T_COH : Field := ((fld 0x20040 8 5 .rws 0).idx 0x10 18).resetBy sxtTCoh
def Reg.SXT_SIG.PLL_BW : Field := (fld 0x20044 0 9 .rws 0x64).idx 0x10 18
def Reg.SXT_SIG.PLL_ORDER : Field := (fld 0x20044 9 1 .rws 1).idx 0x10 18
def Reg.SXT_SIG.FLL_BW : Field := (fld 0x20044 16 8 .rws 0x14).idx 0x10 18
def Reg.SXT_SIG.DLL_BW : Field := (fld 0x20048 0 8 .rws 0x32).idx 0x10 18

/-! SXT_BAND, R126 (index band, 3) -/
def Reg.SXT_BAND.JAM_IND : Field := (fld 0x20200 0 8 .ro 0).idx 0x80 3
def Reg.SXT_BAND.RESID_IND : Field := (fld 0x20200 8 8 .ro 0).idx 0x80 3
def Reg.SXT_BAND.JAM_STATE : Field := (fld 0x20200 16 2 .ro 0).idx 0x80 3
def Reg.SXT_BAND.CAL_CLAMPED : Field := (fld 0x20200 18 1 .ro 0).idx 0x80 3
def Reg.SXT_BAND.WARN_LVL : Field := (fld 0x20204 0 8 .rws 0x28).idx 0x80 3
def Reg.SXT_BAND.ALARM_LVL : Field := (fld 0x20204 8 8 .rws 0x64).idx 0x80 3
def Reg.SXT_BAND.AGC_GAIN : Field := (fld 0x20208 0 8 .ro 0).idx 0x80 3
def Reg.SXT_BAND.CLIP_COUNT : Field := (fld 0x2020C 0 32 .ro 0).idx 0x80 3
def Reg.SXT_BAND.DETECT_DB : Field := (fld 0x20210 0 8 .rws 0x18).idx 0x80 3
def Reg.SXT_BAND.N_MODE : Field := ((fld 0x20220 0 2 .rws 1).idx 0x80 3).idx2 0x8 8
def Reg.SXT_BAND.N_WIDTH : Field := ((fld 0x20220 2 2 .rws 1).idx 0x80 3).idx2 0x8 8
def Reg.SXT_BAND.N_FIX_KHZ : Field := ((fld 0x20220 14 18 .rws 0).idx 0x80 3).idx2 0x8 8
def Reg.SXT_BAND.N_ACTIVE : Field := ((fld 0x20224 0 1 .ro 0).idx 0x80 3).idx2 0x8 8
def Reg.SXT_BAND.N_CUR_KHZ : Field := ((fld 0x20224 14 18 .ro 0).idx 0x80 3).idx2 0x8 8

/-! SXT_BANK_MAP, R126 -/
def Reg.SXT_BANK_MAP.IN_SERVICE : Field := fld 0x20380 0 17 .ro 0x1ffff
def Reg.SXT_BANK_MAP.SPARE_BANK : Field := fld 0x20384 0 5 .ro 0x10
def Reg.SXT_BANK_MAP.SPARE_FOR : Field := fld 0x20384 8 5 .ro 0x1f
def Reg.SXT_BANK_MAP.STANDBY : Field := fld 0x20384 16 5 .ro 0x1f

/-! SXT_CH, R126 (index c, 1024) -/
def Reg.SXT_CH.STATE : Field := (fld 0x21000 0 3 .ro 0).idx 0x10 1024
def Reg.SXT_CH.SIG : Field := (fld 0x21000 8 5 .ro 0).idx 0x10 1024
def Reg.SXT_CH.SV : Field := (fld 0x21000 16 8 .ro 0).idx 0x10 1024
def Reg.SXT_CH.PHYS_BANK : Field := ((fld 0x21000 24 5 .ro 0).idx 0x10 1024).resetBy sxtHomeBank
def Reg.SXT_CH.CN0 : Field := (fld 0x21004 0 16 .ro 0).idx 0x10 1024
def Reg.SXT_CH.FREQ_K : Field := (fld 0x21004 16 8 .ro 0).idx 0x10 1024
def Reg.SXT_CH.LOCK_MS : Field := (fld 0x21008 0 32 .ro 0).idx 0x10 1024
def Reg.SXT_CH.DOPPLER : Field := (fld 0x2100C 0 32 .ro 0).idx 0x10 1024

/-! OBS_CTRL, R143 -/
def Reg.OBS_CTRL.RTCM_EN : Field := fld 0x30000 0 1 .rws 1
def Reg.OBS_CTRL.ARP_MSG : Field := fld 0x30000 1 1 .rws 1
def Reg.OBS_CTRL.MSM_EN : Field := fld 0x30000 2 6 .rws 0x3f

/-! OBS_STATION, R143 -/
def Reg.OBS_STATION.STATION_ID : Field := fld 0x30004 0 12 .rws 0
def Reg.OBS_STATION.ITRF_YEAR : Field := fld 0x30004 12 6 .rws 0

/-! OBS_RATES, R143 -/
def Reg.OBS_RATES.MSM_WATCHES : Field := fld 0x30008 0 4 .rws 1
def Reg.OBS_RATES.ARP_S : Field := fld 0x30008 8 8 .rws 0xa
def Reg.OBS_RATES.DESC_S : Field := fld 0x30008 16 8 .rws 0xa
def Reg.OBS_RATES.BIAS_S : Field := fld 0x30008 24 8 .rws 0xa

/-! OBS_SURVEY, R143 -/
def Reg.OBS_SURVEY.SURVEY_S : Field := fld 0x3000C 0 16 .rws 0x258
def Reg.OBS_SURVEY.SURVEY_ACC_MM : Field := fld 0x3000C 16 16 .rws 0x7d0

/-! OBS_POS_CHECK, R143 -/
def Reg.OBS_POS_CHECK.CHECK_M : Field := fld 0x30010 0 16 .rws 0x19

/-! OBS_ANT_HEIGHT, R143 -/
def Reg.OBS_ANT_HEIGHT.HEIGHT : Field := fld 0x30014 0 16 .rws 0

/-! OBS_POS_STATE, R143 -/
def Reg.OBS_POS_STATE.STATE : Field := fld 0x30020 0 2 .ro 0
def Reg.OBS_POS_STATE.SOURCE : Field := fld 0x30020 2 2 .ro 0
def Reg.OBS_POS_STATE.CHECK_DONE : Field := fld 0x30020 4 1 .ro 0
def Reg.OBS_POS_STATE.SURVEY_ELAPSED : Field := fld 0x30020 16 16 .ro 0

/-! OBS_SURVEY_SIGMA, R143 -/
def Reg.OBS_SURVEY_SIGMA.SIGMA_MM : Field := fld 0x30024 0 32 .ro 0xffffffff

/-! OBS_POS_X, R143 -/
def Reg.OBS_POS_X.LO : Field := fld 0x30028 0 32 .ro 0
def Reg.OBS_POS_X.HI : Field := fld 0x3002C 0 32 .ro 0

/-! OBS_POS_Y, R143 -/
def Reg.OBS_POS_Y.LO : Field := fld 0x30030 0 32 .ro 0
def Reg.OBS_POS_Y.HI : Field := fld 0x30034 0 32 .ro 0

/-! OBS_POS_Z, R143 -/
def Reg.OBS_POS_Z.LO : Field := fld 0x30038 0 32 .ro 0
def Reg.OBS_POS_Z.HI : Field := fld 0x3003C 0 32 .ro 0

/-! OBS_EPOCH_STATUS, R143 -/
def Reg.OBS_EPOCH_STATUS.N_OBS : Field := fld 0x30040 0 11 .ro 0
def Reg.OBS_EPOCH_STATUS.CLK_CORR : Field := fld 0x30040 16 1 .ro 0

/-! OBS_EPH, R143 -/
def Reg.OBS_EPH.N_LOADED : Field := fld 0x30044 0 8 .ro 0
def Reg.OBS_EPH.N_CURRENT : Field := fld 0x30044 8 8 .ro 0

/-! OBS_GLO_BIAS, R143 -/
def Reg.OBS_GLO_BIAS.L1CA_BIAS : Field := (fld 0x30048 0 16 .ro 0).resetBy (fun _ _ => Config.gloBiasL1)
def Reg.OBS_GLO_BIAS.L2CA_BIAS : Field := (fld 0x30048 16 16 .ro 0).resetBy (fun _ _ => Config.gloBiasL2)

/-! OBS_RTCM_COUNT, R143 -/
def Reg.OBS_RTCM_COUNT.FRAMES : Field := fld 0x3004C 0 32 .ro 0

/-! FIX_AR_CFG, R181 -/
def Reg.FIX_AR_CFG.RATIO_MIN : Field := fld 0x40000 0 16 .rws 0x12c
def Reg.FIX_AR_CFG.PAR_PF : Field := fld 0x40000 16 16 .rws 0x3e8

/-! FIX_PAR, R181 -/
def Reg.FIX_PAR.PAR_MIN : Field := fld 0x40004 0 8 .rws 8
def Reg.FIX_PAR.PAR_MIN_SV : Field := fld 0x40004 8 4 .rws 5
def Reg.FIX_PAR.PAR_MAX_DROP : Field := fld 0x40004 12 4 .rws 6
def Reg.FIX_PAR.SEARCH_NODES : Field := fld 0x40004 16 8 .rws 0x40
def Reg.FIX_PAR.HOLD_RES_MM : Field := fld 0x40004 24 8 .rws 0x1e

/-! FIX_LIMITS, R181 -/
def Reg.FIX_LIMITS.BASELINE_MAX_KM : Field := fld 0x40008 0 8 .rws 0xa
def Reg.FIX_LIMITS.ELEV_MASK : Field := fld 0x40008 8 8 .rws 0xa

/-! FIX_NOISE, R181 -/
def Reg.FIX_NOISE.ACC_PSD : Field := fld 0x4000C 0 16 .rws 0x1f4
def Reg.FIX_NOISE.PHASE_SIGMA : Field := fld 0x4000C 16 16 .rws 0x1e

/-! FIX_STATUS, R181 -/
def Reg.FIX_STATUS.N_ENABLED : Field := fld 0x40020 0 8 .ro 0
def Reg.FIX_STATUS.N_FIXED : Field := fld 0x40020 8 8 .ro 0
def Reg.FIX_STATUS.N_FLOAT : Field := fld 0x40020 16 8 .ro 0
def Reg.FIX_STATUS.RATE_LOAD : Field := fld 0x40020 24 8 .ro 0

/-! FIX_WATCH_STATS, R181 -/
def Reg.FIX_WATCH_STATS.LAST_TIW : Field := fld 0x40024 0 7 .ro 0
def Reg.FIX_WATCH_STATS.N_LATE : Field := fld 0x40024 8 8 .ro 0
def Reg.FIX_WATCH_STATS.BUSY : Field := fld 0x40024 16 16 .ro 0

/-! FIX_CLUSTER_MAP, R181 -/
def Reg.FIX_CLUSTER_MAP.IN_SERVICE : Field := fld 0x40030 0 9 .ro 0x1ff
def Reg.FIX_CLUSTER_MAP.SPARE : Field := fld 0x40030 12 4 .ro 8
def Reg.FIX_CLUSTER_MAP.SPARE_FOR : Field := fld 0x40030 16 4 .ro 0xf
def Reg.FIX_CLUSTER_MAP.STANDBY : Field := fld 0x40030 20 4 .ro 0xf

/-! FIX_COUNTS, R181 -/
def Reg.FIX_COUNTS.INVALID_COUNT : Field := fld 0x40040 0 32 .ro 0
def Reg.FIX_COUNTS.ENTRY_DROP_COUNT : Field := fld 0x40044 0 32 .ro 0
def Reg.FIX_COUNTS.RESET_COUNT : Field := fld 0x40048 0 32 .ro 0
def Reg.FIX_COUNTS.RESTART_COUNT : Field := fld 0x4004C 0 32 .ro 0

/-! FIX_ROVER, R181 (index r, 128) -/
def Reg.FIX_ROVER.QUALITY : Field := (fld 0x40400 0 3 .ro 0).idx 0x10 128
def Reg.FIX_ROVER.ENABLED : Field := (fld 0x40400 3 1 .ro 0).idx 0x10 128
def Reg.FIX_ROVER.RATE : Field := (fld 0x40400 4 1 .ro 0).idx 0x10 128
def Reg.FIX_ROVER.FSTATE : Field := (fld 0x40400 8 3 .ro 0).idx 0x10 128
def Reg.FIX_ROVER.N_AMB_FIXED : Field := (fld 0x40400 16 8 .ro 0).idx 0x10 128
def Reg.FIX_ROVER.REASON : Field := (fld 0x40400 24 8 .ro 0).idx 0x10 128
def Reg.FIX_ROVER.CONSEC_FIXED : Field := (fld 0x40404 0 16 .ro 0).idx 0x10 128
def Reg.FIX_ROVER.RATIO : Field := (fld 0x40404 16 16 .ro 0).idx 0x10 128
def Reg.FIX_ROVER.LATE_COUNT : Field := (fld 0x40408 0 32 .ro 0).idx 0x10 128
def Reg.FIX_ROVER.GAP_WATCHES : Field := (fld 0x4040C 0 8 .ro 0).idx 0x10 128

/-! CHT_CFG, R207 -/
def Reg.CHT_CFG.CLEARANCE_MM : Field := fld 0x50000 0 16 .rws 0x7d0
def Reg.CHT_CFG.CONTAIN_TOL_MM : Field := fld 0x50000 16 16 .rws 0xfa

/-! CHT_TIME_CFG, R207 -/
def Reg.CHT_TIME_CFG.TIME_MARGIN : Field := fld 0x50004 0 16 .rws 0x7d0
def Reg.CHT_TIME_CFG.HORIZON_S : Field := fld 0x50004 16 16 .rws 0x258

/-! CHT_ORIGIN_X, R207 -/
def Reg.CHT_ORIGIN_X.LO : Field := fld 0x50010 0 32 .rws 0
def Reg.CHT_ORIGIN_X.HI : Field := fld 0x50014 0 32 .rws 0

/-! CHT_ORIGIN_Y, R207 -/
def Reg.CHT_ORIGIN_Y.LO : Field := fld 0x50018 0 32 .rws 0
def Reg.CHT_ORIGIN_Y.HI : Field := fld 0x5001C 0 32 .rws 0

/-! CHT_ORIGIN_Z, R207 -/
def Reg.CHT_ORIGIN_Z.LO : Field := fld 0x50020 0 32 .rws 0
def Reg.CHT_ORIGIN_Z.HI : Field := fld 0x50024 0 32 .rws 0

/-! CHT_ORIGIN_CTRL, R207 -/
def Reg.CHT_ORIGIN_CTRL.ORIGIN_VALID : Field := fld 0x50028 0 1 .rws 0
def Reg.CHT_ORIGIN_CTRL.IN_FORCE : Field := fld 0x50028 1 1 .ro 0
def Reg.CHT_ORIGIN_CTRL.FROM_LEAD : Field := fld 0x50028 2 1 .ro 0

/-! CHT_STATUS, R207 -/
def Reg.CHT_STATUS.LIVE_SEGS : Field := fld 0x50040 0 20 .ro 0
def Reg.CHT_STATUS.QUEUED_REQS : Field := fld 0x50040 20 9 .ro 0

/-! CHT_GRANT_GEN, R207 -/
def Reg.CHT_GRANT_GEN.GEN : Field := fld 0x50044 0 32 .ro 0

/-! CHT_PERMIT, R207 (index w, 4) -/
def Reg.CHT_PERMIT.PERMIT : Field := (fld 0x50048 0 32 .ro 0).idx 0x4 4

/-! CHT_LAST_CONFLICT, R207 -/
def Reg.CHT_LAST_CONFLICT.ROVER : Field := fld 0x50060 0 8 .ro 0
def Reg.CHT_LAST_CONFLICT.OTHER_ROVER : Field := fld 0x50060 8 8 .ro 0
def Reg.CHT_LAST_CONFLICT.OTHER_KIND : Field := fld 0x50060 16 3 .ro 0
def Reg.CHT_LAST_CONFLICT.SEG : Field := fld 0x50064 0 16 .ro 0
def Reg.CHT_LAST_CONFLICT.OTHER_SEG : Field := fld 0x50064 16 16 .ro 0

/-! CHT_COUNTS, R207 -/
def Reg.CHT_COUNTS.CONFLICT_COUNT : Field := fld 0x50070 0 32 .ro 0
def Reg.CHT_COUNTS.DEV_HELD_COUNT : Field := fld 0x50074 0 32 .ro 0
def Reg.CHT_COUNTS.BREACH_COUNT : Field := fld 0x50078 0 32 .ro 0
def Reg.CHT_COUNTS.CARRY_COUNT : Field := fld 0x5007C 0 32 .ro 0

/-! CHT_ROVER, R207 (index r, 128) -/
def Reg.CHT_ROVER.STATE : Field := (fld 0x50400 0 3 .ro 0).idx 0x10 128
def Reg.CHT_ROVER.PENDING : Field := (fld 0x50400 3 1 .ro 0).idx 0x10 128
def Reg.CHT_ROVER.N_SEG : Field := (fld 0x50400 4 13 .ro 0).idx 0x10 128
def Reg.CHT_ROVER.STAGED : Field := (fld 0x50400 17 1 .ro 0).idx 0x10 128
def Reg.CHT_ROVER.DEV_MM : Field := (fld 0x50404 0 32 .ro 0).idx 0x10 128
def Reg.CHT_ROVER.CHECK_TICK : Field := (fld 0x50408 0 32 .ro 0).idx 0x10 128
def Reg.CHT_ROVER.GEN_GRANTED : Field := (fld 0x5040C 0 32 .ro 0).idx 0x10 128

/-! CHT_STAGE, R207 (index r, 128) -/
def Reg.CHT_STAGE.E : Field := (fld 0x51000 0 32 .ro 0).idx 0x10 128
def Reg.CHT_STAGE.N : Field := (fld 0x51004 0 32 .ro 0).idx 0x10 128
def Reg.CHT_STAGE.RADIUS_MM : Field := (fld 0x51008 0 32 .ro 0).idx 0x10 128

/-! ASG_CFG, R225 -/
def Reg.ASG_CFG.EPS_START_LOG2 : Field := fld 0x60000 0 6 .rws 0x18
def Reg.ASG_CFG.EPS_DIV_LOG2_M1 : Field := fld 0x60000 6 2 .rws 2
def Reg.ASG_CFG.MAX_WATCHES : Field := fld 0x60000 8 4 .rws 3
def Reg.ASG_CFG.EPS_FINAL : Field := fld 0x60000 16 16 .rws 1

/-! ASG_STATUS, R225 -/
def Reg.ASG_STATUS.RUN_STATE : Field := fld 0x60010 0 2 .ro 0
def Reg.ASG_STATUS.PENDING : Field := fld 0x60010 2 1 .ro 0
def Reg.ASG_STATUS.PHASE : Field := fld 0x60010 4 6 .ro 0
def Reg.ASG_STATUS.WATCHES_RUN : Field := fld 0x60010 16 4 .ro 0

/-! ASG_CUR_TAG, R225 -/
def Reg.ASG_CUR_TAG.TAG : Field := fld 0x60014 0 32 .ro 0

/-! ASG_LAST, R225 -/
def Reg.ASG_LAST.TAG : Field := fld 0x60020 0 32 .ro 0
def Reg.ASG_LAST.N_ASSIGNED : Field := fld 0x60024 0 11 .ro 0
def Reg.ASG_LAST.OPTIMAL : Field := fld 0x60024 16 1 .ro 0
def Reg.ASG_LAST.COST_LO : Field := fld 0x60028 0 32 .ro 0
def Reg.ASG_LAST.COST_HI : Field := fld 0x6002C 0 32 .ro 0

/-! ASG_COUNTS, R225 -/
def Reg.ASG_COUNTS.BIDS_LAST : Field := fld 0x60040 0 32 .ro 0
def Reg.ASG_COUNTS.NO_RESULT_COUNT : Field := fld 0x60044 0 32 .ro 0
def Reg.ASG_COUNTS.ABANDON_COUNT : Field := fld 0x60048 0 32 .ro 0
def Reg.ASG_COUNTS.REFUSE_COUNT : Field := fld 0x6004C 0 32 .ro 0

/-! ASG_ROVER, R225 (index r, 128) -/
def Reg.ASG_ROVER.TASK : Field := (fld 0x60400 0 16 .ro 0xffff).idx 0x8 128
def Reg.ASG_ROVER.CHANGED : Field := (fld 0x60400 16 1 .ro 0).idx 0x8 128
def Reg.ASG_ROVER.COST : Field := (fld 0x60404 0 32 .ro 0).idx 0x8 128

/-! PRF_CFG, R242 -/
def Reg.PRF_CFG.DONE_EVT_EN : Field := fld 0x70000 0 1 .rw 1

/-! PRF_STATUS, R242 -/
def Reg.PRF_STATUS.N_MOVING : Field := fld 0x70004 0 10 .ro 0
def Reg.PRF_STATUS.N_BOUND : Field := fld 0x70004 16 10 .ro 0

/-! PRF_COUNTS, R242 -/
def Reg.PRF_COUNTS.CLAMP_COUNT : Field := fld 0x70010 0 32 .ro 0
def Reg.PRF_COUNTS.EXIT_LATE_COUNT : Field := fld 0x70014 0 32 .ro 0
def Reg.PRF_COUNTS.REFUSE_COUNT : Field := fld 0x70018 0 32 .ro 0

/-! PRF_CH, R242 (index c, 512) -/
def Reg.PRF_CH.KIND : Field := (fld 0x71000 0 2 .ro 0).idx 0x20 512
def Reg.PRF_CH.ARMED : Field := (fld 0x71000 2 1 .ro 0).idx 0x20 512
def Reg.PRF_CH.QUEUE_POS : Field := (fld 0x71000 3 3 .ro 0).idx 0x20 512
def Reg.PRF_CH.SINK : Field := (fld 0x71000 8 7 .ro 0).idx 0x20 512
def Reg.PRF_CH.STATE : Field := (fld 0x71000 16 3 .ro 0).idx 0x20 512
def Reg.PRF_CH.DONE : Field := (fld 0x71000 19 1 .w1c 0).idx 0x20 512
def Reg.PRF_CH.DECEL_CLAMPED : Field := (fld 0x71000 20 1 .ro 0).idx 0x20 512
def Reg.PRF_CH.REVERSED : Field := (fld 0x71000 21 1 .ro 0).idx 0x20 512
def Reg.PRF_CH.HELD : Field := (fld 0x71000 22 1 .ro 0).idx 0x20 512
def Reg.PRF_CH.HOLD_POINT : Field := (fld 0x71000 23 1 .ro 0).idx 0x20 512
def Reg.PRF_CH.EXIT_LATE : Field := (fld 0x71000 24 1 .ro 0).idx 0x20 512
def Reg.PRF_CH.SPEED : Field := (fld 0x71004 0 32 .ro 0).idx 0x20 512
def Reg.PRF_CH.POSITION : Field := (fld 0x71008 0 32 .ro 0).idx 0x20 512
def Reg.PRF_CH.RATE_NOW : Field := (fld 0x7100C 0 32 .ro 0).idx 0x20 512
def Reg.PRF_CH.TARGET_NOW : Field := (fld 0x71010 0 32 .ro 0).idx 0x20 512

/-! STP_CTRL, R266 -/
def Reg.STP_CTRL.PAIR_EN : Field := fld 0x90000 0 2 .rws 3
def Reg.STP_CTRL.LANTERN_EN : Field := fld 0x90000 2 1 .rws 1

/-! STP_IN_CFG, R266 -/
def Reg.STP_IN_CFG.FILTER_US : Field := fld 0x90004 0 10 .rws 0
def Reg.STP_IN_CFG.REARM_MS : Field := fld 0x90004 16 8 .rws 0x32
def Reg.STP_IN_CFG.DISC_MS : Field := fld 0x90004 24 8 .rws 0xa

/-! STP_REPEAT, R266 -/
def Reg.STP_REPEAT.TGT_REPEAT : Field := fld 0x90008 0 4 .rws 8
def Reg.STP_REPEAT.CAN_REPEAT : Field := fld 0x90008 8 8 .rws 0xa
def Reg.STP_REPEAT.CAN_TGT_COUNT : Field := fld 0x90008 16 4 .rws 3
def Reg.STP_REPEAT.CAN_STOP_CH : Field := fld 0x90008 20 4 .rws 0

/-! STP_CAN_ID, R266 -/
def Reg.STP_CAN_ID.STOP_CAN_ID : Field := fld 0x9000C 0 29 .rws 0
def Reg.STP_CAN_ID.IDE : Field := fld 0x9000C 31 1 .rws 0

/-! STP_OUT_CFG, R266 (index n, 4) -/
def Reg.STP_OUT_CFG.EN : Field := (fld 0x90020 0 1 .rws 0).idx 0x4 4
def Reg.STP_OUT_CFG.REL_ON_HALT : Field := (fld 0x90020 1 1 .rws 1).idx 0x4 4
def Reg.STP_OUT_CFG.SLEW : Field := (fld 0x90020 2 2 .rws 1).idx 0x4 4

/-! STP_STATE, R266 -/
def Reg.STP_STATE.FLEET : Field := fld 0x90040 0 1 .ro 1
def Reg.STP_STATE.HALT : Field := fld 0x90040 1 1 .ro 0
def Reg.STP_STATE.SOURCE : Field := fld 0x90040 2 4 .ro 0
def Reg.STP_STATE.PAIR_RUN : Field := fld 0x90040 6 2 .ro 0
def Reg.STP_STATE.PAIR_FAULT : Field := fld 0x90040 8 2 .ro 0
def Reg.STP_STATE.IN_LEVEL : Field := fld 0x90040 10 4 .ro 0
def Reg.STP_STATE.OUT_ON : Field := fld 0x90040 14 4 .ro 0
def Reg.STP_STATE.OUT_FAULT : Field := fld 0x90040 18 4 .ro 0

/-! STP_SRC_SEEN, R266 -/
def Reg.STP_SRC_SEEN.SEEN : Field := fld 0x90044 0 11 .w1c 1

/-! STP_TSTOP, R266 (index w, 4) -/
def Reg.STP_TSTOP.TSTOP : Field := (fld 0x90050 0 32 .ro 0).idx 0x4 4

/-! STP_ARM, R266 -/
def Reg.STP_ARM.ARMED_TICKS : Field := fld 0x90060 0 4 .ro 0
def Reg.STP_ARM.KEY_ID : Field := fld 0x90060 8 8 .ro 0
def Reg.STP_ARM.ARM_OK : Field := fld 0x90060 16 1 .ro 0

/-! STP_LAST, R266 -/
def Reg.STP_LAST.TICK_LO : Field := fld 0x90070 0 32 .ro 0
def Reg.STP_LAST.TICK_HI : Field := fld 0x90074 0 32 .ro 0
def Reg.STP_LAST.SOURCE : Field := fld 0x90078 0 4 .ro 0
def Reg.STP_LAST.ROVER : Field := fld 0x90078 8 8 .ro 0xff
def Reg.STP_LAST.LAT_NS : Field := fld 0x9007C 0 16 .ro 0

/-! STP_COUNTS, R266 -/
def Reg.STP_COUNTS.FLEET_COUNT : Field := fld 0x90080 0 32 .ro 0
def Reg.STP_COUNTS.TGT_COUNT : Field := fld 0x90084 0 32 .ro 0
def Reg.STP_COUNTS.REPEAT_COUNT : Field := fld 0x90088 0 32 .ro 0
def Reg.STP_COUNTS.REFUSE_COUNT : Field := fld 0x9008C 0 32 .ro 0

/-! LUV_CFG, R294 -/
def Reg.LUV_CFG.PROFILE : Field := fld 0xA0000 0 1 .rws 0
def Reg.LUV_CFG.LANTERN_HB_EN : Field := fld 0xA0000 1 1 .rws 1

/-! LUV_HB, R294 (index n, 2) -/
def Reg.LUV_HB.CHAN_MHZ : Field := ((fld 0xA0010 0 13 .rws 0).idx 0x10 2).resetBy luvChanMhz
def Reg.LUV_HB.TX_DBM : Field := (fld 0xA0014 0 8 .rws 0x14).idx 0x10 2
def Reg.LUV_HB.ANT_GAIN : Field := (fld 0xA0014 8 8 .rws 0).idx 0x10 2
def Reg.LUV_HB.CHAN_LIST : Field := (fld 0xA0018 0 11 .rws 0x7ff).idx 0x10 2

/-! LUV_LANTERN, R294 -/
def Reg.LUV_LANTERN.L_TX_DBM : Field := fld 0xA0040 0 8 .rws 0x1b
def Reg.LUV_LANTERN.HOP_MUL : Field := fld 0xA0040 8 6 .rws 0x25
def Reg.LUV_LANTERN.HOP_ADD : Field := fld 0xA0040 16 6 .rws 0

/-! LUV_HB_STATUS, R294 (index n, 2) -/
def Reg.LUV_HB_STATUS.ROLE : Field := (fld 0xA0100 0 2 .ro 0).idx 0x10 2
def Reg.LUV_HB_STATUS.CUR_MHZ : Field := (fld 0xA0100 16 13 .ro 0).idx 0x10 2
def Reg.LUV_HB_STATUS.CCA_BUSY : Field := (fld 0xA0104 0 32 .ro 0).idx 0x10 2
def Reg.LUV_HB_STATUS.CHECK_LEFT_S : Field := (fld 0xA0108 0 16 .ro 0).idx 0x10 2

/-! LUV_COUNTS, R294 -/
def Reg.LUV_COUNTS.PREEMPT_COUNT : Field := fld 0xA0140 0 32 .ro 0
def Reg.LUV_COUNTS.LANTERN_SKIP : Field := fld 0xA0144 0 32 .ro 0
def Reg.LUV_COUNTS.SCS_SKIP : Field := fld 0xA0148 0 32 .ro 0
def Reg.LUV_COUNTS.AIRTIME_MS : Field := fld 0xA014C 0 32 .ro 0

/-! LUV_ROVER, R294 (index r, 128) -/
def Reg.LUV_ROVER.CFG_LO : Field := (fld 0xA0400 0 32 .ro 0xffff0000).idx 0x10 128
def Reg.LUV_ROVER.CFG_HI : Field := (fld 0xA0404 0 32 .ro 0xffffff).idx 0x10 128
def Reg.LUV_ROVER.SELF_STOP : Field := (fld 0xA0408 0 1 .ro 0).idx 0x10 128
def Reg.LUV_ROVER.ALT : Field := (fld 0xA0408 1 1 .ro 0).idx 0x10 128
def Reg.LUV_ROVER.CHANGE_PENDING : Field := (fld 0xA0408 2 1 .ro 0).idx 0x10 128
def Reg.LUV_ROVER.LAST_UL_TICK : Field := (fld 0xA040C 0 32 .ro 0).idx 0x10 128

/-! SEC_CFG, R314 -/
def Reg.SEC_CFG.TIMING_EN : Field := fld 0xB0000 0 1 .rws 1
def Reg.SEC_CFG.TIMING_WARN : Field := fld 0xB0000 8 8 .rws 8

/-! SEC_STATUS, R314 -/
def Reg.SEC_STATUS.KEY_ID : Field := fld 0xB0004 0 8 .ro 0
def Reg.SEC_STATUS.OLD_VALID : Field := fld 0xB0004 8 1 .ro 0
def Reg.SEC_STATUS.OLD_LEFT : Field := fld 0xB0004 16 8 .ro 0
def Reg.SEC_STATUS.N_LOST : Field := fld 0xB0004 24 8 .ro 0

/-! SEC_LOST, R314 (index w, 4) -/
def Reg.SEC_LOST.LOST : Field := (fld 0xB0010 0 32 .ro 0).idx 0x4 4

/-! SEC_COUNTS, R314 -/
def Reg.SEC_COUNTS.HEADER_DROP : Field := fld 0xB0020 0 32 .ro 0
def Reg.SEC_COUNTS.KEY_UNKNOWN : Field := fld 0xB0024 0 32 .ro 0
def Reg.SEC_COUNTS.KEY_EXPIRED : Field := fld 0xB0028 0 32 .ro 0
def Reg.SEC_COUNTS.AUTH_FAIL : Field := fld 0xB002C 0 32 .ro 0
def Reg.SEC_COUNTS.DUP_COUNT : Field := fld 0xB0030 0 32 .ro 0
def Reg.SEC_COUNTS.REPLAY_COUNT : Field := fld 0xB0034 0 32 .ro 0

/-! SEC_GSEQ, R314 (index n, 2) -/
def Reg.SEC_GSEQ.GSEQ_LO : Field := (fld 0xB0040 0 32 .ro 0).idx 0x8 2
def Reg.SEC_GSEQ.GSEQ_HI : Field := (fld 0xB0044 0 16 .ro 0).idx 0x8 2

/-! SEC_ROVER, R314 (index r, 128) -/
def Reg.SEC_ROVER.RX_H_LO : Field := (fld 0xB0400 0 32 .ro 0).idx 0x20 128
def Reg.SEC_ROVER.RX_H_HI : Field := (fld 0xB0404 0 16 .ro 0).idx 0x20 128
def Reg.SEC_ROVER.RX_VALID : Field := (fld 0xB0404 16 1 .ro 0).idx 0x20 128
def Reg.SEC_ROVER.LOST : Field := (fld 0xB0404 17 1 .ro 0).idx 0x20 128
def Reg.SEC_ROVER.MISS_WATCHES : Field := (fld 0xB0404 18 2 .ro 0).idx 0x20 128
def Reg.SEC_ROVER.RX_MAP_LO : Field := (fld 0xB0408 0 32 .ro 0).idx 0x20 128
def Reg.SEC_ROVER.RX_MAP_HI : Field := (fld 0xB040C 0 32 .ro 0).idx 0x20 128
def Reg.SEC_ROVER.TX_LO : Field := (fld 0xB0410 0 32 .ro 0).idx 0x20 128
def Reg.SEC_ROVER.TX_HI : Field := (fld 0xB0414 0 16 .ro 0).idx 0x20 128
def Reg.SEC_ROVER.TIMING_ERR_NS : Field := (fld 0xB0418 0 16 .ro 0).idx 0x20 128
def Reg.SEC_ROVER.TIMING_ADJ_NS : Field := (fld 0xB0418 16 16 .ro 0).idx 0x20 128
def Reg.SEC_ROVER.DUP_R : Field := (fld 0xB041C 0 16 .ro 0).idx 0x20 128
def Reg.SEC_ROVER.REPLAY_R : Field := (fld 0xB041C 16 16 .ro 0).idx 0x20 128

/-! TWN_CFG, R340 -/
def Reg.TWN_CFG.AIR_CLAIM_EN : Field := fld 0xC0000 0 1 .rws 1
def Reg.TWN_CFG.ACK_LISTEN : Field := fld 0xC0000 1 1 .rws 1

/-! TWN_STATUS, R340 -/
def Reg.TWN_STATUS.ROLE : Field := fld 0xC0004 0 2 .ro 0
def Reg.TWN_STATUS.PAIR_STATE : Field := fld 0xC0004 2 3 .ro 1
def Reg.TWN_STATUS.SLOT : Field := (fld 0xC0004 5 1 .ro 0).resetBy (fun _ _ => Config.slotStrap)
def Reg.TWN_STATUS.TIME_MASTER : Field := fld 0xC0004 6 1 .ro 0
def Reg.TWN_STATUS.STALE : Field := fld 0xC0004 7 1 .ro 1
def Reg.TWN_STATUS.PEER_MODE : Field := fld 0xC0004 8 3 .ro 7
def Reg.TWN_STATUS.HEALTH_IN : Field := fld 0xC0004 11 1 .ro 0
def Reg.TWN_STATUS.CLAIM_IN : Field := fld 0xC0004 12 1 .ro 0
def Reg.TWN_STATUS.LANES_UP : Field := fld 0xC0004 13 2 .ro 0
def Reg.TWN_STATUS.LAST_CLAIM : Field := fld 0xC0004 16 3 .ro 0

/-! TWN_EPOCHS, R340 -/
def Reg.TWN_EPOCHS.LEAD_EPOCH : Field := fld 0xC0008 0 32 .ro 0
def Reg.TWN_EPOCHS.STORED_EPOCH : Field := fld 0xC000C 0 32 .ro 0
def Reg.TWN_EPOCHS.PEER_EPOCH : Field := fld 0xC0010 0 32 .ro 0

/-! TWN_LAST_REFL, R340 -/
def Reg.TWN_LAST_REFL.TICK_LO : Field := fld 0xC0018 0 32 .ro 0
def Reg.TWN_LAST_REFL.TICK_HI : Field := fld 0xC001C 0 32 .ro 0

/-! TWN_CTRL, R340 -/
def Reg.TWN_CTRL.SOLO_CONFIRM : Field := fld 0xC0020 0 16 .wo 0

/-! TWN_RESYNC, R340 -/
def Reg.TWN_RESYNC.DONE_MIB : Field := fld 0xC0024 0 16 .ro 0
def Reg.TWN_RESYNC.TOTAL_MIB : Field := fld 0xC0024 16 16 .ro 0

/-! TWN_COUNTS, R340 -/
def Reg.TWN_COUNTS.REFL_UNACKED : Field := fld 0xC0040 0 32 .ro 0
def Reg.TWN_COUNTS.REFL_OVERRUN : Field := fld 0xC0044 0 32 .ro 0
def Reg.TWN_COUNTS.DIGEST_MISMATCH : Field := fld 0xC0048 0 32 .ro 0
def Reg.TWN_COUNTS.REPLAY_DESC : Field := fld 0xC004C 0 32 .ro 0
def Reg.TWN_COUNTS.CLAIM_COUNT : Field := fld 0xC0050 0 32 .ro 0
def Reg.TWN_COUNTS.LANE_ERR : Field := fld 0xC0054 0 32 .ro 0

/-! HST_ID_PART, R364 -/
def Reg.HST_ID_PART.PART : Field := fld 0xD0000 0 16 .ro 0x7160
def Reg.HST_ID_PART.HW_STEP : Field := (fld 0xD0000 16 8 .ro 0).resetBy (fun _ _ => Config.hwStep)

/-! HST_ID_SERIAL, R364 -/
def Reg.HST_ID_SERIAL.SERIAL_LO : Field := (fld 0xD0004 0 32 .ro 0).resetBy (fun _ _ => Config.serialLo)
def Reg.HST_ID_SERIAL.SERIAL_HI : Field := (fld 0xD0008 0 32 .ro 0).resetBy (fun _ _ => Config.serialHi)

/-! HST_ID_FW, R364 -/
def Reg.HST_ID_FW.FW_VERSION : Field := fld 0xD000C 0 32 .ro 0

/-! HST_MODE, R364 -/
def Reg.HST_MODE.MODE : Field := fld 0xD0010 0 3 .ro 0

/-! HST_DB_ADDR, R364 -/
def Reg.HST_DB_ADDR.ADDR_LO : Field := fld 0xD0040 9 23 .rws 0
def Reg.HST_DB_ADDR.ADDR_HI : Field := fld 0xD0044 0 32 .rws 0

/-! HST_DB_CFG, R364 -/
def Reg.HST_DB_CFG.DB_EN : Field := fld 0xD0048 0 1 .rws 0
def Reg.HST_DB_CFG.STOP_DB_EN : Field := fld 0xD0048 1 1 .rws 1
def Reg.HST_DB_CFG.LOSS_STOP : Field := fld 0xD0048 2 1 .rws 0

/-! HST_DB_STATUS, R364 -/
def Reg.HST_DB_STATUS.FAIL_RUN : Field := fld 0xD004C 0 4 .ro 0
def Reg.HST_DB_STATUS.REF_TAKEN : Field := fld 0xD004C 8 1 .ro 0

/-! HST_REFUSED_WR, R364 -/
def Reg.HST_REFUSED_WR.OFFSET : Field := fld 0xD0050 0 21 .ro 0
def Reg.HST_REFUSED_WR.VALID : Field := fld 0xD0050 31 1 .w1c 0

/-! HST_COUNTS, R364 -/
def Reg.HST_COUNTS.DB_READ_FAIL : Field := fld 0xD0060 0 32 .ro 0
def Reg.HST_COUNTS.DB_CHECK_FAIL : Field := fld 0xD0064 0 32 .ro 0
def Reg.HST_COUNTS.DESC_CRC_FAIL : Field := fld 0xD0068 0 32 .ro 0
def Reg.HST_COUNTS.EVT_LOST : Field := fld 0xD006C 0 32 .ro 0
def Reg.HST_COUNTS.COMPL_LOST : Field := fld 0xD0070 0 32 .ro 0
def Reg.HST_COUNTS.DESC_READ_FAIL : Field := fld 0xD0074 0 32 .ro 0

/-! HST_EVT_PEND, R364 (index w, 16) -/
def Reg.HST_EVT_PEND.PEND : Field := (fld 0xD0100 0 32 .w1c 0).idx 0x4 16

/-! HST_EVT_ROUTE, R364 (index k, 512) -/
def Reg.HST_EVT_ROUTE.RING : Field := (fld 0xD0400 0 4 .rw 0).idx 0x4 512
def Reg.HST_EVT_ROUTE.EN : Field := (fld 0xD0400 4 1 .rw 1).idx 0x4 512

/-! HST_SQ, R364 (index i, 64) -/
def Reg.HST_SQ.BASE_LO : Field := (fld 0xD1000 6 26 .rws 0).idx 0x20 64
def Reg.HST_SQ.BASE_HI : Field := (fld 0xD1004 0 32 .rws 0).idx 0x20 64
def Reg.HST_SQ.SIZE_LOG2 : Field := (fld 0xD1008 0 4 .rws 4).idx 0x20 64
def Reg.HST_SQ.CQ : Field := (fld 0xD1008 8 6 .rws 0).idx 0x20 64
def Reg.HST_SQ.PRIO : Field := (fld 0xD1008 16 2 .rws 0).idx 0x20 64
def Reg.HST_SQ.EN : Field := (fld 0xD100C 0 1 .rw 0).idx 0x20 64
def Reg.HST_SQ.FAULT : Field := (fld 0xD100C 1 1 .ro 0).idx 0x20 64
def Reg.HST_SQ.ACTIVE : Field := (fld 0xD100C 2 1 .ro 0).idx 0x20 64
def Reg.HST_SQ.DB_PI : Field := (fld 0xD1010 0 16 .ro 0).idx 0x20 64
def Reg.HST_SQ.FETCH_CI : Field := (fld 0xD1010 16 16 .ro 0).idx 0x20 64
def Reg.HST_SQ.FETCH_LIMIT : Field := (fld 0xD1014 0 16 .ro 0).idx 0x20 64

/-! HST_CQ, R364 (index j, 64) -/
def Reg.HST_CQ.BASE_LO : Field := (fld 0xD2000 6 26 .rws 0).idx 0x20 64
def Reg.HST_CQ.BASE_HI : Field := (fld 0xD2004 0 32 .rws 0).idx 0x20 64
def Reg.HST_CQ.SIZE_LOG2 : Field := (fld 0xD2008 0 4 .rws 4).idx 0x20 64
def Reg.HST_CQ.VECTOR : Field := (fld 0xD2008 8 5 .rws 0).idx 0x20 64
def Reg.HST_CQ.EN : Field := (fld 0xD200C 0 1 .rw 0).idx 0x20 64
def Reg.HST_CQ.FAULT : Field := (fld 0xD200C 1 1 .ro 0).idx 0x20 64
def Reg.HST_CQ.PI : Field := (fld 0xD2010 0 16 .ro 0).idx 0x20 64
def Reg.HST_CQ.DB_CI : Field := (fld 0xD2010 16 16 .ro 0).idx 0x20 64
def Reg.HST_CQ.HELD : Field := (fld 0xD2014 0 16 .ro 0).idx 0x20 64

/-! HST_EQ, R364 (index k, 16) -/
def Reg.HST_EQ.BASE_LO : Field := (fld 0xD3000 6 26 .rws 0).idx 0x20 16
def Reg.HST_EQ.BASE_HI : Field := (fld 0xD3004 0 32 .rws 0).idx 0x20 16
def Reg.HST_EQ.SIZE_LOG2 : Field := (fld 0xD3008 0 4 .rws 4).idx 0x20 16
def Reg.HST_EQ.VECTOR : Field := (fld 0xD3008 8 5 .rws 0).idx 0x20 16
def Reg.HST_EQ.EN : Field := (fld 0xD300C 0 1 .rw 0).idx 0x20 16
def Reg.HST_EQ.FAULT : Field := (fld 0xD300C 1 1 .ro 0).idx 0x20 16
def Reg.HST_EQ.PI : Field := (fld 0xD3010 0 16 .ro 0).idx 0x20 16
def Reg.HST_EQ.DB_CI : Field := (fld 0xD3010 16 16 .ro 0).idx 0x20 16

/-! CPL_CFG, R375 -/
def Reg.CPL_CFG.LOW_PCT : Field := fld 0xE0000 0 7 .rws 0xa

/-! CPL_STATUS, R375 -/
def Reg.CPL_STATUS.FREE_CELLS : Field := fld 0xE0004 0 18 .ro 0x20000
def Reg.CPL_STATUS.RESERVED_CELLS : Field := (fld 0xE0008 0 18 .ro 0).resetBy cplReservedCells

/-! CPL_COUNTS, R375 -/
def Reg.CPL_COUNTS.NOQ_DROP : Field := fld 0xE0010 0 32 .ro 0
def Reg.CPL_COUNTS.POOL_DROP : Field := fld 0xE0014 0 32 .ro 0
def Reg.CPL_COUNTS.CELL_ERR : Field := fld 0xE0018 0 32 .ro 0

/-! CPL_Q, R375 (index q, 1024) -/
def Reg.CPL_Q.EXISTS : Field := ((fld 0xE1000 0 1 .ro 0).idx 0x20 1024).resetBy cplExists
def Reg.CPL_Q.NOTICE_EN : Field := (fld 0xE1000 1 1 .ro 0).idx 0x20 1024
def Reg.CPL_Q.FIXED : Field := ((fld 0xE1000 2 1 .ro 0).idx 0x20 1024).resetBy cplFixed
def Reg.CPL_Q.MAX_PKTS : Field := ((fld 0xE1000 16 16 .ro 0).idx 0x20 1024).resetBy cplMaxPkts
def Reg.CPL_Q.MAX_CELLS : Field := ((fld 0xE1004 0 18 .ro 0).idx 0x20 1024).resetBy cplMaxCells
def Reg.CPL_Q.MIN_CELLS : Field := ((fld 0xE1008 0 18 .ro 0).idx 0x20 1024).resetBy cplMinCells
def Reg.CPL_Q.PKTS : Field := (fld 0xE100C 0 16 .ro 0).idx 0x20 1024
def Reg.CPL_Q.LOST : Field := (fld 0xE100C 16 16 .ro 0).idx 0x20 1024
def Reg.CPL_Q.CELLS : Field := (fld 0xE1010 0 18 .ro 0).idx 0x20 1024

/-! CAN_MB, R398 (index channel, 4) (index mailbox, 32) -/
def Reg.CAN_MB.LOCK : Field := ((fld 0x200000 0 1 .rw 0).idx 0x4000 4).idx2 0x80 32
def Reg.CAN_MB.FULL : Field := ((fld 0x200000 1 1 .w1c 0).idx 0x4000 4).idx2 0x80 32
def Reg.CAN_MB.OVERRUN : Field := ((fld 0x200000 2 1 .w1c 0).idx 0x4000 4).idx2 0x80 32
def Reg.CAN_MB.SHADOW_FULL : Field := ((fld 0x200000 3 1 .ro 0).idx 0x4000 4).idx2 0x80 32

/-! CAN_TXB, R398 (index channel, 4) (index buffer, 3) -/
def Reg.CAN_TXB.REQ : Field := ((fld 0x201000 0 1 .rw 0).idx 0x4000 4).idx2 0x80 3
def Reg.CAN_TXB.ABORT : Field := ((fld 0x201000 1 1 .wo 0).idx 0x4000 4).idx2 0x80 3
def Reg.CAN_TXB.RELEASE : Field := ((fld 0x201000 2 1 .wo 0).idx 0x4000 4).idx2 0x80 3
def Reg.CAN_TXB.STATE : Field := ((fld 0x201000 4 3 .ro 0).idx 0x4000 4).idx2 0x80 3
def Reg.CAN_TXB.CLASH_RUN : Field := ((fld 0x201000 8 8 .ro 0).idx 0x4000 4).idx2 0x80 3
def Reg.CAN_TXB.RETRIES : Field := ((fld 0x201000 16 8 .ro 0).idx 0x4000 4).idx2 0x80 3
def Reg.CAN_TXB.TX_STAMP_0 : Field := ((fld 0x201008 0 32 .ro 0).idx 0x4000 4).idx2 0x80 3
def Reg.CAN_TXB.TX_STAMP_1 : Field := ((fld 0x20100C 0 32 .ro 0).idx 0x4000 4).idx2 0x80 3
def Reg.CAN_TXB.TX_STAMP_2 : Field := ((fld 0x201010 0 32 .ro 0).idx 0x4000 4).idx2 0x80 3

/-! CAN_STOPV, R398 (index channel, 4) -/
def Reg.CAN_STOPV.DEPTH : Field := (fld 0x201200 0 4 .ro 0).idx 0x4000 4

/-! CAN_GLOBAL, R399 -/
def Reg.CAN_GLOBAL.ISO_AVAIL : Field := (fld 0x130000 0 1 .ro 0).resetBy (fun _ _ => Config.isoAvail)

/-! CAN_CTRL_MAP, R399 -/
def Reg.CAN_CTRL_MAP.IN_SERVICE : Field := fld 0x130004 0 5 .ro 0x1f
def Reg.CAN_CTRL_MAP.SPARE_FOR : Field := fld 0x130004 8 3 .ro 7
def Reg.CAN_CTRL_MAP.STANDBY : Field := fld 0x130004 12 3 .ro 7

/-! CAN_CH_CFG, R399 (index channel, 4) -/
def Reg.CAN_CH_CFG.EN : Field := (fld 0x130100 0 1 .rws 0).idx 0x100 4
def Reg.CAN_CH_CFG.FD_EN : Field := (fld 0x130100 1 1 .rws 1).idx 0x100 4
def Reg.CAN_CH_CFG.TRIPLE : Field := (fld 0x130100 2 1 .rws 0).idx 0x100 4
def Reg.CAN_CH_CFG.AUTO_RECOVER : Field := (fld 0x130100 3 1 .rws 1).idx 0x100 4
def Reg.CAN_CH_CFG.TX_ORDER : Field := (fld 0x130100 4 1 .rws 0).idx 0x100 4
def Reg.CAN_CH_CFG.TX_SRC : Field := (fld 0x130100 5 3 .rws 4).idx 0x100 4
def Reg.CAN_CH_CFG.ISO_EN : Field := (fld 0x130100 8 1 .rws 0).idx 0x100 4
def Reg.CAN_CH_CFG.SA_SUBST : Field := (fld 0x130100 9 1 .rws 1).idx 0x100 4
def Reg.CAN_CH_CFG.WAKE_SRC : Field := (fld 0x130100 10 1 .rws 0).idx 0x100 4
def Reg.CAN_CH_CFG.SLEW : Field := (fld 0x130100 12 2 .rws 1).idx 0x100 4

/-! CAN_CH_BT, R399 (index channel, 4) -/
def Reg.CAN_CH_BT.NTSEG1_M1 : Field := (fld 0x130104 0 8 .rws 0x7e).idx 0x100 4
def Reg.CAN_CH_BT.NTSEG2_M1 : Field := (fld 0x130104 8 7 .rws 0x1f).idx 0x100 4
def Reg.CAN_CH_BT.NSJW_M1 : Field := (fld 0x130104 16 7 .rws 0x1f).idx 0x100 4
def Reg.CAN_CH_BT.NBRP_M1 : Field := (fld 0x130104 24 5 .rws 1).idx 0x100 4
def Reg.CAN_CH_BT.DTSEG1_M1 : Field := (fld 0x130108 0 5 .rws 0x1e).idx 0x100 4
def Reg.CAN_CH_BT.DTSEG2_M1 : Field := (fld 0x130108 8 4 .rws 7).idx 0x100 4
def Reg.CAN_CH_BT.DSJW_M1 : Field := (fld 0x130108 16 4 .rws 7).idx 0x100 4
def Reg.CAN_CH_BT.DBRP_M1 : Field := (fld 0x130108 24 5 .rws 1).idx 0x100 4
def Reg.CAN_CH_BT.TDCO : Field := (fld 0x13010C 0 7 .rws 0).idx 0x100 4
def Reg.CAN_CH_BT.TDC_EN : Field := (fld 0x13010C 8 1 .rws 0).idx 0x100 4

/-! CAN_CH_WUF, R399 (index channel, 4) -/
def Reg.CAN_CH_WUF.WUF_ID : Field := (fld 0x130110 0 29 .rws 0).idx 0x100 4
def Reg.CAN_CH_WUF.WUF_IDE : Field := (fld 0x130110 31 1 .rws 0).idx 0x100 4
def Reg.CAN_CH_WUF.WUF_MASK : Field := (fld 0x130114 0 29 .rws 0x1fffffff).idx 0x100 4
def Reg.CAN_CH_WUF.WUF_DLC : Field := (fld 0x130118 0 4 .rws 0).idx 0x100 4
def Reg.CAN_CH_WUF.WUF_DATA_LO : Field := (fld 0x13011C 0 32 .rws 0).idx 0x100 4
def Reg.CAN_CH_WUF.WUF_DATA_HI : Field := (fld 0x130120 0 32 .rws 0).idx 0x100 4

/-! CAN_CH_ISO, R399 (index channel, 4) -/
def Reg.CAN_CH_ISO.NAME_LO : Field := (fld 0x130124 0 32 .rws 0).idx 0x100 4
def Reg.CAN_CH_ISO.NAME_HI : Field := (fld 0x130128 0 32 .rws 0).idx 0x100 4
def Reg.CAN_CH_ISO.PREF_ADDR : Field := (fld 0x13012C 0 8 .rws 0x80).idx 0x100 4
def Reg.CAN_CH_ISO.CUR_ADDR : Field := (fld 0x13012C 8 8 .ro 0xfe).idx 0x100 4
def Reg.CAN_CH_ISO.CLAIMED : Field := (fld 0x13012C 16 1 .ro 0).idx 0x100 4

/-! CAN_CH_STATUS, R399 (index channel, 4) -/
def Reg.CAN_CH_STATUS.STATE : Field := (fld 0x130140 0 2 .ro 0).idx 0x100 4
def Reg.CAN_CH_STATUS.ERR_STATE : Field := (fld 0x130140 2 2 .ro 0).idx 0x100 4
def Reg.CAN_CH_STATUS.WARN : Field := (fld 0x130140 4 1 .ro 0).idx 0x100 4
def Reg.CAN_CH_STATUS.RESTRICTED : Field := (fld 0x130140 5 1 .ro 0).idx 0x100 4
def Reg.CAN_CH_STATUS.TRIPLE_ACTIVE : Field := (fld 0x130140 6 1 .ro 0).idx 0x100 4
def Reg.CAN_CH_STATUS.CFG_ERR : Field := (fld 0x130140 7 1 .ro 0).idx 0x100 4
def Reg.CAN_CH_STATUS.TEC : Field := (fld 0x130140 8 8 .ro 0).idx 0x100 4
def Reg.CAN_CH_STATUS.REC : Field := (fld 0x130140 16 8 .ro 0).idx 0x100 4
def Reg.CAN_CH_STATUS.RECOV_COUNT : Field := (fld 0x130144 0 8 .ro 0).idx 0x100 4
def Reg.CAN_CH_STATUS.CLASH_ID : Field := (fld 0x130148 0 29 .ro 0).idx 0x100 4
def Reg.CAN_CH_STATUS.CLASH_IDE : Field := (fld 0x130148 31 1 .ro 0).idx 0x100 4

/-! CAN_CH_CNT, R399 (index channel, 4) -/
def Reg.CAN_CH_CNT.TX_OK : Field := (fld 0x130150 0 32 .ro 0).idx 0x100 4
def Reg.CAN_CH_CNT.RX_OK : Field := (fld 0x130154 0 32 .ro 0).idx 0x100 4
def Reg.CAN_CH_CNT.ERR_FRAMES : Field := (fld 0x130158 0 32 .ro 0).idx 0x100 4
def Reg.CAN_CH_CNT.BUSOFF_COUNT : Field := (fld 0x13015C 0 32 .ro 0).idx 0x100 4
def Reg.CAN_CH_CNT.NOMATCH : Field := (fld 0x130160 0 32 .ro 0).idx 0x100 4
def Reg.CAN_CH_CNT.RX_OVERRUN : Field := (fld 0x130164 0 32 .ro 0).idx 0x100 4
def Reg.CAN_CH_CNT.STOP_SENT : Field := (fld 0x130168 0 32 .ro 0).idx 0x100 4
def Reg.CAN_CH_CNT.STOP_EXPIRED : Field := (fld 0x13016C 0 32 .ro 0).idx 0x100 4

/-! CAN_FLT, R399 (index channel, 4) (index filter, 32) -/
def Reg.CAN_FLT.ID : Field := ((fld 0x131000 0 29 .rws 0).idx 0x400 4).idx2 0x10 32
def Reg.CAN_FLT.IDE : Field := ((fld 0x131000 31 1 .rws 0).idx 0x400 4).idx2 0x10 32
def Reg.CAN_FLT.MASK : Field := ((fld 0x131004 0 29 .rws 0).idx 0x400 4).idx2 0x10 32
def Reg.CAN_FLT.DEST : Field := ((fld 0x131008 0 2 .rws 0).idx 0x400 4).idx2 0x10 32
def Reg.CAN_FLT.MAILBOX : Field := ((fld 0x131008 8 5 .rws 0).idx 0x400 4).idx2 0x10 32
def Reg.CAN_FLT.QUEUE : Field := ((fld 0x131008 16 10 .rws 0).idx 0x400 4).idx2 0x10 32

/-! POS_SUPPLY, R417 -/
def Reg.POS_SUPPLY.VMOT_MV : Field := fld 0x80000 0 16 .ro 0
def Reg.POS_SUPPLY.VMOT_OK : Field := fld 0x80000 16 1 .ro 0

/-! POS_TEMP, R417 -/
def Reg.POS_TEMP.DRV_TEMP : Field := fld 0x80004 0 10 .ro 0
def Reg.POS_TEMP.TEMP_WARN : Field := fld 0x80004 16 1 .ro 0

/-! POS_CH, R417 (index channel, 4) -/
def Reg.POS_CH.EN : Field := (fld 0x80100 0 1 .rws 0).idx 0x80 4
def Reg.POS_CH.DIR_INV : Field := (fld 0x80100 1 1 .rws 0).idx 0x80 4
def Reg.POS_CH.ENC_EN : Field := (fld 0x80100 2 1 .rws 0).idx 0x80 4
def Reg.POS_CH.STALL_SRC : Field := (fld 0x80100 3 2 .rws 3).idx 0x80 4
def Reg.POS_CH.SLEW : Field := (fld 0x80100 5 2 .rws 1).idx 0x80 4
def Reg.POS_CH.LIM_P_EN : Field := (fld 0x80100 8 1 .rws 1).idx 0x80 4
def Reg.POS_CH.LIM_N_EN : Field := (fld 0x80100 9 1 .rws 1).idx 0x80 4
def Reg.POS_CH.HOME_EN : Field := (fld 0x80100 10 1 .rws 1).idx 0x80 4
def Reg.POS_CH.LIM_POL : Field := (fld 0x80100 11 1 .rws 0).idx 0x80 4
def Reg.POS_CH.HOME_POL : Field := (fld 0x80100 12 1 .rws 0).idx 0x80 4
def Reg.POS_CH.DEBOUNCE : Field := (fld 0x80100 16 5 .rws 2).idx 0x80 4
def Reg.POS_CH.RUN_MA : Field := (fld 0x80104 0 13 .rws 0x3e8).idx 0x80 4
def Reg.POS_CH.HOLD_MA : Field := (fld 0x80104 16 13 .rws 0x1f4).idx 0x80 4
def Reg.POS_CH.HOLD_DELAY : Field := (fld 0x80108 0 8 .rws 0x64).idx 0x80 4
def Reg.POS_CH.OFF_TIME : Field := (fld 0x80108 8 8 .rws 0x32).idx 0x80 4
def Reg.POS_CH.STRONG_SPEED : Field := (fld 0x8010C 0 32 .rws 0x1e8480).idx 0x80 4
def Reg.POS_CH.KP : Field := (fld 0x80110 0 12 .rws 0xc0).idx 0x80 4
def Reg.POS_CH.KI : Field := (fld 0x80110 16 12 .rws 0x40).idx 0x80 4
def Reg.POS_CH.AUTO_TUNE : Field := (fld 0x80110 31 1 .rws 1).idx 0x80 4
def Reg.POS_CH.ENC_FACTOR : Field := (fld 0x80114 0 32 .rws 0x10000).idx 0x80 4
def Reg.POS_CH.ENC_WARN : Field := (fld 0x80118 0 16 .rws 0x18).idx 0x80 4
def Reg.POS_CH.ENC_STALL : Field := (fld 0x80118 16 16 .rws 0x30).idx 0x80 4
def Reg.POS_CH.LA_WARN : Field := (fld 0x8011C 0 8 .rws 0x3c).idx 0x80 4
def Reg.POS_CH.LA_STALL : Field := (fld 0x8011C 8 8 .rws 0x14).idx 0x80 4
def Reg.POS_CH.LA_COUNT : Field := (fld 0x8011C 16 4 .rws 3).idx 0x80 4
def Reg.POS_CH.LA_MIN_SPEED : Field := (fld 0x80120 0 32 .rws 0x186a0).idx 0x80 4
def Reg.POS_CH.HOME_ACC : Field := (fld 0x80124 0 32 .rws 0x4e20).idx 0x80 4
def Reg.POS_CH.HOME_WINDOW : Field := (fld 0x80128 0 32 .rws 0x640).idx 0x80 4
def Reg.POS_CH.FF_GAIN : Field := (fld 0x8012C 0 12 .rws 0x10).idx 0x80 4
def Reg.POS_CH.STATE : Field := (fld 0x80140 0 3 .ro 0).idx 0x80 4
def Reg.POS_CH.DRV_MODE : Field := (fld 0x80140 3 1 .ro 0).idx 0x80 4
def Reg.POS_CH.HOMED : Field := (fld 0x80140 4 1 .ro 0).idx 0x80 4
def Reg.POS_CH.TRIPPED : Field := (fld 0x80140 5 3 .ro 0).idx 0x80 4
def Reg.POS_CH.SWITCH_CHATTER : Field := (fld 0x80140 8 3 .ro 0).idx 0x80 4
def Reg.POS_CH.LA_STATE : Field := (fld 0x80140 11 2 .ro 0).idx 0x80 4
def Reg.POS_CH.ENC_COVER : Field := (fld 0x80140 13 1 .ro 0).idx 0x80 4
def Reg.POS_CH.SHORT : Field := (fld 0x80140 14 1 .ro 0).idx 0x80 4
def Reg.POS_CH.STALL_WARN : Field := (fld 0x80140 15 1 .w1c 0).idx 0x80 4
def Reg.POS_CH.HALT_REASON : Field := (fld 0x80140 16 4 .ro 0).idx 0x80 4
def Reg.POS_CH.HOME_PHASE : Field := (fld 0x80140 20 3 .ro 0).idx 0x80 4
def Reg.POS_CH.USTEP_INDEX : Field := (fld 0x80140 24 6 .ro 0).idx 0x80 4
def Reg.POS_CH.COUNTER : Field := (fld 0x80144 0 32 .ro 0).idx 0x80 4
def Reg.POS_CH.ENC_POS : Field := (fld 0x80148 0 32 .ro 0).idx 0x80 4
def Reg.POS_CH.DEV : Field := (fld 0x8014C 0 16 .ro 0).idx 0x80 4
def Reg.POS_CH.LA_MARGIN : Field := (fld 0x8014C 16 8 .ro 0xb4).idx 0x80 4
def Reg.POS_CH.CUR_MA : Field := (fld 0x80150 0 13 .ro 0).idx 0x80 4
def Reg.POS_CH.LIMIT_COUNT : Field := (fld 0x80160 0 32 .ro 0).idx 0x80 4
def Reg.POS_CH.STALL_COUNT : Field := (fld 0x80164 0 32 .ro 0).idx 0x80 4
def Reg.POS_CH.CHATTER_COUNT : Field := (fld 0x80168 0 32 .ro 0).idx 0x80 4
def Reg.POS_CH.ENC_ERR : Field := (fld 0x8016C 0 32 .ro 0).idx 0x80 4

/-! GLT_CFG, R434 -/
def Reg.GLT_CFG.TB_SEL : Field := fld 0x120000 0 2 .rw 1
def Reg.GLT_CFG.MARK_ON_TRIG : Field := fld 0x120000 2 1 .rw 0
def Reg.GLT_CFG.REARM_AUTO : Field := fld 0x120000 3 1 .rw 1
def Reg.GLT_CFG.HOLD_MODE : Field := fld 0x120000 4 1 .rw 0
def Reg.GLT_CFG.SHARE_KIB : Field := fld 0x120000 16 11 .rw 0x200

/-! GLT_WINDOW, R434 -/
def Reg.GLT_WINDOW.PRE_US : Field := fld 0x120004 0 16 .rw 0x64
def Reg.GLT_WINDOW.POST_US : Field := fld 0x120004 16 16 .rw 0x64

/-! GLT_HOLD, R434 -/
def Reg.GLT_HOLD.HOLD : Field := fld 0x120008 0 24 .rw 0x2710

/-! GLT_CTRL, R434 -/
def Reg.GLT_CTRL.ARM : Field := fld 0x12000C 0 1 .wo 0
def Reg.GLT_CTRL.STOP : Field := fld 0x12000C 1 1 .wo 0
def Reg.GLT_CTRL.FORCE : Field := fld 0x12000C 2 1 .wo 0

/-! GLT_STATE, R434 -/
def Reg.GLT_STATE.STATE : Field := fld 0x120010 0 3 .ro 0
def Reg.GLT_STATE.BACKLOG_KIB : Field := fld 0x120010 16 10 .ro 0

/-! GLT_LAST, R434 -/
def Reg.GLT_LAST.CAPTURE : Field := fld 0x120014 0 16 .ro 0
def Reg.GLT_LAST.COND_MASK : Field := fld 0x120014 16 8 .ro 0
def Reg.GLT_LAST.SOURCE : Field := fld 0x120014 24 3 .ro 0

/-! GLT_IGN, R434 -/
def Reg.GLT_IGN.IGN_PRE : Field := fld 0x120020 0 32 .ro 0
def Reg.GLT_IGN.IGN_HOLD : Field := fld 0x120024 0 32 .ro 0

/-! GLT_STREAM, R434 (index s, 8) -/
def Reg.GLT_STREAM.SRC : Field := (fld 0x120100 0 5 .rw 0).idx 0x20 8
def Reg.GLT_STREAM.EN : Field := (fld 0x120100 8 1 .rw 0).idx 0x20 8
def Reg.GLT_STREAM.REDUCE_EN : Field := (fld 0x120100 9 1 .rw 0).idx 0x20 8
def Reg.GLT_STREAM.PROTECT : Field := (fld 0x120100 10 1 .rw 0).idx 0x20 8
def Reg.GLT_STREAM.BASE_MIB : Field := (fld 0x120104 0 10 .rw 0).idx 0x20 8
def Reg.GLT_STREAM.SIZE_MIB : Field := (fld 0x120104 16 10 .rw 0).idx 0x20 8
def Reg.GLT_STREAM.DECIM_LOG2 : Field := (fld 0x120108 0 4 .ro 0).idx 0x20 8
def Reg.GLT_STREAM.CFG_ERR : Field := (fld 0x120108 4 1 .ro 0).idx 0x20 8
def Reg.GLT_STREAM.MARK_VALID : Field := (fld 0x120108 5 1 .ro 0).idx 0x20 8
def Reg.GLT_STREAM.MARK_LOST : Field := (fld 0x120108 6 1 .ro 0).idx 0x20 8
def Reg.GLT_STREAM.MARK_HELD : Field := (fld 0x120108 7 1 .ro 0).idx 0x20 8
def Reg.GLT_STREAM.WR_POS : Field := (fld 0x12010C 0 30 .ro 0).idx 0x20 8
def Reg.GLT_STREAM.MARK_POS : Field := (fld 0x120110 0 30 .ro 0).idx 0x20 8
def Reg.GLT_STREAM.MARK_HERE : Field := (fld 0x120114 0 1 .wo 0).idx 0x20 8
def Reg.GLT_STREAM.MARK_CLEAR : Field := (fld 0x120114 1 1 .wo 0).idx 0x20 8
def Reg.GLT_STREAM.DROPPED : Field := (fld 0x120118 0 32 .ro 0).idx 0x20 8

/-! GLT_COND, R434 (index c, 8) -/
def Reg.GLT_COND.TYPE : Field := (fld 0x120400 0 3 .rw 0).idx 0x10 8
def Reg.GLT_COND.EDGE : Field := (fld 0x120400 4 2 .rw 1).idx 0x10 8
def Reg.GLT_COND.INDEX : Field := (fld 0x120400 16 9 .rw 0).idx 0x10 8
def Reg.GLT_COND.THRESH : Field := (fld 0x120404 0 16 .rw 0).idx 0x10 8

/-! LOG_CFG, R446 -/
def Reg.LOG_CFG.REPEAT_WIN : Field := fld 0x110000 0 8 .rws 0xa
def Reg.LOG_CFG.PEER_ALL : Field := fld 0x110000 8 1 .rws 0

/-! LOG_STATUS, R446 -/
def Reg.LOG_STATUS.RING_BLOCKS : Field := fld 0x110004 0 7 .ro 0x7c
def Reg.LOG_STATUS.SPARES : Field := fld 0x110004 7 3 .ro 4
def Reg.LOG_STATUS.LATCH_ONLY : Field := fld 0x110004 10 1 .ro 0

/-! LOG_SEQ, R446 -/
def Reg.LOG_SEQ.OLDEST_SEQ : Field := fld 0x110008 0 32 .ro 0
def Reg.LOG_SEQ.NEXT_SEQ : Field := fld 0x11000C 0 32 .ro 0

/-! LOG_COUNTS, R446 -/
def Reg.LOG_COUNTS.OVF_DROP : Field := fld 0x110010 0 32 .ro 0
def Reg.LOG_COUNTS.LATCH_COUNT : Field := fld 0x110014 0 32 .ro 0
def Reg.LOG_COUNTS.CRC_FAIL : Field := fld 0x110018 0 32 .ro 0
def Reg.LOG_COUNTS.PEER_RX : Field := fld 0x11001C 0 32 .ro 0

/-! LOG_MASK, R446 (index w, 16) -/
def Reg.LOG_MASK.MASK : Field := (fld 0x110040 0 32 .rw 0xffffffff).idx 0x4 16

/-! LOG_LATCH, R446 (index k, 8) -/
def Reg.LOG_LATCH.WORD : Field := (fld 0x110080 0 32 .ro 0).idx 0x4 8

/-! LOG_PORT_REWIND, R446 -/
def Reg.LOG_PORT_REWIND.OLDEST : Field := fld 0x1100C0 0 32 .ro 0

/-! LOG_PORT_DATA, R446 -/
def Reg.LOG_PORT_DATA.DATA : Field := fld 0x1100C4 0 32 .ro 0

/-! KVT_STATUS, R466 -/
def Reg.KVT_STATUS.SEALED : Field := fld 0x100000 0 1 .ro 0
def Reg.KVT_STATUS.FLEET_PRESENT : Field := fld 0x100000 1 1 .ro 0
def Reg.KVT_STATUS.PENDING : Field := fld 0x100000 2 1 .ro 0
def Reg.KVT_STATUS.COMMIT_BUSY : Field := fld 0x100000 3 1 .ro 0
def Reg.KVT_STATUS.MAP_DEFAULT : Field := fld 0x100000 4 1 .ro 0
def Reg.KVT_STATUS.PEER_MATCH : Field := fld 0x100000 5 1 .ro 0

/-! KVT_KEYS, R466 -/
def Reg.KVT_KEYS.KEY_EPOCH : Field := fld 0x100004 0 32 .ro 0
def Reg.KVT_KEYS.FLEET_GEN : Field := fld 0x100008 0 32 .ro 0
def Reg.KVT_KEYS.ACTIVE_KCV : Field := fld 0x10000C 0 32 .ro 0
def Reg.KVT_KEYS.PENDING_KCV : Field := fld 0x100010 0 32 .ro 0
def Reg.KVT_KEYS.PENDING_GEN : Field := fld 0x100014 0 32 .ro 0
def Reg.KVT_KEYS.PEER_KCV : Field := fld 0x100018 0 32 .ro 0

/-! KVT_COUNTS, R466 -/
def Reg.KVT_COUNTS.COMMITS : Field := fld 0x100020 0 32 .ro 0
def Reg.KVT_COUNTS.ROLLBACKS : Field := fld 0x100024 0 32 .ro 0
def Reg.KVT_COUNTS.LOAD_REFUSED : Field := fld 0x100028 0 32 .ro 0
def Reg.KVT_COUNTS.POLICY_DENY : Field := fld 0x10002C 0 32 .ro 0
def Reg.KVT_COUNTS.REMASK_LATE : Field := fld 0x100030 0 32 .ro 0

/-! KVT_TAMPER, R466 -/
def Reg.KVT_TAMPER.TAMPER_IN : Field := fld 0x100040 0 1 .ro 0
def Reg.KVT_TAMPER.LAST_BOOT_TAMPER : Field := fld 0x100040 1 1 .ro 0

/-! KVT_SEAL, R466 -/
def Reg.KVT_SEAL.MPW_COUNT : Field := fld 0x100080 0 6 .ro 0
def Reg.KVT_SEAL.DEBUG_CLOSED : Field := fld 0x100080 8 1 .ro 0
def Reg.KVT_SEAL.HWIN_COUNT : Field := fld 0x100080 12 4 .ro 0
def Reg.KVT_SEAL.POLICY_CRC : Field := fld 0x100080 16 16 .ro 0

/-! KVT_HWIN, R466 (index window, 8) -/
def Reg.KVT_HWIN.BASE_LO : Field := (fld 0x100100 12 20 .ro 0).idx 0x10 8
def Reg.KVT_HWIN.BASE_HI : Field := (fld 0x100104 0 32 .ro 0).idx 0x10 8
def Reg.KVT_HWIN.LIMIT_LO : Field := (fld 0x100108 12 20 .ro 0).idx 0x10 8
def Reg.KVT_HWIN.LIMIT_HI : Field := (fld 0x10010C 0 32 .ro 0).idx 0x10 8

/-! KVT_HWIN_STAGE, R466 (index window, 8) -/
def Reg.KVT_HWIN_STAGE.BASE_LO : Field := (fld 0x100200 12 20 .rws 0).idx 0x10 8
def Reg.KVT_HWIN_STAGE.BASE_HI : Field := (fld 0x100204 0 32 .rws 0).idx 0x10 8
def Reg.KVT_HWIN_STAGE.LIMIT_LO : Field := (fld 0x100208 12 20 .rws 0).idx 0x10 8
def Reg.KVT_HWIN_STAGE.LIMIT_HI : Field := (fld 0x10020C 0 32 .rws 0).idx 0x10 8

/-! KVT_HWIN_SAVE, R466 -/
def Reg.KVT_HWIN_SAVE.SAVE : Field := fld 0x100280 0 1 .rws 0

/-! SVC_CFG, R480 -/
def Reg.SVC_CFG.STABLE_WATCHES : Field := fld 0xF0000 0 8 .rws 0xa
def Reg.SVC_CFG.RETEST_EN : Field := fld 0xF0000 8 1 .rws 1

/-! SVC_TEL, R480 -/
def Reg.SVC_TEL.BASE_LO : Field := fld 0xF0010 6 26 .rws 0
def Reg.SVC_TEL.BASE_HI : Field := fld 0xF0014 0 32 .rws 0
def Reg.SVC_TEL.SIZE_LOG2 : Field := fld 0xF0018 0 4 .rws 4
def Reg.SVC_TEL.TEL_EN : Field := fld 0xF001C 0 1 .rw 0
def Reg.SVC_TEL.TEL_EVT_EN : Field := fld 0xF001C 1 1 .rw 0
def Reg.SVC_TEL.TEL_PI : Field := fld 0xF001C 16 16 .ro 0

/-! SVC_STATUS, R480 -/
def Reg.SVC_STATUS.SCRUB_LATE : Field := fld 0xF0020 0 8 .ro 0
def Reg.SVC_STATUS.CAL_STALE : Field := fld 0xF0020 8 4 .ro 0
def Reg.SVC_STATUS.FLASH_LOW : Field := fld 0xF0020 12 1 .ro 0
def Reg.SVC_STATUS.ROW_SPARE_EMPTY : Field := fld 0xF0020 13 1 .ro 0
def Reg.SVC_STATUS.STOP_PATH : Field := fld 0xF0020 14 1 .ro 0
def Reg.SVC_STATUS.PATH_STANDBY : Field := fld 0xF0020 15 1 .ro 1

/-! SVC_SPARES, R480 -/
def Reg.SVC_SPARES.ROW_SPARE : Field := fld 0xF0024 0 10 .ro 0x200
def Reg.SVC_SPARES.FLASH_SPARE : Field := fld 0xF0024 16 10 .ro 0x200

/-! SVC_ECC, R480 (index m, 8) -/
def Reg.SVC_ECC.CORRECTED : Field := (fld 0xF0100 0 32 .ro 0).idx 0x8 8
def Reg.SVC_ECC.UNCORRECTABLE : Field := (fld 0xF0104 0 32 .ro 0).idx 0x8 8

/-! BOOT_STATUS, R498 -/
def Reg.BOOT_STATUS.STEP : Field := fld 0x140000 0 3 .ro 0
def Reg.BOOT_STATUS.CFG_DEFAULT : Field := fld 0x140000 3 1 .ro 0
def Reg.BOOT_STATUS.PAUSE : Field := fld 0x140000 4 1 .ro 0
def Reg.BOOT_STATUS.SLOT_STATE : Field := fld 0x140000 8 3 .ro 1
def Reg.BOOT_STATUS.LAST_RESET : Field := fld 0x140000 12 4 .ro 0
def Reg.BOOT_STATUS.DEAD_CAUSE : Field := fld 0x140000 16 8 .ro 0

/-! BOOT_CTRL, R498 -/
def Reg.BOOT_CTRL.STAY : Field := fld 0x140004 0 1 .rwb 0

/-! BOOT_SLOT, R498 -/
def Reg.BOOT_SLOT.SLOT_VERSION : Field := fld 0x140008 0 32 .ro 0
def Reg.BOOT_SLOT.SLOT_SVN : Field := fld 0x14000C 0 16 .ro 0
def Reg.BOOT_SLOT.SVN_MIN : Field := (fld 0x14000C 16 16 .ro 0).resetBy (fun _ _ => Config.svnMin)

/-! BOOT_TIMES, R498 -/
def Reg.BOOT_TIMES.BOOT_MS : Field := fld 0x140010 0 16 .ro 0
def Reg.BOOT_TIMES.PAUSE_MS : Field := fld 0x140010 16 16 .ro 0

/-! BOOT_LOAD, R498 -/
def Reg.BOOT_LOAD.PROGRESS : Field := fld 0x140014 0 7 .ro 0

/-! PRF_PAR, R242 (index c, 512) -/
def Reg.PRF_PAR.V_START : Field := (fld 0x78000 0 32 .ro 0).idx 0x40 512
def Reg.PRF_PAR.A1 : Field := (fld 0x78004 0 32 .ro 0).idx 0x40 512
def Reg.PRF_PAR.V_SPLIT : Field := (fld 0x78008 0 32 .ro 0).idx 0x40 512
def Reg.PRF_PAR.A2 : Field := (fld 0x7800C 0 32 .ro 0).idx 0x40 512
def Reg.PRF_PAR.V_CRUISE : Field := (fld 0x78010 0 32 .ro 0).idx 0x40 512
def Reg.PRF_PAR.D2 : Field := (fld 0x78014 0 32 .ro 0).idx 0x40 512
def Reg.PRF_PAR.D1 : Field := (fld 0x78018 0 32 .ro 0).idx 0x40 512
def Reg.PRF_PAR.V_STOP : Field := (fld 0x7801C 0 32 .ro 0).idx 0x40 512
def Reg.PRF_PAR.TARGET : Field := (fld 0x78020 0 32 .ro 0).idx 0x40 512

/-! OBS_DESC, R143 (index w, 16) -/
def Reg.OBS_DESC.B0 : Field := (fld 0x30100 0 8 .rws 0).idx 0x4 16
def Reg.OBS_DESC.B1 : Field := (fld 0x30100 8 8 .rws 0).idx 0x4 16
def Reg.OBS_DESC.B2 : Field := (fld 0x30100 16 8 .rws 0).idx 0x4 16
def Reg.OBS_DESC.B3 : Field := (fld 0x30100 24 8 .rws 0).idx 0x4 15

/-! KVT_ID_PUB, R466 (index k, 24) -/
def Reg.KVT_ID_PUB.WORD : Field := ((fld 0x100400 0 32 .ro 0).idx 0x4 24).resetBy (fun i _ => idPubWord i)

/-! MSIX, R343 (index v, 32) -/
def Reg.MSIX.ADDR_LO : Field := (fld 0x1F0000 0 32 .rw 0).idx 0x10 32
def Reg.MSIX.ADDR_HI : Field := (fld 0x1F0004 0 32 .rw 0).idx 0x10 32
def Reg.MSIX.DATA : Field := (fld 0x1F0008 0 32 .rw 0).idx 0x10 32
def Reg.MSIX.MASK : Field := (fld 0x1F000C 0 1 .rw 1).idx 0x10 32

/-! MSIX_PBA, R343 -/
def Reg.MSIX_PBA.PENDING : Field := fld 0x1F8000 0 32 .ro 0

/-! The fields of each block, in the order of the spec's tables. -/
def Reg.fieldsTTU0 : List Field := [
  Reg.TTU_TICK_LO.TICK_LO, Reg.TTU_TICK_HI.TICK_HI, Reg.TTU_WATCH_POS.TICK_IN_WATCH, Reg.TTU_WATCH_POS.STRETCHED,
  Reg.TTU_TICK_CTRL.WATCH_EVT_EN, Reg.TTU_CLOSING.CLOSING_TICKS, Reg.TTU_CLOSING.STEP_PENDING, Reg.TTU_STRETCH.STRETCH_NS,
  Reg.TTU_LAST_TICK_LEN.LEN_NS, Reg.TTU_BG_USED.USED_US, Reg.TTU_BG_USED.BACKLOG_TICKS, Reg.TTU_BUDGET_STATUS.OVR,
  Reg.TTU_BUDGET_MASK.EVT_EN, Reg.TTU_BUDGET_CLR.CLEAR, Reg.TTU_SLOT_USE.MAX_USE, Reg.TTU_SLOT_USE.SLOT_LEN,
  Reg.TTU_SLOT_OVR.OVR_COUNT, Reg.TTU_TIME_CFG.PRIO_GNSS, Reg.TTU_TIME_CFG.PRIO_REF, Reg.TTU_TIME_CFG.PRIO_PTP,
  Reg.TTU_TIME_CFG.EN_GNSS, Reg.TTU_TIME_CFG.EN_REF, Reg.TTU_TIME_CFG.EN_PTP, Reg.TTU_TIME_CFG.PPS_EDGE]
def Reg.fieldsTTU1 : List Field := [
  Reg.TTU_PPS_DELAY.DELAY, Reg.TTU_TB2_OFFSET.OFFS_S_LO, Reg.TTU_TB2_OFFSET.OFFS_S_HI, Reg.TTU_TB2_OFFSET.OFFS_NS,
  Reg.TTU_TIME_STATE.STATE, Reg.TTU_TIME_STATE.SRC, Reg.TTU_TIME_STATE.Q_GNSS, Reg.TTU_TIME_STATE.Q_REF,
  Reg.TTU_TIME_STATE.Q_PTP, Reg.TTU_TIME_STATE.DISC_24H, Reg.TTU_UNCERT.UNCERT_NS, Reg.TTU_OFFSET.OFFSET_LO,
  Reg.TTU_OFFSET.OFFSET_HI, Reg.TTU_DISC_TIME.DISC_S, Reg.TTU_REF_UNCERT.REF_UNCERT, Reg.TTU_DR_DF.DF,
  Reg.TTU_DR_AGE.AGE, Reg.TTU_LATCH.LATCH, Reg.TTU_TB_LATCH.SUB, Reg.TTU_TB_LATCH.NS,
  Reg.TTU_TB_LATCH.S_LO, Reg.TTU_TB_LATCH.S_HI, Reg.TTU_PULSE.EN, Reg.TTU_PULSE.MODE]
def Reg.fieldsTTU2 : List Field := [
  Reg.TTU_PULSE.TB_SEL, Reg.TTU_PULSE.POL, Reg.TTU_PULSE.START_SUB, Reg.TTU_PULSE.START_NS,
  Reg.TTU_PULSE.START_S_LO, Reg.TTU_PULSE.START_S_HI, Reg.TTU_PULSE.PERIOD_NS, Reg.TTU_PULSE.PERIOD_SUB,
  Reg.TTU_PULSE.WIDTH_NS, Reg.TTU_PULSE.COUNT_LO, Reg.TTU_PULSE.COUNT_HI, Reg.TTU_PULSE.ARMED,
  Reg.TTU_PULSE.LAST_STEP, Reg.TTU_PULSE.LAST_MISSED, Reg.TTU_CAPT.EN, Reg.TTU_CAPT.EDGE,
  Reg.TTU_CAPT.TB_SEL, Reg.TTU_CAPT.FIFO_LEVEL, Reg.TTU_CAPT.OVF_COUNT, Reg.TTU_TDC_CAL.BIN_FS,
  Reg.TTU_TDC_CAL.CAL_OK]
def Reg.fieldsTTU : List Field := Reg.fieldsTTU0 ++ Reg.fieldsTTU1 ++ Reg.fieldsTTU2
def Reg.fieldsETH0 : List Field := [
  Reg.ETH_PTP_CFG.DOMAIN, Reg.ETH_PTP_CFG.PRIORITY1, Reg.ETH_PTP_CFG.PRIORITY2, Reg.ETH_PTP_CFG.PREF_SLAVE,
  Reg.ETH_UTC.UTC_OFFSET, Reg.ETH_UTC.FROM_NAV, Reg.ETH_CLOCK_ID.ID_LO, Reg.ETH_CLOCK_ID.ID_HI,
  Reg.ETH_P_CFG.EN, Reg.ETH_P_CFG.DELAY_MECH, Reg.ETH_P_CFG.ONE_STEP, Reg.ETH_P_CFG.TRANSPORT,
  Reg.ETH_P_CFG.SLAVE_ONLY, Reg.ETH_P_CFG.LOG_ANNOUNCE, Reg.ETH_P_CFG.LOG_SYNC, Reg.ETH_P_CFG.LOG_MIN_DELAY_REQ,
  Reg.ETH_P_CFG.ANNOUNCE_TIMEOUT, Reg.ETH_P_LAT.ING_LAT_PS, Reg.ETH_P_LAT.EGR_LAT_PS, Reg.ETH_P_LAT.ASYM_PS,
  Reg.ETH_P_PD_JUMP.PD_JUMP_NS, Reg.ETH_P_STATUS.LINK, Reg.ETH_P_STATUS.IN_SERVICE, Reg.ETH_P_STATUS.PORT_STATE]
def Reg.fieldsETH1 : List Field := [
  Reg.ETH_P_MEAS.MPD_PS, Reg.ETH_P_MEAS.OFFSET_NS, Reg.ETH_P_CNT.RX_OTHER, Reg.ETH_P_CNT.DISCARD_STEP,
  Reg.ETH_P_CNT.STAMP_MISS, Reg.ETH_P_CNT.PD_REJECT]
def Reg.fieldsETH : List Field := Reg.fieldsETH0 ++ Reg.fieldsETH1
def Reg.fieldsSXT0 : List Field := [
  Reg.SXT_CTRL.BAND_EN, Reg.SXT_ANT_CFG.BIAS_EN, Reg.SXT_ANT_STATUS.ANT_STATE, Reg.SXT_ANT_STATUS.CURRENT_MA,
  Reg.SXT_SIG_EN.SIG_EN, Reg.SXT_ALLOC.ELEV_MASK, Reg.SXT_ALLOC.REACQ_WATCHES, Reg.SXT_ALLOC.LOSS_CN0,
  Reg.SXT_NAV_CFG.HOST_COPY, Reg.SXT_NAV_CFG.FAIL_TO_HOST, Reg.SXT_STATUS.N_TRACK, Reg.SXT_STATUS.N_SEARCH,
  Reg.SXT_COUNTS.NAV_FAIL_COUNT, Reg.SXT_COUNTS.LOCK_LOSS_COUNT, Reg.SXT_SIG.SPACING, Reg.SXT_SIG.T_COH,
  Reg.SXT_SIG.PLL_BW, Reg.SXT_SIG.PLL_ORDER, Reg.SXT_SIG.FLL_BW, Reg.SXT_SIG.DLL_BW,
  Reg.SXT_BAND.JAM_IND, Reg.SXT_BAND.RESID_IND, Reg.SXT_BAND.JAM_STATE, Reg.SXT_BAND.CAL_CLAMPED]
def Reg.fieldsSXT1 : List Field := [
  Reg.SXT_BAND.WARN_LVL, Reg.SXT_BAND.ALARM_LVL, Reg.SXT_BAND.AGC_GAIN, Reg.SXT_BAND.CLIP_COUNT,
  Reg.SXT_BAND.DETECT_DB, Reg.SXT_BAND.N_MODE, Reg.SXT_BAND.N_WIDTH, Reg.SXT_BAND.N_FIX_KHZ,
  Reg.SXT_BAND.N_ACTIVE, Reg.SXT_BAND.N_CUR_KHZ, Reg.SXT_BANK_MAP.IN_SERVICE, Reg.SXT_BANK_MAP.SPARE_BANK,
  Reg.SXT_BANK_MAP.SPARE_FOR, Reg.SXT_BANK_MAP.STANDBY, Reg.SXT_CH.STATE, Reg.SXT_CH.SIG,
  Reg.SXT_CH.SV, Reg.SXT_CH.PHYS_BANK, Reg.SXT_CH.CN0, Reg.SXT_CH.FREQ_K,
  Reg.SXT_CH.LOCK_MS, Reg.SXT_CH.DOPPLER]
def Reg.fieldsSXT : List Field := Reg.fieldsSXT0 ++ Reg.fieldsSXT1
def Reg.fieldsOBS0 : List Field := [
  Reg.OBS_CTRL.RTCM_EN, Reg.OBS_CTRL.ARP_MSG, Reg.OBS_CTRL.MSM_EN, Reg.OBS_STATION.STATION_ID,
  Reg.OBS_STATION.ITRF_YEAR, Reg.OBS_RATES.MSM_WATCHES, Reg.OBS_RATES.ARP_S, Reg.OBS_RATES.DESC_S,
  Reg.OBS_RATES.BIAS_S, Reg.OBS_SURVEY.SURVEY_S, Reg.OBS_SURVEY.SURVEY_ACC_MM, Reg.OBS_POS_CHECK.CHECK_M,
  Reg.OBS_ANT_HEIGHT.HEIGHT, Reg.OBS_POS_STATE.STATE, Reg.OBS_POS_STATE.SOURCE, Reg.OBS_POS_STATE.CHECK_DONE,
  Reg.OBS_POS_STATE.SURVEY_ELAPSED, Reg.OBS_SURVEY_SIGMA.SIGMA_MM, Reg.OBS_POS_X.LO, Reg.OBS_POS_X.HI,
  Reg.OBS_POS_Y.LO, Reg.OBS_POS_Y.HI, Reg.OBS_POS_Z.LO, Reg.OBS_POS_Z.HI]
def Reg.fieldsOBS1 : List Field := [
  Reg.OBS_EPOCH_STATUS.N_OBS, Reg.OBS_EPOCH_STATUS.CLK_CORR, Reg.OBS_EPH.N_LOADED, Reg.OBS_EPH.N_CURRENT,
  Reg.OBS_GLO_BIAS.L1CA_BIAS, Reg.OBS_GLO_BIAS.L2CA_BIAS, Reg.OBS_RTCM_COUNT.FRAMES, Reg.OBS_DESC.B0,
  Reg.OBS_DESC.B1, Reg.OBS_DESC.B2, Reg.OBS_DESC.B3]
def Reg.fieldsOBS : List Field := Reg.fieldsOBS0 ++ Reg.fieldsOBS1
def Reg.fieldsFIX0 : List Field := [
  Reg.FIX_AR_CFG.RATIO_MIN, Reg.FIX_AR_CFG.PAR_PF, Reg.FIX_PAR.PAR_MIN, Reg.FIX_PAR.PAR_MIN_SV,
  Reg.FIX_PAR.PAR_MAX_DROP, Reg.FIX_PAR.SEARCH_NODES, Reg.FIX_PAR.HOLD_RES_MM, Reg.FIX_LIMITS.BASELINE_MAX_KM,
  Reg.FIX_LIMITS.ELEV_MASK, Reg.FIX_NOISE.ACC_PSD, Reg.FIX_NOISE.PHASE_SIGMA, Reg.FIX_STATUS.N_ENABLED,
  Reg.FIX_STATUS.N_FIXED, Reg.FIX_STATUS.N_FLOAT, Reg.FIX_STATUS.RATE_LOAD, Reg.FIX_WATCH_STATS.LAST_TIW,
  Reg.FIX_WATCH_STATS.N_LATE, Reg.FIX_WATCH_STATS.BUSY, Reg.FIX_CLUSTER_MAP.IN_SERVICE, Reg.FIX_CLUSTER_MAP.SPARE,
  Reg.FIX_CLUSTER_MAP.SPARE_FOR, Reg.FIX_CLUSTER_MAP.STANDBY, Reg.FIX_COUNTS.INVALID_COUNT, Reg.FIX_COUNTS.ENTRY_DROP_COUNT]
def Reg.fieldsFIX1 : List Field := [
  Reg.FIX_COUNTS.RESET_COUNT, Reg.FIX_COUNTS.RESTART_COUNT, Reg.FIX_ROVER.QUALITY, Reg.FIX_ROVER.ENABLED,
  Reg.FIX_ROVER.RATE, Reg.FIX_ROVER.FSTATE, Reg.FIX_ROVER.N_AMB_FIXED, Reg.FIX_ROVER.REASON,
  Reg.FIX_ROVER.CONSEC_FIXED, Reg.FIX_ROVER.RATIO, Reg.FIX_ROVER.LATE_COUNT, Reg.FIX_ROVER.GAP_WATCHES]
def Reg.fieldsFIX : List Field := Reg.fieldsFIX0 ++ Reg.fieldsFIX1
def Reg.fieldsCHT0 : List Field := [
  Reg.CHT_CFG.CLEARANCE_MM, Reg.CHT_CFG.CONTAIN_TOL_MM, Reg.CHT_TIME_CFG.TIME_MARGIN, Reg.CHT_TIME_CFG.HORIZON_S,
  Reg.CHT_ORIGIN_X.LO, Reg.CHT_ORIGIN_X.HI, Reg.CHT_ORIGIN_Y.LO, Reg.CHT_ORIGIN_Y.HI,
  Reg.CHT_ORIGIN_Z.LO, Reg.CHT_ORIGIN_Z.HI, Reg.CHT_ORIGIN_CTRL.ORIGIN_VALID, Reg.CHT_ORIGIN_CTRL.IN_FORCE,
  Reg.CHT_ORIGIN_CTRL.FROM_LEAD, Reg.CHT_STATUS.LIVE_SEGS, Reg.CHT_STATUS.QUEUED_REQS, Reg.CHT_GRANT_GEN.GEN,
  Reg.CHT_PERMIT.PERMIT, Reg.CHT_LAST_CONFLICT.ROVER, Reg.CHT_LAST_CONFLICT.OTHER_ROVER, Reg.CHT_LAST_CONFLICT.OTHER_KIND,
  Reg.CHT_LAST_CONFLICT.SEG, Reg.CHT_LAST_CONFLICT.OTHER_SEG, Reg.CHT_COUNTS.CONFLICT_COUNT, Reg.CHT_COUNTS.DEV_HELD_COUNT]
def Reg.fieldsCHT1 : List Field := [
  Reg.CHT_COUNTS.BREACH_COUNT, Reg.CHT_COUNTS.CARRY_COUNT, Reg.CHT_ROVER.STATE, Reg.CHT_ROVER.PENDING,
  Reg.CHT_ROVER.N_SEG, Reg.CHT_ROVER.STAGED, Reg.CHT_ROVER.DEV_MM, Reg.CHT_ROVER.CHECK_TICK,
  Reg.CHT_ROVER.GEN_GRANTED, Reg.CHT_STAGE.E, Reg.CHT_STAGE.N, Reg.CHT_STAGE.RADIUS_MM]
def Reg.fieldsCHT : List Field := Reg.fieldsCHT0 ++ Reg.fieldsCHT1
def Reg.fieldsASG0 : List Field := [
  Reg.ASG_CFG.EPS_START_LOG2, Reg.ASG_CFG.EPS_DIV_LOG2_M1, Reg.ASG_CFG.MAX_WATCHES, Reg.ASG_CFG.EPS_FINAL,
  Reg.ASG_STATUS.RUN_STATE, Reg.ASG_STATUS.PENDING, Reg.ASG_STATUS.PHASE, Reg.ASG_STATUS.WATCHES_RUN,
  Reg.ASG_CUR_TAG.TAG, Reg.ASG_LAST.TAG, Reg.ASG_LAST.N_ASSIGNED, Reg.ASG_LAST.OPTIMAL,
  Reg.ASG_LAST.COST_LO, Reg.ASG_LAST.COST_HI, Reg.ASG_COUNTS.BIDS_LAST, Reg.ASG_COUNTS.NO_RESULT_COUNT,
  Reg.ASG_COUNTS.ABANDON_COUNT, Reg.ASG_COUNTS.REFUSE_COUNT, Reg.ASG_ROVER.TASK, Reg.ASG_ROVER.CHANGED,
  Reg.ASG_ROVER.COST]
def Reg.fieldsASG : List Field := Reg.fieldsASG0
def Reg.fieldsPRF0 : List Field := [
  Reg.PRF_CFG.DONE_EVT_EN, Reg.PRF_STATUS.N_MOVING, Reg.PRF_STATUS.N_BOUND, Reg.PRF_COUNTS.CLAMP_COUNT,
  Reg.PRF_COUNTS.EXIT_LATE_COUNT, Reg.PRF_COUNTS.REFUSE_COUNT, Reg.PRF_CH.KIND, Reg.PRF_CH.ARMED,
  Reg.PRF_CH.QUEUE_POS, Reg.PRF_CH.SINK, Reg.PRF_CH.STATE, Reg.PRF_CH.DONE,
  Reg.PRF_CH.DECEL_CLAMPED, Reg.PRF_CH.REVERSED, Reg.PRF_CH.HELD, Reg.PRF_CH.HOLD_POINT,
  Reg.PRF_CH.EXIT_LATE, Reg.PRF_CH.SPEED, Reg.PRF_CH.POSITION, Reg.PRF_CH.RATE_NOW,
  Reg.PRF_CH.TARGET_NOW, Reg.PRF_PAR.V_START, Reg.PRF_PAR.A1, Reg.PRF_PAR.V_SPLIT]
def Reg.fieldsPRF1 : List Field := [
  Reg.PRF_PAR.A2, Reg.PRF_PAR.V_CRUISE, Reg.PRF_PAR.D2, Reg.PRF_PAR.D1,
  Reg.PRF_PAR.V_STOP, Reg.PRF_PAR.TARGET]
def Reg.fieldsPRF : List Field := Reg.fieldsPRF0 ++ Reg.fieldsPRF1
def Reg.fieldsSTP0 : List Field := [
  Reg.STP_CTRL.PAIR_EN, Reg.STP_CTRL.LANTERN_EN, Reg.STP_IN_CFG.FILTER_US, Reg.STP_IN_CFG.REARM_MS,
  Reg.STP_IN_CFG.DISC_MS, Reg.STP_REPEAT.TGT_REPEAT, Reg.STP_REPEAT.CAN_REPEAT, Reg.STP_REPEAT.CAN_TGT_COUNT,
  Reg.STP_REPEAT.CAN_STOP_CH, Reg.STP_CAN_ID.STOP_CAN_ID, Reg.STP_CAN_ID.IDE, Reg.STP_OUT_CFG.EN,
  Reg.STP_OUT_CFG.REL_ON_HALT, Reg.STP_OUT_CFG.SLEW, Reg.STP_STATE.FLEET, Reg.STP_STATE.HALT,
  Reg.STP_STATE.SOURCE, Reg.STP_STATE.PAIR_RUN, Reg.STP_STATE.PAIR_FAULT, Reg.STP_STATE.IN_LEVEL,
  Reg.STP_STATE.OUT_ON, Reg.STP_STATE.OUT_FAULT, Reg.STP_SRC_SEEN.SEEN, Reg.STP_TSTOP.TSTOP]
def Reg.fieldsSTP1 : List Field := [
  Reg.STP_ARM.ARMED_TICKS, Reg.STP_ARM.KEY_ID, Reg.STP_ARM.ARM_OK, Reg.STP_LAST.TICK_LO,
  Reg.STP_LAST.TICK_HI, Reg.STP_LAST.SOURCE, Reg.STP_LAST.ROVER, Reg.STP_LAST.LAT_NS,
  Reg.STP_COUNTS.FLEET_COUNT, Reg.STP_COUNTS.TGT_COUNT, Reg.STP_COUNTS.REPEAT_COUNT, Reg.STP_COUNTS.REFUSE_COUNT]
def Reg.fieldsSTP : List Field := Reg.fieldsSTP0 ++ Reg.fieldsSTP1
def Reg.fieldsLUV0 : List Field := [
  Reg.LUV_CFG.PROFILE, Reg.LUV_CFG.LANTERN_HB_EN, Reg.LUV_HB.CHAN_MHZ, Reg.LUV_HB.TX_DBM,
  Reg.LUV_HB.ANT_GAIN, Reg.LUV_HB.CHAN_LIST, Reg.LUV_LANTERN.L_TX_DBM, Reg.LUV_LANTERN.HOP_MUL,
  Reg.LUV_LANTERN.HOP_ADD, Reg.LUV_HB_STATUS.ROLE, Reg.LUV_HB_STATUS.CUR_MHZ, Reg.LUV_HB_STATUS.CCA_BUSY,
  Reg.LUV_HB_STATUS.CHECK_LEFT_S, Reg.LUV_COUNTS.PREEMPT_COUNT, Reg.LUV_COUNTS.LANTERN_SKIP, Reg.LUV_COUNTS.SCS_SKIP,
  Reg.LUV_COUNTS.AIRTIME_MS, Reg.LUV_ROVER.CFG_LO, Reg.LUV_ROVER.CFG_HI, Reg.LUV_ROVER.SELF_STOP,
  Reg.LUV_ROVER.ALT, Reg.LUV_ROVER.CHANGE_PENDING, Reg.LUV_ROVER.LAST_UL_TICK]
def Reg.fieldsLUV : List Field := Reg.fieldsLUV0
def Reg.fieldsSEC0 : List Field := [
  Reg.SEC_CFG.TIMING_EN, Reg.SEC_CFG.TIMING_WARN, Reg.SEC_STATUS.KEY_ID, Reg.SEC_STATUS.OLD_VALID,
  Reg.SEC_STATUS.OLD_LEFT, Reg.SEC_STATUS.N_LOST, Reg.SEC_LOST.LOST, Reg.SEC_COUNTS.HEADER_DROP,
  Reg.SEC_COUNTS.KEY_UNKNOWN, Reg.SEC_COUNTS.KEY_EXPIRED, Reg.SEC_COUNTS.AUTH_FAIL, Reg.SEC_COUNTS.DUP_COUNT,
  Reg.SEC_COUNTS.REPLAY_COUNT, Reg.SEC_GSEQ.GSEQ_LO, Reg.SEC_GSEQ.GSEQ_HI, Reg.SEC_ROVER.RX_H_LO,
  Reg.SEC_ROVER.RX_H_HI, Reg.SEC_ROVER.RX_VALID, Reg.SEC_ROVER.LOST, Reg.SEC_ROVER.MISS_WATCHES,
  Reg.SEC_ROVER.RX_MAP_LO, Reg.SEC_ROVER.RX_MAP_HI, Reg.SEC_ROVER.TX_LO, Reg.SEC_ROVER.TX_HI]
def Reg.fieldsSEC1 : List Field := [
  Reg.SEC_ROVER.TIMING_ERR_NS, Reg.SEC_ROVER.TIMING_ADJ_NS, Reg.SEC_ROVER.DUP_R, Reg.SEC_ROVER.REPLAY_R]
def Reg.fieldsSEC : List Field := Reg.fieldsSEC0 ++ Reg.fieldsSEC1
def Reg.fieldsTWN0 : List Field := [
  Reg.TWN_CFG.AIR_CLAIM_EN, Reg.TWN_CFG.ACK_LISTEN, Reg.TWN_STATUS.ROLE, Reg.TWN_STATUS.PAIR_STATE,
  Reg.TWN_STATUS.SLOT, Reg.TWN_STATUS.TIME_MASTER, Reg.TWN_STATUS.STALE, Reg.TWN_STATUS.PEER_MODE,
  Reg.TWN_STATUS.HEALTH_IN, Reg.TWN_STATUS.CLAIM_IN, Reg.TWN_STATUS.LANES_UP, Reg.TWN_STATUS.LAST_CLAIM,
  Reg.TWN_EPOCHS.LEAD_EPOCH, Reg.TWN_EPOCHS.STORED_EPOCH, Reg.TWN_EPOCHS.PEER_EPOCH, Reg.TWN_LAST_REFL.TICK_LO,
  Reg.TWN_LAST_REFL.TICK_HI, Reg.TWN_CTRL.SOLO_CONFIRM, Reg.TWN_RESYNC.DONE_MIB, Reg.TWN_RESYNC.TOTAL_MIB,
  Reg.TWN_COUNTS.REFL_UNACKED, Reg.TWN_COUNTS.REFL_OVERRUN, Reg.TWN_COUNTS.DIGEST_MISMATCH, Reg.TWN_COUNTS.REPLAY_DESC]
def Reg.fieldsTWN1 : List Field := [
  Reg.TWN_COUNTS.CLAIM_COUNT, Reg.TWN_COUNTS.LANE_ERR]
def Reg.fieldsTWN : List Field := Reg.fieldsTWN0 ++ Reg.fieldsTWN1
def Reg.fieldsHST0 : List Field := [
  Reg.HST_ID_PART.PART, Reg.HST_ID_PART.HW_STEP, Reg.HST_ID_SERIAL.SERIAL_LO, Reg.HST_ID_SERIAL.SERIAL_HI,
  Reg.HST_ID_FW.FW_VERSION, Reg.HST_MODE.MODE, Reg.HST_DB_ADDR.ADDR_LO, Reg.HST_DB_ADDR.ADDR_HI,
  Reg.HST_DB_CFG.DB_EN, Reg.HST_DB_CFG.STOP_DB_EN, Reg.HST_DB_CFG.LOSS_STOP, Reg.HST_DB_STATUS.FAIL_RUN,
  Reg.HST_DB_STATUS.REF_TAKEN, Reg.HST_REFUSED_WR.OFFSET, Reg.HST_REFUSED_WR.VALID, Reg.HST_COUNTS.DB_READ_FAIL,
  Reg.HST_COUNTS.DB_CHECK_FAIL, Reg.HST_COUNTS.DESC_CRC_FAIL, Reg.HST_COUNTS.EVT_LOST, Reg.HST_COUNTS.COMPL_LOST,
  Reg.HST_COUNTS.DESC_READ_FAIL, Reg.HST_EVT_PEND.PEND, Reg.HST_EVT_ROUTE.RING, Reg.HST_EVT_ROUTE.EN]
def Reg.fieldsHST1 : List Field := [
  Reg.HST_SQ.BASE_LO, Reg.HST_SQ.BASE_HI, Reg.HST_SQ.SIZE_LOG2, Reg.HST_SQ.CQ,
  Reg.HST_SQ.PRIO, Reg.HST_SQ.EN, Reg.HST_SQ.FAULT, Reg.HST_SQ.ACTIVE,
  Reg.HST_SQ.DB_PI, Reg.HST_SQ.FETCH_CI, Reg.HST_SQ.FETCH_LIMIT, Reg.HST_CQ.BASE_LO,
  Reg.HST_CQ.BASE_HI, Reg.HST_CQ.SIZE_LOG2, Reg.HST_CQ.VECTOR, Reg.HST_CQ.EN,
  Reg.HST_CQ.FAULT, Reg.HST_CQ.PI, Reg.HST_CQ.DB_CI, Reg.HST_CQ.HELD,
  Reg.HST_EQ.BASE_LO, Reg.HST_EQ.BASE_HI, Reg.HST_EQ.SIZE_LOG2, Reg.HST_EQ.VECTOR]
def Reg.fieldsHST2 : List Field := [
  Reg.HST_EQ.EN, Reg.HST_EQ.FAULT, Reg.HST_EQ.PI, Reg.HST_EQ.DB_CI]
def Reg.fieldsHST : List Field := Reg.fieldsHST0 ++ Reg.fieldsHST1 ++ Reg.fieldsHST2
def Reg.fieldsCPL0 : List Field := [
  Reg.CPL_CFG.LOW_PCT, Reg.CPL_STATUS.FREE_CELLS, Reg.CPL_STATUS.RESERVED_CELLS, Reg.CPL_COUNTS.NOQ_DROP,
  Reg.CPL_COUNTS.POOL_DROP, Reg.CPL_COUNTS.CELL_ERR, Reg.CPL_Q.EXISTS, Reg.CPL_Q.NOTICE_EN,
  Reg.CPL_Q.FIXED, Reg.CPL_Q.MAX_PKTS, Reg.CPL_Q.MAX_CELLS, Reg.CPL_Q.MIN_CELLS,
  Reg.CPL_Q.PKTS, Reg.CPL_Q.LOST, Reg.CPL_Q.CELLS]
def Reg.fieldsCPL : List Field := Reg.fieldsCPL0
def Reg.fieldsBAR20 : List Field := [
  Reg.CAN_MB.LOCK, Reg.CAN_MB.FULL, Reg.CAN_MB.OVERRUN, Reg.CAN_MB.SHADOW_FULL,
  Reg.CAN_TXB.REQ, Reg.CAN_TXB.ABORT, Reg.CAN_TXB.RELEASE, Reg.CAN_TXB.STATE,
  Reg.CAN_TXB.CLASH_RUN, Reg.CAN_TXB.RETRIES, Reg.CAN_TXB.TX_STAMP_0, Reg.CAN_TXB.TX_STAMP_1,
  Reg.CAN_TXB.TX_STAMP_2, Reg.CAN_STOPV.DEPTH]
def Reg.fieldsBAR2 : List Field := Reg.fieldsBAR20
def Reg.fieldsCAN0 : List Field := [
  Reg.CAN_GLOBAL.ISO_AVAIL, Reg.CAN_CTRL_MAP.IN_SERVICE, Reg.CAN_CTRL_MAP.SPARE_FOR, Reg.CAN_CTRL_MAP.STANDBY,
  Reg.CAN_CH_CFG.EN, Reg.CAN_CH_CFG.FD_EN, Reg.CAN_CH_CFG.TRIPLE, Reg.CAN_CH_CFG.AUTO_RECOVER,
  Reg.CAN_CH_CFG.TX_ORDER, Reg.CAN_CH_CFG.TX_SRC, Reg.CAN_CH_CFG.ISO_EN, Reg.CAN_CH_CFG.SA_SUBST,
  Reg.CAN_CH_CFG.WAKE_SRC, Reg.CAN_CH_CFG.SLEW, Reg.CAN_CH_BT.NTSEG1_M1, Reg.CAN_CH_BT.NTSEG2_M1,
  Reg.CAN_CH_BT.NSJW_M1, Reg.CAN_CH_BT.NBRP_M1, Reg.CAN_CH_BT.DTSEG1_M1, Reg.CAN_CH_BT.DTSEG2_M1,
  Reg.CAN_CH_BT.DSJW_M1, Reg.CAN_CH_BT.DBRP_M1, Reg.CAN_CH_BT.TDCO, Reg.CAN_CH_BT.TDC_EN]
def Reg.fieldsCAN1 : List Field := [
  Reg.CAN_CH_WUF.WUF_ID, Reg.CAN_CH_WUF.WUF_IDE, Reg.CAN_CH_WUF.WUF_MASK, Reg.CAN_CH_WUF.WUF_DLC,
  Reg.CAN_CH_WUF.WUF_DATA_LO, Reg.CAN_CH_WUF.WUF_DATA_HI, Reg.CAN_CH_ISO.NAME_LO, Reg.CAN_CH_ISO.NAME_HI,
  Reg.CAN_CH_ISO.PREF_ADDR, Reg.CAN_CH_ISO.CUR_ADDR, Reg.CAN_CH_ISO.CLAIMED, Reg.CAN_CH_STATUS.STATE,
  Reg.CAN_CH_STATUS.ERR_STATE, Reg.CAN_CH_STATUS.WARN, Reg.CAN_CH_STATUS.RESTRICTED, Reg.CAN_CH_STATUS.TRIPLE_ACTIVE,
  Reg.CAN_CH_STATUS.CFG_ERR, Reg.CAN_CH_STATUS.TEC, Reg.CAN_CH_STATUS.REC, Reg.CAN_CH_STATUS.RECOV_COUNT,
  Reg.CAN_CH_STATUS.CLASH_ID, Reg.CAN_CH_STATUS.CLASH_IDE, Reg.CAN_CH_CNT.TX_OK, Reg.CAN_CH_CNT.RX_OK]
def Reg.fieldsCAN2 : List Field := [
  Reg.CAN_CH_CNT.ERR_FRAMES, Reg.CAN_CH_CNT.BUSOFF_COUNT, Reg.CAN_CH_CNT.NOMATCH, Reg.CAN_CH_CNT.RX_OVERRUN,
  Reg.CAN_CH_CNT.STOP_SENT, Reg.CAN_CH_CNT.STOP_EXPIRED, Reg.CAN_FLT.ID, Reg.CAN_FLT.IDE,
  Reg.CAN_FLT.MASK, Reg.CAN_FLT.DEST, Reg.CAN_FLT.MAILBOX, Reg.CAN_FLT.QUEUE]
def Reg.fieldsCAN : List Field := Reg.fieldsCAN0 ++ Reg.fieldsCAN1 ++ Reg.fieldsCAN2
def Reg.fieldsPOS0 : List Field := [
  Reg.POS_SUPPLY.VMOT_MV, Reg.POS_SUPPLY.VMOT_OK, Reg.POS_TEMP.DRV_TEMP, Reg.POS_TEMP.TEMP_WARN,
  Reg.POS_CH.EN, Reg.POS_CH.DIR_INV, Reg.POS_CH.ENC_EN, Reg.POS_CH.STALL_SRC,
  Reg.POS_CH.SLEW, Reg.POS_CH.LIM_P_EN, Reg.POS_CH.LIM_N_EN, Reg.POS_CH.HOME_EN,
  Reg.POS_CH.LIM_POL, Reg.POS_CH.HOME_POL, Reg.POS_CH.DEBOUNCE, Reg.POS_CH.RUN_MA,
  Reg.POS_CH.HOLD_MA, Reg.POS_CH.HOLD_DELAY, Reg.POS_CH.OFF_TIME, Reg.POS_CH.STRONG_SPEED,
  Reg.POS_CH.KP, Reg.POS_CH.KI, Reg.POS_CH.AUTO_TUNE, Reg.POS_CH.ENC_FACTOR]
def Reg.fieldsPOS1 : List Field := [
  Reg.POS_CH.ENC_WARN, Reg.POS_CH.ENC_STALL, Reg.POS_CH.LA_WARN, Reg.POS_CH.LA_STALL,
  Reg.POS_CH.LA_COUNT, Reg.POS_CH.LA_MIN_SPEED, Reg.POS_CH.HOME_ACC, Reg.POS_CH.HOME_WINDOW,
  Reg.POS_CH.FF_GAIN, Reg.POS_CH.STATE, Reg.POS_CH.DRV_MODE, Reg.POS_CH.HOMED,
  Reg.POS_CH.TRIPPED, Reg.POS_CH.SWITCH_CHATTER, Reg.POS_CH.LA_STATE, Reg.POS_CH.ENC_COVER,
  Reg.POS_CH.SHORT, Reg.POS_CH.STALL_WARN, Reg.POS_CH.HALT_REASON, Reg.POS_CH.HOME_PHASE,
  Reg.POS_CH.USTEP_INDEX, Reg.POS_CH.COUNTER, Reg.POS_CH.ENC_POS, Reg.POS_CH.DEV]
def Reg.fieldsPOS2 : List Field := [
  Reg.POS_CH.LA_MARGIN, Reg.POS_CH.CUR_MA, Reg.POS_CH.LIMIT_COUNT, Reg.POS_CH.STALL_COUNT,
  Reg.POS_CH.CHATTER_COUNT, Reg.POS_CH.ENC_ERR]
def Reg.fieldsPOS : List Field := Reg.fieldsPOS0 ++ Reg.fieldsPOS1 ++ Reg.fieldsPOS2
def Reg.fieldsGLT0 : List Field := [
  Reg.GLT_CFG.TB_SEL, Reg.GLT_CFG.MARK_ON_TRIG, Reg.GLT_CFG.REARM_AUTO, Reg.GLT_CFG.HOLD_MODE,
  Reg.GLT_CFG.SHARE_KIB, Reg.GLT_WINDOW.PRE_US, Reg.GLT_WINDOW.POST_US, Reg.GLT_HOLD.HOLD,
  Reg.GLT_CTRL.ARM, Reg.GLT_CTRL.STOP, Reg.GLT_CTRL.FORCE, Reg.GLT_STATE.STATE,
  Reg.GLT_STATE.BACKLOG_KIB, Reg.GLT_LAST.CAPTURE, Reg.GLT_LAST.COND_MASK, Reg.GLT_LAST.SOURCE,
  Reg.GLT_IGN.IGN_PRE, Reg.GLT_IGN.IGN_HOLD, Reg.GLT_STREAM.SRC, Reg.GLT_STREAM.EN,
  Reg.GLT_STREAM.REDUCE_EN, Reg.GLT_STREAM.PROTECT, Reg.GLT_STREAM.BASE_MIB, Reg.GLT_STREAM.SIZE_MIB]
def Reg.fieldsGLT1 : List Field := [
  Reg.GLT_STREAM.DECIM_LOG2, Reg.GLT_STREAM.CFG_ERR, Reg.GLT_STREAM.MARK_VALID, Reg.GLT_STREAM.MARK_LOST,
  Reg.GLT_STREAM.MARK_HELD, Reg.GLT_STREAM.WR_POS, Reg.GLT_STREAM.MARK_POS, Reg.GLT_STREAM.MARK_HERE,
  Reg.GLT_STREAM.MARK_CLEAR, Reg.GLT_STREAM.DROPPED, Reg.GLT_COND.TYPE, Reg.GLT_COND.EDGE,
  Reg.GLT_COND.INDEX, Reg.GLT_COND.THRESH]
def Reg.fieldsGLT : List Field := Reg.fieldsGLT0 ++ Reg.fieldsGLT1
def Reg.fieldsLOG0 : List Field := [
  Reg.LOG_CFG.REPEAT_WIN, Reg.LOG_CFG.PEER_ALL, Reg.LOG_STATUS.RING_BLOCKS, Reg.LOG_STATUS.SPARES,
  Reg.LOG_STATUS.LATCH_ONLY, Reg.LOG_SEQ.OLDEST_SEQ, Reg.LOG_SEQ.NEXT_SEQ, Reg.LOG_COUNTS.OVF_DROP,
  Reg.LOG_COUNTS.LATCH_COUNT, Reg.LOG_COUNTS.CRC_FAIL, Reg.LOG_COUNTS.PEER_RX, Reg.LOG_MASK.MASK,
  Reg.LOG_LATCH.WORD, Reg.LOG_PORT_REWIND.OLDEST, Reg.LOG_PORT_DATA.DATA]
def Reg.fieldsLOG : List Field := Reg.fieldsLOG0
def Reg.fieldsKVT0 : List Field := [
  Reg.KVT_STATUS.SEALED, Reg.KVT_STATUS.FLEET_PRESENT, Reg.KVT_STATUS.PENDING, Reg.KVT_STATUS.COMMIT_BUSY,
  Reg.KVT_STATUS.MAP_DEFAULT, Reg.KVT_STATUS.PEER_MATCH, Reg.KVT_KEYS.KEY_EPOCH, Reg.KVT_KEYS.FLEET_GEN,
  Reg.KVT_KEYS.ACTIVE_KCV, Reg.KVT_KEYS.PENDING_KCV, Reg.KVT_KEYS.PENDING_GEN, Reg.KVT_KEYS.PEER_KCV,
  Reg.KVT_COUNTS.COMMITS, Reg.KVT_COUNTS.ROLLBACKS, Reg.KVT_COUNTS.LOAD_REFUSED, Reg.KVT_COUNTS.POLICY_DENY,
  Reg.KVT_COUNTS.REMASK_LATE, Reg.KVT_TAMPER.TAMPER_IN, Reg.KVT_TAMPER.LAST_BOOT_TAMPER, Reg.KVT_SEAL.MPW_COUNT,
  Reg.KVT_SEAL.DEBUG_CLOSED, Reg.KVT_SEAL.HWIN_COUNT, Reg.KVT_SEAL.POLICY_CRC, Reg.KVT_HWIN.BASE_LO]
def Reg.fieldsKVT1 : List Field := [
  Reg.KVT_HWIN.BASE_HI, Reg.KVT_HWIN.LIMIT_LO, Reg.KVT_HWIN.LIMIT_HI, Reg.KVT_HWIN_STAGE.BASE_LO,
  Reg.KVT_HWIN_STAGE.BASE_HI, Reg.KVT_HWIN_STAGE.LIMIT_LO, Reg.KVT_HWIN_STAGE.LIMIT_HI, Reg.KVT_HWIN_SAVE.SAVE,
  Reg.KVT_ID_PUB.WORD]
def Reg.fieldsKVT : List Field := Reg.fieldsKVT0 ++ Reg.fieldsKVT1
def Reg.fieldsSVC0 : List Field := [
  Reg.SVC_CFG.STABLE_WATCHES, Reg.SVC_CFG.RETEST_EN, Reg.SVC_TEL.BASE_LO, Reg.SVC_TEL.BASE_HI,
  Reg.SVC_TEL.SIZE_LOG2, Reg.SVC_TEL.TEL_EN, Reg.SVC_TEL.TEL_EVT_EN, Reg.SVC_TEL.TEL_PI,
  Reg.SVC_STATUS.SCRUB_LATE, Reg.SVC_STATUS.CAL_STALE, Reg.SVC_STATUS.FLASH_LOW, Reg.SVC_STATUS.ROW_SPARE_EMPTY,
  Reg.SVC_STATUS.STOP_PATH, Reg.SVC_STATUS.PATH_STANDBY, Reg.SVC_SPARES.ROW_SPARE, Reg.SVC_SPARES.FLASH_SPARE,
  Reg.SVC_ECC.CORRECTED, Reg.SVC_ECC.UNCORRECTABLE]
def Reg.fieldsSVC : List Field := Reg.fieldsSVC0
def Reg.fieldsBOOT0 : List Field := [
  Reg.BOOT_STATUS.STEP, Reg.BOOT_STATUS.CFG_DEFAULT, Reg.BOOT_STATUS.PAUSE, Reg.BOOT_STATUS.SLOT_STATE,
  Reg.BOOT_STATUS.LAST_RESET, Reg.BOOT_STATUS.DEAD_CAUSE, Reg.BOOT_CTRL.STAY, Reg.BOOT_SLOT.SLOT_VERSION,
  Reg.BOOT_SLOT.SLOT_SVN, Reg.BOOT_SLOT.SVN_MIN, Reg.BOOT_TIMES.BOOT_MS, Reg.BOOT_TIMES.PAUSE_MS,
  Reg.BOOT_LOAD.PROGRESS]
def Reg.fieldsBOOT : List Field := Reg.fieldsBOOT0
def Reg.fieldsMSIX0 : List Field := [
  Reg.MSIX.ADDR_LO, Reg.MSIX.ADDR_HI, Reg.MSIX.DATA, Reg.MSIX.MASK,
  Reg.MSIX_PBA.PENDING]
def Reg.fieldsMSIX : List Field := Reg.fieldsMSIX0

/-- The fields whose block holds byte address `a` (BAR0 blocks of R343, the MSI-X table, BAR2 at 0x20_0000). -/
def Reg.fieldsNear (a : Nat) : List Field :=
  if 0x200000 ≤ a then Reg.fieldsBAR2
  else if 0x1F0000 ≤ a then Reg.fieldsMSIX
  else match a / 0x10000 with
    | 0 => Reg.fieldsTTU
    | 1 => Reg.fieldsETH
    | 2 => Reg.fieldsSXT
    | 3 => Reg.fieldsOBS
    | 4 => Reg.fieldsFIX
    | 5 => Reg.fieldsCHT
    | 6 => Reg.fieldsASG
    | 7 => Reg.fieldsPRF
    | 8 => Reg.fieldsPOS
    | 9 => Reg.fieldsSTP
    | 10 => Reg.fieldsLUV
    | 11 => Reg.fieldsSEC
    | 12 => Reg.fieldsTWN
    | 13 => Reg.fieldsHST
    | 14 => Reg.fieldsCPL
    | 15 => Reg.fieldsSVC
    | 16 => Reg.fieldsKVT
    | 17 => Reg.fieldsLOG
    | 18 => Reg.fieldsGLT
    | 19 => Reg.fieldsCAN
    | 20 => Reg.fieldsBOOT
    | _ => []

end Sys2Proof.Machine
end

