-- ==== Sys2Proof/Machine/Flags.lean ====
section
/-! DEFINITION. Sys2Proof/Machine/Flags.lean: status flags and the other fields of registers: reading, setting, counting,
bit arrays, and what an access code lets the host write (R9, R517). -/

namespace Sys2Proof.Machine

open Sys2Proof

/-! ### Register fields -/

/-- The key of instance (i, j) of a field. -/
def Field.key (f : Field) (i j : Nat) : Nat := 32 * (f.off + f.s1 * i + f.s2 * j) + f.lsb

/-- The value of a register field. -/
def State.r (s : State) (f : Field) (i : Nat := 0) (j : Nat := 0) : Nat :=
  (mget 0 s.regs (f.key i j) ^^^ f.reset i j) % 2 ^ f.width

/-- A one-bit field as a Bool. -/
def State.rb (s : State) (f : Field) (i : Nat := 0) (j : Nat := 0) : Bool := s.r f i j ≠ 0

/-- A signed field. -/
def State.ri (s : State) (f : Field) (i : Nat := 0) (j : Nat := 0) : Int := toSigned f.width (s.r f i j)

/-- Set a register field; the bits above its width are dropped. -/
def State.w (s : State) (f : Field) (v : Nat) (i : Nat := 0) (j : Nat := 0) : State :=
  { s with regs := mput 0 s.regs (f.key i j) ((v % 2 ^ f.width) ^^^ (f.reset i j % 2 ^ f.width)) }

/-- Set a one-bit field. -/
def State.wb (s : State) (f : Field) (b : Bool) (i : Nat := 0) (j : Nat := 0) : State := s.w f (b2n b) i j

/-- Set a signed field in two's complement. -/
def State.wi (s : State) (f : Field) (v : Int) (i : Nat := 0) (j : Nat := 0) : State := s.w f (ofSigned f.width v) i j

/-- Add 1 to a counter field, saturating. -/
def State.inc (s : State) (f : Field) (i : Nat := 0) (j : Nat := 0) : State := s.w f (satInc f.width (s.r f i j)) i j

/-- Add n to a counter field, saturating. -/
def State.add (s : State) (f : Field) (n : Nat) (i : Nat := 0) (j : Nat := 0) : State :=
  s.w f (satAdd f.width (s.r f i j) n) i j

/-- Bit b of a bit-array field whose words hold 32 bits each. -/
def State.rbit (s : State) (f : Field) (b : Nat) : Bool := bitAt (s.r f (b / 32)) (b % 32)

/-- Set or clear bit b of such an array. -/
def State.wbit (s : State) (f : Field) (b : Nat) (on : Bool) : State :=
  s.w f (if on then setBit (s.r f (b / 32)) (b % 32) else clrBit (s.r f (b / 32)) (b % 32)) (b / 32)

/-- Set bit b of a plain field. -/
def State.wset (s : State) (f : Field) (b : Nat) (on : Bool) (i : Nat := 0) : State :=
  s.w f (if on then setBit (s.r f i) b else clrBit (s.r f i) b) i

/-! ### Access codes (R9) -/

/-- The code lets a field be written in this mode. -/
def Access.opens (a : Access) (m : Mode) : Bool :=
  match a with
  | .rw | .wo | .w1c => m != .dead
  | .rws => m == .boot || m == .maintenance
  | .rwb => m == .boot
  | .ro => false

/-- The bits a field covers. -/
def Field.bits (f : Field) : Nat := (2 ^ f.width - 1) * 2 ^ f.lsb

/-- The part of a word written that belongs to a field. -/
def Field.part (f : Field) (v : Nat) : Nat := bitsOf v f.lsb f.width

end Sys2Proof.Machine
end

