-- ==== Sys2Proof/Machine/Operands.lean ====
section
/-! DEFINITION. Sys2Proof/Machine/Operands.lean: the 32-byte descriptor of a ring command: how its fields are read, and
the bytes that spell each command (R348, and the descriptor table of each subsystem). -/

namespace Sys2Proof.Machine

open Sys2Proof

/-! ### Fields of a descriptor (R348) -/

/-- A signed little-endian field. -/
def sfield (bs : List Byte) (off n : Nat) : Int := toSigned (8 * n) (field bs off n)

/-- Reserved bytes off to off + n − 1: 0 where all are 0. -/
def resv (bs : List Byte) (off n : Nat) : Nat := field bs off n

/-- The bits of byte off above its lowest k. -/
def resvBits (bs : List Byte) (off k : Nat) : Nat := field bs off 1 / 2 ^ k

/-! ### The bytes of a command -/

/-- A descriptor: OPCODE, FLAGS 0, LIFE 0, TAG, the fields from byte 8 on, and the CRC-32C over bytes 0 to 27. -/
def descBytes (op tag : Nat) (fields : List Byte) : List Byte :=
  let head := le 1 op ++ le 3 0 ++ le 4 tag ++ padTo 20 (fields.take 20)
  head ++ le 4 (crc32c head)

/-- No buffer is read for a command. -/
def noBuf : BufIn := { err := false, data := [] }

/-- A START stamp, from byte 10 on. -/
def startBytes (t : StampIn) : List Byte := le 2 t.sub ++ le 4 t.ns ++ le 6 t.sec

/-- The fields of CHT_RESERVE. -/
def reserveBytes (mode rover nSeg addr rsv : Nat) : List Byte :=
  le 1 rover ++ le 1 mode ++ le 2 nSeg ++ le 4 rsv ++ le 8 addr

/-- The fields of CHT_STAGING. -/
def stagingBytes (rover : Nat) (e n : Int) (radius rsv : Nat) : List Byte :=
  le 1 rover ++ le 3 rsv ++ le 4 (ofSigned 32 e) ++ le 4 (ofSigned 32 n) ++ le 4 radius

/-- The fields of PRF_PROFILE. -/
def profileBytes (action channel fields addr rsv : Nat) : List Byte :=
  le 2 channel ++ le 2 fields ++ le 1 action ++ le 3 rsv ++ le 8 addr

/-- The fields of POS_DRIVE. -/
def driveBytes (action channel flags : Nat) (position : Int) (rsv : Nat) : List Byte :=
  le 1 channel ++ le 1 action ++ le 1 flags ++ le 5 rsv ++ le 4 (ofSigned 32 position)

/-- The fields of GLT_READ, which reserves no byte. -/
def readBytes (kind stream module flags start addr len : Nat) : List Byte :=
  le 1 kind ++ le 1 stream ++ le 1 module ++ le 1 flags ++ le 4 start ++ le 8 addr ++ le 4 len

/-- The fields of SVC_UNIT. -/
def unitBytes (action cls index module rsv : Nat) : List Byte :=
  le 1 cls ++ le 1 action ++ le 1 module ++ le 1 rsv ++ le 4 index

/-- The first n bytes of a list, with zeros for those it does not have. -/
def bytesN (n : Nat) (bs : List Byte) : List Byte := padTo n (bs.take n)

/-- A ring command's handle, OPCODE, fields from byte 8 on and the buffer read for it. A reserved operand stands in the
first reserved byte or bytes of the command's fields. -/
def descParts : Instr → Option (Handle × Nat × List Byte × BufIn)
  | .hstNop h => some (h, 0xD0, [], noBuf)
  | .ttuStepMeasured h rsv => some (h, 0x01, le 1 0 ++ le 7 rsv, noBuf)
  | .ttuStepAmount h a rsv => some (h, 0x01, le 1 1 ++ le 7 rsv ++ le 8 (ofSigned 64 a), noBuf)
  | .ttuPulseArm h i t rsv => some (h, 0x02, le 1 i ++ le 1 1 ++ startBytes t ++ le 6 rsv, noBuf)
  | .ttuPulseCancel h i t rsv => some (h, 0x02, le 1 i ++ le 1 2 ++ startBytes t ++ le 6 rsv, noBuf)
  | .obsSetPos h x y z store rsv =>
    some (h, 0x31, le 6 (ofSigned 48 x) ++ le 6 (ofSigned 48 y) ++ le 6 (ofSigned 48 z) ++ le 1 (b2n store) ++ le 1 rsv, noBuf)
  | .fixRoverDisable h r rate rsv => some (h, 0x41, le 1 r ++ le 1 0 ++ le 1 rate ++ le 17 rsv, noBuf)
  | .fixRoverEnable h r rate rsv => some (h, 0x41, le 1 r ++ le 1 1 ++ le 1 rate ++ le 17 rsv, noBuf)
  | .fixRoverReset h r rate rsv => some (h, 0x41, le 1 r ++ le 1 2 ++ le 1 rate ++ le 17 rsv, noBuf)
  | .chtReserveNew h r n a rsv buf => some (h, 0x51, reserveBytes 0 r n a rsv, buf)
  | .chtReserveAppend h r n a rsv buf => some (h, 0x51, reserveBytes 1 r n a rsv, buf)
  | .chtReserveReplace h r n a rsv buf => some (h, 0x51, reserveBytes 2 r n a rsv, buf)
  | .chtRelease h r force rsv => some (h, 0x52, le 1 r ++ le 1 (b2n force) ++ le 18 rsv, noBuf)
  | .chtStaging h r e n radius rsv => some (h, 0x53, stagingBytes r e n radius rsv, noBuf)
  | .chtStagingRemove h r e n rsv => some (h, 0x53, stagingBytes r e n 0 rsv, noBuf)
  | .asgSubmit h warm preempt tag a len rsv =>
    some (h, 0x61, le 1 (b2n warm + 2 * b2n preempt) ++ le 3 rsv ++ le 4 tag ++ le 8 a ++ le 4 len, noBuf)
  | .asgCancel h rsv => some (h, 0x62, le 1 0 ++ le 19 rsv, noBuf)
  | .asgCancelPending h rsv => some (h, 0x62, le 1 1 ++ le 19 rsv, noBuf)
  | .prfBind h c kind sink rsv => some (h, 0x71, le 2 c ++ le 1 kind ++ le 1 sink ++ le 16 rsv, noBuf)
  | .prfUnbind h c sink rsv => some (h, 0x71, le 2 c ++ le 1 0 ++ le 1 sink ++ le 16 rsv, noBuf)
  | .prfProfileUpdate h c f a rsv buf => some (h, 0x72, profileBytes 0 c f a rsv, buf)
  | .prfProfileStart h c f a rsv buf => some (h, 0x72, profileBytes 1 c f a rsv, buf)
  | .prfProfileStop h c f a rsv buf => some (h, 0x72, profileBytes 2 c f a rsv, buf)
  | .prfProfileHalt h c f a rsv buf => some (h, 0x72, profileBytes 3 c f a rsv, buf)
  | .stpStopFleet h rsv => some (h, 0x91, le 1 0 ++ le 1 0 ++ le 18 rsv, noBuf)
  | .stpStopRover h r rsv => some (h, 0x91, le 1 1 ++ le 1 r ++ le 18 rsv, noBuf)
  | .stpResumeFleet h rsv => some (h, 0x92, le 1 0 ++ le 1 0 ++ le 18 rsv, noBuf)
  | .stpResumeRover h r rsv => some (h, 0x92, le 1 1 ++ le 1 r ++ le 18 rsv, noBuf)
  | .luvSlotSet h r cfg rsv => some (h, 0xA1, le 1 r ++ le 7 rsv ++ bytesN 8 cfg, noBuf)
  | .luvSlotRemove h r cfg rsv =>
    some (h, 0xA1, le 1 r ++ le 7 rsv ++ bytesN 4 cfg ++ le 1 255 ++ bytesN 3 (cfg.drop 5), noBuf)
  | .twnRoleSetLead h rsv => some (h, 0xC1, le 1 0 ++ le 19 rsv, noBuf)
  | .twnRoleSetTime h rsv => some (h, 0xC1, le 1 1 ++ le 19 rsv, noBuf)
  | .cplQueueSet h q notice maxC minC maxP rsv =>
    some (h, 0xE1, le 2 q ++ le 1 1 ++ le 1 notice ++ le 4 maxC ++ le 4 minC ++ le 2 maxP ++ le 6 rsv, noBuf)
  | .cplQueueDelete h q rsv => some (h, 0xE1, le 2 q ++ le 1 0 ++ le 11 0 ++ le 6 rsv, noBuf)
  | .cplRead h q maxP len a rsv => some (h, 0xE2, le 2 q ++ le 2 maxP ++ le 4 len ++ le 8 a ++ le 4 rsv, noBuf)
  | .canSend h c a rsv buf => some (h, 0xF8, le 1 c ++ le 7 rsv ++ le 8 a, buf)
  | .canCtrlOff h c rsv => some (h, 0xF9, le 1 c ++ le 1 0 ++ le 18 rsv, noBuf)
  | .canCtrlOn h c rsv => some (h, 0xF9, le 1 c ++ le 1 1 ++ le 18 rsv, noBuf)
  | .canCtrlSleep h c rsv => some (h, 0xF9, le 1 c ++ le 1 2 ++ le 18 rsv, noBuf)
  | .canCtrlRecover h c rsv => some (h, 0xF9, le 1 c ++ le 1 3 ++ le 18 rsv, noBuf)
  | .canCtrlFlush h c rsv => some (h, 0xF9, le 1 c ++ le 1 4 ++ le 18 rsv, noBuf)
  | .posDriveDisable h c flags rsv => some (h, 0x81, driveBytes 0 c flags 0 rsv, noBuf)
  | .posDriveEnable h c flags rsv => some (h, 0x81, driveBytes 1 c flags 0 rsv, noBuf)
  | .posDriveSetPos h c flags p rsv => some (h, 0x81, driveBytes 2 c flags p rsv, noBuf)
  | .posDriveSyncEnc h c flags rsv => some (h, 0x81, driveBytes 3 c flags 0 rsv, noBuf)
  | .posDriveClear h c flags rsv => some (h, 0x81, driveBytes 4 c flags 0 rsv, noBuf)
  | .posHome h c flags fast slow offset travel rsv =>
    some (h, 0x82, le 1 c ++ le 1 flags ++ le 2 rsv ++ le 4 fast ++ le 4 slow ++ le 4 (ofSigned 32 offset) ++ le 4 travel, noBuf)
  | .gltReadBlocks h k m flags start a len _ peer => some (h, 0xF5, readBytes 0 k m flags start a len, peer)
  | .gltReadMark h k m flags start a len _ peer => some (h, 0xF5, readBytes 1 k m flags start a len, peer)
  | .gltReadWindow h k m flags start a len _ peer => some (h, 0xF5, readBytes 2 k m flags start a len, peer)
  | .gltReadRecords h k m flags start a len _ peer => some (h, 0xF5, readBytes 3 k m flags start a len, peer)
  | .logRead h m start a len rsv peer => some (h, 0xF2, le 1 m ++ le 3 rsv ++ le 4 start ++ le 8 a ++ le 4 len, peer)
  | .kvtKeyLoad h a rsv buf => some (h, 0xF3, le 8 rsv ++ le 8 a, buf)
  | .kvtCommit h rsv => some (h, 0xF4, le 1 0 ++ le 19 rsv, noBuf)
  | .kvtCommitDiscard h rsv => some (h, 0xF4, le 1 1 ++ le 19 rsv, noBuf)
  | .svcUnitOut h c i m rsv => some (h, 0xF6, unitBytes 0 c i m rsv, noBuf)
  | .svcUnitReturn h c i m rsv => some (h, 0xF6, unitBytes 1 c i m rsv, noBuf)
  | .svcUnitRestore h c i m rsv => some (h, 0xF6, unitBytes 2 c i m rsv, noBuf)
  | .bootImageLoad h m a len rsv buf => some (h, 0xF0, le 1 m ++ le 7 rsv ++ le 8 a ++ le 4 len, buf)
  | .enterMaint h m rsv => some (h, 0xF1, le 1 0 ++ le 1 m ++ le 18 rsv, noBuf)
  | .leaveMaint h m rsv => some (h, 0xF1, le 1 1 ++ le 1 m ++ le 18 rsv, noBuf)
  | .activate h m rsv => some (h, 0xF1, le 1 2 ++ le 1 m ++ le 18 rsv, noBuf)
  | .saveConfig h m rsv => some (h, 0xF1, le 1 3 ++ le 1 m ++ le 18 rsv, noBuf)
  | .bootControlReset h m rsv => some (h, 0xF1, le 1 4 ++ le 1 m ++ le 18 rsv, noBuf)
  | _ => none

/-- The descriptor that spells a ring command, with the buffer read for it. -/
def descOf (c : Instr) : List Byte × BufIn :=
  match descParts c with
  | some (h, op, fields, buf) => (descBytes op h.tag fields, buf)
  | none => ([], noBuf)

end Sys2Proof.Machine
end

