-- ==== Sys2Proof/Machine/Ops.lean ====
section
/-! DEFINITION. Sys2Proof/Machine/Ops.lean: the named operations every subsystem uses: free values, outputs, the
Logbook queue, event raisings, completions, mode changes and entry into DEAD. -/

namespace Sys2Proof.Machine

open Sys2Proof

/-! ### Free values and outputs -/

/-- The next free value, and the state that has drawn it. -/
def State.fresh (s : State) : Nat × State := (Config.freeNat s.free, { s with free := s.free + 1 })

/-- Put something out. -/
def State.emit (s : State) (o : Out) : State := { s with out := s.out ++ [o] }

/-- A command starts with no output. -/
def State.start (s : State) : State := { s with out := [] }

/-- The queue of waiting commands is as given. -/
def State.requeue (s : State) (q : List Instr) : State := { s with pending := q }

/-- The instant of the tick at which what follows happens, where it is known. -/
def State.atInst (s : State) (i : Option Nat) : State := { s with inst := i }

/-- Something happens at an instant of the tick. -/
def atInstant (i : Nat) (f : State → State) (s : State) : State := (f (s.atInst (some i))).atInst s.inst

/-- A command starts with no output and leaves the queue of waiting commands as it is; held in reset (R485) a module
takes nothing. `i`: its instant in the tick, where its operands give one. -/
def withOutAt (s : State) (i : Option Nat) (f : State → State) : Host.Outcome State Fault Refusal :=
  if s.held then .next s.start else .next (((f (s.start.atInst i)).requeue s.pending).atInst s.inst)

/-- The same for a command whose operands give no instant. -/
def withOut (s : State) (f : State → State) : Host.Outcome State Fault Refusal := withOutAt s none f

/-- A command that belongs to a tick boundary: its instant is the start of the tick. -/
def withBoundary (s : State) (f : State → State) : Host.Outcome State Fault Refusal := withOutAt s (some 0) f

/-- A read of a register that latches others; in DEAD it returns 0 and latches nothing (R344). -/
def latchRead (f : State → State) (s : State) : State := if s.mode == .dead then s.emit (.readData 0) else f s

/-! ### Modes -/

/-- The number of a mode in the R6 table. -/
def modeNum : Mode → Nat
  | .boot => 0 | .maintenance => 1 | .shadow => 2 | .lead => 3 | .halt => 4 | .dead => 5

/-- LEAD or HALT. -/
def State.leading (s : State) : Bool := s.mode == .lead || s.mode == .halt

/-- SHADOW, LEAD or HALT: every engine runs (R39). -/
def State.running (s : State) : Bool := s.mode == .shadow || s.mode == .lead || s.mode == .halt

/-- An ACTIVATE pause is in progress (R495). -/
def State.paused (s : State) : Bool := s.rb Reg.BOOT_STATUS.PAUSE

/-- Engine slots run in SHADOW, LEAD and HALT, outside an ACTIVATE pause (R39, R495). -/
def State.slots (s : State) : Bool := s.running && !s.paused

/-- The pair state (R319). -/
def State.pair (s : State) : Nat := s.r Reg.TWN_STATUS.PAIR_STATE

/-- IN_SYNC. -/
def State.inSync (s : State) : Bool := s.pair == 3

/-- Solo operation: NO_PEER, TRAINING, RESYNC or PEER_GONE (R319). -/
def State.solo (s : State) : Bool := s.pair == 0 || s.pair == 1 || s.pair == 2 || s.pair == 5

/-! ### Reflection (R323) -/

/-- The lead notes a change for its reflection stream. -/
def reflect (s : State) (i : ReflItem) : State :=
  if s.leading then { s with twn := { s.twn with
    items := s.twn.items ++ [{ seq := s.twn.seq, tick := s.tick, item := i }], seq := s.twn.seq + 1 } } else s

/-- The tick in which a command is accepted: the lead's while a reflected command is executed. -/
def State.now (s : State) : Nat := if s.twn.reflecting then s.twn.reflTick else s.tick

/-! ### Time bases (R58) -/

/-- How far a base has come in the tick that advances `adv` over it: in proportion to the tick's length; in a tick made
longer while it runs, at the old rate up to that instant (`old` over the old length) and evenly from there to the end, so
that it never decreases (R58, R59, R518; log entry 64). -/
def State.comeIn (s : State) (old adv at_ : Nat) : Nat :=
  match s.ttu.bend with
  | none => at_ * adv / s.ttu.len
  | some (b, l) =>
    if at_ ≤ b then at_ * old / l
    else b * old / l + (at_ - b) * (adv - b * old / l) / (s.ttu.len - b)

/-- What TB1 would have advanced over the tick before it was made longer. -/
def State.advBefore (s : State) : Nat :=
  match s.ttu.bend with
  | none => s.ttu.adv
  | some (_, l) => s.ttu.adv - (s.ttu.len - l)

/-- TB1 at `at_` units after the tick boundary. -/
def State.tb1 (s : State) (at_ : Nat) : Nat := s.ttu.tb1 + s.comeIn s.advBefore s.ttu.adv at_

/-- The TB2 offset in 2⁻¹⁶ ns (R58). -/
def State.tb2Offset (s : State) : Int :=
  toSigned 48 (s.r Reg.TTU_TB2_OFFSET.OFFS_S_LO + 2 ^ 32 * s.r Reg.TTU_TB2_OFFSET.OFFS_S_HI) * (uSec : Int)
    + (s.r Reg.TTU_TB2_OFFSET.OFFS_NS * uNs : Nat)

/-- How far TB0 has come in the tick: 1 ms over the whole of it (R77). -/
def State.tb0In (s : State) (at_ : Nat) : Nat := s.comeIn uTick uTick at_

/-- A time base at `at_` units after the tick boundary: 0 TB0, 1 TB1, 2 TB2, 3 TB3. -/
def State.tb (s : State) (base at_ : Nat) : Nat :=
  match base with
  | 0 => s.tick * uTick + s.tb0In at_
  | 1 => s.tb1 at_
  | 2 => ((s.tb1 at_ : Int) + s.tb2Offset).toNat
  | _ => s.ttu.tb3 + at_

/-- The time-counter cycle as an instant of the tick: 4 ns each. -/
def cycU (cyc : Nat) : Nat := cyc * 4 * uNs

/-! ### The Logbook queue (R439) -/

/-- Put a pending record in the queue; a record that finds it full is dropped and counted. -/
def logPush (s : State) (r : LogRec) : State :=
  if s.log.queue.length < 256 then { s with log := { s.log with queue := s.log.queue ++ [r] } }
  else s.inc Reg.LOG_COUNTS.OVF_DROP

/-- The instant at which what happens now is stamped (R34): up to 8 ns after the instant the command's operands give;
with none given, a free value of the tick (log entry 5). -/
def stampAt (s : State) (v : Nat) : Nat :=
  match s.inst with
  | some a => a + v % (8 * uNs + 1)
  | none => v % s.ttu.len

/-- A pending record of this module with its TB1 stamp (R34). -/
def logNow (s : State) (k : LogKind) (source : Nat) (data : List Byte) : State :=
  let (v, s) := s.fresh
  logPush s { kind := k, peer := false, seq := 0, source := source, rep := 0, mode := modeNum s.mode,
              stamp := s.tb1 (stampAt s v), tick := s.tick, lastDt := 0, data := data }

/-! ### Events (R353, R354) -/

/-- No single unit applies to a raising (R353). -/
def noDetail : Nat := 0xFFFFFFFF

/-- SIZE of a ring (R346). -/
def ringSize (log2 : Nat) : Nat := 2 ^ clampN 4 12 log2

/-- Entries an EQ holds or is owed: written and not consumed, and waiting. -/
def eqUsed (s : State) (q : Nat) : Nat :=
  (s.r Reg.HST_EQ.PI q + 65536 - s.r Reg.HST_EQ.DB_CI q) % 65536 + (s.hst.evq.filter (fun e => e.eq == q)).length

/-- Deliver a raising to EQ q by the rows of R354. -/
def routeTo (s : State) (e detail q : Nat) : State :=
  if s.mode == .boot || s.mode == .dead || !mget false s.hst.eqOn q then s
  else if ringSize (s.r Reg.HST_EQ.SIZE_LOG2 q) ≤ eqUsed s q then
    let s := s.inc Reg.HST_COUNTS.EVT_LOST
    if q ∈ s.hst.evOvf then s else { s with hst := { s.hst with evOvf := s.hst.evOvf ++ [q] } }
  else { s with hst := { s.hst with evq := s.hst.evq ++
    [{ source := e, mode := modeNum s.mode, detail := detail, tick := s.tick, eq := q }] } }

/-- A Glint stream of source 0x0E records the raising at its instant (R34, R419). -/
def gltEvent (s : State) (e detail : Nat) : State :=
  if (List.range 8).any (fun k => s.r Reg.GLT_STREAM.SRC k == 0x0E && s.rb Reg.GLT_STREAM.EN k)
      && s.mode != .boot && s.mode != .dead then
    let (v, s) := s.fresh
    { s with glt := { s.glt with evts := s.glt.evts ++
      [(stampAt s v, le 2 e ++ le 1 (modeNum s.mode) ++ le 1 0 ++ le 4 detail ++ le 8 s.tick)] } }
  else s

/-- The pending bit, the Logbook record and the Glint record of a raising (R354, R419, R438). -/
def raiseMark (s : State) (e detail : Nat) : State :=
  let s := gltEvent (s.wbit Reg.HST_EVT_PEND.PEND e true) e detail
  if s.rbit Reg.LOG_MASK.MASK e then logNow s .event e (le 4 detail) else s

/-- One raising of event e, without the overflow of the Logbook queue. -/
def raiseCore (s : State) (e detail : Nat) : State :=
  let s := raiseMark s e detail
  if s.rb Reg.HST_EVT_ROUTE.EN e then routeTo s e detail (s.r Reg.HST_EVT_ROUTE.RING e) else s

/-- A raising of event e (R354). LOG_OVERFLOW (E493) follows a record the Logbook queue dropped, at most once per
tick (R439). -/
def raise (s : State) (e : Nat) (detail : Nat := noDetail) : State :=
  let t := raiseCore s e detail
  if s.r Reg.LOG_COUNTS.OVF_DROP = t.r Reg.LOG_COUNTS.OVF_DROP ∨ 493 ∈ t.onceTick then t
  else raiseCore { t with onceTick := t.onceTick ++ [493] } 493 noDetail

/-- A raising made at most once per tick: `key` tells the raisings limited apart. -/
def raiseTickKey (s : State) (key e detail : Nat) : State :=
  if key ∈ s.onceTick then s else raise { s with onceTick := s.onceTick ++ [key] } e detail

/-- A raising made at most once per tick. -/
def raiseTick (s : State) (e : Nat) (detail : Nat := noDetail) : State := raiseTickKey s e e detail

/-- A raising made at most once per watch. -/
def raiseWatch (s : State) (e : Nat) (detail : Nat := noDetail) : State :=
  if e ∈ s.onceWatch then s else raise { s with onceWatch := s.onceWatch ++ [e] } e detail

/-- A NOTE to the Logbook, whatever LOG_MASK holds (R438). -/
def note (s : State) (source : Nat) (data : List Byte) : State := logNow s .note source data

/-! ### Completions (R351, R352) -/

/-- The tick of fetch of a descriptor: as recorded when it started, otherwise this tick. -/
def fetchTick (s : State) (h : Handle) : Nat :=
  match s.hst.started.find? (fun p => p.1 == h) with
  | some p => p.2
  | none => s.now

/-- The command of handle h is done with, without a completion. -/
def forget (s : State) (h : Handle) : State :=
  { s with hst := { s.hst with started := s.hst.started.filter (fun p => !(p.1 == h)) } }

/-- The command of handle h completes: its one completion becomes due (R352). In DEAD nothing is kept (R361 row 1); a
shadow keeps none that the lead has written. -/
def complete (s : State) (h : Handle) (status : Nat) (detail : Nat := 0) : State :=
  if s.mode == .dead then s
  else if s.mode == .shadow && s.twn.written.contains h then
    { forget s h with twn := { s.twn with written := s.twn.written.filter (fun x => !(x == h)) } }
  else { s with hst := { s.hst with
    started := s.hst.started.filter (fun p => !(p.1 == h)),
    compl := s.hst.compl ++ [{ h := h, ftick := fetchTick s h, status := status, detail := detail }] } }

/-- A descriptor fetched in tick t is accounted to its subsystem from now on. -/
def startAt (s : State) (h : Handle) (t : Nat) : State :=
  if s.hst.started.any (fun p => p.1 == h) then s
  else { s with hst := { s.hst with started := s.hst.started ++ [(h, t)] } }

/-- The subsystem has accepted the command for execution and completes it later (R347). -/
def accept (s : State) (h : Handle) : State := startAt s h s.now

/-- The other module carries the command out: it waits for the peer's result, and the status given completes it where
the pair is lost (R352). -/
def peerWait (s : State) (h : Handle) (status detail : Nat) : State :=
  { accept s h with twn := { s.twn with peerCmds := s.twn.peerCmds ++ [(h, status, detail)] } }

/-- Commands that end together. -/
def completeAll (s : State) (hs : List Handle) (status : Nat) (detail : Nat := 0) : State :=
  hs.foldl (fun s h => complete s h status detail) s

/-- In place of a status: the command waits for the peer's result even where the pair is lost for a time. -/
def peerStays : Nat := 256

/-! Status codes of R362. -/
def stOk : Nat := 0x00
def stCrc : Nat := 0x10
def stOpcode : Nat := 0x11
def stMode : Nat := 0x12
def stStamp : Nat := 0x13
def stFormat : Nat := 0x14
def stBuffer : Nat := 0x15
def stCancelled : Nat := 0x21
def stExpired : Nat := 0x22
def stAbandoned : Nat := 0x23
def stSuperseded : Nat := 0x24
def stReplay : Nat := 0x31
def stStep : Nat := 0x40
def stPos : Nat := 0x44
def stRover : Nat := 0x48
def stRate : Nat := 0x49
def stOrigin : Nat := 0x50
def stSeg : Nat := 0x51
def stState : Nat := 0x52
def stFixStale : Nat := 0x53
def stConflict : Nat := 0x54
def stCapacity : Nat := 0x55
def stMatrix : Nat := 0x58
def stBind : Nat := 0x60
def stProfile : Nat := 0x61
def stDrive : Nat := 0x68
def stHomeFault : Nat := 0x69
def stStop : Nat := 0x70
def stResume : Nat := 0x71
def stSlot : Nat := 0x78
def stRole : Nat := 0x80
def stQueue : Nat := 0x88
def stUnit : Nat := 0x90
def stKey : Nat := 0x98
def stKcv : Nat := 0x99
def stLog : Nat := 0xA0
def stCapture : Nat := 0xA8
def stMarkLost : Nat := 0xA9
def stCan : Nat := 0xB0
def stImage : Nat := 0xB8
def stActivate : Nat := 0xB9

/-- The modes a command is handed over in (R349). -/
def anyRunMode : List Mode := [.maintenance, .lead, .halt]
def leadModes : List Mode := [.lead, .halt]

/-- The queue q of the Cell Pool. -/
def cplQ (s : State) (q : Nat) : CplQ := mget {} s.cpl.queues q

/-- How many packets a CPL_READ takes: up to MAX_PKTS, stopping at the first that would not fit whole. -/
def cplReadCount : List Pkt → Nat → Nat → Nat
  | [], _, _ => 0
  | p :: ps, k, room =>
    let n := 16 + 8 * ceilDiv p.data.length 8
    if k = 0 ∨ room < n then 0 else 1 + cplReadCount ps (k - 1) (room - n)

/-- Can the module reach host memory now? -/
def hostReach (s : State) : Bool := s.hst.linkUp && s.hst.pcie.bme

/-- The bytes a command writes into its buffer before the link goes down (R524). -/
def cutLen (h : Handle) (len : Nat) : Nat := min len (h.cut.getD len)

/-- The handle the stream carries: for CPL_READ with the bytes the lead writes, so that the shadow takes the same packets
(R374). -/
def handleSent (s : State) (h : Handle) (d : List Byte) : Handle :=
  if field d 0 1 = 0xE2 then
    let ps := (cplQ s (field d 8 2)).pkts
    let n := if hostReach s then cplReadCount ps (field d 10 2) (cutLen h (field d 12 4)) else 0
    { h with cut := some ((ps.take n).map fun p => 16 + 8 * ceilDiv p.data.length 8).sum }
  else h

/-- A ring command reaches its subsystem: HST fetches nothing in BOOT, SHADOW or DEAD and during an ACTIVATE pause;
a mode outside the command's modes refuses it with MODE_REFUSED (R349, R350 row 4). The lead reflects its descriptor `d`
with the buffer read for it (R323 item 3), and the shadow executes it as the lead does. -/
def ringOp (modes : List Mode) (h : Handle) (d : List Byte × BufIn) (body : State → State) (s : State) : State :=
  if s.mode == .boot || s.mode == .dead || s.paused then s
  else if s.mode == .shadow then (if s.twn.reflecting then body s else s)
  else if s.mode ∈ modes then body (reflect (s.atInst (some (cycU h.cyc))) (.desc (handleSent s h d.1) d.1 d.2))
  else complete s h stMode

/-- Data for the host's buffer; writes not issued when the link goes down are not made (R524). -/
def State.hostData (s : State) (h : Handle) (addr : Nat) (d : List Byte) : State :=
  if hostReach s && cutLen h d.length != 0 then s.emit (.hostWrite addr (d.take (cutLen h d.length))) else s

/-- A range of host memory lies within one window of the sealed host window map (R350 row 6, R464). -/
def inWindow (s : State) (addr len : Nat) : Bool :=
  (List.range 8).any fun n =>
    let base := s.r Reg.KVT_HWIN.BASE_LO n * 4096 + s.r Reg.KVT_HWIN.BASE_HI n * 2 ^ 32
    let limit := s.r Reg.KVT_HWIN.LIMIT_LO n * 4096 + 4095 + s.r Reg.KVT_HWIN.LIMIT_HI n * 2 ^ 32
    decide (base ≤ addr) && decide (addr + len ≤ limit + 1)

/-- A buffer the module reads: inside the map, and its read did not fail (R350 row 6). -/
def bufOk (s : State) (addr len : Nat) (b : BufIn) : Bool := inWindow s addr len && !b.err

/-- A spare flash block is left for a write that needs one (R474). -/
def flashSpare (s : State) : Bool := s.r Reg.SVC_SPARES.FLASH_SPARE != 0

/-! ### Mode changes (R492) -/

/-- Once a module that runs an image with SVN_COMMIT has reached SHADOW, LEAD or HALT, SVN_MIN is raised (R487). -/
def svnRaise (s : State) : State :=
  let i := s.bt.running
  if i.svnCommit && decide (s.r Reg.BOOT_SLOT.SVN_MIN < i.svn) then
    s.w Reg.BOOT_SLOT.SVN_MIN i.svn
  else s

/-! ### Sextant's channels and the mode (R112) -/

/-- REACQ_WATCHES; 0 taken as 1 (log entry 68). -/
def reacqWatches (s : State) : Nat := max 1 (s.r Reg.SXT_ALLOC.REACQ_WATCHES)

def sxtCh (s : State) (c : Nat) : SxtCh := mget ({} : SxtCh) s.sxt.chans c
def setSxtCh (s : State) (c : Nat) (v : SxtCh) : State :=
  { s with sxt := { s.sxt with chans := mput ({} : SxtCh) s.sxt.chans c v } }
def chState (s : State) (c : Nat) : Nat := s.r Reg.SXT_CH.STATE c
def setChState (s : State) (c v : Nat) : State := s.w Reg.SXT_CH.STATE v c

/-- The channel enters REACQ; its window starts (R111, R112). -/
def chReacq (s : State) (c : Nat) : State :=
  let v := sxtCh s c
  setChState (setSxtCh s c { v with restart := true, sync := false, polar := false, left := reacqWatches s }) c 4

/-- The key of a channel's STATE field. -/
def chStateKey (k : Nat) : Bool :=
  decide (0x21000 ≤ k / 32) && decide (k / 32 < 0x25000) && k / 32 % 16 == 0 && k % 32 == 0

/-- Sextant stops or starts running its slot: every channel keeps its state table and reads IDLE; on return every channel
that held a satellite, one only assigned to a predicted pair apart, enters REACQ (R112). -/
def sxtRun (s : State) : State :=
  if s.slots = s.sxt.ran then s
  else if s.slots then
    let s := { s with sxt := { s.sxt with ran := true } }
    s.sxt.chans.foldl (fun s p =>
      if p.2.bankOut then setChState s p.1 5
      else if p.2.held then (if p.2.found then chReacq s p.1 else setChState s p.1 1) else s) s
  else { s with sxt := { s.sxt with ran := false, latch := none, recs := [] }, regs := s.regs.filter (fun p => !chStateKey p.1) }

/-- Enter a mode: BOOT_MODE_CHANGE for every mode but BOOT and DEAD; ROLE, HALT and the HEALTH wave (R317) follow, and
Sextant stops or starts (R112). -/
def enterMode (s : State) (m : Mode) : State :=
  if s.mode = m then s
  else
    let s := sxtRun ({ s with mode := m }.w Reg.HST_MODE.MODE (modeNum m))
    let s := { s with twn := { s.twn with health := s.running && !s.twn.gone } }
    let s := s.wb Reg.STP_STATE.HALT (m == .halt)
    let s := s.w Reg.TWN_STATUS.ROLE (if m = .shadow then 1 else if m = .lead ∨ m = .halt then 2 else 0)
    let s := if s.running then svnRaise s else s
    if m = .boot ∨ m = .dead then s else raise s 508 (modeNum m)

/-- A link frame carries a CRC-32C (R318). -/
def withCrc (b : List Byte) : List Byte := b ++ le 4 (crc32c b)

/-- A link frame of kind 1 (DEAD) or 2 (POWER_FAIL) on both lanes: the tick number follows (R318). -/
def deadFrame (s : State) (kind : Nat) (fault : List Byte) : State :=
  s.emit (.byhelFrame kind (withCrc (le 8 s.tick ++ fault)))

/-- Both PHYs are powered down: no link, no port in service, and PTP has no port (R94). No ETH event is raised by it
(DESIGN CHOICE, log entry 80). -/
def ethDown (s : State) : State :=
  let s := iter (fun p s => ((s.wb Reg.ETH_P_STATUS.LINK false p).wb Reg.ETH_P_STATUS.IN_SERVICE false p).w
    Reg.ETH_P_STATUS.PORT_STATE 1 p) 2 s
  { s with ttu := { s.ttu with ptpPort := none } }

/-- No bridge is driven any longer (R402). -/
def bridgesDark (s : State) : State :=
  iter (fun n s =>
    let v := mget ({} : PosCh) s.pos.chans n
    let s := { s with pos := { s.pos with chans := mput ({} : PosCh) s.pos.chans n { v with coil := (0, 0) } } }
    (s.w Reg.POS_CH.STATE (if v.fault then 4 else 0) n).wb Reg.POS_CH.ENC_COVER false n) 4 s

/-- Entry into DEAD with a cause of R496: the FAULT record, every STOP_OUT released, the bridges off, the DEAD frame, GONE, the volatile
keys zeroised, and no ring entry written from now on (R361 row 1). -/
def enterDead (s : State) (cause source : Nat) : State :=
  if s.mode == .dead then s
  else
    let s := ethDown s
    let data := le 2 cause
    let s := logNow s .fault source data
    let s := { s with bt := { s.bt with
      cause := cause, slotBad := s.bt.slotBad || s.bt.load.isSome, load := none, saves := [], check := none, pause := none
      reset := false, leave := false } }
    let s := s.w Reg.STP_STATE.OUT_ON 0
    let s := deadFrame s 1 data
    let s := bridgesDark (enterMode s .dead)
    let s := s.wb Reg.BOOT_STATUS.PAUSE false
    { s with
      modeNext := none
      hst := { s.hst with reading := [], waiting := [], started := [], compl := [], evq := [], evOvf := [], dbReads := 0 }
      twn := { s.twn with health := false, gone := true, claimLeft := 0 }
      stp := { s.stp with hbA := {}, hbB := {}, resumes := [] }
      kvt := { s.kvt with volatile := false, gs := false } }

/-! ### The budget monitor (R49, R55, R56) -/

/-- The fixed-cost engines of R40 (row 8 of R49): TTU, SXT, OBS, PRF, STP, LUV, SEC. -/
def fixedCost (e : Nat) : Bool := e ∈ [0, 1, 2, 6, 7, 8, 9]

/-- Engine e overruns in this tick: OVR, OVR_COUNT once per tick, TTU_SLOT_OVERRUN for a new OVR bit (R56, R57). -/
def overrun (s : State) (e : Nat) : State :=
  let new := !bitAt (s.r Reg.TTU_BUDGET_STATUS.OVR) e
  let s := s.wset Reg.TTU_BUDGET_STATUS.OVR e true
  let s := { s with svc := { s.svc with ovr := setBit s.svc.ovr e } }
  let key := 100000 + e
  let s := if key ∈ s.onceTick then s
    else { s.inc Reg.TTU_SLOT_OVR.OVR_COUNT e with onceTick := s.onceTick ++ [key] }
  if new && decide (e < 12) && bitAt (s.r Reg.TTU_BUDGET_MASK.EVT_EN) e then raise s 1 else s

/-- TTU measures engine e's use of its slot: MAX_USE (R55, R56). -/
def slotUsed (s : State) (e held : Nat) : State :=
  let total := mget 0 s.ttu.use e + held
  let s := { s with ttu := { s.ttu with use := mput 0 s.ttu.use e total } }
  if s.r Reg.TTU_SLOT_USE.MAX_USE e < total then s.w Reg.TTU_SLOT_USE.MAX_USE (min total 65535) e else s

/-- A fixed-cost engine is still working at the end of its slot (row 8 of R49): TTU_FIXED_COST_FAULT, a note of it in the
Logbook whatever LOG_MASK holds (R57, R438), and DEAD. -/
def fixedFault (s : State) (e : Nat) : State := enterDead (raise (note (overrun s e) 2 (le 1 e)) 2) 0x05 0

/-- Engine e ends its slot: MAX_USE, and the outcome of work still pending (R49). -/
def slotEnd (s : State) (e : Nat) (u : SlotUse) : State :=
  let s := slotUsed s e u.held
  if u.pending then if fixedCost e then fixedFault s e else overrun s e else s

end Sys2Proof.Machine
end

