-- ==== Sys2Proof/Machine/Cpl.lean ====
section
/-! DEFINITION. Sys2Proof/Machine/Cpl.lean: the Cell Pool: storage for packets, the queue commands, and the boundary
work of the pool (R366 to R376). -/

namespace Sys2Proof.Machine

open Sys2Proof

/-- Cells of 256 bytes a packet takes. -/
def cellsOf (len : Nat) : Nat := ceilDiv (max len 1) 256

/-- All cells of the pool (R367). -/
def poolCells : Nat := 131072

/-- The queue q replaced. -/
def cplSetQ (s : State) (q : Nat) (v : CplQ) : State :=
  { s with cpl := { s.cpl with queues := mput {} s.cpl.queues q v } }

/-- The cells of queue q become c: FREE_CELLS, the use beyond reservations, and CPL_POOL_LOW on falling below the
threshold (R376). -/
def cplSetCells (s : State) (q c : Nat) : State :=
  let old := s.r Reg.CPL_Q.CELLS q
  let mn := s.r Reg.CPL_Q.MIN_CELLS q
  let free := s.r Reg.CPL_STATUS.FREE_CELLS
  let free' := free + old - c
  let s := { s with cpl := { s.cpl with excess := s.cpl.excess + (c - mn) - (old - mn) } }
  let s := (s.w Reg.CPL_Q.CELLS c q).w Reg.CPL_STATUS.FREE_CELLS free'
  let thr := clampN 1 50 (s.r Reg.CPL_CFG.LOW_PCT) * poolCells
  if free' * 100 < thr ∧ ¬ free * 100 < thr then raise s 450 else s

/-- A packet of n cells fits beside k packets and c cells of queue q (R371). -/
def cplFitsLimits (s : State) (q n k c : Nat) : Bool :=
  decide (k + 1 ≤ s.r Reg.CPL_Q.MAX_PKTS q) && decide (c + n ≤ s.r Reg.CPL_Q.MAX_CELLS q)

/-- The pool has the cells queue q needs to hold c + n, beyond the reservations of the other queues (R371). -/
def cplFitsPool (s : State) (q n c : Nat) : Bool :=
  let mn := s.r Reg.CPL_Q.MIN_CELLS q
  let others := s.cpl.excess - (s.r Reg.CPL_Q.CELLS q - mn)
  decide (c + n ≤ mn) || decide (s.r Reg.CPL_STATUS.RESERVED_CELLS + others + (c + n - mn) ≤ poolCells)

/-- How many of the oldest packets must go before a packet of n cells fits (rows 2 and 3 of R371); none: never. -/
def cplTrim (s : State) (q n : Nat) : List Pkt → Nat → Nat → Nat → Option Nat
  | [], k, c, gone => if cplFitsLimits s q n k c && cplFitsPool s q n c then some gone else none
  | p :: ps, k, c, gone =>
    if cplFitsLimits s q n k c && cplFitsPool s q n c then some gone
    else cplTrim s q n ps (k - 1) (c - cellsOf p.data.length) (gone + 1)

/-- The cells of a list of packets. -/
def pktCells : List Pkt → Nat
  | [] => 0
  | p :: ps => cellsOf p.data.length + pktCells ps

/-- Remove the g oldest complete packets as lost: LOST, LOST_BEFORE, CPL_PKT_LOST (R371). -/
def cplDropOldest (s : State) (q g : Nat) : State :=
  if g = 0 then s
  else
    let v := cplQ s q
    let out := v.pkts.take g
    let s := cplSetQ s q { v with pkts := v.pkts.drop g, lost := true }
    let s := cplSetCells s q (s.r Reg.CPL_Q.CELLS q - pktCells out)
    let s := s.w Reg.CPL_Q.PKTS (v.pkts.length - g) q
    raiseTick (s.add Reg.CPL_Q.LOST g q) 449

/-- Take storage for a packet of len bytes at its first cell (R371): whether it is written, and the state. -/
def cplBegin (s : State) (q len : Nat) : Bool × State :=
  if !s.rb Reg.CPL_Q.EXISTS q then (false, raiseTick (s.inc Reg.CPL_COUNTS.NOQ_DROP) 452)
  else
    let n := cellsOf len
    let v := cplQ s q
    match cplTrim s q n v.pkts (v.pkts.length + b2n (v.writing ≠ 0)) (s.r Reg.CPL_Q.CELLS q) 0 with
    | none => (false, raiseTick (s.inc Reg.CPL_COUNTS.POOL_DROP) 449)
    | some g =>
      let s := cplDropOldest s q g
      let v := cplQ s q
      let s := cplSetQ s q { v with writing := v.writing + n }
      (true, cplSetCells s q (s.r Reg.CPL_Q.CELLS q + n))

/-- The host consumes these queues (R367). -/
def hostQueue (q : Nat) : Bool :=
  q == 128 || decide (130 ≤ q ∧ q ≤ 134) || decide (136 ≤ q ∧ q ≤ 139) || decide (256 ≤ q ∧ q ≤ 1023)

/-- The last byte is written: the packet enters its queue, and the notice of a host queue is posted (R369). -/
def cplCommit (s : State) (q : Nat) (data : List Byte) : State :=
  let v := cplQ s q
  let s := cplSetQ s q { v with pkts := v.pkts ++ [{ data := data, tick := s.now }], writing := v.writing - cellsOf data.length }
  let s := s.w Reg.CPL_Q.PKTS (v.pkts.length + 1) q
  if hostQueue q && s.rb Reg.CPL_Q.NOTICE_EN q then raiseTickKey s (200000 + q) 448 q else s

/-- Write a whole packet into queue q. -/
def cplPut (s : State) (q : Nat) (data : List Byte) : State :=
  match cplBegin s q data.length with
  | (true, s) => cplCommit s q data
  | (false, s) => s

/-- The producer abandons a packet being written: its cells return at the next tick boundary (R370). -/
def cplAbandon (s : State) (q len : Nat) : State :=
  let n := cellsOf len
  let v := cplQ s q
  let s := cplSetQ s q { v with writing := v.writing - n }
  { s with cpl := { s.cpl with freeing := mput 0 s.cpl.freeing q (mget 0 s.cpl.freeing q + n) } }

/-- An internal consumer takes the oldest packet of a queue. -/
def cplTake (s : State) (q : Nat) : Option Pkt × State :=
  let v := cplQ s q
  match v.pkts with
  | [] => (none, s)
  | p :: ps =>
    let s := cplSetQ s q { v with pkts := ps }
    let s := s.w Reg.CPL_Q.PKTS ps.length q
    (some p, cplSetCells s q (s.r Reg.CPL_Q.CELLS q - cellsOf p.data.length))

/-- The k-th packet of queue q is taken. -/
def cplTakeAt (s : State) (q k : Nat) : Option Pkt × State :=
  let v := cplQ s q
  match v.pkts[k]? with
  | none => (none, s)
  | some p =>
    let s := cplSetQ s q { v with pkts := v.pkts.eraseIdx k }
    let s := s.w Reg.CPL_Q.PKTS (v.pkts.length - 1) q
    (some p, cplSetCells s q (s.r Reg.CPL_Q.CELLS q - cellsOf p.data.length))

/-- An uncorrectable cell discards its packet, the k-th of queue q (R27, R371). -/
def cplCellErr (s : State) (q k : Nat) : State :=
  let v := cplQ s q
  match v.pkts[k]? with
  | none => s
  | some p =>
    let s := cplSetQ s q { v with pkts := v.pkts.eraseIdx k, lost := true }
    let s := s.w Reg.CPL_Q.PKTS (v.pkts.length - 1) q
    let s := cplSetCells s q (s.r Reg.CPL_Q.CELLS q - cellsOf p.data.length)
    raise ((s.inc Reg.CPL_Q.LOST q).inc Reg.CPL_COUNTS.CELL_ERR) 451

/-- Cells of the largest packet of a fixed queue (R367; CAN queues R384: 96 bytes). -/
def largestCells (q : Nat) : Nat :=
  if q < 128 then 7 else if q = 131 ∨ q = 134 then 5 else 1

/-- The sum of R368 once the commands accepted in this tick have taken effect, queue q left out (R372). -/
def reservedOthers (s : State) (q : Nat) : Nat :=
  let own (k : Nat) : Nat := match s.cpl.pend.reverse.find? (fun x => x.q == k) with
    | some x => x.minC
    | none => s.r Reg.CPL_Q.MIN_CELLS k
  let ks := (s.cpl.pend.map (·.q)).eraseDups
  let base := s.r Reg.CPL_STATUS.RESERVED_CELLS + (ks.map own).sum - (ks.map fun k => s.r Reg.CPL_Q.MIN_CELLS k).sum
  base - own q

/-- The cases in which CPL_QUEUE_SET with ACTION 1 is refused (R372). -/
def queueSetBad (s : State) (q notice maxC minC maxP rsv : Nat) : Bool :=
  decide (1023 < q) || decide (1 < notice) || rsv != 0 || q == 135 || decide (144 ≤ q ∧ q ≤ 255)
  || decide (maxC < 1 ∨ poolCells < maxC ∨ maxC < minC ∨ maxP < 1 ∨ 65535 < maxP)
  || (s.rb Reg.CPL_Q.FIXED q && decide (maxC < largestCells q))
  || decide (poolCells < reservedOthers s q + minC)
  || decide (s.r Reg.CPL_STATUS.FREE_CELLS + s.r Reg.CPL_Q.CELLS q < reservedOthers s q + minC)
  || (decide (140 ≤ q ∧ q ≤ 143) && (decide (maxP < s.r Reg.CPL_Q.PKTS q) || decide (maxC < s.r Reg.CPL_Q.CELLS q)))

/-- CPL_QUEUE_SET with ACTION 1: create a user queue, or change limits, at the next tick boundary (R372). -/
def cplQueueSet (h : Handle) (q notice maxC minC maxP rsv : Nat) (s : State) : State :=
  if queueSetBad s q notice maxC minC maxP rsv then complete s h stQueue
  else complete { s with cpl := { s.cpl with pend := s.cpl.pend ++
    [{ q := q, create := true, notice := notice == 1, maxC := maxC, minC := minC, maxP := maxP }] } } h stOk

/-- CPL_QUEUE_SET with ACTION 0: delete a user queue at the next tick boundary (R372). -/
def cplQueueDelete (h : Handle) (q rsv : Nat) (s : State) : State :=
  if decide (1023 < q) || rsv != 0 || q == 135 || decide (144 ≤ q ∧ q ≤ 255) || s.rb Reg.CPL_Q.FIXED q then
    complete s h stQueue
  else complete { s with cpl := { s.cpl with pend := s.cpl.pend ++
    [{ q := q, create := false, notice := false, maxC := 0, minC := 0, maxP := 0 }] } } h stOk

/-- How many packets over its limits a queue holds, oldest first (R372: a lowered limit acts under row 2 of R371). -/
def cplExcess (maxP maxC : Nat) : List Pkt → Nat → Nat → Nat
  | [], _, g => g
  | p :: ps, c, g =>
    if ps.length + 1 ≤ maxP ∧ c ≤ maxC then g
    else cplExcess maxP maxC ps (c - cellsOf p.data.length) (g + 1)

/-- An accepted CPL_QUEUE_SET takes effect; CAN_TX_c loses nothing (R372, R384). -/
def cplApply (s : State) (x : QSet) : State :=
  let old := s.r Reg.CPL_Q.MIN_CELLS x.q
  let cells := s.r Reg.CPL_Q.CELLS x.q
  let res := s.r Reg.CPL_STATUS.RESERVED_CELLS
  if x.create then
    let s := s.w Reg.CPL_STATUS.RESERVED_CELLS (res - old + x.minC)
    let s := { s with cpl := { s.cpl with excess := s.cpl.excess - (cells - old) + (cells - x.minC) } }
    let s := ((((s.wb Reg.CPL_Q.EXISTS true x.q).wb Reg.CPL_Q.NOTICE_EN x.notice x.q).w Reg.CPL_Q.MAX_PKTS x.maxP x.q).w
      Reg.CPL_Q.MAX_CELLS x.maxC x.q).w Reg.CPL_Q.MIN_CELLS x.minC x.q
    if 140 ≤ x.q ∧ x.q ≤ 143 then s else cplDropOldest s x.q (cplExcess x.maxP x.maxC (cplQ s x.q).pkts cells 0)
  else
    let s := cplSetCells (cplSetQ s x.q {}) x.q 0
    let s := s.w Reg.CPL_STATUS.RESERVED_CELLS (res - old)
    (((((s.wb Reg.CPL_Q.EXISTS false x.q).wb Reg.CPL_Q.NOTICE_EN false x.q).w Reg.CPL_Q.MAX_PKTS 0 x.q).w
      Reg.CPL_Q.MAX_CELLS 0 x.q).w Reg.CPL_Q.MIN_CELLS 0 x.q).w Reg.CPL_Q.PKTS 0 x.q |>.w Reg.CPL_Q.LOST 0 x.q

/-- The tick-boundary work of the pool: abandoned cells return, accepted queue commands take effect. -/
def cplTick (s : State) : State :=
  let fr := s.cpl.freeing
  let s := { s with cpl := { s.cpl with freeing := [] } }
  let s := fr.foldl (fun s p => cplSetCells s p.1 (s.r Reg.CPL_Q.CELLS p.1 - p.2)) s
  let ps := s.cpl.pend
  ps.foldl cplApply { s with cpl := { s.cpl with pend := [] } }

/-- Bytes a packet takes in a CPL_READ buffer: 16-byte header, data, padding to 8 (R373). -/
def pktBytes (q : Nat) (lost : Bool) (p : Pkt) : List Byte :=
  padTo (16 + 8 * ceilDiv p.data.length 8)
    (le 2 p.data.length ++ le 2 q ++ le 1 (b2n lost) ++ le 3 0 ++ le 8 p.tick ++ p.data)

/-- The writes of the packets taken, one after another in the buffer. -/
def cplWrites (q addr : Nat) (lost : Bool) : List Pkt → List Out
  | [] => []
  | p :: ps => .hostWrite addr (pktBytes q lost p) :: cplWrites q (addr + (pktBytes q lost p).length) false ps

/-- The writes issued before the link goes down after c bytes of them (R524). -/
def cutWrites : Nat → List Out → List Out
  | _, [] => []
  | c, .hostWrite a d :: os =>
    if d.length ≤ c then .hostWrite a d :: cutWrites (c - d.length) os
    else if c = 0 then [] else [.hostWrite a (d.take c)]
  | c, o :: os => o :: cutWrites c os

/-- The writes of a CPL_READ. -/
def cplIssued (h : Handle) (q addr : Nat) (lost : Bool) (ps : List Pkt) : List Out :=
  match h.cut with
  | none => cplWrites q addr lost ps
  | some c => cutWrites c (cplWrites q addr lost ps)

/-- CPL_READ (R373, R374, R524): the shadow takes the packets the lead took and writes nothing; with the link down nothing
is written, and the packets stay; of a read the link cuts short, those stay whose writes were not all issued. -/
def cplRead (h : Handle) (q maxP bufLen addr rsv : Nat) (s : State) : State :=
  if !inWindow s addr bufLen then complete s h stBuffer
  else if decide (1023 < q) || !s.rb Reg.CPL_Q.EXISTS q || !hostQueue q || rsv != 0
      || decide (maxP < 1 ∨ 65535 < maxP ∨ bufLen % 8 ≠ 0 ∨ 65536 < bufLen ∨ addr % 8 ≠ 0) then
    complete s h stQueue
  else
    let v := cplQ s q
    let up := s.mode == .shadow || hostReach s
    let n := if up then cplReadCount v.pkts maxP (cutLen h bufLen) else 0
    let sent := if up then v.pkts.take (cplReadCount v.pkts maxP bufLen) else []
    let got := v.pkts.take n
    let s := if n = 0 then s else
      let s := cplSetQ s q { v with pkts := v.pkts.drop n, lost := false }
      cplSetCells (s.w Reg.CPL_Q.PKTS (v.pkts.length - n) q) q (s.r Reg.CPL_Q.CELLS q - pktCells got)
    let s := if s.mode == .shadow then s else { s with out := s.out ++ cplIssued h q addr v.lost sent }
    complete s h stOk (n + 65536 * min (v.pkts.length - n) 65535)

/-- CPL_QUEUE_SET with ACTION 1. -/
def execCplQueueSet (h : Handle) (q notice maxC minC maxP rsv : Nat) (s : State) : Host.Outcome State Fault Refusal :=
  withOut s (ringOp anyRunMode h (descOf (.cplQueueSet h q notice maxC minC maxP rsv))
    (cplQueueSet h q notice maxC minC maxP rsv))

/-- CPL_QUEUE_SET with ACTION 0. -/
def execCplQueueDelete (h : Handle) (q rsv : Nat) (s : State) : Host.Outcome State Fault Refusal :=
  withOut s (ringOp anyRunMode h (descOf (.cplQueueDelete h q rsv)) (cplQueueDelete h q rsv))

/-- CPL_READ. -/
def execCplRead (h : Handle) (q maxP bufLen addr rsv : Nat) (s : State) : Host.Outcome State Fault Refusal :=
  withOut s (ringOp anyRunMode h (descOf (.cplRead h q maxP bufLen addr rsv)) (cplRead h q maxP bufLen addr rsv))

end Sys2Proof.Machine
end

