-- ==== Sys2Proof/Machine/Ttu.lean ====
section
/-! DEFINITION. Sys2Proof/Machine/Ttu.lean: tick and watch numbering, time sources, TIME_STATE, steps and closing
watches, pulse outputs and captures (R35 to R83). -/

namespace Sys2Proof.Machine

open Sys2Proof

/-! ### Outputs and inputs -/

/-- What pulse output n holds. -/
def ttuPulse (s : State) (n : Nat) : PulseSt := mget ({} : PulseSt) s.ttu.pulses n
def ttuSetPulse (s : State) (n : Nat) (p : PulseSt) : State :=
  { s with ttu := { s.ttu with pulses := mput ({} : PulseSt) s.ttu.pulses n p } }
/-- What capture input n holds. -/
def ttuCapt (s : State) (n : Nat) : CaptSt := mget ({} : CaptSt) s.ttu.capts n
def ttuSetCapt (s : State) (n : Nat) (c : CaptSt) : State :=
  { s with ttu := { s.ttu with capts := mput ({} : CaptSt) s.ttu.capts n c } }

/-! ### Latching reads and writes (R56, R60, R82) -/

/-- A read of TTU_TICK_LO. -/
def ttuTickLoRead (s : State) : State :=
  (s.w Reg.TTU_TICK_HI.TICK_HI (s.tick / 2 ^ 32)).emit (.readData (s.tick % 2 ^ 32))

/-- A read of the low word of TTU_OFFSET. -/
def ttuOffsetLoRead (s : State) : State :=
  let v := ofSigned 64 s.ttu.offset
  (s.w Reg.TTU_OFFSET.OFFSET_HI (v / 2 ^ 32)).emit (.readData (v % 2 ^ 32))

/-- The stamp registers of base n take a latched value. -/
def ttuLatchBase (s : State) (n u : Nat) : State :=
  (((s.w Reg.TTU_TB_LATCH.SUB (u % 65536) n).w Reg.TTU_TB_LATCH.NS (u / 65536 % 1000000000) n).w
    Reg.TTU_TB_LATCH.S_LO (u / uSec) n).w Reg.TTU_TB_LATCH.S_HI (u / uSec / 2 ^ 32) n

/-- A write of TTU_LATCH: with LATCH = 1 the four bases are latched on one time-counter cycle (R60). -/
def ttuLatch (value cyc : Nat) (s : State) : State :=
  if value % 2 = 1 then
    let a := cycU cyc
    ttuLatchBase (ttuLatchBase (ttuLatchBase (ttuLatchBase s 0 (s.tb 0 a)) 1 (s.tb 1 a)) 2 (s.tb 2 a)) 3
      ((s.ttu.tb3 + a) / (4 * uNs) * (4 * uNs))
  else s

/-- A write of TTU_BUDGET_CLR: with CLEAR = 1 every MAX_USE and OVR_COUNT is cleared (R56). -/
def ttuBudgetClr (value : Nat) (s : State) : State :=
  if value % 2 = 1 then
    iter (fun e s => (s.w Reg.TTU_SLOT_USE.MAX_USE 0 e).w Reg.TTU_SLOT_OVR.OVR_COUNT 0 e) 13 s
  else s

/-! ### TIME_STATE (R65, R68) -/

/-- 100 µs, 50 ns and 10 ns in 2⁻¹⁶ ns. -/
def stepLimit : Nat := 100000 * uNs
def lockLimit : Nat := 50 * uNs
def slewLimit : Nat := 10 * uNs

def ttuState (s : State) : Nat := s.r Reg.TTU_TIME_STATE.STATE

/-- The disciplining count starts again (R64). -/
def ttuDiscReset (s : State) : State :=
  { (s.w Reg.TTU_DISC_TIME.DISC_S 0).wb Reg.TTU_TIME_STATE.DISC_24H false with ttu := { s.ttu with discTicks := 0 } }

/-- TIME_STATE takes a value; a change raises TTU_STATE_CHANGE, DIVERGED raises TTU_DIVERGED, and DEAD_RECKONING and
DIVERGED restart the disciplining count (R64, R83). -/
def ttuSetState (s : State) (v : Nat) : State :=
  if ttuState s = v then s
  else
    let s := s.w Reg.TTU_TIME_STATE.STATE v
    let s := if v = 3 ∨ v = 4 then ttuDiscReset s else s
    let s := raise s 6
    if v = 4 then raise s 9 else s

/-- Source qualified, enabled, and its PRIO (R62). -/
def srcQ (s : State) (i : Nat) : Bool :=
  match i with
  | 0 => s.rb Reg.TTU_TIME_STATE.Q_GNSS | 1 => s.rb Reg.TTU_TIME_STATE.Q_REF | _ => s.rb Reg.TTU_TIME_STATE.Q_PTP
def srcEn (s : State) (i : Nat) : Bool :=
  match i with
  | 0 => s.rb Reg.TTU_TIME_CFG.EN_GNSS | 1 => s.rb Reg.TTU_TIME_CFG.EN_REF | _ => s.rb Reg.TTU_TIME_CFG.EN_PTP
def srcPrio (s : State) (i : Nat) : Nat :=
  match i with
  | 0 => s.r Reg.TTU_TIME_CFG.PRIO_GNSS | 1 => s.r Reg.TTU_TIME_CFG.PRIO_REF | _ => s.r Reg.TTU_TIME_CFG.PRIO_PTP
def srcSetQ (s : State) (i : Nat) (q : Bool) : State :=
  match i with
  | 0 => s.wb Reg.TTU_TIME_STATE.Q_GNSS q | 1 => s.wb Reg.TTU_TIME_STATE.Q_REF q | _ => s.wb Reg.TTU_TIME_STATE.Q_PTP q
def srcUsable (s : State) (i : Nat) : Bool := srcQ s i && srcEn s i

/-- The better of two candidates: lower PRIO, then lower index (R62). -/
def srcBetter (s : State) (best : Option Nat) (i : Nat) : Option Nat :=
  if srcUsable s i then
    match best with
    | none => some i
    | some b => if srcPrio s i < srcPrio s b then some i else some b
  else best

/-- The source R62 selects. -/
def srcBest (s : State) : Option Nat := srcBetter s (srcBetter s (srcBetter s none 0) 1) 2

/-- How far slews have moved TB1 since reset, at an instant of the tick. -/
def slewAt (s : State) (at_ : Nat) : Int := s.ttu.slewSum + ((s.tb1 at_ - s.ttu.tb1 : Nat) - (at_ : Int))

/-- A source's time minus TB1 at the start of this tick (R63): as last measured, less what slews have moved TB1 since. -/
def srcOffset (s : State) (i : Nat) : Int :=
  match i with
  | 0 => match s.ttu.gnssSol with
    | some (_, _, o) => o - (s.ttu.slewSum - s.ttu.gnssSlew)
    | none => s.ttu.offset
  | 1 => s.ttu.ppsOff - (s.ttu.slewSum - s.ttu.ppsSlew)
  | _ => match s.ttu.ptpOffs.head? with
    | some o => o - (s.ttu.slewSum - s.ttu.ptpSlew)
    | none => s.ttu.offset

/-- TTU_OFFSET shows an offset. -/
def ttuShowOffset (s : State) (o : Int) : State :=
  { s with ttu := { s.ttu with offset := o } }.w Reg.TTU_OFFSET.OFFSET_LO (ofSigned 64 o)

/-- The offset measured becomes TTU_OFFSET, and the residual to slew: less what the tick that runs slews already (R71). -/
def ttuTakeOffset (s : State) (o : Int) : State :=
  ttuShowOffset { s with ttu := { s.ttu with resid := o - ((s.ttu.adv : Int) - s.ttu.len) } } o

/-- A difference of times to the nearest whole second: what is left of it, above −0.5 s and at most 0.5 s (R63). -/
def nearSecond (x : Int) : Int := x + (uSec : Int) * (((uSec : Int) - 2 * x) / (2 * (uSec : Int)))

/-- TB1 has been moved by amt: the offsets measured move against it; REF's is taken to the nearest second anew (R63). -/
def ttuOffsetsMove (s : State) (amt : Int) : State :=
  let delay : Int := (s.r Reg.TTU_PPS_DELAY.DELAY * uNs / 10 : Nat)
  { s with ttu := { s.ttu with
    ppsOff := nearSecond (s.ttu.ppsOff + delay - amt) - delay
    gnssSol := s.ttu.gnssSol.map fun g => (g.1, g.2.1, g.2.2 - amt)
    ptpOffs := s.ttu.ptpOffs.map (· - amt) } }

/-- The start of u(t): u₀ is TTU_UNCERT now, and t runs from now (R66). -/
def ttuLossNow (s : State) : State :=
  { s with ttu := { s.ttu with u0 := s.r Reg.TTU_UNCERT.UNCERT_NS, lossTicks := 0 } }

/-- Rows 6 and 7 of R68 for source i with its offset. `watch`: the offset is that of a watch boundary, the only ones that
count towards LOCKED (R65). -/
def ttuOffsetRule (s : State) (watch : Bool) (i : Nat) : State :=
  let o := srcOffset s i
  let s := s.w Reg.TTU_TIME_STATE.SRC i
  let s := ttuTakeOffset s o
  if o.natAbs ≤ stepLimit then
    let s := { s with ttu := { s.ttu with goodRun := b2n (watch && decide (o.natAbs ≤ lockLimit)) } }
    ttuSetState s 2
  else
    let s := if ttuState s = 1 ∨ ttuState s = 2 then ttuLossNow s else s
    ttuSetState s 4

/-- The selected source is lost: rows 4, 5 and 8 of R68. -/
def ttuLost (s : State) (watch : Bool) : State :=
  let s := raise (s.w Reg.TTU_TIME_STATE.SRC 3) 7
  match srcBest s with
  | some b => ttuOffsetRule (raise s 8) watch b
  | none => if ttuState s = 4 then s else ttuSetState (ttuLossNow s) 3

/-- REF10M_IN lies within ±1 ppm, or not; leaving it raises TTU_REF_FAULT while EN_REF = 1 (R83). -/
def ttuRefRange (s : State) (ok : Bool) : State :=
  let left := s.ttu.refOk && !ok
  let s := { s with ttu := { s.ttu with refOk := ok } }
  if left && s.rb Reg.TTU_TIME_CFG.EN_REF then raise s 15 else s

/-! ### Steps and closing watches (R52, R53, R518) -/

/-- START of output n. -/
def pulseStart (s : State) (n : Nat) : Nat :=
  stampOf (s.r Reg.TTU_PULSE.START_SUB n) (s.r Reg.TTU_PULSE.START_NS n)
    (s.r Reg.TTU_PULSE.START_S_LO n + 2 ^ 32 * s.r Reg.TTU_PULSE.START_S_HI n)

/-- The tick-in-watch number at position i of a closing watch. -/
def closingNumber (c : Closing) (i : Nat) : Nat :=
  if c.accNum = 99 ∧ c.accPos < i then 0x7F
  else if i + 1 = c.n then 99
  else if i ≤ 98 then i
  else 0x7F

/-- Length of the closing watch for a step, accepted at position p of a watch whose TB1 began at t0 (R52). -/
def closingLength (t0 : Nat) (amt : Int) (p : Nat) : Nat :=
  let lower := max (42 * uTick) ((p + 2) * uTick)
  let m := (((t0 + lower : Nat) : Int) + amt) % ((100 * uTick : Nat) : Int)
  if m = 0 then lower else lower + (100 * uTick - m.toNat)

/-- The outputs on TB0 carry STEP on their next edge (R77). -/
def pulseMarkTb0 (s : State) : State :=
  iter (fun n s => if s.r Reg.TTU_PULSE.TB_SEL n = 0 then ttuSetPulse s n { ttuPulse s n with mark := true } else s) 4 s

/-- TTU accepts a step of TB1 by amt. STRETCH_NS shows the whole nanoseconds of the stretch, a part below 1 ns dropped
(DESIGN CHOICE, log entry 65). -/
def ttuAcceptStep (s : State) (amt : Int) : State :=
  let p := s.ttu.pos
  let e := closingLength (s.ttu.tb1 - p * uTick) amt p
  let n := e / uTick
  let extra := e % uTick
  let s := reflect s (.step amt)
  let c : Closing := { n := n, extra := extra, accPos := p, accNum := s.r Reg.TTU_WATCH_POS.TICK_IN_WATCH }
  let s := { s with ttu := { s.ttu with closing := some c, stepAmt := some amt, stepDue := false } }
  let s := ((s.w Reg.TTU_CLOSING.CLOSING_TICKS n).wb Reg.TTU_CLOSING.STEP_PENDING true).w Reg.TTU_STRETCH.STRETCH_NS (extra / uNs)
  if p + 2 = n then
    let s := { s.wb Reg.TTU_WATCH_POS.STRETCHED true with ttu := { s.ttu with len := s.ttu.len + extra, adv := s.ttu.adv + extra } }
    if extra = 0 then s else pulseMarkTb0 s
  else s

/-- The tick that runs has been made longer at an instant of it: TB0 and TB1 go on from the values they have (R59). -/
def ttuBend (at_ : Nat) (was s : State) : State :=
  if s.ttu.len = was.ttu.len then s else { s with ttu := { s.ttu with bend := some (at_, was.ttu.len) } }

/-- The offset of the selected source as measured now; with none selected, the last one measured (row 8 of R68). -/
def offsetNow (s : State) : Int :=
  if s.r Reg.TTU_TIME_STATE.SRC = 3 then s.ttu.offset else srcOffset s (s.r Reg.TTU_TIME_STATE.SRC)

/-- TTU_STEP (R73): mode 0 takes the measured offset, mode 1 the amount given. -/
def ttuStep (h : Handle) (mode : Nat) (amountNs : Int) (rsv : Nat) (s : State) : State :=
  let noSource := !(srcQ s 0 || srcQ s 1 || srcQ s 2)
  if s.twn.reflecting then complete s h (if s.twn.stepSeen then stOk else stStep)
  else if rsv ≠ 0 ∨ 1 < mode ∨ ttuState s ≠ 4 ∨ s.ttu.stepAmt.isSome = true
      ∨ (mode = 0 ∧ noSource = true) ∨ (mode = 1 ∧ amountNs = 0) then complete s h stStep
  else
    let t := ttuAcceptStep s (if mode = 0 then offsetNow s else amountNs * (uNs : Int))
    complete (ttuBend (cycU h.cyc) s t) h stOk

/-- TTU judges its sources again at a watch boundary: the state machine of R68 (rows 2 to 9). A follower shows the master's time (R322). -/
def ttuSelect (s : State) : State :=
  if s.ttu.stepAmt.isSome || s.twn.follows then s
  else
    let cur := s.r Reg.TTU_TIME_STATE.SRC
    let best := srcBest s
    if cur ≠ 3 ∧ srcUsable s cur = false then ttuLost s true
    else
      match best with
      | none => s
      | some b =>
        if cur = 3 then
          if ttuState s = 0 then
            let o := srcOffset s b
            if o.natAbs ≤ stepLimit then ttuOffsetRule s true b
            else
              let s := ttuTakeOffset (s.w Reg.TTU_TIME_STATE.SRC b) o
              ttuAcceptStep (raise s 10) o
          else ttuOffsetRule s true b
        else if b ≠ cur then ttuOffsetRule (raise s 8) true b
        else
          let o := srcOffset s b
          if ttuState s = 4 then
            if o.natAbs ≤ stepLimit then ttuOffsetRule s true b else ttuTakeOffset s o
          else if stepLimit < o.natAbs then ttuOffsetRule s true b
          else
            let run := if o.natAbs ≤ lockLimit then min (s.ttu.goodRun + 1) 10 else 0
            let s := ttuTakeOffset { s with ttu := { s.ttu with goodRun := run } } o
            ttuSetState s (if 10 ≤ run then 1 else 2)

/-- What a step of TB1 does to output n, on TB1 or TB2 (R77): its next edge carries STEP; an armed START the step passes
over falls at the step instant; an output without an edge yet counts from the same instant on the new scale. `old`: its
base before the step. -/
def pulseStep (s : State) (n : Nat) (amt : Int) (old : Nat) : State :=
  let b := s.r Reg.TTU_PULSE.TB_SEL n
  let p := ttuPulse s n
  let start := pulseStart s n
  let passed := s.rb Reg.TTU_PULSE.ARMED n && decide (old ≤ start) && decide (start < s.tb b 0)
  ttuSetPulse s n { p with
    stepped := p.last.isSome, mark := true, fromT := ((p.fromT : Int) + amt).toNat
    atStep := if passed then some (s.tb b 0) else p.atStep }

/-- The source is evaluated again after a step (row 1 of R68): under row 4 or 5 where the selected one is lost, under rows
6 to 9 by its offset on the new scale; with none selected, by the best there is. The watch boundary itself counts the
offset towards LOCKED. -/
def ttuAfterStep (s : State) : State :=
  let cur := s.r Reg.TTU_TIME_STATE.SRC
  if cur = 3 then
    match srcBest s with
    | some b => ttuOffsetRule s false b
    | none => s
  else if srcUsable s cur = false then ttuLost s false
  else
    let o := srcOffset s cur
    let s := ttuTakeOffset s o
    if o.natAbs ≤ stepLimit then ttuSetState { s with ttu := { s.ttu with goodRun := 0 } } 2
    else if ttuState s = 0 then ttuSetState (ttuLossNow s) 4
    else s

/-- The end of the closing watch: the step is applied to TB1 and TB2 (R52, R74), marks the outputs on them and the capture
inputs (R77, R81), and the source is judged again (R68 row 1). A step below the start of the scale leaves TB1 at 0 (DESIGN
CHOICE, log entry 80). -/
def ttuStepApply (s : State) : State :=
  match s.ttu.stepAmt with
  | none => s
  | some amt =>
    if s.ttu.stepDue then
      let old1 := s.tb 1 0
      let old2 := s.tb 2 0
      let s := { s with ttu := { s.ttu with tb1 := ((s.ttu.tb1 : Int) + amt).toNat, stepAmt := none, stepDue := false } }
      let s := s.wb Reg.TTU_CLOSING.STEP_PENDING false
      let s := { s with eth := { s.eth with stepTick := some s.tick } }
      let g := { s.glt with
        step3 := some s.ttu.tb3
        streams := s.glt.streams.map fun p => (p.1, { p.2 with step := true }) }
      let s := { s with glt := g }
      let s := iter (fun n s =>
        let b := s.r Reg.TTU_PULSE.TB_SEL n
        if b = 1 ∨ b = 2 then pulseStep s n amt (if b = 1 then old1 else old2) else s) 4 s
      let s := iter (fun n s => ttuSetCapt s n { ttuCapt s n with stepped := true }) 4 s
      let s := raise s 4
      let s := ttuOffsetsMove s amt
      if s.twn.follows then ttuShowOffset s (s.ttu.offset - amt) else ttuAfterStep s
    else s

/-! ### Uncertainty (R66, R67) -/

/-- ⌈√n / d⌉. -/
def ceilSqrtDiv (n d : Nat) : Nat :=
  let r := isqrt n
  if r * r = n then ceilDiv r d else r / d + 1

/-- The sum of squares and the sum of a list of offsets. -/
def sumSq (xs : List Int) : Nat := (xs.map fun x => (x * x).natAbs).sum
def sumI (xs : List Int) : Int := xs.foldl (· + ·) 0

/-- 3 × the RMS of offsets, in 2⁻¹⁶ ns, rounded up: about zero, and about their mean. -/
def rms3 (xs : List Int) : Nat :=
  if xs.isEmpty then 0 else ceilSqrtDiv (9 * xs.length * sumSq xs) xs.length
def rms3Mean (xs : List Int) : Nat :=
  if xs.isEmpty then 0
  else ceilSqrtDiv (9 * (xs.length * sumSq xs - (sumI xs * sumI xs).natAbs)) xs.length

/-- The uncertainty of source i in whole ns, rounded up (R67). ASYM_PS is that of the slave port; while PTP stays qualified
with no port in SLAVE state (R95), that of port 0 (DESIGN CHOICE, log entry 65). -/
def srcUncert (s : State) (i : Nat) : Nat :=
  match i with
  | 0 => match s.ttu.gnssSol with
    | some (_, rms, _) => ceilDiv (3 * rms) uNs + 10
    | none => 10
  | 1 => s.r Reg.TTU_REF_UNCERT.REF_UNCERT + ceilDiv (rms3 s.ttu.ppsDev) uNs + 2
  | _ =>
    let asym := (s.ri Reg.ETH_P_LAT.ASYM_PS (s.ttu.ptpPort.getD 0)).natAbs
    ceilDiv ((s.ttu.ptpAccPs + 8000 + asym) * 65536 + rms3Mean s.ttu.ptpOffs * 1000) (1000 * uNs)

/-- u(t) of R66 in ns, to the nearest ns. -/
def ttuGrown (s : State) : Nat :=
  let t := s.ttu.lossTicks
  let num := s.r Reg.TTU_DR_DF.DF * t * 2000000000 + s.r Reg.TTU_DR_AGE.AGE * t * t
  s.ttu.u0 + (num + 10 ^ 16) / (2 * 10 ^ 16)

/-- TTU_UNCERT of this tick. -/
def ttuUncert (s : State) : Nat :=
  if s.twn.follows then
    if s.twn.mUncert = 0xFFFFFFFF then 0xFFFFFFFF else min (s.twn.mUncert + 20) 0xFFFFFFFE
  else
    match ttuState s with
    | 0 => 0xFFFFFFFF
    | 3 => min (ttuGrown s) 0xFFFFFFFE
    | 4 => min (max (ttuGrown s) (ceilDiv s.ttu.offset.natAbs uNs)) 0xFFFFFFFE
    | _ => min (srcUncert s (s.r Reg.TTU_TIME_STATE.SRC) + ceilDiv s.ttu.offset.natAbs uNs) 0xFFFFFFFE

/-! ### The tick and the watch -/

/-- The slew of the tick that begins (R71): at most 10 ns of the residual. A tick keeps the slew it began with to its end,
whatever becomes of TIME_STATE in it (DESIGN CHOICE, log entry 80). -/
def ttuSlew (s : State) : Int :=
  if s.ttu.stepAmt.isSome then 0
  else if s.twn.follows || ttuState s == 1 || ttuState s == 2 then clampI slewLimit s.ttu.resid
  else 0

/-- Capture records leave their FIFOs for the time record queue. -/
def ttuDrain (s : State) : State :=
  iter (fun n s =>
    let c := ttuCapt s n
    let s := ttuSetCapt s n ({ c with fifo := [] })
    let s := s.w Reg.TTU_CAPT.FIFO_LEVEL 0 n
    c.fifo.foldl (fun s r => cplPut s 128 r) s) 4 s

/-- TTU's part of a tick boundary (R35, R37, R38, R53, R58). The ticks in which a follower shows LOCKED or SLEWING count as
disciplining (DESIGN CHOICE, log entry 80). -/
def ttuTick (s : State) : State :=
  let c := ttuSlew s
  let ended := s.ttu.closing.any (fun k => s.ttu.pos + 1 == k.n)
  let pos := match s.ttu.closing with
    | some k => if s.ttu.pos + 1 = k.n then 0 else s.ttu.pos + 1
    | none => (s.ttu.pos + 1) % 100
  let num := match s.ttu.closing with
    | some k => if s.ttu.pos + 1 = k.n then 0 else closingNumber k pos
    | none => pos
  let stretch := match s.ttu.closing with
    | some k => !ended && pos + 2 == k.n
    | none => false
  let extra := match s.ttu.closing with
    | some k => k.extra
    | none => 0
  let lastLen := s.ttu.len
  let wasDisc := ttuState s == 1 || ttuState s == 2
  let s := { s with
    tick := s.tick + 1
    ttu := { s.ttu with
      tb1 := s.ttu.tb1 + s.ttu.adv
      tb1Was := s.ttu.tb1 + s.ttu.adv
      tb3 := s.ttu.tb3 + s.ttu.len
      slewSum := s.ttu.slewSum + ((s.ttu.adv : Int) - s.ttu.len)
      bend := none
      len := if stretch then uTick + extra else (uTick - c).toNat
      adv := if stretch then uTick + extra else uTick
      pos := pos
      watchDone := false
      closing := if ended then none else s.ttu.closing
      stepDue := s.ttu.stepDue || ended
      resid := s.ttu.resid - c
      discTicks := s.ttu.discTicks + b2n wasDisc
      lossTicks := s.ttu.lossTicks + 1
      use := [] } }
  let s := s.w Reg.TTU_TICK_LO.TICK_LO s.tick
  let s := (s.w Reg.TTU_WATCH_POS.TICK_IN_WATCH num).wb Reg.TTU_WATCH_POS.STRETCHED stretch
  let s := s.w Reg.TTU_LAST_TICK_LEN.LEN_NS ((lastLen + uNs / 2) / uNs)
  let s := s.w Reg.TTU_DISC_TIME.DISC_S (min (s.ttu.discTicks / 1000) 0xFFFFFFFF)
  let s := s.wb Reg.TTU_TIME_STATE.DISC_24H (decide (86400000 ≤ s.ttu.discTicks))
  let s := if stretch && extra != 0 then pulseMarkTb0 s else s
  let s := s.w Reg.TTU_UNCERT.UNCERT_NS (ttuUncert s)
  ttuDrain s

/-- Qualification and loss of the sources at a watch boundary (R61). -/
def ttuQualify (s : State) (refOk : Bool) : State :=
  let good := match s.ttu.gnssSol with
    | some (n, rms, _) => s.ttu.gnssNew && decide (4 ≤ n) && decide (rms ≤ 30 * uNs)
    | none => false
  let miss := if good then 0 else s.ttu.gnssMiss + 1
  let s := ttuRefRange { s with ttu := { s.ttu with gnssMiss := miss } } refOk
  let s := if good then srcSetQ s 0 true else if 20 ≤ miss then srcSetQ s 0 false else s
  let ppsFresh := s.ttu.ppsLast.any (fun t => decide (s.ttu.tb3 ≤ t + 2 * uSec))
  let s := if !refOk || !ppsFresh then srcSetQ s 1 false
    else if 5 ≤ s.ttu.ppsRun then srcSetQ s 1 true else s
  let ptp := s.ttu.ptpPort.isSome && s.ttu.ptpTick.any (fun t => decide (s.tick ≤ t + 2000))
  let ptpLost := !(s.ttu.ptpTick.any (fun t => decide (s.tick ≤ t + 2000)))
  if ptp then srcSetQ s 2 true else if ptpLost then srcSetQ s 2 false else s

/-- TTU's part of a watch boundary: the 10 MHz check, qualification, selection and discipline (R61 to R68). -/
def ttuWatch (w : WatchIn) (s : State) : State :=
  let s := ttuQualify s (decide (w.refPpb.natAbs ≤ 1000))
  let s := ttuSelect s
  let s := if s.twn.follows = false ∧ s.r Reg.TTU_TIME_STATE.SRC ≠ 3 then s.w Reg.TTU_DR_DF.DF w.df else s
  let s := s.w Reg.TTU_UNCERT.UNCERT_NS (ttuUncert s)
  let s := { s with ttu := { s.ttu with gnssNew := false } }
  if s.rb Reg.TTU_TICK_CTRL.WATCH_EVT_EN then raise s 0 else s

/-! ### Sources between watch boundaries -/

/-- A qualified edge of PPS_IN at an instant of the tick (R61, R63). -/
def ttuPps (falling : Bool) (at_ : Nat) (s : State) : State :=
  if falling != s.rb Reg.TTU_TIME_CFG.PPS_EDGE then s
  else
    let t3 := s.ttu.tb3 + at_
    let gap : Int := match s.ttu.ppsLast with
      | some t => ((t3 : Int) - t) - (uSec : Int)
      | none => (uSec : Int)
    let ok := gap.natAbs ≤ 100 * uNs
    let t1 := s.tb1 at_
    let near := (t1 + uSec / 2) / uSec * uSec
    let delay := s.r Reg.TTU_PPS_DELAY.DELAY * uNs / 10
    let off : Int := (near : Int) - t1 - delay
    { s with ttu := { s.ttu with
      ppsLast := some t3
      ppsRun := if ok then s.ttu.ppsRun + 1 else 1
      ppsOff := off
      ppsSlew := slewAt s at_
      ppsDev := (off :: s.ttu.ppsDev).take 10 } }

/-- REF10M_IN lies outside ±1 ppm for a tick: REF is lost (R61, R68); TTU_REF_FAULT when it leaves the range. The run of
PPS edges stands: it is measured on TB3. -/
def ttuRefFault (s : State) : State :=
  let s := ttuRefRange (srcSetQ s 1 false) false
  if s.r Reg.TTU_TIME_STATE.SRC = 1 ∧ s.ttu.stepAmt.isNone = true ∧ s.twn.follows = false then ttuLost s false else s

/-- A source meets its loss condition (R61): it is no longer qualified, and a selected one is replaced or lost (R68). -/
def ttuSourceLost (i : Nat) (s : State) : State :=
  let s := srcSetQ s i false
  if s.r Reg.TTU_TIME_STATE.SRC = i ∧ s.ttu.stepAmt.isNone = true ∧ s.twn.follows = false then ttuLost s false else s

/-! ### Pulse outputs (R75 to R78) -/

/-- PERIOD of output n. -/
def pulsePeriod (s : State) (n : Nat) : Nat := s.r Reg.TTU_PULSE.PERIOD_NS n * uNs + s.r Reg.TTU_PULSE.PERIOD_SUB n

/-- WIDTH of output n, clamped to 4 ns and the period less 4 ns (R75). -/
def pulseWidth (s : State) (n : Nat) : Nat :=
  clampN (4 * uNs) (pulsePeriod s n - 4 * uNs) (s.r Reg.TTU_PULSE.WIDTH_NS n * uNs)

/-- How far a base advances over the present tick. -/
def baseAdv (s : State) (b : Nat) : Nat :=
  match b with
  | 0 => uTick | 1 => s.ttu.adv | 2 => s.ttu.adv | _ => s.ttu.len

/-- The flags TIME_STATE gives a record: DEAD_RECKONING and DIVERGED, from bit b. -/
def timeFlags (s : State) (b : Nat) : Nat :=
  (if ttuState s = 3 then 2 ^ b else 0) + (if ttuState s = 4 then 2 ^ (b + 1) else 0)

/-- A 32-byte time record (R78, R81). -/
def timeRecord (stamp kind index flags count tick : Nat) : List Byte :=
  stampBytes stamp ++ le 1 kind ++ le 1 index ++ le 1 flags ++ le 1 0 ++ le 8 count ++ le 8 tick

/-- COUNT of output n. -/
def pulseCount (s : State) (n : Nat) : Nat := s.r Reg.TTU_PULSE.COUNT_LO n + 2 ^ 32 * s.r Reg.TTU_PULSE.COUNT_HI n

/-- A pulse record, and the events it brings (R78, R83). -/
def pulseRecord (s : State) (n stamp : Nat) (step missed : Bool) : State :=
  let fl := b2n step + 2 * b2n missed + timeFlags s 2
  let s := cplPut s 128 (timeRecord stamp 1 n fl (pulseCount s n) s.tick)
  let s := (s.wb Reg.TTU_PULSE.LAST_STEP step n).wb Reg.TTU_PULSE.LAST_MISSED missed n
  let s := if step then raise s 11 n else s
  if missed then raise s 12 n else s

/-- A period below 100 ns disables an output, in either mode (R75). -/
def pulseOn (s : State) (n : Nat) : Bool := s.rb Reg.TTU_PULSE.EN n && decide (100 * uNs ≤ pulsePeriod s n)

/-- The instant at which an edge due at x is placed: the nearest whole 62.5 ps of the base, the later of two equally near
(R75; DESIGN CHOICE, log entry 66). -/
def pulseGrid (x : Nat) : Nat := (x + 2048) / 4096 * 4096

/-- An output in once mode is armed at an instant of the tick (R76). An output that is off can be armed too: ARMED reads 1,
or a START too near is missed, but no edge is placed while it is off, and its EN arms it anew (DESIGN CHOICE, log entry
66). -/
def pulseArm (s : State) (n at_ : Nat) : State :=
  let start := pulseStart s n
  if start < s.tb (s.r Reg.TTU_PULSE.TB_SEL n) at_ + 2000 * uNs then
    pulseRecord (s.wb Reg.TTU_PULSE.ARMED false n) n start false true
  else s.wb Reg.TTU_PULSE.ARMED true n

/-- TTU_PULSE_SET (R73, R76, R78). ARM on an output whose EN is 0 arms it as pulseArm does (log entry 66). For a periodic
output with a nanoseconds part out of range the status is STEP_REFUSED (DESIGN CHOICE, log entry 80). -/
def ttuPulseSet (h : Handle) (index : Nat) (arm cancel : Bool) (start : StampIn) (rsv : Nat) (s : State) : State :=
  if rsv ≠ 0 ∨ 3 < index then complete s h stStep
  else if s.rb Reg.TTU_PULSE.MODE index = false then complete s h stStep
  else if 999999999 < start.ns then complete s h stStamp
  else
    let s := (((s.w Reg.TTU_PULSE.START_SUB start.sub index).w Reg.TTU_PULSE.START_NS start.ns index).w
      Reg.TTU_PULSE.START_S_LO start.sec index).w Reg.TTU_PULSE.START_S_HI (start.sec / 2 ^ 32) index
    let s := if cancel then
        { s.wb Reg.TTU_PULSE.ARMED false index with
          ttu := { s.ttu with pulses := mput {} s.ttu.pulses index { ttuPulse s index with atStep := none } } }
      else if arm then pulseArm s index (cycU h.cyc) else s
    complete s h stOk

/-- TB_SEL of an output written while it is enabled: it goes on at START + k × PERIOD on the base chosen (log entry 66). -/
def pulseBase (s : State) (n at_ : Nat) : State :=
  ttuSetPulse s n { ttuPulse s n with last := none, stepped := false, atStep := none, fromT := s.tb (s.r Reg.TTU_PULSE.TB_SEL n) at_ }

/-- The pin of output n at its inactive level (R82). -/
def pulseIdle (s : State) (n : Nat) : State := s.emit (.pulseIdle n (s.rb Reg.TTU_PULSE.POL n))

/-- EN of an output written: COUNT restarts, and an output in once mode is armed (R76). -/
def pulseEnable (s : State) (n at_ : Nat) (on : Bool) : State :=
  let p : PulseSt := { fromT := s.tb (s.r Reg.TTU_PULSE.TB_SEL n) at_ }
  let s := ttuSetPulse s n ((if on then p else {}))
  let s := ((s.wb Reg.TTU_PULSE.ARMED false n).w Reg.TTU_PULSE.COUNT_LO 0 n).w Reg.TTU_PULSE.COUNT_HI 0 n
  if on && s.rb Reg.TTU_PULSE.MODE n then pulseArm s n at_ else s

/-- The least START + k × PERIOD, k a natural number, at or after lo. -/
def gridFrom (start period lo : Nat) : Nat :=
  if lo ≤ start then start else start + ceilDiv (lo - start) period * period

/-- The instant on its base of the edge output n places next in this tick, if one falls in it (R76, R77). -/
def pulseNext (s : State) (n : Nat) : Option Nat :=
  let b := s.r Reg.TTU_PULSE.TB_SEL n
  let b0 := s.tb b 0
  let b1 := b0 + baseAdv s b
  let p := ttuPulse s n
  let start := pulseStart s n
  if pulseOn s n = false then none
  else if s.rb Reg.TTU_PULSE.MODE n then
    if s.rb Reg.TTU_PULSE.ARMED n then
      match p.atStep with
      | some t => some t
      | none => if b0 ≤ start ∧ start < b1 then some start else none
    else none
  else
    let per := pulsePeriod s n
    let lo := match p.last with
      | none => max p.fromT b0
      | some l =>
        if p.stepped then
          let gone := s.ttu.tb3 - p.lastTb3
          b0 + (if per ≤ 2 * gone then 0 else ceilDiv ((per - 2 * gone) * baseAdv s b) (2 * s.ttu.len))
        else max (l + 1) b0
    let x := gridFrom start per lo
    if x < b1 then some x else none

/-- Output n places its next edge, where one falls in this tick (R76 to R78). -/
def ttuPulseEdge (n : Nat) (s : State) : State :=
  if s.mode == .dead then s
  else
    match pulseNext s n with
    | none => s
    | some x =>
      let b := s.r Reg.TTU_PULSE.TB_SEL n
      let p := ttuPulse s n
      let t3 := s.ttu.tb3 + (x - s.tb b 0) * s.ttu.len / baseAdv s b
      let cnt := pulseCount s n + 1
      let s := ((s.w Reg.TTU_PULSE.COUNT_LO cnt n).w Reg.TTU_PULSE.COUNT_HI (cnt / 2 ^ 32) n).wb Reg.TTU_PULSE.ARMED false n
      let s := ttuSetPulse s n ({ p with last := some x, lastTb3 := t3, stepped := false, mark := false, atStep := none })
      let y := pulseGrid x
      pulseRecord (s.emit (.pulse n y (pulseWidth s n) (!s.rb Reg.TTU_PULSE.POL n))) n y
        (p.mark || p.stepped || p.atStep.isSome) false

/-! ### Captures (R79, R81) -/

/-- An edge on a capture input at an instant of the tick. STEP goes with the first capture after a step on a base that is
stepped, TB1 or TB2. -/
def ttuCapture (n : Nat) (falling : Bool) (at_ : Nat) (s : State) : State :=
  let wanted := bitAt (s.r Reg.TTU_CAPT.EDGE n) (b2n falling)
  if s.mode == .dead || !s.rb Reg.TTU_CAPT.EN n || !wanted then s
  else
    let c := ttuCapt s n
    let t3 := s.ttu.tb3 + at_
    let close := c.lastTb3.any (fun t => decide (t3 < t + 100 * uNs))
    if close || decide (16 ≤ c.fifo.length) then
      let s := ttuSetCapt s n ({ c with ovf := true })
      raise (s.inc Reg.TTU_CAPT.OVF_COUNT n) 13 n
    else
      let b := s.r Reg.TTU_CAPT.TB_SEL n
      let step := c.stepped && (b == 1 || b == 2)
      let fl := b2n step + 2 * b2n c.ovf + 4 * b2n falling + timeFlags s 3
      let rec_ := timeRecord (s.tb b at_) 2 n fl (c.count + 1) s.tick
      let s := ttuSetCapt s n ({ fifo := c.fifo ++ [rec_], lastTb3 := some t3, count := c.count + 1, stepped := c.stepped && !step, ovf := false })
      s.w Reg.TTU_CAPT.FIFO_LEVEL (c.fifo.length + 1) n

/-- EN of a capture input written. -/
def captEnable (s : State) (n : Nat) (on : Bool) : State :=
  ttuSetCapt s n ((if on then { ttuCapt s n with count := 0 } else ttuCapt s n))

/-- A TDC calibration result in fs per bin (R80). -/
def ttuTdcCal (s : State) (binFs : Nat) : State :=
  if 9000 ≤ binFs ∧ binFs ≤ 11000 then
    (s.w Reg.TTU_TDC_CAL.BIN_FS binFs).wb Reg.TTU_TDC_CAL.CAL_OK true
  else raise (s.wb Reg.TTU_TDC_CAL.CAL_OK false) 14

/-! ### The commands -/

/-- TTU_STEP with MODE 0. -/
def execTtuStepMeasured (h : Handle) (rsv : Nat) (s : State) : Host.Outcome State Fault Refusal :=
  withOut s (ringOp anyRunMode h (descOf (.ttuStepMeasured h rsv)) (ttuStep h 0 0 rsv))
/-- TTU_STEP with MODE 1. -/
def execTtuStepAmount (h : Handle) (amountNs : Int) (rsv : Nat) (s : State) : Host.Outcome State Fault Refusal :=
  withOut s (ringOp anyRunMode h (descOf (.ttuStepAmount h amountNs rsv)) (ttuStep h 1 amountNs rsv))
/-- TTU_PULSE_SET with ARM. -/
def execTtuPulseArm (h : Handle) (index : Nat) (start : StampIn) (rsv : Nat) (s : State) : Host.Outcome State Fault Refusal :=
  withOut s (ringOp anyRunMode h (descOf (.ttuPulseArm h index start rsv)) (ttuPulseSet h index true false start rsv))
/-- TTU_PULSE_SET with CANCEL. -/
def execTtuPulseCancel (h : Handle) (index : Nat) (start : StampIn) (rsv : Nat) (s : State) : Host.Outcome State Fault Refusal :=
  withOut s (ringOp anyRunMode h (descOf (.ttuPulseCancel h index start rsv)) (ttuPulseSet h index false true start rsv))
/-- A read of TTU_TICK_LO. -/
def execTickLoRead (s : State) : Host.Outcome State Fault Refusal :=
  withOut s (latchRead ttuTickLoRead)
/-- A read of the low word of TTU_OFFSET. -/
def execOffsetLoRead (s : State) : Host.Outcome State Fault Refusal :=
  withOut s (latchRead ttuOffsetLoRead)
/-- An edge on a capture input. -/
def execCaptEdge (n : Fin 4) (falling : Bool) (at_ : Nat) (s : State) : Host.Outcome State Fault Refusal :=
  withOutAt s (some at_) (ttuCapture n falling at_)
/-- An edge of PPS_IN. -/
def execPpsEdge (falling : Bool) (at_ : Nat) (s : State) : Host.Outcome State Fault Refusal :=
  withOutAt s (some at_) fun s => if s.mode == .dead then s else ttuPps falling at_ s
/-- REF10M_IN leaves ±1 ppm. -/
def execRefFreqFault (s : State) : Host.Outcome State Fault Refusal :=
  withOut s fun s => if s.mode == .dead then s else ttuRefFault s
/-- A time source is lost. -/
def execTimeSourceLost (src : Fin 3) (s : State) : Host.Outcome State Fault Refusal :=
  withOut s fun s => if s.mode == .dead then s else ttuSourceLost src s
/-- The end of a closing watch. -/
def execTimeStepApply (s : State) : Host.Outcome State Fault Refusal := withBoundary s ttuStepApply
/-- A pulse output places an edge. -/
def execPulseEdge (n : Fin 4) (s : State) : Host.Outcome State Fault Refusal := withOut s (ttuPulseEdge n)

end Sys2Proof.Machine
end

