-- ==== Sys2Proof/Machine/Units.lean ====
section
/-! DEFINITION. Sys2Proof/Machine/Units.lean: units with a spare, as every chapter's sparing rows use them (R476,
R477). Classes: 0 correlator bank, 1 cluster, 2 transceiver, 3 CAN controller, 4 Ethernet port, 5 LPDDR5 row,
6 stop path. -/

namespace Sys2Proof.Machine

open Sys2Proof

def unitKey (c i : Nat) : Nat := c * 2 ^ 32 + i
def unit (s : State) (c i : Nat) : UnitSt := mget ({} : UnitSt) s.svc.units (unitKey c i)
def setUnit (s : State) (c i : Nat) (u : UnitSt) : State :=
  { s with svc := { s.svc with units := mput ({} : UnitSt) s.svc.units (unitKey c i) u } }

/-- The unit carries its role: neither out nor standby. -/
def unitIn (s : State) (c i : Nat) : Bool := !(unit s c i).out && !(unit s c i).standby

/-- The unit goes out of service, by a fault or by SVC_UNIT. -/
def unitOut (s : State) (c i : Nat) (fault : Bool) : State := setUnit s c i { out := true, byFault := fault }

/-- The unit may rejoin: it is out and has passed its self-test. -/
def unitMayJoin (s : State) (c i : Nat) : Bool := (unit s c i).out && (unit s c i).passed

/-- The unit rejoins as standby; a RETURN completes with OK (R477 step 2). -/
def unitJoin (s : State) (c i : Nat) : State :=
  let u := unit s c i
  completeAll (setUnit s c i { standby := true }) u.ret stOk

/-- STABLE_WATCHES, 0 taken as 1 (R480). -/
def stableWatches (s : State) : Nat := max 1 (s.r Reg.SVC_CFG.STABLE_WATCHES)

/-- The standby unit has run its stable period without fault (R477 step 3). -/
def unitStable (s : State) (c i : Nat) : Bool := (unit s c i).standby && decide (stableWatches s ≤ (unit s c i).stable)

/-- The unit is in service again, in its own role. -/
def unitInService (s : State) (c i : Nat) : State := setUnit s c i {}

/-- A fault of a standby unit restarts its count; a second one takes it out (R477 step 3). -/
def unitStandbyFault (s : State) (c i : Nat) : State :=
  let u := unit s c i
  if u.faults = 0 then setUnit s c i { u with faults := 1, stable := 0 } else unitOut s c i true

/-- A standby unit has run another watch without fault. -/
def unitsWatch (s : State) : State :=
  s.svc.units.foldl (fun s p =>
    if p.2.standby then
      { s with svc := { s.svc with units := mput ({} : UnitSt) s.svc.units p.1 { p.2 with stable := p.2.stable + 1 } } }
    else s) s

/-- The outcome of a unit's self-test: of a RETURN (R477 steps 1 and 2), or of a retest after a fault. -/
def unitTested (s : State) (c i : Nat) (pass : Bool) : State :=
  let u := unit s c i
  if !u.out then s
  else if u.ret ≠ [] then
    if pass then setUnit s c i { u with passed := true }
    else completeAll (setUnit s c i { u with ret := [] }) u.ret stUnit 1
  else if u.byFault && s.rb Reg.SVC_CFG.RETEST_EN && decide (u.tests < 3) then
    if pass then setUnit s c i { u with passed := true } else setUnit s c i { u with tests := u.tests + 1 }
  else s

/-- An operation of a module that is neither in DEAD nor in BOOT. -/
def alive (s : State) (f : State → State) : State := if s.mode == .boot || s.mode == .dead then s else f s

/-- An operation of a module that is not in DEAD. -/
def notDead (s : State) (f : State → State) : State := if s.mode == .dead then s else f s

/-- An operation of an engine: SHADOW, LEAD and HALT, outside an ACTIVATE pause (R39, R495). -/
def engines (s : State) (f : State → State) : State := if s.slots then f s else s

end Sys2Proof.Machine
end

