-- ==== Sys2Proof/Machine/Eth.lean ====
section
/-! DEFINITION. Sys2Proof/Machine/Eth.lean: Ethernet ports and PTP (R84 to R98). The formats, the data set comparison and
the state decisions are those of IEEE 1588-2019, which R86 names (PRESUMED, log entry 67). -/

namespace Sys2Proof.Machine

open Sys2Proof

def ethPort (s : State) (p : Nat) : EthPort := mget ({} : EthPort) s.eth.ports p
def setEthPort (s : State) (p : Nat) (e : EthPort) : State :=
  { s with eth := { s.eth with ports := mput ({} : EthPort) s.eth.ports p e } }

/-! portState values of IEEE 1588-2019 (PRESUMED, log entry 7). -/
def psInit : Nat := 1
def psFaulty : Nat := 2
def psDisabled : Nat := 3
def psListening : Nat := 4
def psMaster : Nat := 6
def psPassive : Nat := 7
def psSlave : Nat := 9

def ethState (s : State) (p : Nat) : Nat := s.r Reg.ETH_P_STATUS.PORT_STATE p

/-! ### The configuration in force (R94) -/

/-- A configuration field of port p as the port uses it: what it held before it was written in this tick. -/
def ethR (s : State) (f : Field) (p : Nat) : Nat :=
  match (ethPort s p).was with
  | none => s.r f p
  | some m => (mget 0 m (f.key p 0) ^^^ f.reset p 0) % 2 ^ f.width
def ethRb (s : State) (f : Field) (p : Nat) : Bool := ethR s f p != 0
def ethRi (s : State) (f : Field) (p : Nat) : Int := toSigned f.width (ethR s f p)

/-- A write to the configuration of port p: it takes effect at the next tick boundary (R94). -/
def ethCfgWritten (was s : State) (p : Nat) : State :=
  let lo := 0x10100 + 0x80 * p
  let old := was.regs.filter fun r => decide (lo ≤ r.1 / 32) && decide (r.1 / 32 < lo + 0x14)
  match (ethPort s p).was with
  | some _ => s
  | none => setEthPort s p { ethPort s p with was := some old }

/-- Ports run in every mode but BOOT and DEAD (R94); a port acts while it is enabled and in service. -/
def ethOn (s : State) (p : Nat) : Bool := ethRb s Reg.ETH_P_CFG.EN p && s.rb Reg.ETH_P_STATUS.IN_SERVICE p

/-- An operation of a port that acts, in a mode in which ports run. -/
def ethActs (s : State) (p : Nat) : Bool := s.mode != .boot && s.mode != .dead && ethOn s p

/-- PORT_STATE takes a value (E033). -/
def ethSetState (s : State) (p v : Nat) : State :=
  if ethState s p = v then s else raise (s.w Reg.ETH_P_STATUS.PORT_STATE v p) 33 p

/-- TTU follows the port in SLAVE state (R91). -/
def ethSlavePort (s : State) : Option Nat :=
  if ethState s 0 = psSlave then some 0 else if ethState s 1 = psSlave then some 1 else none

/-! ### Clock quality (R67, R93) -/

/-- The bounds of clockAccuracy in ns, from 0x20 (25 ns) to 0x30 (10 s). -/
def accBounds : List Nat :=
  [25, 100, 250, 1000, 2500, 10000, 25000, 100000, 250000, 1000000, 2500000, 10000000, 25000000, 100000000, 250000000,
   1000000000, 10000000000]

/-- The bound of a clockAccuracy code in ps; 1 ms for a code that gives none (R67). The codes from 0x17 (1 ps) to 0x1F
(10 ns) are those of IEEE 1588-2019; 2.5 ps counts as 3 ps. -/
def accBound (code : Nat) : Nat :=
  if 0x17 ≤ code ∧ code < 0x20 then ([1, 3, 10, 25, 100, 250, 1000, 2500, 10000] : List Nat).getD (code - 0x17) 1000000000
  else if 0x20 ≤ code ∧ code ≤ 0x30 then accBounds.getD (code - 0x20) 1000000 * 1000
  else 1000000000

/-- The smallest clockAccuracy bound that is at least u (R93). -/
def accCode (u : Nat) : Nat := 0x20 + (accBounds.filter (fun b => decide (b < u))).length

/-- TTU takes the slave port and its grandmaster's accuracy (R67). -/
def ethTtu (s : State) : State :=
  match ethSlavePort s with
  | some p =>
    let acc := match (ethPort s p).parent with
      | some g => accBound g.gm.accuracy
      | none => s.ttu.ptpAccPs
    { s with ttu := { s.ttu with ptpPort := some p, ptpAccPs := acc } }
  | none => { s with ttu := { s.ttu with ptpPort := none } }

/-- The clock quality of R93 for a TIME_STATE, source and uncertainty: clockClass, timeSource, variance. With source PTP
and a port in SLAVE state, for which the table has no row, the module's own clock counts as class 187 (DESIGN CHOICE, log
entry 67). -/
def clockRow (st src u : Nat) (slave : Bool) : Nat × Nat × Nat :=
  if st = 0 ∨ st = 4 then (248, 0xA0, 0xFFFF)
  else if st = 3 then (if u ≤ 1000 then 7 else 187, 0xA0, 0xFFFF)
  else if src = 0 then (6, 0x20, 0x4E5D)
  else if src = 1 then (6, 0x90, 0x4E5D)
  else (if u ≤ 1000 ∧ slave = false then 7 else 187, 0x40, 0xFFFF)

/-- The module's own clockIdentity. -/
def ethClockId (s : State) : Nat := s.r Reg.ETH_CLOCK_ID.ID_LO + 2 ^ 32 * s.r Reg.ETH_CLOCK_ID.ID_HI

/-- The grandmaster quality of R93 (its table, the first row that matches). -/
def ethOwnQuality (s : State) (p : Nat) : GmData :=
  let u := s.r Reg.TTU_UNCERT.UNCERT_NS
  let st := ttuState s
  let slave := (ethSlavePort s).isSome
  let row := if s.twn.follows && (st == 1 || st == 2) then clockRow s.twn.mState s.twn.mSrc u slave
    else clockRow st (s.r Reg.TTU_TIME_STATE.SRC) u slave
  let acc := if st = 0 ∨ st = 4 then 0xFE else accCode u
  { id := ethClockId s
    prio1 := s.r Reg.ETH_PTP_CFG.PRIORITY1
    clockClass := if ethRb s Reg.ETH_P_CFG.SLAVE_ONLY p then 255 else row.1
    accuracy := acc
    variance := row.2.2
    prio2 := s.r Reg.ETH_PTP_CFG.PRIORITY2
    timeSource := row.2.1
    utc := s.eth.navUtc.getD (s.r Reg.ETH_UTC.UTC_OFFSET)
    utcValid := s.eth.navUtc.isSome }

/-- What the module advertises on port p, with stepsRemoved: its parent's dataset while a port is in SLAVE state and
TIME_STATE is not DIVERGED, its own quality otherwise (R93). With the parent's dataset go the parent's currentUtcOffset and
its flag (DESIGN CHOICE, log entry 80). -/
def ethQuality (s : State) (p : Nat) : GmData × Nat :=
  match (ethSlavePort s).bind fun q => (ethPort s q).parent with
  | some g => if ttuState s = 4 then (ethOwnQuality s p, 0) else (g.gm, g.steps + 1)
  | none => (ethOwnQuality s p, 0)

/-! ### The default BMCA (R86, R92) -/

/-- A dataset to compare: its grandmaster, stepsRemoved, its sender and the number of the port that received it. -/
structure Cand where
  gm    : GmData
  steps : Nat
  src   : PortId
  rx    : Nat

/-- The first list is the smaller, compared from its head. -/
def lexLt : List Nat → List Nat → Bool
  | a :: as, b :: bs => if a = b then lexLt as bs else decide (a < b)
  | _, _ => false

/-- What ranks grandmasters, in order. -/
def gmKey (g : GmData) : List Nat := [g.prio1, g.clockClass, g.accuracy, g.variance, g.prio2, g.id]

def portKey (p : PortId) : List Nat := [p.clock, p.port]

/-- Two datasets: 2, the first is better; 1, better by topology; 0, the same; −1 and −2 the other way round. -/
def dsCompare (me : Nat) (a b : Cand) : Int :=
  if a.gm.id ≠ b.gm.id then if lexLt (gmKey a.gm) (gmKey b.gm) then 2 else -2
  else if a.steps + 1 < b.steps then 2
  else if b.steps + 1 < a.steps then -2
  else if b.steps < a.steps then if lexLt [me, a.rx] (portKey a.src) then -2 else -1
  else if a.steps < b.steps then if lexLt [me, b.rx] (portKey b.src) then 2 else 1
  else if a.src ≠ b.src then if lexLt (portKey a.src) (portKey b.src) then 1 else -1
  else if a.rx < b.rx then 1 else if b.rx < a.rx then -1 else 0

/-- The better of a candidate and the best so far. -/
def dsBest (me : Nat) (best : Option Cand) (c : Cand) : Option Cand :=
  match best with
  | none => some c
  | some b => if 0 < dsCompare me c b then some c else some b

/-- The announce interval of port p in ticks. -/
def announceTicks (s : State) (p : Nat) : Nat := 1000 * 2 ^ ethR s Reg.ETH_P_CFG.LOG_ANNOUNCE p

/-- A master heard qualifies: two Announces within four intervals; the one followed does until its receipt times out. -/
def foreignOk (s : State) (p : Nat) (f : Foreign) : Bool :=
  (ethPort s p).parent.any (fun g => g.src == f.src)
    || (decide (2 ≤ f.ticks.length) && f.ticks.all fun t => decide (s.tick ≤ t + 4 * announceTicks s p))

/-- The best master port p hears. -/
def ethBest (s : State) (p : Nat) : Option Cand :=
  if ethOn s p && ethState s p != psInit then
    ((ethPort s p).foreign.filter (foreignOk s p)).foldl
      (fun b f => dsBest (ethClockId s) b { gm := f.gm, steps := f.steps, src := f.src, rx := p + 1 }) none
  else none

/-- Both ports hear the same grandmaster (R95). -/
def sameGm (s : State) : Bool :=
  match ethBest s 0, ethBest s 1 with
  | some a, some b => a.gm.id == b.gm.id
  | _, _ => false

/-- The best master of both ports. Where they hear the same grandmaster, the port in SLAVE state keeps the role, and with
none the preferred one takes it (R95, DEDUCED, log entry 67): `pref`. -/
def ethBestAll (s : State) (pref : Nat) : Option Cand :=
  if sameGm s then ethBest s pref
  else (ethBest s 1).elim (ethBest s 0) fun c => dsBest (ethClockId s) (ethBest s 0) c

/-- The state the BMCA gives port p, which acts: SLAVE at most for one port, never MASTER for SLAVE_ONLY. A port in
LISTENING that hears no master waits for its Announce receipt timeout (`out`). -/
def bmcaState (s : State) (best : Option Cand) (p : Nat) (out : Bool) : Nat :=
  let own := ethOwnQuality s p
  let me := ethClockId s
  let d0 : Cand := { gm := own, steps := 0, src := { clock := me, port := 0 }, rx := 0 }
  let st :=
    if (ethBest s p).isNone && ethState s p == psListening && !out then psListening
    else if 1 ≤ own.clockClass ∧ own.clockClass ≤ 127 then
      match ethBest s p with
      | none => psMaster
      | some e => if 0 < dsCompare me d0 e then psMaster else psPassive
    else
      match best with
      | none => psMaster
      | some b =>
        if 0 < dsCompare me d0 b then psMaster
        else if b.rx = p + 1 then psSlave
        else
          match ethBest s p with
          | none => psMaster
          | some e => if dsCompare me b e = 2 then psMaster else psPassive
  if st = psMaster ∧ ethRb s Reg.ETH_P_CFG.SLAVE_ONLY p = true then psListening else st

/-- A port takes the state the BMCA gives it; in SLAVE state it follows the master chosen. -/
def bmcaPort (s : State) (best : Option Cand) (p st : Nat) : State :=
  if !ethOn s p || ethState s p == psInit then s
  else
    let parent := if st = psSlave then best.bind fun b => (ethPort s p).foreign.find? (fun f => f.src == b.src) else none
    let old := ethPort s p
    let e := if parent.map (·.src) = old.parent.map (·.src) then { old with parent := parent }
      else { old with parent := parent, sync := none, msDiff := none }
    ethSetState (setEthPort s p e) p st

/-- The BMCA runs over both ports (R92, R98). `out`: the port whose Announce receipt has timed out. -/
def ethBmcaAt (s : State) (pref : Nat) (out : Option Nat) : State :=
  let best := ethBestAll s pref
  let st0 := bmcaState s best 0 (out == some 0)
  let st1 := bmcaState s best 1 (out == some 1)
  let s := if st0 = psSlave then bmcaPort (bmcaPort s best 1 st1) best 0 st0 else bmcaPort (bmcaPort s best 0 st0) best 1 st1
  let gm := (ethSlavePort s).bind fun q => (ethPort s q).parent.map (·.gm.id)
  let s := if s.eth.gm = gm then s else raise { s with eth := { s.eth with gm := gm } } 34
  ethTtu s

/-- The BMCA, with the SLAVE role where it is. -/
def ethBmca (s : State) : State := ethBmcaAt s ((ethSlavePort s).getD (s.r Reg.ETH_PTP_CFG.PREF_SLAVE)) none

/-! ### Stamps (R88, R90) -/

/-- Picoseconds as 2⁻¹⁶ ns, to the nearest unit (R90). -/
def psUnits (ps : Int) : Int := (ps * 65536 * 2 + 1000) / 2000

/-- The stamp a port takes at the GMII at an instant of the tick: TB2, in whole ns (R88). -/
def gmiiStamp (s : State) (at_ : Nat) : Int := (s.tb 2 at_ / uNs * uNs : Nat)

/-- An ingress stamp at the MDI, and an egress stamp (R88). -/
def ethIngress (s : State) (p : Nat) (gmii : Int) : Int := gmii - psUnits (ethR s Reg.ETH_P_LAT.ING_LAT_PS p)
def ethEgress (s : State) (p : Nat) (gmii : Int) : Int := gmii + psUnits (ethR s Reg.ETH_P_LAT.EGR_LAT_PS p)

/-- delayAsymmetry in 2⁻¹⁶ ns. -/
def ethAsym (s : State) (p : Nat) : Int := psUnits (ethRi s Reg.ETH_P_LAT.ASYM_PS p)

/-- The port's own portIdentity: portNumber 1 or 2 (R92). -/
def ethPortId (s : State) (p : Nat) : PortId := { clock := ethClockId s, port := p + 1 }

/-! ### Messages sent (R7: in the standard's byte order) -/

def portIdBytes (i : PortId) : List Byte := be 8 i.clock ++ be 2 i.port

/-- A 10-byte timestamp, whole ns; the rest goes into the correctionField. -/
def ptpTime (t : Int) : List Byte := be 6 (t.toNat / uSec) ++ be 4 (t.toNat / uNs % 1000000000)

/-- A message of kind k: its common header with DOMAIN, sdoId 0x000, flags, correctionField, sender, sequenceId, the
control field and the interval, and its body. The ptpTimescale flag stands in Announce (R93). -/
def ptpBytes (s : State) (p k flags : Nat) (corr : Int) (seq ctrl : Nat) (interval : Int) (body : List Byte) : List Byte :=
  le 1 k ++ le 1 0x12 ++ be 2 (34 + body.length) ++ le 1 (s.r Reg.ETH_PTP_CFG.DOMAIN) ++ le 1 0 ++ be 2 flags
    ++ be 8 (ofSigned 64 corr) ++ be 4 0 ++ portIdBytes (ethPortId s p) ++ be 2 seq ++ le 1 ctrl ++ le 1 (ofSigned 8 interval) ++ body

/-- Where a message of kind k goes: always to a multicast address, that of peer delay messages or that of all others; over
UDP to the port of event or of general messages, its checksum 0 (R86; the addresses, ports and EtherType are those of IEEE
1588-2019, PRESUMED, log entry 67). -/
def ptpTo (udp : Bool) (k : Nat) : PtpTo :=
  let peer := k == 2 || k == 3 || k == 10
  if udp then { group := if peer then 0xE000006B else 0xE0000181, port := if k < 8 then 319 else 320, checksum := 0 }
  else { group := if peer then 0x0180C200000E else 0x011B19000000, port := 0x88F7, checksum := 0 }

/-- The message goes out on the port's transport (R86). -/
def ptpSend (s : State) (p k flags : Nat) (corr : Int) (seq ctrl : Nat) (interval : Int) (body : List Byte) : State :=
  let udp := ethRb s Reg.ETH_P_CFG.TRANSPORT p
  s.emit (.ptp p udp (ptpTo udp k) k (ptpBytes s p k flags corr seq ctrl interval body))

/-- The stamp FIFO takes an egress stamp, after `taken` entries have left it; with 8 entries in it the stamp is missed
(row 2 of R96). When the engine takes entries out the spec does not say: it comes with the command (log entry 67). -/
def stampTake (s : State) (p taken : Nat) : Bool × State :=
  let e := ethPort s p
  let n := e.fifo - taken
  if 8 ≤ n then (false, raise ((setEthPort s p { e with fifo := n }).inc Reg.ETH_P_CNT.STAMP_MISS p) 36 p)
  else (true, setEthPort s p { e with fifo := n + 1 })

/-- A MASTER port sends Sync from TB2, and in two-step its Follow_Up (R92); without a stamp a two-step Sync has no
Follow_Up and a one-step one is not sent (row 2 of R96). -/
def ethSyncTx (p at_ taken : Nat) (s : State) : State :=
  if !ethActs s p || ethState s p != psMaster then s
  else
    let one := ethRb s Reg.ETH_P_CFG.ONE_STEP p
    let log := ethRi s Reg.ETH_P_CFG.LOG_SYNC p
    let q := (ethPort s p).syncSeq
    let t := ethEgress s p (gmiiStamp s at_)
    let (ok, s) := stampTake s p taken
    let s := setEthPort s p { ethPort s p with syncSeq := (q + 1) % 65536 }
    if one then if ok then ptpSend s p 0 0 (t % uNs) q 0 log (ptpTime t) else s
    else
      let s := ptpSend s p 0 0x0200 0 q 0 log (ptpTime 0)
      if ok then ptpSend s p 8 0 (t % uNs) q 2 log (ptpTime t) else s

/-- A port sends Announce: a MASTER port, with the quality of R93, ptpTimescale set. The flags of leap seconds and
traceability are sent as 0 (DESIGN CHOICE, log entry 80). -/
def ethAnnounceTx (p : Nat) (s : State) : State :=
  if !ethActs s p || ethState s p != psMaster then s
  else
    let (g, n) := ethQuality s p
    let q := (ethPort s p).annSeq
    let s := setEthPort s p { ethPort s p with annSeq := (q + 1) % 65536 }
    ptpSend s p 11 (8 + 4 * b2n g.utcValid) 0 q 5 (ethR s Reg.ETH_P_CFG.LOG_ANNOUNCE p)
      (ptpTime 0 ++ be 2 g.utc ++ le 1 0 ++ le 1 g.prio1 ++ le 1 g.clockClass ++ le 1 g.accuracy ++ be 2 g.variance
        ++ le 1 g.prio2 ++ be 8 g.id ++ be 2 n ++ le 1 g.timeSource)

/-- A port sends Delay_Req (E2E, in SLAVE state) or Pdelay_Req (P2P), with the delayAsymmetry taken from its
correctionField (R90). A missed egress stamp is counted, and the exchange comes to nothing. -/
def ethDelayReqTx (p at_ taken : Nat) (s : State) : State :=
  let p2p := ethRb s Reg.ETH_P_CFG.DELAY_MECH p
  if !ethActs s p || !(p2p || ethState s p == psSlave) then s
  else
    let q := (ethPort s p).reqSeq
    let t := ethEgress s p (gmiiStamp s at_)
    let (ok, s) := stampTake s p taken
    let x : Exchange := { src := ethPortId s p, seq := q, stamp := t, corr := 0, tick := s.tick, slew := slewAt s at_ }
    let s := setEthPort s p { ethPort s p with reqSeq := (q + 1) % 65536, req := if ok then some x else none }
    ptpSend s p (if p2p then 2 else 1) 0 (-ethAsym s p) q (if p2p then 5 else 1) 127
      (ptpTime 0 ++ (if p2p then List.replicate 10 0 else []))

/-! ### Exchanges (R91, R96) -/

/-- A signed value held within 32 bits. -/
def clamp32 (v : Int) : Int := if v < -2147483648 then -2147483648 else if 2147483647 < v then 2147483647 else v

/-- Instants in the ticks `first` and `last` lie on both sides of a TB2 step (row 1 of R96). -/
def crossesStep (s : State) (first last : Nat) : Bool :=
  s.eth.stepTick.any (fun t => decide (first < t) && decide (t ≤ last))

/-- A completed Sync exchange of a port in SLAVE state delivers its offset to TTU (R91): t2 − t1 − mean path delay −
corrections − delayAsymmetry, the mean path delay 0 until one has been measured (log entry 67). Its offset counts from the scale at its delivery: a step
between its one local stamp and that discards it (DEDUCED, log entry 67). OFFSET_NS shows it in
whole ns, rounded toward minus infinity (DESIGN CHOICE, log entry 65). -/
def ethSync (s : State) (p : Nat) (t1 : Int) (x : Exchange) : State :=
  if ethState s p ≠ psSlave then s
  else if crossesStep s x.tick s.tick then s.inc Reg.ETH_P_CNT.DISCARD_STEP p
  else
    let diff := x.stamp - t1 - x.corr - ethAsym s p
    let off := diff - psUnits ((ethPort s p).mpd.getD 0)
    let s := setEthPort s p { ethPort s p with msDiff := some (diff, x.tick) }
    let s := s.wi Reg.ETH_P_MEAS.OFFSET_NS (clamp32 (off / uNs)) p
    let s := { s with ttu := { s.ttu with
      ptpTick := some s.tick, ptpOffs := (-off :: s.ttu.ptpOffs).take 16, ptpSlew := x.slew } }
    ethTtu s

/-- The filtered mean path delay takes a value in ps. MPD_PS shows a negative one as 0 (DESIGN CHOICE, log entry 65). -/
def ethMpd (s : State) (p : Nat) (v : Int) : State :=
  let s := setEthPort s p { ethPort s p with mpd := some v, rejects := [] }
  s.w Reg.ETH_P_MEAS.MPD_PS (min v.toNat 0xFFFFFFFF) p

/-- The samples agree within the limit, each with each. -/
def agree (lim : Nat) (xs : List Int) : Bool := xs.all fun a => xs.all fun b => decide ((a - b).natAbs ≤ lim)

/-- A mean path delay sample in ps (row 3 of R96). What the filter makes of an accepted sample the spec leaves open: a
free value; the first sample and one accepted after a jump are taken as they are. The last four rejected samples agree
where each lies within PD_JUMP_NS of each other one, and the fourth is the value accepted (DESIGN CHOICE, log entry 65). -/
def ethDelaySample (s : State) (p : Nat) (v : Int) : State :=
  let lim := ethR s Reg.ETH_P_PD_JUMP.PD_JUMP_NS p * 1000
  match (ethPort s p).mpd with
  | none => ethMpd s p v
  | some m =>
    if lim = 0 ∨ (v - m).natAbs ≤ lim then
      let (f, s) := s.fresh
      ethMpd s p (f : Int)
    else
      let s := s.inc Reg.ETH_P_CNT.PD_REJECT p
      let rs := (v :: (ethPort s p).rejects).take 4
      if rs.length = 4 ∧ agree lim rs = true then raise (ethMpd s p v) 37 p
      else setEthPort s p { ethPort s p with rejects := rs }

/-- A completed delay exchange: twice the mean path delay in 2⁻¹⁶ ns, its local stamps taken in the ticks `first` to `last`.
In whole ps, rounded toward minus infinity (DESIGN CHOICE, log entry 65). -/
def ethDelay (s : State) (p : Nat) (twice : Int) (first last : Nat) : State :=
  if crossesStep s first last then s.inc Reg.ETH_P_CNT.DISCARD_STEP p
  else ethDelaySample s p (twice * 1000 / (2 * 65536))

/-! ### Messages received -/

/-- The message comes from the master port p follows. -/
def fromParent (s : State) (p : Nat) (hd : PtpHdr) : Bool :=
  ethState s p == psSlave && (ethPort s p).parent.any fun g => g.src == hd.src

/-- An Announce: the master heard takes its dataset, and the BMCA runs. The module's own clock and masters 255 steps away
do not count. -/
def ethAnnounceRx (s : State) (p : Nat) (hd : PtpHdr) (gm : GmData) (steps : Nat) : State :=
  if hd.src.clock = ethClockId s ∨ 255 ≤ steps then s
  else
    let e := ethPort s p
    let old := e.foreign.find? fun f => f.src == hd.src
    let ts := (s.tick :: (old.elim [] Foreign.ticks)).take 2
    let f : Foreign := { src := hd.src, gm := gm, steps := steps, ticks := ts }
    ethBmca (setEthPort s p { e with foreign := e.foreign.filter (fun g => g.src != hd.src) ++ [f] })

/-- A PTP message of the port's transport, domain and sdoId (R86, R88 to R93). -/
def ethMsg (s : State) (p : Nat) (hd : PtpHdr) (m : PtpMsg) : State :=
  let e := ethPort s p
  let me := ethPortId s p
  let p2p := ethRb s Reg.ETH_P_CFG.DELAY_MECH p
  match m with
  | .sync origin two at_ =>
    if !fromParent s p hd then s
    else
      let x : Exchange := { src := hd.src, seq := hd.seq, stamp := ethIngress s p (gmiiStamp s at_), corr := hd.corr
                            tick := s.tick, slew := slewAt s at_ }
      if two then setEthPort s p { e with sync := some x } else ethSync (setEthPort s p { e with sync := none }) p origin x
  | .followUp origin =>
    match e.sync with
    | some x =>
      if x.src = hd.src ∧ x.seq = hd.seq then
        ethSync (setEthPort s p { e with sync := none }) p origin { x with corr := x.corr + hd.corr }
      else s
    | none => s
  | .delayReq at_ =>
    if p2p || ethState s p != psMaster then s
    else
      let t := ethIngress s p (gmiiStamp s at_)
      ptpSend s p 9 0 (hd.corr - t % uNs) hd.seq 3 (ethRi s Reg.ETH_P_CFG.LOG_MIN_DELAY_REQ p) (ptpTime t ++ portIdBytes hd.src)
  | .delayResp t4 req =>
    match e.req, e.msDiff with
    | some x, some (d, t) =>
      if !p2p && fromParent s p hd && req == me && x.seq == hd.seq then
        ethDelay (setEthPort s p { e with req := none }) p (d + (t4 - x.stamp - hd.corr)) (min t x.tick) (max t x.tick)
      else s
    | _, _ => s
  | .pdelayReq at_ tx taken =>
    if !p2p then s
    else
      let t2 := ethIngress s p (gmiiStamp s at_)
      let t3 := ethEgress s p (gmiiStamp s tx)
      let (ok, s) := stampTake s p taken
      if ethRb s Reg.ETH_P_CFG.ONE_STEP p then
        if ok then ptpSend s p 3 0 (hd.corr + t3 - t2) hd.seq 5 127 (ptpTime 0 ++ portIdBytes hd.src) else s
      else
        let s := ptpSend s p 3 0x0200 (-(t2 % uNs)) hd.seq 5 127 (ptpTime t2 ++ portIdBytes hd.src)
        if ok then ptpSend s p 10 0 (hd.corr + t3 % uNs) hd.seq 5 127 (ptpTime t3 ++ portIdBytes hd.src) else s
  | .pdelayResp t2 two req at_ =>
    match e.req with
    | some x =>
      if p2p && req == me && x.seq == hd.seq then
        let d := ethIngress s p (gmiiStamp s at_) - x.stamp - hd.corr - ethAsym s p
        if two then setEthPort s p { e with resp := some { x with src := hd.src, corr := d + t2, last := s.tick }, req := none }
        else ethDelay (setEthPort s p { e with req := none, resp := none }) p d x.tick s.tick
      else s
    | none => s
  | .pdelayFollowUp t3 req =>
    match e.resp with
    | some x =>
      if p2p && req == me && x.seq == hd.seq && x.src == hd.src then
        ethDelay (setEthPort s p { e with resp := none }) p (x.corr - t3 - hd.corr) x.tick x.last
      else s
    | none => s
  | .announce gm steps => ethAnnounceRx s p hd gm steps

/-- A frame received on port p (R85): anything but PTP over the port's transport is discarded and counted; a PTP message
of another domain or sdoId is ignored (log entry 67). -/
def ethRx (p : Nat) (m : PtpRx) (s : State) : State :=
  if s.mode == .boot || s.mode == .dead || !s.rb Reg.ETH_P_STATUS.LINK p then s
  else
    match m with
    | .other => s.inc Reg.ETH_P_CNT.RX_OTHER p
    | .msg hd m =>
      if hd.udp != ethRb s Reg.ETH_P_CFG.TRANSPORT p then s.inc Reg.ETH_P_CNT.RX_OTHER p
      else if !ethOn s p || hd.domain != s.r Reg.ETH_PTP_CFG.DOMAIN || hd.sdoId != 0 then s
      else ethMsg s p hd m

/-- Announce receipt timeout (row 4 of R96): a slave port leaves SLAVE state, and the BMCA runs without the masters the
port no longer hears. A port in LISTENING or PASSIVE times out alike, without the event. -/
def ethAnnounceTimeout (p : Nat) (s : State) : State :=
  let st := ethState s p
  if !ethActs s p || !(st == psSlave || st == psListening || st == psPassive) then s
  else
    let s := if st = psSlave then raise s 35 p else s
    let e := ethPort s p
    let gone := match e.parent with
      | some g => e.foreign.filter fun f => f.src != g.src
      | none => []
    let s := setEthPort s p { e with foreign := gone, parent := none, sync := none, msDiff := none, req := none }
    let s := if st = psSlave then ethSetState s p psListening else s
    ethBmcaAt s ((ethSlavePort s).getD (s.r Reg.ETH_PTP_CFG.PREF_SLAVE)) (some p)

/-! ### Port sparing (R95) -/

/-- A port goes out of service. One that has not been in service yet counts as having been out when its link goes down
(DESIGN CHOICE, log entry 80). -/
def ethOut (s : State) (p : Nat) (fault : Bool) : State :=
  let s := setEthPort s p { (ethPort s p) with
    foreign := [], parent := none, sync := none, msDiff := none, req := none, resp := none, watches := 0, wasOut := true }
  let s := if s.rb Reg.ETH_P_STATUS.IN_SERVICE p then
      raise (unitOut (s.wb Reg.ETH_P_STATUS.IN_SERVICE false p) 4 p fault) 38 p
    else s
  ethTtu (ethSetState s p psFaulty)

/-- A port's link goes down for 1 tick, or comes up (R95, row 5 of R96). -/
def ethLinkChange (p : Nat) (up : Bool) (s : State) : State :=
  if s.mode == .boot || s.mode == .dead then s
  else
    let s := if s.rb Reg.ETH_P_STATUS.LINK p = up then s else raise (s.wb Reg.ETH_P_STATUS.LINK up p) 32 p
    if up then s else ethBmca (ethOut s p true)

/-- At a watch boundary a port rejoins whose link is up and which, where it has been out, has passed its self-test (R95,
R477). It then shows LISTENING, or DISABLED while it is not enabled (DESIGN CHOICE, log entry 65). -/
def ethWatchPort (s : State) (p : Nat) : State :=
  let u := unit s 4 p
  if s.rb Reg.ETH_P_STATUS.LINK p then
    if s.rb Reg.ETH_P_STATUS.IN_SERVICE p then
      setEthPort s p { ethPort s p with watches := (ethPort s p).watches + 1 }
    else if u.out && !u.passed then s
    else
      let was := (ethPort s p).wasOut
      let s := (s.wb Reg.ETH_P_STATUS.IN_SERVICE true p)
      let s := setEthPort s p { ethPort s p with watches := 0 }
      let s := completeAll s u.ret stOk
      let s := unitInService s 4 p
      let s := if was then raise s 39 p else s
      ethSetState s p (if ethRb s Reg.ETH_P_CFG.EN p then psListening else psDisabled)
  else s

/-- ETH at a watch boundary: ports rejoin, and the BMCA takes its decisions anew. -/
def ethWatch (s : State) : State := ethBmca (ethWatchPort (ethWatchPort s 0) 1)

/-- ETH at a tick boundary: a configuration written takes effect, and the port restarts in INITIALIZING (R94), which it
shows for one tick (DESIGN CHOICE, log entry 65). -/
def ethTickPort (s : State) (p : Nat) : State :=
  let e := ethPort s p
  if e.was.isSome then
    let s := setEthPort s p { mpd := none, wasOut := e.wasOut, watches := e.watches
                              syncSeq := e.syncSeq, annSeq := e.annSeq, reqSeq := e.reqSeq }
    ethTtu (ethSetState s p psInit)
  else if ethState s p = psInit ∧ s.rb Reg.ETH_P_STATUS.IN_SERVICE p = true then
    ethSetState s p (if ethRb s Reg.ETH_P_CFG.EN p then psListening else psDisabled)
  else s

def ethTick (s : State) : State := ethTickPort (ethTickPort s 0) 1

/-- The preferred port takes the SLAVE role back (R95): both ports hear the same grandmaster, and it has been in service
for STABLE_WATCHES watches. -/
def ethPortBack (s : State) : State :=
  let p := s.r Reg.ETH_PTP_CFG.PREF_SLAVE
  if !ethActs s p || ethState s (1 - p) != psSlave || !sameGm s || decide ((ethPort s p).watches < stableWatches s) then s
  else ethBmcaAt s p none

/-- Instants held as tick numbers move with the tick number (R37). -/
def ethRebase (m : Nat → Nat) (e : EthPort) : EthPort :=
  let x (o : Option Exchange) : Option Exchange := o.map fun x => { x with tick := m x.tick, last := m x.last }
  { e with
    foreign := e.foreign.map fun f => { f with ticks := f.ticks.map m }
    parent := e.parent.map fun f => { f with ticks := f.ticks.map m }
    sync := x e.sync, req := x e.req, resp := x e.resp, msDiff := e.msDiff.map fun d => (d.1, m d.2) }

/-! ### The commands -/

def execPtpMessageRx (p : Fin 2) (m : PtpRx) (s : State) : Host.Outcome State Fault Refusal := withOut s (ethRx p m)
def execPtpSyncTx (p : Fin 2) (x : EgressIn) (s : State) : Host.Outcome State Fault Refusal :=
  withOutAt s (some x.at_) (ethSyncTx p x.at_ x.taken)
def execPtpAnnounceTx (p : Fin 2) (s : State) : Host.Outcome State Fault Refusal := withOut s (ethAnnounceTx p)
def execPtpDelayReqTx (p : Fin 2) (x : EgressIn) (s : State) : Host.Outcome State Fault Refusal :=
  withOutAt s (some x.at_) (ethDelayReqTx p x.at_ x.taken)
def execPtpAnnounceTimeout (p : Fin 2) (cyc : Nat) (s : State) : Host.Outcome State Fault Refusal :=
  withOutAt s (some (cycU cyc)) (ethAnnounceTimeout p)
def execEthLinkChange (p : Fin 2) (up : Bool) (cyc : Nat) (s : State) : Host.Outcome State Fault Refusal :=
  withOutAt s (some (cycU cyc)) (ethLinkChange p up)
def execEthPortBack (s : State) : Host.Outcome State Fault Refusal := withBoundary s ethPortBack

end Sys2Proof.Machine
end

