-- ==== Sys2Proof/Machine/Sxt.lean ====
section
/-! DEFINITION. Sys2Proof/Machine/Sxt.lean: the Sextant GNSS receiver: antenna, channels, allocation, measurement
epochs, navigation units, notches, jamming and banks (R99 to R127). -/

namespace Sys2Proof.Machine

open Sys2Proof

/-! ### Signals (R102) -/

/-- The band of signal g. -/
def sigBand (g : Nat) : Nat := [0, 0, 1, 2, 0, 2, 2, 1, 0, 0, 2, 1, 0, 1, 0, 1, 2, 0].getD g 0
/-- The tracked component of signal g is its data component. -/
def sigData (g : Nat) : Bool := g ∈ [0, 8, 11, 12, 13, 14, 17]
/-- Allowed coherent integration times of signal g in ms. -/
def sigTCoh (g : Nat) : List Nat :=
  match g with
  | 1 => [10, 20] | 2 => [20] | 4 => [4, 20] | 9 => [10, 20] | 12 => [1, 2, 5, 10] | 13 => [1, 2, 5, 10] | 15 => [20]
  | 17 => [1, 2] | _ => [1, 2, 4, 5, 10, 20]
/-- Constellations: 0 GPS, 1 GLONASS, 2 Galileo, 3 SBAS, 4 QZSS, 5 BeiDou (the order of MSM_EN, R143). -/
def sigConst (g : Nat) : Nat :=
  if g < 4 then 0 else if g < 8 then 2 else if g < 12 then 5 else if g < 14 then 1 else if g < 17 then 4 else 3

/-- SPACING in force (R107). -/
def sxtSpacingEff (s : State) (g : Nat) : Nat := clampN 4 64 (s.r Reg.SXT_SIG.SPACING g)
/-- Loop bandwidths in force (R108). -/
def sxtPll (s : State) (g : Nat) : Nat := clampN 10 300 (s.r Reg.SXT_SIG.PLL_BW g)
def sxtFll (s : State) (g : Nat) : Nat := clampN 5 100 (s.r Reg.SXT_SIG.FLL_BW g)
def sxtDll (s : State) (g : Nat) : Nat := clampN 5 200 (s.r Reg.SXT_SIG.DLL_BW g)
/-- T_COH in force (R109): the largest allowed value not above the one written, or the smallest allowed. -/
def sxtTCohEff (s : State) (g : Nat) : Nat :=
  let t := s.r Reg.SXT_SIG.T_COH g
  match ((sigTCoh g).filter (fun a => decide (a ≤ t))).getLast? with
  | some a => a
  | none => (sigTCoh g).headD 1

/-- ELEV_MASK in force, in degrees (R126). -/
def sxtMask (s : State) : Int :=
  let v := s.ri Reg.SXT_ALLOC.ELEV_MASK
  if v < -5 then -5 else if 30 < v then 30 else v

/-- The carrier frequency of signal g in Hz, with the GLONASS frequency channel of R103 (R102). -/
def sigFreq (g freqK : Nat) : Int :=
  if g = 12 then 1602000000 + toSigned 8 freqK * 562500
  else if g = 13 then 1246000000 + toSigned 8 freqK * 437500
  else if g = 2 ∨ g = 15 then 1227600000
  else if g = 3 ∨ g = 5 ∨ g = 10 ∨ g = 16 then 1176450000
  else if g = 6 then 1207140000
  else if g = 7 then 1278750000
  else if g = 8 then 1561098000
  else if g = 11 then 1268520000
  else 1575420000

/-- The chip rate of signal g in chip/s (R102). -/
def sigChip (g : Nat) : Int :=
  if g ∈ [3, 5, 6, 10, 11, 16] then 10230000 else if g = 7 then 5115000 else if g = 8 then 2046000
  else if g = 12 ∨ g = 13 then 511000 else 1023000

/-- FREQ_K of a channel: the GLONASS frequency channel, 0 for other signals (R116, R119). -/
def sigK (g : Nat) (k : Int) : Nat := if g = 12 ∨ g = 13 then ofSigned 8 k else 0

/-- The band of signal g is enabled (SXT_CTRL). -/
def bandOn (s : State) (b : Nat) : Bool := bitAt (s.r Reg.SXT_CTRL.BAND_EN) b

/-! ### Channels -/

/-- The channel drops its satellite: it joins the search pool. -/
def chToPool (s : State) (c : Nat) : State :=
  let s := setSxtCh s c {}
  let s := ((s.w Reg.SXT_CH.SIG 0 c).w Reg.SXT_CH.SV 0 c).w Reg.SXT_CH.FREQ_K 0 c
  setChState (s.w Reg.SXT_CH.LOCK_MS 0 c) c 1

/-- The time ephemerides are judged by, in 2⁻¹⁶ ns of GPST: TB1 when TIME_STATE is not FREE_RUN, otherwise what the first
GNSS time decoded gives (R114). -/
def gnssNow (s : State) : Option Nat :=
  if ttuState s ≠ 0 then some (s.tb1 0) else s.sxt.gnssAt.map fun g => g.1 + (s.tick - g.2) * uTick

/-- An ephemeris set is younger than 4 h. -/
def ephYoung (t : Nat) (e : EphSet) : Bool := decide (t < e.stamp + 14400 * uSec)

/-- Acquisition is aided: OBS holds a base position, and ephemerides younger than 4 h (R114, R115). -/
def sxtAided (s : State) : Bool :=
  s.r Reg.OBS_POS_STATE.STATE == 2
    && (match gnssNow s with
        | some t => s.obs.eph.any fun p => ephYoung t p.2
        | none => false)

/-- What the search looks for: aided, only predicted satellites within ±500 Hz of the predicted Doppler; until then GPS L1
C/A, Galileo E1 and BeiDou B1I within ±6 kHz (R114). -/
def searchFinds (s : State) (g sv : Nat) (dop : Int) : Bool :=
  if sxtAided s then s.sxt.preds.any fun p => p.sig == g && p.sv == sv && decide ((dop - p.dop).natAbs ≤ 500000)
  else g ∈ [0, 4, 8] && decide (dop.natAbs ≤ 6000000)

/-- A channel whose pair is named. -/
def chHolds (s : State) (c g sv : Nat) : Bool :=
  (sxtCh s c).held && s.r Reg.SXT_CH.SIG c == g && s.r Reg.SXT_CH.SV c == sv

/-- Some other channel holds the pair. -/
def pairTaken (s : State) (c g sv : Nat) : Bool :=
  s.sxt.chans.any fun p => p.1 != c && p.2.held && s.r Reg.SXT_CH.SIG p.1 == g && s.r Reg.SXT_CH.SV p.1 == sv

/-- Channel c enters PULL_IN on signal g at a Doppler in mHz: its loops start at the rates found, and a data channel
integrates 1 ms until it has found its bit boundaries (R109, R111). -/
def pullIn (c g : Nat) (dop : Int) (s : State) : State :=
  let v := sxtCh s c
  let aid := dop * sigChip g / sigFreq g (s.r Reg.SXT_CH.FREQ_K c)
  setChState (setSxtCh s c
    { held := true, found := true, since := s.tick, restart := v.restart, tcoh := if sigData g then 1 else sxtTCohEff s g
      last := s.tick, carRate := dop, codRate := aid }) c 2

/-- A search or REACQ channel finds its signal: PULL_IN (R111, R113 row 1, R114). -/
def acqFound (c g sv : Nat) (k dop : Int) (s : State) : State :=
  let v := sxtCh s c
  if chState s c = 4 then
    let g := s.r Reg.SXT_CH.SIG c
    if v.left ≠ 0 ∧ bandOn s (sigBand g) = true then pullIn c g dop (s.w Reg.SXT_CH.LOCK_MS 0 c) else s
  else if chState s c = 1 then
    let ok := decide (g < 18) && bitAt (s.r Reg.SXT_SIG_EN.SIG_EN) g && bandOn s (sigBand g)
      && !pairTaken s c g sv && (v.held == false || chHolds s c g sv) && searchFinds s g sv dop
    if ok then pullIn c g dop (((s.w Reg.SXT_CH.SIG g c).w Reg.SXT_CH.SV sv c).w Reg.SXT_CH.FREQ_K (sigK g k) c)
    else s
  else s

/-- Satellites of a constellation in TRACK. -/
def tracked (s : State) (k : Nat) : List Nat :=
  ((s.sxt.chans.filter fun p => p.2.held && chState s p.1 == 3 && sigConst (s.r Reg.SXT_CH.SIG p.1) == k).map
    fun p => s.r Reg.SXT_CH.SV p.1).eraseDups

/-- Four satellites of each enabled constellation are in TRACK (E079). -/
def trackReady (s : State) : Bool :=
  (List.range 6).all fun k =>
    !((List.range 18).any fun g => sigConst g == k && bitAt (s.r Reg.SXT_SIG_EN.SIG_EN) g)
      || decide (4 ≤ (tracked s k).length)

def jamRef (s : State) (b : Nat) : JamRef := mget ({} : JamRef) s.sxt.jam b
def setJamRef (s : State) (b : Nat) (j : JamRef) : State :=
  { s with sxt := { s.sxt with jam := mput ({} : JamRef) s.sxt.jam b j } }

/-- The indicator has stood on its side of a limit for n ticks. -/
def forTicks (s : State) (n : Nat) (since : Option Nat) : Bool := since.any fun t => decide (t + n ≤ s.tick)

/-- A channel in PULL_IN whose phase lock indicator has been 0.8 or more for 100 ticks enters TRACK (R111); its band's
calibration runs from its first TRACK (R123). -/
def chTrack (c : Nat) (s : State) : State :=
  if chState s c ≠ 2 ∨ forTicks s 100 (sxtCh s c).hiAt = false then s
  else
    let v := sxtCh s c
    let s := setSxtCh s c { v with since := s.tick, loAt := none, weakAt := none }
    let s := setChState (s.w Reg.SXT_CH.LOCK_MS 0 c) c 3
    let b := sigBand (s.r Reg.SXT_CH.SIG c)
    let s := setJamRef s b { jamRef s b with started := true }
    if !s.sxt.ready && trackReady s then raise { s with sxt := { s.sxt with ready := true } } 79 else s

/-- A channel in TRACK loses lock: its indicator below 0.6 for 50 ticks, or its C/N0 below LOSS_CN0 for 100 (R111). -/
def chLockLoss (c : Nat) (s : State) : State :=
  let v := sxtCh s c
  if chState s c = 3 ∧ (forTicks s 50 v.loAt || forTicks s 100 v.weakAt) = true then chReacq s c else s

/-- A REACQ channel whose window has ended returns to the pool (R113 row 2). -/
def reacqExpire (c : Nat) (s : State) : State :=
  if chState s c = 4 ∧ (sxtCh s c).left = 0 then (chToPool s c).inc Reg.SXT_COUNTS.LOCK_LOSS_COUNT else s

/-- A data channel finds its bit boundaries (R103, R109). -/
def bitSync (c : Nat) (d2 : Bool) (s : State) : State :=
  let g := s.r Reg.SXT_CH.SIG c
  if (chState s c = 2 ∨ chState s c = 3) ∧ sigData g = true then
    let t := if d2 && (g == 8 || g == 11) then min 2 (sxtTCohEff s g) else sxtTCohEff s g
    setSxtCh s c { sxtCh s c with sync := true, d2 := d2, tcoh := t }
  else s

/-- A pilot channel in TRACK synchronises its secondary code (R113 row 4). -/
def secondarySync (c : Nat) (s : State) : State :=
  if chState s c = 3 ∧ sigData (s.r Reg.SXT_CH.SIG c) = false then setSxtCh s c { sxtCh s c with sync := true } else s

/-! ### Allocation (R104, R105) -/

/-- Channels of banks that are in service. -/
def chInService (s : State) (c : Nat) : Bool := !(sxtCh s c).bankOut

/-- The elevation predicted for a pair in 0.01°. -/
def predOf (ps : List Predicted) (g sv : Nat) : Option Int :=
  (ps.find? (fun p => p.sig == g && p.sv == sv)).map (·.elev)

/-- The elevation by which R105 orders pairs: one without a prediction counts as lowest (log entry 68). -/
def elevOf (ps : List Predicted) (g sv : Nat) : Int := (predOf ps g sv).getD (-9000)

/-- A channel that holds a pair keeps it (R104): in TRACK always; otherwise not below ELEV_MASK − 2°, and one still
searching for its pair only while the pair is predicted. -/
def chKeeps (s : State) (ps : List Predicted) (c : Nat) : Bool :=
  let g := s.r Reg.SXT_CH.SIG c
  bitAt (s.r Reg.SXT_SIG_EN.SIG_EN) g
    && (chState s c == 3
      || match predOf ps g (s.r Reg.SXT_CH.SV c) with
         | some e => decide ((sxtMask s - 2) * 100 ≤ e)
         | none => chState s c == 2 || chState s c == 4)

/-- `a` is released before `b`: lower elevation, then higher s, then higher satellite number (R105). -/
def relBefore (a b : Int × Nat × Nat) : Bool :=
  decide (a.1 < b.1) || (a.1 == b.1 && (decide (b.2.1 < a.2.1) || (a.2.1 == b.2.1 && decide (b.2.2 < a.2.2))))

/-- The channel to release first among those that hold a pair. -/
def relPick (s : State) (ps : List Predicted) : List Nat → Option (Nat × (Int × Nat × Nat)) → Option (Nat × (Int × Nat × Nat))
  | [], best => best
  | c :: cs, best =>
    let k := (elevOf ps (s.r Reg.SXT_CH.SIG c) (s.r Reg.SXT_CH.SV c), s.r Reg.SXT_CH.SIG c, s.r Reg.SXT_CH.SV c)
    match best with
    | none => relPick s ps cs (some (c, k))
    | some (_, kb) => relPick s ps cs (if relBefore k kb then some (c, k) else best)

/-- Allocate a channel to a pair without one: a free channel, or one released from a lower pair. `held`: the pair has just
lost its own, so that it is the one released where every other stands above it (R105). -/
def allocPair (ps : List Predicted) (p : Predicted) (had : Bool) (s : State) : State :=
  if pairTaken s 1024 p.sig p.sv then s
  else
    let give (s : State) (c : Nat) :=
      let s := setSxtCh s c { held := true }
      setChState (((s.w Reg.SXT_CH.SIG p.sig c).w Reg.SXT_CH.SV p.sv c).w Reg.SXT_CH.FREQ_K
        (sigK p.sig (toSigned 8 p.freqK)) c) c 1
    match (List.range 1024).find? (fun c => chInService s c && !(sxtCh s c).held) with
    | some c => give s c
    | none =>
      let held := (s.sxt.chans.filter fun q => q.2.held && !q.2.bankOut).map (·.1)
      let deny := if had then raiseWatch s 77 else s
      match relPick s ps held none with
      | some (c, k) => if relBefore k (p.elev, p.sig, p.sv) then give (chToPool (raiseWatch s 77) c) c else deny
      | none => deny

/-- A pair that held a channel now out of service is one of R104: of an enabled signal, and not predicted below
ELEV_MASK − 2°; one that is not predicted must have had its signal. -/
def outKeeps (s : State) (ps : List Predicted) (c : Nat) : Bool :=
  let g := s.r Reg.SXT_CH.SIG c
  bitAt (s.r Reg.SXT_SIG_EN.SIG_EN) g
    && (match predOf ps g (s.r Reg.SXT_CH.SV c) with
        | some e => decide ((sxtMask s - 2) * 100 ≤ e)
        | none => (sxtCh s c).found)

/-- Pairs that held a channel now out of service take another (R105), those that R104 still allocates. -/
def allocOut (ps : List Predicted) (s : State) : State :=
  let lost := s.sxt.chans.filter fun q => q.2.held && q.2.bankOut
  lost.foldl (fun s q =>
    let p : Predicted := { sig := s.r Reg.SXT_CH.SIG q.1, sv := s.r Reg.SXT_CH.SV q.1, freqK := s.r Reg.SXT_CH.FREQ_K q.1,
                           elev := elevOf ps (s.r Reg.SXT_CH.SIG q.1) (s.r Reg.SXT_CH.SV q.1), dop := 0 }
    let keeps := outKeeps s ps q.1
    let s := setSxtCh s q.1 { bankOut := true }
    if keeps then allocPair ps p true s else s) s

/-- R104 at a watch boundary. N_SEARCH counts the channels that hold no pair: one assigned to a predicted pair and still in
SEARCH is left out (log entry 68). -/
def sxtAllocate (ps : List Predicted) (s : State) : State :=
  let s := s.sxt.chans.foldl (fun s p =>
    if p.2.held && !p.2.bankOut && !chKeeps s ps p.1 then chToPool s p.1 else s) s
  let s := allocOut ps s
  let s := ps.foldl (fun s p =>
    if bitAt (s.r Reg.SXT_SIG_EN.SIG_EN) p.sig && decide (sxtMask s * 100 < p.elev) then allocPair ps p false s else s) s
  let s := iter (fun c s => if chInService s c && !(sxtCh s c).held then setChState s c 1 else s) 1024 s
  let ts := (s.sxt.chans.filter fun p => p.2.held && chState s p.1 == 3).length
  let ns := ((List.range 1024).filter fun c => chState s c == 1 && !(sxtCh s c).held).length
  (s.w Reg.SXT_STATUS.N_TRACK ts).w Reg.SXT_STATUS.N_SEARCH ns

/-! ### Measurement epochs (R116) -/

/-- The notch set of band b changed in the 2 ticks before the epoch at tick t (R121). -/
def notchChanged (s : State) (b t : Nat) : Bool :=
  s.sxt.notchAt.any fun p => p.1 == b && decide (p.2 < t) && decide (t ≤ p.2 + 2)

/-- What the latch holds of channel c. -/
def latchCh (s : State) (c : Nat) : LatchCh :=
  let v := sxtCh s c
  let g := s.r Reg.SXT_CH.SIG c
  { ch := c, sig := g, sv := s.r Reg.SXT_CH.SV c, freqK := s.r Reg.SXT_CH.FREQ_K c, half := sigData g && !v.polar
    restart := v.restart, notch := notchChanged s (sigBand g) s.tick, cn0 := s.r Reg.SXT_CH.CN0 c
    doppler := s.ri Reg.SXT_CH.DOPPLER c, lockMs := min (s.tick - v.since) 0xFFFFFFFF, deliver := sigData g || v.sync }

/-- The latch at the boundary of tick 0: every channel in TRACK on the same sample. A channel that delivers a record has
shown its LOCK_RESTART. -/
def sxtLatch (s : State) : State :=
  let ls := ((s.sxt.chans.filter fun p => p.2.held && chState s p.1 == 3).map (·.1)).map (latchCh s)
  let s := { s with sxt := { s.sxt with latch := some (ls, s.tb1 0, s.tick) } }
  ls.foldl (fun s l => if l.deliver then setSxtCh s l.ch { sxtCh s l.ch with restart := false } else s) s

/-- The record of one measurement. -/
def measRec (epoch : Nat) (l : LatchCh) (m : MeasIn) : MeasRec :=
  { ch := l.ch, sig := l.sig, sv := l.sv, freqK := l.freqK, half := l.half, restart := l.restart, notch := l.notch
    towUnk := m.towUnk, cn0 := l.cn0, txTime := m.txTime, carrier := m.carrier, doppler := l.doppler
    lockMs := l.lockMs, epoch := epoch }

/-- The 48 bytes of a record (R116). -/
def measBytes (r : MeasRec) : List Byte :=
  le 2 r.ch ++ le 1 r.sig ++ le 1 r.sv ++ le 1 r.freqK
    ++ le 1 (b2n r.half + 2 * b2n r.restart + 4 * b2n r.notch + 8 * b2n r.towUnk) ++ le 2 r.cn0 ++ le 8 r.txTime
    ++ le 8 (ofSigned 64 r.carrier) ++ le 4 (ofSigned 32 r.doppler) ++ le 4 r.lockMs ++ le 4 0 ++ stampBytes r.epoch

/-- The records of the epoch: every channel latched, but a pilot without its secondary code (R113 rows 3 and 4). -/
def measEpoch (ms : List MeasIn) (s : State) : State :=
  match s.sxt.latch with
  | none => s
  | some (ls, epoch, _) =>
    let recs := (ls.filter (·.deliver)).filterMap fun l => (ms.find? (fun m => m.ch == l.ch)).map (measRec epoch l)
    { s with sxt := { s.sxt with recs := recs, latch := none } }

/-! ### Loops (R106 to R111) -/

/-- The power of a correlator. -/
def power (p : Int × Int) : Int := p.1 * p.1 + p.2 * p.2

/-- The carrier phase error (R108): four-quadrant arctangent on a pilot, Costas two-quadrant arctangent on a data channel. -/
def phaseErr (data : Bool) (p : Int × Int) : Int :=
  if data && decide (p.1 < 0) then Config.arctan2 (-p.2) (-p.1) else Config.arctan2 p.2 p.1

/-- The carrier frequency error: the cross product of successive prompt values. -/
def freqErr (a b : Int × Int) : Int := a.1 * b.2 - a.2 * b.1

/-- The code error: early minus late power over their sum, as numerator and denominator. -/
def codeErr (e l : Int × Int) : Int × Int := (power e - power l, power e + power l)

/-- The correlators of an ended period are taken, and the loops give new NCO rates, which apply at 50 µs (R106, R108,
R110): the code loop is carrier-aided, and the frequency assist runs in PULL_IN only. The filters' coefficients and the
estimators of C/N0 and of the lock indicator stand outside the spec (log entry 69). -/
def loopUpdate (s : State) (g : Nat) (pulling : Bool) (k : CorrIn) : SxtCh × Nat :=
  let v := sxtCh s k.ch
  let pe := (phaseErr (sigData g) k.prompt, 1)
  let fe := (freqErr v.prompt k.prompt, power v.prompt + power k.prompt)
  let pll := Config.loopFilter (if s.rb Reg.SXT_SIG.PLL_ORDER g then 3 else 2) (sxtPll s g) v.tcoh v.pll pe
  let fll := if pulling then Config.loopFilter 2 (sxtFll s g) v.tcoh v.fll fe else v.fll
  let dll := Config.loopFilter 1 (sxtDll s g) v.tcoh v.dll (codeErr k.early k.late)
  let car := pll.headD 0 + fll.headD 0
  let cn0 := Config.cn0Est v.tcoh (s.r Reg.SXT_CH.CN0 k.ch) (power k.prompt) (power k.noise)
  let lock := Config.lockEst v.tcoh v.lock k.prompt (power k.noise)
  let from_ := max v.since (s.tick - v.tcoh)
  let since (b : Bool) (old : Option Nat) (t : Nat) : Option Nat := if b then some (old.getD t) else none
  ({ v with early := k.early, prompt := k.prompt, late := k.late, noise := k.noise, data := k.data, before := v.prompt
            last := s.tick, pll := pll, fll := fll, dll := dll, carRate := car
            codRate := dll.headD 0 + car * sigChip g / sigFreq g (s.r Reg.SXT_CH.FREQ_K k.ch), lock := lock
            hiAt := since (decide (800 ≤ lock)) v.hiAt from_, loAt := since (decide (lock < 600)) v.loAt s.tick
            weakAt := since (decide (cn0 < 100 * s.r Reg.SXT_ALLOC.LOSS_CN0)) v.weakAt s.tick }, cn0)

/-- A channel in PULL_IN or TRACK whose integration period ended before this tick boundary is updated, at most once per
period (R110). -/
def chUpdate (k : CorrIn) (s : State) : State :=
  let v := sxtCh s k.ch
  let g := s.r Reg.SXT_CH.SIG k.ch
  if (chState s k.ch = 2 ∨ chState s k.ch = 3) ∧ v.last + v.tcoh ≤ s.tick + 1 then
    let (v, cn0) := loopUpdate s g (chState s k.ch == 2) k
    ((setSxtCh s k.ch v).w Reg.SXT_CH.CN0 cn0 k.ch).wi Reg.SXT_CH.DOPPLER v.carRate k.ch
  else s

/-- The changes of state that are due whether an event has brought them or not (R111). -/
def chDue (s : State) (c : Nat) : State :=
  let v := sxtCh s c
  if chState s c = 2 then (if forTicks s 101 v.hiAt then chTrack c s else s)
  else if chState s c = 3 then (if forTicks s 51 v.loAt || forTicks s 101 v.weakAt then chLockLoss c s else s)
  else s

/-- The SXT slot (R110): loop updates, and in tick 0 the measurement records. -/
def sxtSlot (use : SlotUse) (ks : List CorrIn) (ms : List MeasIn) (s : State) : State :=
  let s := slotEnd s 1 use
  if s.mode == .dead then s
  else
    let s := ks.foldl (fun s k => chUpdate k s) s
    let s := (s.sxt.chans.map (·.1)).foldl chDue s
    let s := s.sxt.chans.foldl (fun s p =>
      if chState s p.1 = 3 then s.w Reg.SXT_CH.LOCK_MS (min (s.tick - p.2.since) 0xFFFFFFFF) p.1 else s) s
    measEpoch ms s

/-! ### Antenna (R100, R101) -/

def antState (s : State) : Nat := s.r Reg.SXT_ANT_STATUS.ANT_STATE
def setBias (s : State) (b : Bool) : State := { s with sxt := { s.sxt with bias := b } }

/-- More than 110 mA for a tick: the bias goes off for 1,000 ticks. Every band starts UNCALIBRATED again: it waits for a
channel that enters TRACK from then on (R101 row 2, R123; log entry 68). -/
def antShort (s : State) : State :=
  if s.rb Reg.SXT_ANT_CFG.BIAS_EN && s.sxt.bias && decide (110 < s.r Reg.SXT_ANT_STATUS.CURRENT_MA) then
    let was := antState s = 3
    let s := { s with sxt := { s.sxt with bias := false, shortAt := if was then s.sxt.shortAt else s.tick, antLow := 0 } }
    if was then s
    else
      let s := iter (fun b s => ((((setJamRef s b {}).w Reg.SXT_BAND.JAM_STATE 0 b).w Reg.SXT_BAND.JAM_IND 0 b).w
        Reg.SXT_BAND.RESID_IND 0 b).wb Reg.SXT_BAND.CAL_CLAMPED false b) 3 s
      raise (s.w Reg.SXT_ANT_STATUS.ANT_STATE 3) 65
  else s

/-- A shorted bias is tried again for a tick every 1,000 ticks (R101 row 2): `shortAt` is the tick in which it went off, and
from then on that of the last attempt. -/
def antRetry (s : State) : State :=
  if s.rb Reg.SXT_ANT_CFG.BIAS_EN && antState s == 3 && !s.sxt.bias && decide (s.sxt.shortAt + 1000 ≤ s.tick) then
    setBias { s with sxt := { s.sxt with shortAt := s.tick } } true
  else s

/-- Less than 3 mA for 100 ticks (row 3). -/
def antOpen (s : State) : State :=
  if s.rb Reg.SXT_ANT_CFG.BIAS_EN && s.sxt.bias && decide (100 ≤ s.sxt.antLow) && antState s != 2 then
    raise (s.w Reg.SXT_ANT_STATUS.ANT_STATE 2) 64
  else s

/-- From 3 to 110 mA after a short or an open (row 4). -/
def antOk (s : State) : State :=
  let ma := s.r Reg.SXT_ANT_STATUS.CURRENT_MA
  if s.rb Reg.SXT_ANT_CFG.BIAS_EN && s.sxt.bias && decide (3 ≤ ma) && decide (ma ≤ 110) && (antState s == 2 || antState s == 3)
  then raise (s.w Reg.SXT_ANT_STATUS.ANT_STATE 1) 66
  else s

/-- The antenna at a tick boundary, whatever the mode: the current of the tick just ended, and the row of R101 it meets. -/
def antTick (ma : Nat) (s : State) : State :=
  if !s.rb Reg.SXT_ANT_CFG.BIAS_EN then
    ({ s with sxt := { s.sxt with bias := false, antLow := 0 } }.w Reg.SXT_ANT_STATUS.ANT_STATE 0).w Reg.SXT_ANT_STATUS.CURRENT_MA 0
  else if antState s = 0 then (setBias s true).w Reg.SXT_ANT_STATUS.ANT_STATE 1
  else
    let ma := if s.sxt.bias then min ma 255 else 0
    let s := { s with sxt := { s.sxt with antLow := if s.sxt.bias && decide (ma < 3) then s.sxt.antLow + 1 else 0 } }
    antRetry (antOk (antOpen (antShort (s.w Reg.SXT_ANT_STATUS.CURRENT_MA ma))))

/-! ### Navigation units (R117 to R119) -/

/-- The bits of the units of signal g's message, in the order of R117. -/
def navBits (g : Nat) : List Nat :=
  match g with
  | 1 => [9, 576, 250] | 4 => [228] | 5 => [238] | 6 => [228] | 7 => [486] | 9 => [14, 600, 264] | 10 => [288]
  | 12 => [85] | 13 => [85] | 17 => [250] | _ => [300]

/-- The bits of the unit that comes: its message's only unit, or the one of its subframe. -/
def navLen (g : Nat) (sub : Fin 3) : Nat := (navBits g).getD sub ((navBits g).headD 300)

/-- The check of signal g's units: by word, with correction or without; else of the whole unit, where a single error may be
corrected in a GLONASS string or a BCH subframe (R117). -/
def navWords (g : Nat) : Bool := g ∈ [0, 8, 11, 14]
def navCorrects (g : Nat) (sub : Fin 3) : Bool := g ∈ [8, 11, 12, 13] || ((g == 1 || g == 9) && sub == 0)

/-- Bit i of a unit, in transmitted order. -/
def navBit (d : List Byte) (i : Nat) : Bool := bitAt (d.getD (i / 8) 0).toNat (7 - i % 8)

/-- The decoding of a unit can fail to converge: Viterbi or LDPC (R117). -/
def navConverges (g : Nat) (sub : Fin 3) : Bool := !navWords g && !navCorrects g sub

/-- The bits a CRC-24Q covers, where the 24 bits of the CRC follow them in the unit delivered (PRESUMED from the signals'
interface documents, log entry 82). -/
def navCrcBits (g : Nat) (sub : Fin 3) : Option Nat :=
  match g, sub with
  | 2, _ => some 276 | 3, _ => some 276 | 15, _ => some 276 | 16, _ => some 276
  | 4, _ => some 196 | 6, _ => some 196 | 5, _ => some 214 | 7, _ => some 462
  | 9, 1 => some 576 | 9, 2 => some 240 | 10, _ => some 264 | 17, _ => some 226
  | _, _ => none

/-- The CRC-24Q register after n bits of a unit. -/
def crc24Unit (d : List Byte) : Nat → Nat
  | 0 => 0
  | n + 1 =>
    let c := crc24Unit d n
    if decide (0x800000 ≤ c) != navBit d n then ((c * 2) % 0x1000000) ^^^ 0x864CFB else c * 2

/-- The data bits of an LNAV word that each of its parity bits covers, and whether bit 29 (else bit 30) of the word before
enters it (PRESUMED, IS-GPS-200; log entry 82). -/
def lnavParity : List (Bool × List Nat) :=
  [(true, [1, 2, 3, 5, 6, 10, 11, 12, 13, 14, 17, 18, 20, 23]), (false, [2, 3, 4, 6, 7, 11, 12, 13, 14, 15, 18, 19, 21, 24]),
   (true, [1, 3, 4, 5, 7, 8, 12, 13, 14, 15, 16, 19, 20, 22]), (false, [2, 4, 5, 6, 8, 9, 13, 14, 15, 16, 17, 20, 21, 23]),
   (false, [1, 3, 5, 6, 7, 9, 10, 14, 15, 16, 17, 18, 21, 22, 24]), (true, [3, 5, 6, 8, 9, 10, 11, 13, 15, 19, 22, 23, 24])]

/-- Bit i, from 1, of word w of an LNAV subframe; the word before the first ends in two zeros. -/
def lnavBit (d : List Byte) (w i : Nat) : Bool := navBit d (30 * w + i - 1)

/-- Word w of an LNAV subframe fails its parity. -/
def lnavBad (d : List Byte) (w : Nat) : Bool :=
  let before (i : Nat) : Bool := w != 0 && lnavBit d (w - 1) i
  ((List.range 6).zip lnavParity).any fun p =>
    lnavBit d w (25 + p.1) != (p.2.2.foldl (fun a i => a != lnavBit d w i) (before (if p.2.1 then 29 else 30)))

/-- The words that fail, as FAIL_MASK numbers them: by their parity in an LNAV subframe, by their BCH in a D1 or D2
subframe, where the bits as received are not among those delivered. -/
def navFailMask (g : Nat) (u : NavIn) : Nat :=
  if g = 0 ∨ g = 14 then (List.range 10).foldl (fun m w => if lnavBad u.data w then m + 2 ^ w else m) 0
  else if navWords g then u.failMask % 1024 else 0
/-- The words corrected: 0 for units not checked by word, none where the check only detects. -/
def navCorrMask (g : Nat) (u : NavIn) : Nat := if navWords g && navCorrects g u.sub then u.corrMask % 1024 else 0

/-- A unit not checked by word fails its check: its CRC-24Q where the unit delivered holds it, otherwise as the decoder
found. -/
def navBad (g : Nat) (u : NavIn) : Bool :=
  match navCrcBits g u.sub with
  | some n => crc24Unit u.data (n + 24) != 0
  | none => u.bad

/-- CHECK: 0 PASS, 1 CORRECTED, 2 FAIL (R118). -/
def navCheck (g : Nat) (u : NavIn) : Nat :=
  if navConverges g u.sub && !u.conv then 2
  else if navWords g then (if navFailMask g u ≠ 0 then 2 else if navCorrMask g u ≠ 0 then 1 else 0)
  else if navBad g u then 2 else if u.fixed && navCorrects g u.sub then 1 else 0

/-- The unit's bits in bytes, unused bits of the last byte 0. -/
def navData (n : Nat) (d : List Byte) : List Byte :=
  let bs := padTo (ceilDiv n 8) (d.take (ceilDiv n 8))
  match n % 8, bs.getLast? with
  | 0, _ => bs
  | r, some b => bs.dropLast ++ [BitVec.ofNat 8 (b.toNat / 2 ^ (8 - r) * 2 ^ (8 - r))]
  | _, none => bs

/-- The subframe or page number: where the message numbers its subframes by place, that place. -/
def navUnitNo (g : Nat) (u : NavIn) : Nat := if g = 1 ∨ g = 9 then u.sub + 1 else u.unit

/-- The navigation record. -/
def navBytes (s : State) (c : Nat) (u : NavIn) : List Byte :=
  let g := s.r Reg.SXT_CH.SIG c
  let n := navLen g u.sub
  let d := stampBytes u.stamp ++ le 1 g ++ le 1 (s.r Reg.SXT_CH.SV c) ++ le 1 (navUnitNo g u)
    ++ le 1 (navCheck g u) ++ le 2 n ++ le 2 (navFailMask g u) ++ le 2 (navCorrMask g u) ++ le 1 (s.r Reg.SXT_CH.FREQ_K c)
    ++ le 1 0 ++ le 8 s.tick ++ navData n u.data
  padTo (ceilDiv d.length 8 * 8) d

/-- Navigation data accepted (R137): PASS, or CORRECTED confirmed by a second unit with the same content. -/
def navAccept (s : State) (g sv : Nat) (u : NavIn) : Bool × State :=
  if navCheck g u = 0 then (true, s)
  else if navCheck g u = 1 then
    let k := 256 * g + sv
    let d := navData (navLen g u.sub) u.data
    if s.obs.unconf.any (fun p => p.1 == k && p.2.1 == navUnitNo g u && p.2.2 == d) then (true, s)
    else (false, { s with obs := { s.obs with
      unconf := s.obs.unconf.filter (fun p => !(p.1 == k && p.2.1 == navUnitNo g u)) ++ [(k, navUnitNo g u, d)] } })
  else (false, s)

/-- A new ephemeris set of a satellite waits for the next watch boundary. -/
def ephQueue (s : State) (k : Nat) (e : EphSet) : State :=
  { s with obs := { s.obs with ephNext := s.obs.ephNext.filter (fun p => p.1 != k) ++ [(k, e)] } }

/-- The ephemeris set a unit completes. -/
def navEph (s : State) (g sv : Nat) (u : NavIn) : State :=
  match u.eph with
  | some ps => ephQueue s (256 * sigConst g + sv) { stamp := u.stamp, params := ps }
  | none => s

/-- The leap-second count a unit carries (R97). -/
def navUtc (s : State) (u : NavIn) : State :=
  match u.utc with
  | some v =>
    let s := { s with eth := { s.eth with navUtc := some v } }
    (s.w Reg.ETH_UTC.UTC_OFFSET v).wb Reg.ETH_UTC.FROM_NAV true
  | none => s

/-- Ionosphere and UTC parameters by constellation, and GLONASS frequency channels by slot (R137). -/
def navParams (s : State) (g : Nat) (u : NavIn) : State :=
  let put (m : List (Nat × List Int)) (v : Option (List Nat)) := match v with
    | some x => mput [] m (sigConst g) (x.map fun n => (n : Int))
    | none => m
  { s with obs := { s.obs with
      iono := put s.obs.iono u.iono, utcPar := put s.obs.utcPar u.utcPar
      gloK := match u.gloK with
        | some (slot, k) => s.obs.gloK.filter (fun p => p.1 != slot) ++ [(slot, k)]
        | none => s.obs.gloK } }

/-- OBS takes the content of an accepted unit; a new ephemeris set comes into use at the next watch boundary (R137). -/
def navTake (s : State) (g sv : Nat) (u : NavIn) : State :=
  let s := navParams (navUtc (navEph s g sv u) u) g u
  match u.gnssTime, s.sxt.gnssAt with
  | some t, none => { s with sxt := { s.sxt with gnssAt := some (t, s.tick) } }
  | _, _ => s

/-- A navigation unit of a channel in TRACK. -/
def navUnit (c : Nat) (u : NavIn) (s : State) : State :=
  if chState s c ≠ 3 then s
  else
    let g := s.r Reg.SXT_CH.SIG c
    let sv := s.r Reg.SXT_CH.SV c
    let s := if u.polarity then setSxtCh s c { sxtCh s c with polar := true } else s
    let r := navBytes s c u
    let fail := navCheck g u == 2
    let s := if fail then raiseWatch (s.inc Reg.SXT_COUNTS.NAV_FAIL_COUNT) 78 else s
    let s := (cplTake (cplPut s 129 r) 129).2
    let s := if s.rb Reg.SXT_NAV_CFG.HOST_COPY && (!fail || s.rb Reg.SXT_NAV_CFG.FAIL_TO_HOST) then cplPut s 130 r else s
    match navAccept s g sv u with
    | (true, s) => navTake s g sv u
    | (false, s) => s

/-! ### Notches (R120, R121) -/

/-- The passband's half width in kHz (R99). -/
def bandHalf (b : Nat) : Nat := [28500, 42500, 27500].getD b 0
/-- MODE of a notch: 0b11 taken as OFF. -/
def notchMode (s : State) (b n : Nat) : Nat := let m := s.r Reg.SXT_BAND.N_MODE b n; if m = 3 then 0 else m
/-- WIDTH of a notch in kHz: 0b11 taken as 1 MHz. -/
def notchWidth (s : State) (b n : Nat) : Nat := [50, 200, 1000, 1000].getD (s.r Reg.SXT_BAND.N_WIDTH b n) 1000
/-- The centre of a spectrum bin in kHz from the band centre, to the nearest: bins are 39.0625 kHz apart. -/
def binKhz (bin : Int) : Int := (bin * 625 + 8) / 16

def notchOf (s : State) (b n : Nat) : Notch := mget ({} : Notch) s.sxt.notches (8 * b + n)
def setNotch (s : State) (b n : Nat) (v : Notch) : State :=
  { s with sxt := { s.sxt with notches := mput ({} : Notch) s.sxt.notches (8 * b + n) v } }
/-- The line an AUTO notch holds. -/
def notchLine (s : State) (b n : Nat) : Option Int := (notchOf s b n).line
def setNotchLine (s : State) (b n : Nat) (l : Option Int) : State := setNotch s b n { notchOf s b n with line := l }

/-- The line of band b at a bin. -/
def lineAt (s : State) (b : Nat) (bin : Int) : Option SpecLine :=
  (s.sxt.lines.find? (fun p => p.1 == b && p.2.bin == bin)).map (·.2)
/-- Some AUTO notch of band b holds the line at a bin. -/
def lineHeld (s : State) (b : Nat) (bin : Int) : Bool := (List.range 8).any fun n => notchLine s b n == some bin
/-- The line has been above the threshold for 10 ticks. -/
def lineDue (s : State) (b : Nat) (bin : Int) : Bool := (lineAt s b bin).any fun l => decide (10 ≤ l.above)
/-- The line a notch holds has been below the threshold for 100 ticks. -/
def lineGone (s : State) (b n : Nat) : Bool :=
  match notchLine s b n with
  | some bin => (match lineAt s b bin with | some l => decide (100 ≤ l.below) | none => true)
  | none => false

/-- NOTCH_ENGAGE: a line that has qualified and has no notch is to have one at the next tick boundary. -/
def notchEngage (b : Nat) (bin : Int) (s : State) : State :=
  if lineDue s b bin && !lineHeld s b bin then { s with sxt := { s.sxt with engage := s.sxt.engage ++ [(b, bin)] } } else s

/-- NOTCH_RELEASE: a notch whose line has gone is to be released at the next tick boundary. -/
def notchRelease (b n : Nat) (s : State) : State :=
  if lineGone s b n then { s with sxt := { s.sxt with release := s.sxt.release ++ [(b, n)] } } else s

/-- A line known so far, in the spectrum of another tick. -/
def lineStep (thr : Nat) (seen : List (Int × Nat)) (l : SpecLine) : SpecLine :=
  match seen.find? (fun x => x.1 == l.bin) with
  | some (_, e) =>
    if thr < e then { l with power := e, above := l.above + 1, below := 0 }
    else { l with power := e, above := 0, below := l.below + 1 }
  | none => { l with above := 0, below := l.below + 1 }

/-- The spectrum of the tick just ended: every line above DETECT_DB counts on, every other starts again; a line that is
neither above nor held by a notch is forgotten. -/
def linesTick (b : Nat) (seen : List (Int × Nat)) (s : State) : State :=
  let thr := s.r Reg.SXT_BAND.DETECT_DB b
  let mine := s.sxt.lines.filter fun p => p.1 == b
  let known := mine.map fun p => (b, lineStep thr seen p.2)
  let fresh := (seen.filter fun x => decide (thr < x.2) && !mine.any (fun p => p.2.bin == x.1)).map fun x =>
    (b, ({ bin := x.1, power := x.2, above := 1, below := 0 } : SpecLine))
  { s with sxt := { s.sxt with lines := s.sxt.lines.filter (fun p => p.1 != b)
      ++ (known ++ fresh).filter fun p => p.2.above != 0 || lineHeld s b p.2.bin } }

/-- The strength of the line a notch holds. -/
def linePower (s : State) (b : Nat) (bin : Int) : Nat := match lineAt s b bin with | some l => l.power | none => 0

/-- The AUTO notch holding the weakest line. -/
def weakest (s : State) (b : Nat) : List Nat → Option (Nat × Nat) → Option (Nat × Nat)
  | [], best => best
  | n :: ns, best =>
    match (notchLine s b n).map (linePower s b), best with
    | some p, some (_, q) => weakest s b ns (if p < q then some (n, p) else best)
    | some p, none => weakest s b ns (some (n, p))
    | none, _ => weakest s b ns best

/-- A qualified line takes the free AUTO notch of lowest index, or the notch of a weaker line (R120). -/
def notchGive (s : State) (b : Nat) (l : SpecLine) : State :=
  let auto := (List.range 8).filter fun n => notchMode s b n == 1
  if lineHeld s b l.bin then s
  else
    match auto.find? (fun n => (notchLine s b n).isNone) with
    | some n => setNotchLine s b n (some l.bin)
    | none =>
      match weakest s b auto none with
      | some (n, p) => if p < l.power then setNotchLine s b n (some l.bin) else s
      | none => s

/-- The strongest line first. -/
def lineInsert (l : SpecLine) : List SpecLine → List SpecLine
  | [] => [l]
  | x :: xs => if x.power < l.power then l :: x :: xs else x :: lineInsert l xs

/-- Every qualified line of band b, the strongest first, has its turn; SXT_NOTCH_FULL in each tick one is left without. -/
def notchFill (b : Nat) (s : State) : State :=
  let due := ((s.sxt.lines.filter fun p => p.1 == b && decide (10 ≤ p.2.above)).map (·.2)).foldr lineInsert []
  let s := due.foldl (fun s l => notchGive s b l) s
  if due.all (fun l => lineHeld s b l.bin) then s else raiseTick s 71 b

/-- A notch shows what its mode, width and line make of it; whether it changed. -/
def notchShow (s : State) (b n : Nat) : Bool × State :=
  let fix := s.ri Reg.SXT_BAND.N_FIX_KHZ b n
  let at_ : Option Int := match notchMode s b n with
    | 1 => (notchLine s b n).map binKhz
    | 2 => if fix.natAbs ≤ bandHalf b then some fix else none
    | _ => none
  let want : Option (Int × Nat) := if bandOn s b then at_.map fun k => (k, notchWidth s b n) else none
  if want = (notchOf s b n).cur then (false, s)
  else (true, ((setNotch s b n { notchOf s b n with cur := want }).wb Reg.SXT_BAND.N_ACTIVE want.isSome b n).wi
    Reg.SXT_BAND.N_CUR_KHZ ((want.map (·.1)).getD 0) b n)

/-- Notches at a tick boundary (R121): released, engaged or displaced, and what each band's set has become. -/
def notchTick (bands : List BandIn) (s : State) : State :=
  let rel := s.sxt.release
  let s := { s with sxt := { s.sxt with release := [], engage := [] } }
  let s := iter (fun b s => if bandOn s b then linesTick b ((bands[b]?.map (·.lines)).getD []) s else s) 3 s
  let s := rel.foldl (fun s p => setNotchLine s p.1 p.2 none) s
  let s := iter (fun k s =>
    if notchMode s (k / 8) (k % 8) = 1 ∧ lineGone s (k / 8) (k % 8) = false then s
    else setNotchLine s (k / 8) (k % 8) none) 24 s
  let s := iter (fun b s => if bandOn s b then notchFill b s else s) 3 s
  let s := { s with sxt := { s.sxt with notchAt := s.sxt.notchAt.filter (fun p => decide (s.tick < p.2 + 4)) } }
  iter (fun k s =>
    match notchShow s (k / 8) (k % 8) with
    | (true, s) => { s with sxt := { s.sxt with notchAt := s.sxt.notchAt ++ [(k / 8, s.tick)] } }
    | (false, s) => s) 24 s

/-! ### Jamming (R122 to R124) -/

/-- round(4 × 10 log₁₀(P_in / P_ref)), at most 255, 0 when P_in ≤ P_ref: the k for which P_in^80 ≥ 10^(2k−1) P_ref^80. P_in
is the mean of n values with the sum given; P_ref is given as its tenth power, with P_in scaled by 10000. -/
def jamInd (sum n refTen : Nat) : Nat :=
  ((List.range 255).filter fun k => decide (10 ^ (2 * k + 1) * refTen ^ 8 * n ^ 80 ≤ (sum * 10000) ^ 80)).length

/-- JAM_STATE of R124 from the last one: CLEAR 1, WARN 2, ALARM 3. -/
def jamNext (st ind warn alarm : Nat) : Nat :=
  let fresh := if alarm ≤ ind then 3 else if warn ≤ ind then 2 else 1
  if st = 3 ∧ alarm < ind + 8 then 3
  else if st = 2 ∧ warn < ind + 8 then (if fresh = 3 then 3 else 2)
  else fresh

/-- The band's 10 s have passed: P_ref, limited to the factory reference plus 3 dB (R123). -/
def jamCal (b : Nat) (s : State) : State :=
  let j := jamRef s b
  if j.refTen.isSome || decide (j.ticks < 10000) then s
  else
    let f := Config.factoryNoise b * 10000
    let hi := decide (1000 * f ^ 10 < j.sum ^ 10)
    let s := setJamRef s b { j with refTen := some (if hi then 1000 * f ^ 10 else j.sum ^ 10) }
    raise ((s.wb Reg.SXT_BAND.CAL_CLAMPED hi b).w Reg.SXT_BAND.JAM_STATE 1 b) 67 b

/-- The indicators of band b against its reference. -/
def jamShow (b r : Nat) (s : State) : State :=
  let h := (jamRef s b).hist
  let ind := jamInd (h.map (·.1)).sum h.length r
  let st := s.r Reg.SXT_BAND.JAM_STATE b
  let nx := jamNext st ind (s.r Reg.SXT_BAND.WARN_LVL b) (s.r Reg.SXT_BAND.ALARM_LVL b)
  let s := ((s.w Reg.SXT_BAND.JAM_IND ind b).w Reg.SXT_BAND.RESID_IND (jamInd (h.map (·.2)).sum h.length r) b).w
    Reg.SXT_BAND.JAM_STATE nx b
  if nx = st ∨ (nx = 1 ∧ st = 0) then s else raise s (match nx with | 3 => 69 | 2 => 68 | _ => 70) b

/-- The jamming indicators of band b for a tick (R122, R123): the last 100 ticks' input power ahead of the AGC and after the
notches. -/
def jamTick (b : Nat) (x : BandIn) (s : State) : State :=
  let j := jamRef s b
  let j : JamRef := { j with hist := ((x.pin, x.pres) :: j.hist).take 100 }
  match j.refTen with
  | none =>
    let j := if j.started && decide (j.ticks < 10000) then { j with ticks := j.ticks + 1, sum := j.sum + x.pin } else j
    let s := setJamRef s b j
    let s := ((s.w Reg.SXT_BAND.JAM_IND 0 b).w Reg.SXT_BAND.RESID_IND 0 b).w Reg.SXT_BAND.JAM_STATE 0 b
    jamCal b s
  | some r => jamShow b r (setJamRef s b j)

/-! ### Banks (R125) -/

/-- A failed bank: its channels move at the next tick boundary, by row 2 also where an OUT awaits that boundary; a standby
bank does not take its channels back (row 1). -/
def bankFault (b : Nat) (bad : List Nat) (s : State) : State :=
  let u := unit s 0 b
  if u.out then s
  else if u.standby then
    let s := if unitStable s 0 b then unitOut s 0 b true else unitStandbyFault s 0 b
    if (unit s 0 b).out then raise (s.w Reg.SXT_BANK_MAP.STANDBY 0x1F) 73 b else s
  else if s.sxt.bankOut.any (fun o => o.1 == b) then
    { s with sxt := { s.sxt with bankOut := s.sxt.bankOut.map fun o => if o.1 = b then (b, o.2.1 ++ bad, true) else o } }
  else { s with sxt := { s.sxt with bankOut := s.sxt.bankOut ++ [(b, bad, true)] } }

/-- The logical channels whose home is bank h. -/
def bankChs (h : Nat) : List Nat := (List.range 64).map (fun i => 64 * h + i)

/-- The home bank whose channels physical bank b carries. -/
def bankCarries (s : State) (b : Nat) : Option Nat :=
  if s.r Reg.SXT_BANK_MAP.SPARE_BANK = b then
    (if s.r Reg.SXT_BANK_MAP.SPARE_FOR = 0x1F then none else some (s.r Reg.SXT_BANK_MAP.SPARE_FOR))
  else some b

/-- The logical channels of home bank h enter OUT (row 4). -/
def bankChsOut (s : State) (h : Nat) : State :=
  (bankChs h).foldl (fun s c =>
    let s := setSxtCh s c { sxtCh s c with bankOut := true }
    if s.slots then setChState s c 5 else s) s

/-- Bank b goes out at a tick boundary (rows 2 to 4). -/
def bankGoesOut (s : State) (b : Nat) (bad : List Nat) (fault : Bool) : State :=
  if (unit s 0 b).out then s
  else
    let h := (unit s 0 b).outPend
    let s := unitOut s 0 b fault
    let s := s.wset Reg.SXT_BANK_MAP.IN_SERVICE b false
    let s := raise s 73 b
    let spare := s.r Reg.SXT_BANK_MAP.SPARE_BANK
    let s := if spare = b then
        let s := match bankCarries s b with
          | some h => raise (bankChsOut s h) 74 b
          | none => s
        (s.w Reg.SXT_BANK_MAP.SPARE_BANK 0x1F).w Reg.SXT_BANK_MAP.SPARE_FOR 0x1F
      else if spare ≠ 0x1F ∧ s.r Reg.SXT_BANK_MAP.SPARE_FOR = 0x1F then
        let s := s.w Reg.SXT_BANK_MAP.SPARE_FOR b
        let s := (bankChs b).foldl (fun s c => s.w Reg.SXT_CH.PHYS_BANK spare c) s
        bad.foldl (fun s c => if c / 64 = b ∧ (sxtCh s c).found = true then chReacq s c else s) s
      else raise (bankChsOut s b) 74 b
    completeAll s h stOk

/-- Bank b rejoins as standby at a watch boundary (row 5). -/
def bankBack (b : Nat) (s : State) : State :=
  if s.ttu.pos = 0 ∧ unitMayJoin s 0 b = true then raise ((unitJoin s 0 b).w Reg.SXT_BANK_MAP.STANDBY b) 75 b else s

/-- Bank b takes back its channels at a watch boundary (row 6). -/
def bankRestored (b : Nat) (s : State) : State :=
  if s.ttu.pos ≠ 0 ∨ unitStable s 0 b = false then s
  else
    let s := unitInService s 0 b
    let s := (s.wset Reg.SXT_BANK_MAP.IN_SERVICE b true).w Reg.SXT_BANK_MAP.STANDBY 0x1F
    let s := if b = 16 then s.w Reg.SXT_BANK_MAP.SPARE_BANK 16
      else
        let s := if s.r Reg.SXT_BANK_MAP.SPARE_FOR = b then s.w Reg.SXT_BANK_MAP.SPARE_FOR 0x1F else s
        (bankChs b).foldl (fun s c =>
          let s := s.w Reg.SXT_CH.PHYS_BANK b c
          if (sxtCh s c).bankOut then
            let s := setSxtCh s c { sxtCh s c with bankOut := false }
            if s.slots then setChState s c 1 else s
          else s) s
    raise s 76 b

/-! ### Boundaries -/

/-- Band b's tick: gain, clipping and the jamming indicators. -/
def bandTick (b : Nat) (x : BandIn) (s : State) : State :=
  let s := jamTick b x (s.w Reg.SXT_BAND.AGC_GAIN x.agc b)
  if x.clip then raise (s.inc Reg.SXT_BAND.CLIP_COUNT b) 72 b else s

/-- Sextant at a tick boundary: in tick 0 of a watch the latch comes first (R116, R121, R125); then banks that go out, the
antenna with its measured bias current, and where the slot runs the notches and the enabled bands. -/
def sxtTick (ma : Nat) (bands : List BandIn) (s : State) : State :=
  let s := sxtRun s
  let s := if s.slots && s.ttu.pos == 0 then sxtLatch s else s
  let outs := s.sxt.bankOut
  let s := outs.foldl (fun s o => bankGoesOut s o.1 o.2.1 o.2.2) { s with sxt := { s.sxt with bankOut := [] } }
  let s := antTick ma s
  if !s.slots then s
  else
    iter (fun b s => match bands[b]? with
      | some x => if bandOn s b then bandTick b x s else s
      | none => s) 3 (notchTick bands s)

/-- The windows of the channels in REACQ run down; one that has ended returns its channel to the pool (R113 row 2). A part
of a watch counts as a whole one (log entry 68). -/
def reacqWatch (s : State) : State :=
  s.sxt.chans.foldl (fun s p =>
    if chState s p.1 = 4 then reacqExpire p.1 (setSxtCh s p.1 { p.2 with left := p.2.left - 1 }) else s) s

/-- Sextant at a watch boundary: banks that rejoin or take back their channels, the REACQ windows, and the allocation by the
satellites predicted where acquisition is aided (R104, R114). -/
def sxtWatch (ps : List Predicted) (s : State) : State :=
  let s := alive s (iter (fun b s => bankRestored b (bankBack b s)) 17)
  if !s.slots then s
  else
    let ps := if sxtAided s then ps else []
    let s := { s with sxt := { s.sxt with preds := ps } }
    sxtAllocate ps (reacqWatch s)

/-! ### The commands -/

def execSxtSlot (use : SlotUse) (x : SxtIn) (s : State) : Host.Outcome State Fault Refusal :=
  withOut s fun s => engines s (sxtSlot use x.corr x.meas)
def execAntShort (s : State) : Host.Outcome State Fault Refusal := withOut s fun s => notDead s antShort
def execAntRetry (s : State) : Host.Outcome State Fault Refusal := withOut s fun s => notDead s antRetry
def execAntOpen (s : State) : Host.Outcome State Fault Refusal := withOut s fun s => notDead s antOpen
def execAntOk (s : State) : Host.Outcome State Fault Refusal := withOut s fun s => notDead s antOk
def execAcqFound (ch : Fin 1024) (sig sv : Nat) (x : CarrierIn) (s : State) : Host.Outcome State Fault Refusal :=
  withOut s fun s => engines s (acqFound ch sig sv x.freqK x.dop)
def execChTrack (ch : Fin 1024) (s : State) : Host.Outcome State Fault Refusal :=
  withOut s fun s => engines s (chTrack ch)
def execChLockLoss (ch : Fin 1024) (s : State) : Host.Outcome State Fault Refusal :=
  withOut s fun s => engines s (chLockLoss ch)
def execReacqExpire (ch : Fin 1024) (s : State) : Host.Outcome State Fault Refusal :=
  withOut s fun s => engines s (reacqExpire ch)
def execNavUnitDone (ch : Fin 1024) (u : NavIn) (s : State) : Host.Outcome State Fault Refusal :=
  withOut s fun s => engines s (navUnit ch u)
def execNotchEngage (b : Fin 3) (bin : Int) (cyc : Nat) (s : State) : Host.Outcome State Fault Refusal :=
  withOutAt s (some (cycU cyc)) fun s => engines s (notchEngage b bin)
def execNotchRelease (b : Fin 3) (n : Fin 8) (s : State) : Host.Outcome State Fault Refusal :=
  withOut s fun s => engines s (notchRelease b n)
def execJamCalDone (b : Fin 3) (s : State) : Host.Outcome State Fault Refusal := withOut s fun s => engines s (jamCal b)
def execBankFault (b : Fin 17) (bad : List Nat) (s : State) : Host.Outcome State Fault Refusal :=
  withOut s fun s => alive s (bankFault b bad)
def execBankBack (b : Fin 17) (s : State) : Host.Outcome State Fault Refusal := withBoundary s fun s => alive s (bankBack b)
def execBankRestored (b : Fin 17) (s : State) : Host.Outcome State Fault Refusal :=
  withBoundary s fun s => alive s (bankRestored b)
def execBitSync (ch : Fin 1024) (d2 : Bool) (s : State) : Host.Outcome State Fault Refusal :=
  withOut s fun s => engines s (bitSync ch d2)
def execSecondaryCodeSync (ch : Fin 1024) (s : State) : Host.Outcome State Fault Refusal :=
  withOut s fun s => engines s (secondarySync ch)

end Sys2Proof.Machine
end

