-- ==== Sys2Proof/Machine/Obs.lean ====
section
/-! DEFINITION. Sys2Proof/Machine/Obs.lean: base observables, base position, navigation data in flash and RTCM output
(R128 to R144). -/

namespace Sys2Proof.Machine

open Sys2Proof

/-! ### The base position (R131 to R135) -/

def posState (s : State) : Nat := s.r Reg.OBS_POS_STATE.STATE

/-- OBS_POS_X, Y and Z show a position: their low words (the high words latch on a read, R143). -/
def posShow (s : State) (x y z : Int) : State :=
  let s := { s with obs := { s.obs with x := x, y := y, z := z } }
  ((s.w Reg.OBS_POS_X.LO (ofSigned 64 x)).w Reg.OBS_POS_Y.LO (ofSigned 64 y)).w Reg.OBS_POS_Z.LO (ofSigned 64 z)

/-- A survey or check starts from zero. -/
def countsClear (s : State) : State :=
  { s with obs := { s.obs with count := 0, sums := (0, 0, 0), squares := (0, 0, 0), slow := false } }

/-- The state becomes VALID with a source code (R131). -/
def posValid (s : State) (source : Nat) (x y z : Int) : State :=
  let was := posState s
  let s := posShow ((s.w Reg.OBS_POS_STATE.STATE 2).w Reg.OBS_POS_STATE.SOURCE source) x y z
  if was = 2 || s.mode == .shadow then s else raise s 96

/-- SURVEYING starts. -/
def surveyStart (s : State) : State :=
  let s := countsClear s
  let s := (s.w Reg.OBS_POS_STATE.STATE 1).w Reg.OBS_POS_STATE.SOURCE 0
  let s := (s.w Reg.OBS_POS_STATE.SURVEY_ELAPSED 0).w Reg.OBS_SURVEY_SIGMA.SIGMA_MM 0xFFFFFFFF
  if s.mode == .shadow then s else raise s 99

/-- Power-up with a stored position (row 2 of R131): the check of R133 is to run. -/
def obsPowerUp (s : State) : State :=
  match s.obs.stored with
  | some (x, y, z) =>
    let s := posValid s 1 x y z
    { s with obs := { s.obs with checking := true } }
  | none => s

/-- A joiner uses no position of its own (R135): until the lead's comes it reads NONE. -/
def obsJoin (s : State) : State :=
  let s := posShow ((s.w Reg.OBS_POS_STATE.STATE 0).w Reg.OBS_POS_STATE.SOURCE 0) 0 0 0
  let s := (s.wb Reg.OBS_POS_STATE.CHECK_DONE false).w Reg.OBS_POS_STATE.SURVEY_ELAPSED 0
  { s with obs := { s.obs with checking := false, next := none } }

/-- 6,300,000 and 6,400,000 m in 0.1 mm. -/
def posInRange (x y z : Int) : Bool :=
  let d := (x * x + y * y + z * z).toNat
  decide (63000000000 ^ 2 ≤ d) && decide (d ≤ 64000000000 ^ 2)

/-- OBS_SET_POS (R131 row 1, R136); a shadow changes its position at the same watch boundary as the lead (R135). -/
def obsSetPos (h : Handle) (x y z : Int) (store : Bool) (rsv : Nat) (s : State) : State :=
  if rsv ≠ 0 ∨ posInRange x y z = false then complete s h stPos
  else complete { s with obs := { s.obs with next := some (.set 2 x y z store) } } h stOk

/-- A change under rows 4 and 5 of R131 waits for the watch boundary; an accepted OBS_SET_POS prevails (row 1). -/
def posNext (s : State) (n : PosNext) : State :=
  match s.obs.next with
  | some (.set 2 _ _ _ _) => s
  | _ => { s with obs := { s.obs with next := some n } }

/-- A change of the position at a watch boundary (R131). A shadow changes with its lead, and raises nothing. -/
def obsPosChange (s : State) : State :=
  match s.obs.next with
  | none => s
  | some n =>
    let s := { s with obs := { s.obs with next := none } }
    match n with
    | .set source x y z store =>
      let s := if store && flashSpare s then { s with obs := { s.obs with stored := some (x, y, z) } } else s
      let s := { s with obs := { s.obs with checking := false } }
      let s := if s.mode == .shadow then s else if source = 2 then raise s 97 else raise s 100
      posValid s source x y z
    | .invalid =>
      let s := { s with obs := { s.obs with stored := none, checking := false } }
      surveyStart (if s.mode == .shadow then s else raise s 98)

/-- Ephemeris sets younger than 4 h are kept once time is known; older ones are discarded, their entries in flash with
them (R114, R138). -/
def ephJudge (s : State) : State :=
  if s.obs.judged then s
  else
    match gnssNow s with
    | none => s
    | some t =>
      let keep := s.obs.eph.filter fun p => ephYoung t p.2
      let stale := decide (keep.length < s.obs.eph.length)
      let old (m : List (Nat × EphSet)) := m.filter fun p => ephYoung t p.2
      let s := { s with obs := { s.obs with
        judged := true, eph := keep, flash := old s.obs.flash, flash2 := old s.obs.flash2 } }
      if stale then raise s 103 else s

/-- OBS at a watch boundary: a new position and new ephemeris sets come into use. -/
def obsWatch (s : State) : State :=
  let s := if s.slots then obsPosChange s else s
  let nx := s.obs.ephNext
  let s := nx.foldl (fun s p => { s with obs := { s.obs with
    eph := s.obs.eph.filter (fun q => q.1 != p.1) ++ [p] } }) { s with obs := { s.obs with ephNext := [] } }
  let s := ephJudge s
  s.w Reg.OBS_EPH.N_CURRENT (min s.obs.eph.length 255)

/-- Three sums with a position added, each axis transformed. -/
def addAxes (f : Int → Int) (a : Int × Int × Int) (x y z : Int) : Int × Int × Int :=
  (a.1 + f x, a.2.1 + f y, a.2.2 + f z)

/-- n (n − 1) times the variance times n: n Σx² − (Σx)². -/
def scatter (n : Nat) (sq sm : Int) : Nat := ((n : Int) * sq - sm * sm).toNat

/-- The largest axis scatter. -/
def maxScatter (s : State) : Nat :=
  let n := s.obs.count
  max (scatter n s.obs.squares.1 s.obs.sums.1)
    (max (scatter n s.obs.squares.2.1 s.obs.sums.2.1) (scatter n s.obs.squares.2.2 s.obs.sums.2.2))

/-- The standard deviation of the mean in mm, rounded up: √(scatter / (n² (n − 1))) / 10. -/
def surveySigma (s : State) : Nat :=
  let n := s.obs.count
  if n < 2 then 0xFFFFFFFF else min (ceilSqrtDiv (ceilDiv (maxScatter s) (n * n * (n - 1))) 10) 0xFFFFFFFF

/-- The standard deviation of the mean is at most SURVEY_ACC_MM in each axis (R132). -/
def surveyAccurate (s : State) : Bool :=
  let n := s.obs.count
  let acc := s.r Reg.OBS_SURVEY.SURVEY_ACC_MM * 10
  decide (2 ≤ n) && decide (maxScatter s ≤ acc * acc * (n * n * (n - 1)))

/-- SURVEY_S, at least 60. -/
def surveyS (s : State) : Nat := max 60 (s.r Reg.OBS_SURVEY.SURVEY_S)

/-- The mean position, to the nearest unit. -/
def meanOf (n : Nat) (v : Int) : Int := (2 * v + n) / (2 * n)

/-- An epoch's single-point position in the survey (R132). -/
def surveyEpoch (spp : Option (Int × Int × Int × Nat)) (s : State) : State :=
  match spp with
  | none => s
  | some (x, y, z, n) =>
    if n < 5 then s
    else
      let s := { s with obs := { s.obs with count := s.obs.count + 1, sums := addAxes id s.obs.sums x y z
                                            squares := addAxes (fun v => v * v) s.obs.squares x y z } }
      let s := (s.w Reg.OBS_POS_STATE.SURVEY_ELAPSED (min (s.obs.count / 10) 65535)).w Reg.OBS_SURVEY_SIGMA.SIGMA_MM (surveySigma s)
      if s.obs.count < 10 * surveyS s then s
      else if surveyAccurate s then
        let c := s.obs.count
        posNext s (.set 3 (meanOf c s.obs.sums.1) (meanOf c s.obs.sums.2.1) (meanOf c s.obs.sums.2.2) true)
      else if s.obs.slow then s
      else raise { s with obs := { s.obs with slow := true } } 101

/-- An epoch's single-point position in the check of a stored position; CHECK_M = 0 disables it (R133). -/
def checkEpoch (spp : Option (Int × Int × Int × Nat)) (s : State) : State :=
  match spp with
  | none => s
  | some (x, y, z, n) =>
    if n < 5 ∨ 100 ≤ s.obs.count ∨ s.r Reg.OBS_POS_CHECK.CHECK_M = 0 then s
    else { s with obs := { s.obs with count := s.obs.count + 1, sums := addAxes id s.obs.sums x y z } }

/-- After 100 counted epochs the average is held against the stored position (R133). -/
def obsPosCheck (s : State) : State :=
  if !s.obs.checking || decide (s.obs.count < 100) || s.mode == .shadow || s.r Reg.OBS_POS_CHECK.CHECK_M == 0 then s
  else
    let d (sum v : Int) := (sum - 100 * v) * (sum - 100 * v)
    let dist := (d s.obs.sums.1 s.obs.x + d s.obs.sums.2.1 s.obs.y + d s.obs.sums.2.2 s.obs.z).toNat
    let lim := s.r Reg.OBS_POS_CHECK.CHECK_M * 10000 * 100
    let s := { s with obs := { s.obs with checking := false } }
    if dist ≤ lim * lim then s.wb Reg.OBS_POS_STATE.CHECK_DONE true else posNext s .invalid

/-! ### The observable set (R128 to R130) -/

/-- A week in 2⁻²⁴ µs. -/
def weekUnits : Nat := 604800 * 1000000 * 2 ^ 24
def lightSpeed : Nat := 299792458

/-- The offset of a constellation's time from GPST in s: BeiDou time is 14 s behind it, GLONASS time is UTC plus 3 h, by the
leap seconds of ETH_UTC (PRESUMED, log entry 83). -/
def sysOffset (s : State) (g : Nat) : Int :=
  if sigConst g = 5 then -14 else if sigConst g = 1 then 10800 + 19 - (s.r Reg.ETH_UTC.UTC_OFFSET : Int) else 0

/-- The epoch of a record within the constellation's week, in 2⁻²⁴ µs: its TB1 stamp is GPST (R57, R116). -/
def epochWeek (s : State) (m : MeasRec) : Nat :=
  (((m.epoch : Int) * 256 / 1000 + sysOffset s m.sig * (1000000 * 2 ^ 24)) % (weekUnits : Int)).toNat

/-- One observable, with the clock offset (2⁻¹⁶ ns) removed from pseudorange and carrier where a solution gives it
(R129). -/
def observable (s : State) (corr : Bool) (off : Int) (m : MeasRec) : Observable :=
  let dt := (epochWeek s m + weekUnits - m.txTime) % weekUnits
  let o : Int := if corr then off * 256 / 1000 else 0
  let c : Int := if corr then off * sigFreq m.sig m.freqK * 65536 / 1000000000 else 0
  { ch := m.ch, sig := m.sig, sv := m.sv, freqK := m.freqK
    pr := (lightSpeed : Int) * ((dt : Int) - o), carrier := m.carrier - c, doppler := m.doppler, cn0 := m.cn0
    lockMs := if m.restart then 0 else m.lockMs, half := m.half, notch := m.notch, uncorr := !corr }

/-! ### The base time solution and the single-point position (R129, R132) -/

/-- The key of an observable's satellite. -/
def satKey (o : Observable) : Nat := 256 * sigConst o.sig + o.sv

/-- The ephemeris set of an observable's satellite. -/
def ephOf (s : State) (o : Observable) : Option EphSet := (s.obs.eph.find? (fun p => p.1 == satKey o)).map (·.2)

/-- The satellites a solution has: those with an observable and a current ephemeris set (DEDUCED, log entry 83). -/
def solSats (s : State) (os : List Observable) : List Nat :=
  ((os.filter fun o => (ephOf s o).isSome).map satKey).eraseDups

/-- The base time solution of a set: its satellites, RMS residual and clock offset. With a VALID base position it is of the
clock alone, otherwise of position and clock; fewer than 4 satellites give none. -/
def baseSol (s : State) (epoch : Nat) (os : List Observable) : Option (Nat × Nat × Int) :=
  let n := (solSats s os).length
  if n < 4 then none
  else
    let known := if posState s = 2 then some (s.obs.x, s.obs.y, s.obs.z) else none
    some (n, Config.baseSolution known epoch (os.filterMap fun o => (ephOf s o).map fun e => (e.params, o.sig, o.pr)))

/-- The code of a satellite in the single-point position: ionosphere-free where its observables are of two bands, which are
then the first two of them; otherwise its first code. -/
def satCode : List Observable → Int
  | [] => 0
  | o :: os =>
    match os.find? (fun p => sigBand p.sig != sigBand o.sig) with
    | some p =>
      let a := sigFreq o.sig o.freqK * sigFreq o.sig o.freqK
      let b := sigFreq p.sig p.freqK * sigFreq p.sig p.freqK
      (a * o.pr - b * p.pr) / (a - b)
    | none => o.pr

/-- The single-point position of a set, with its satellites (R132). -/
def pointPos (s : State) (epoch : Nat) (os : List Observable) : Option (Int × Int × Int × Nat) :=
  let ks := solSats s os
  if ks.isEmpty then none
  else
    let cs := ks.filterMap fun k =>
      (s.obs.eph.find? (fun p => p.1 == k)).map fun e => (e.2.params, satCode (os.filter fun o => satKey o == k))
    let p := Config.pointPosition epoch cs
    some (p.1, p.2.1, p.2.2, ks.length)

/-! ### The shadow's differences (R328) -/

/-- The whole cycle nearest to a difference in 2⁻³² cycle. -/
def nearestCycle (v : Int) : Int := (v + 2 ^ 31) / 2 ^ 32

/-- The entry of a satellite and signal. -/
def diffOf (ds : List ObsDiff) (o : Observable) : Option ObsDiff := ds.find? fun d => d.sig == o.sig && d.sv == o.sv

/-- The common terms of an epoch: the spec gives no estimator for them, so each signal's is a free value. -/
def drawTerms : List Nat → State → List (Nat × Int) × State
  | [], s => ([], s)
  | g :: gs, s =>
    let (v, s) := s.fresh
    let (ts, s) := drawTerms gs s
    ((g, toSigned 64 v) :: ts, s)

/-- One satellite and signal in both sets: its whole cycles, and the epochs in a row. -/
def diffOne (ds : List ObsDiff) (terms : List (Nat × Int)) (lead : ObsSet) (o : Observable) : Option ObsDiff :=
  match lead.obs.find? (fun l => l.sig == o.sig && l.sv == o.sv) with
  | none => none
  | some l =>
    let run : Nat := match diffOf ds o with
      | some d => if o.lockMs = 0 ∨ l.lockMs = 0 then 0 else d.run
      | none => 0
    some { sig := o.sig, sv := o.sv, run := min (run + 1) 10
           cycles := nearestCycle (o.carrier - l.carrier - mget 0 terms o.sig) }

/-- The lead's set of this epoch comes to the shadow: it is the set in use, and the shadow's own one is differenced
against it. -/
def obsLeadSet (lead : ObsSet) (s : State) : State :=
  let s : State := { s with obs := { s.obs with set := some lead } }
  match s.obs.own with
  | none => s
  | some own =>
    if own.tick ≠ lead.tick then s
    else
      let (terms, s) := drawTerms (own.obs.map (·.sig)).eraseDups s
      let ds := own.obs.filterMap (diffOne s.obs.diffs terms lead)
      { s with obs := { s.obs with own := none, diffs := ds, terms := terms } }

/-- An observable of a module that holds differences, on the lead's carrier; in the first set of a new lead one whose
difference was not established in each of the last 10 epochs carries LOCK_RESTART. -/
def diffApply (ds : List ObsDiff) (terms : List (Nat × Int)) (first : Bool) (o : Observable) : Observable :=
  match diffOf ds o with
  | some d =>
    if o.lockMs = 0 then o
    else { o with carrier := o.carrier - d.cycles * 2 ^ 32 - mget 0 terms o.sig
                  lockMs := if first && decide (d.run < 10) then 0 else o.lockMs }
  | none => { o with lockMs := if first then 0 else o.lockMs }

/-- A difference lasts while its observable is there without a restart. -/
def diffKeep (ds : List ObsDiff) (st : ObsSet) : List ObsDiff :=
  ds.filter fun d => st.obs.any fun o => o.sig == d.sig && o.sv == d.sv && o.lockMs != 0

/-- An epoch left undifferenced ends every run of epochs (R328). -/
def runsEnd (s : State) : State :=
  { s with obs := { s.obs with diffs := s.obs.diffs.map fun (d : ObsDiff) => { d with run := 0 } } }

/-- A set of this module comes into use, differences applied. -/
def obsOwnSet (st : ObsSet) (s : State) : State :=
  let o := s.obs
  let used : ObsSet := { st with obs := st.obs.map (diffApply o.diffs o.terms o.first) }
  { s with obs := { o with set := some used, diffs := diffKeep o.diffs st, first := false, own := none } }

/-- A shadow IN_SYNC keeps its own set until the lead's comes; an epoch left undifferenced ends every run. -/
def obsShadowSet (st : ObsSet) (s : State) : State :=
  let s := if s.obs.own.isSome then runsEnd s else s
  { s with obs := { s.obs with own := some st } }

/-! ### RTCM (R139 to R142) -/

/-- The MSM signal ID of signal g (R140). -/
def msmSig (g : Nat) : Nat := [2, 31, 16, 23, 2, 23, 15, 8, 2, 31, 23, 8, 2, 8, 2, 16, 23, 2].getD g 0

/-- MSM numbers in ascending order with the constellation of each, and its bit of MSM_EN. -/
def msmOrder : List (Nat × Nat) := [(1077, 0), (1087, 1), (1097, 2), (1107, 3), (1117, 4), (1127, 5)]

/-- One frame: preamble, 10-bit length, message, CRC-24Q (R142). -/
def rtcmFrame (body : List Byte) : List Byte :=
  let hd := le 1 0xD3 ++ be 2 (body.length % 1024) ++ body
  hd ++ be 3 (crc24q hd)

/-- Satellites of a constellation's cells, in order. -/
def cellSats (cs : List Observable) : List Nat := (cs.map (·.sv)).eraseDups

/-- Satellites by message, so that no message holds more than 64 cells (R141). -/
def msmSplit (cs : List Observable) : List Nat → List Observable → List (List Observable)
  | [], cur => if cur.isEmpty then [] else [cur]
  | v :: vs, cur =>
    let mine := cs.filter (fun o => o.sv == v)
    if cur.length + mine.length ≤ 64 then msmSplit cs vs (cur ++ mine)
    else cur :: msmSplit cs vs mine

/-- The fields of an MSM7 message (R141), for the encoding of RTCM 10403.3, which stands outside the spec. The external
clock bit of a time follower goes by its master's source, so that both modules form the same frames (R142). -/
def msmFields (s : State) (st : ObsSet) (more : Bool) (cs : List Observable) : List Int :=
  [(s.r Reg.OBS_STATION.STATION_ID : Int), st.epoch, b2n more, b2n st.corr,
    b2n ((ttuState s == 1 || ttuState s == 2) && (if s.twn.follows then s.twn.mSrc else s.r Reg.TTU_TIME_STATE.SRC) == 1), 0]
  ++ cs.flatMap fun o => [(o.sv : Int), msmSig o.sig, o.pr, o.carrier, o.doppler, o.cn0, o.lockMs, b2n o.half,
    toSigned 8 o.freqK + 7]

/-- The MSM bodies of an epoch, as (message, cells). -/
def msmList (s : State) (st : ObsSet) : List (Nat × List Observable) :=
  msmOrder.flatMap fun m =>
    if bitAt (s.r Reg.OBS_CTRL.MSM_EN) m.2 then
      let cs := st.obs.filter fun o => sigConst o.sig == m.2
      (msmSplit cs (cellSats cs) []).map fun g => (m.1, g)
    else []

/-- A message sent every n seconds (0: never) is due in this epoch. -/
def rtcmDue (s : State) (n : Nat) : Bool := n != 0 && s.obs.epochs % (10 * n) == 0

/-- A string of OBS_DESC: n bytes from byte k, up to its first 0x00 (R143). -/
def descString (s : State) (k n : Nat) : List Int :=
  let byte (i : Nat) : Nat := match i % 4 with
    | 0 => s.r Reg.OBS_DESC.B0 (i / 4) | 1 => s.r Reg.OBS_DESC.B1 (i / 4)
    | 2 => s.r Reg.OBS_DESC.B2 (i / 4) | _ => s.r Reg.OBS_DESC.B3 (i / 4)
  (((List.range n).map fun i => byte (k + i)).takeWhile (fun b => b != 0)).map fun b => (b : Int)

/-- The receiver type of message 1033 in ASCII: DUGAOL MBASOR 7160 (R142). -/
def receiverType : List Int := [68, 85, 71, 65, 79, 76, 32, 77, 66, 65, 83, 79, 82, 32, 55, 49, 54, 48]

/-- A string as a field of a message: its length, then its bytes. -/
def strField (bs : List Int) : List Int := (bs.length : Int) :: bs

/-- The fields of message 1033: antenna descriptor, setup ID, antenna serial number, receiver type, firmware version and
the fused serial number (R142, R143). -/
def descFields (s : State) : List Int :=
  (s.r Reg.OBS_STATION.STATION_ID : Int) :: (strField (descString s 0 31) ++ [(s.r Reg.OBS_DESC.B3 7 : Int)]
    ++ strField (descString s 32 31) ++ strField receiverType
    ++ [(s.r Reg.HST_ID_FW.FW_VERSION : Int), s.r Reg.HST_ID_SERIAL.SERIAL_LO + 2 ^ 32 * s.r Reg.HST_ID_SERIAL.SERIAL_HI])

/-- The frames of an epoch: MSM by ascending number, 1005 or 1006, 1230, 1033 (R142). -/
def rtcmFrames (s : State) (st : ObsSet) : List (List Byte) :=
  if posState s ≠ 2 ∨ s.rb Reg.OBS_CTRL.RTCM_EN = false then []
  else
    let enc (n : Nat) (fs : List Int) := rtcmFrame (Config.rtcmBody n fs)
    let nw := clampN 1 10 (s.r Reg.OBS_RATES.MSM_WATCHES)
    let ms := if s.obs.epochs % nw = 0 then msmList s st else []
    let msm := (List.range ms.length).filterMap fun i => ms[i]?.map fun m =>
      enc m.1 (msmFields s st (decide (i + 1 < ms.length)) m.2)
    let arp := if rtcmDue s (s.r Reg.OBS_RATES.ARP_S) then
        let base : List Int := [s.r Reg.OBS_STATION.STATION_ID, s.r Reg.OBS_STATION.ITRF_YEAR, s.obs.x, s.obs.y, s.obs.z]
        if s.rb Reg.OBS_CTRL.ARP_MSG then [enc 1006 (base ++ [(s.r Reg.OBS_ANT_HEIGHT.HEIGHT : Int)])] else [enc 1005 base]
      else []
    let bias := if rtcmDue s (s.r Reg.OBS_RATES.BIAS_S) && bitAt (s.r Reg.OBS_CTRL.MSM_EN) 1 then
        [enc 1230 [s.r Reg.OBS_STATION.STATION_ID, 0, s.ri Reg.OBS_GLO_BIAS.L1CA_BIAS, s.ri Reg.OBS_GLO_BIAS.L2CA_BIAS]]
      else []
    let desc := if rtcmDue s (s.r Reg.OBS_RATES.DESC_S) then
        [enc 1033 (descFields s)]
      else []
    msm ++ arp ++ bias ++ desc

/-- The lead's set at the shadow, with the RTCM frames of its epoch. -/
def obsLeadTake (lead : ObsSet) (s : State) : State :=
  let s := obsLeadSet lead s
  { s with obs := { s.obs with rtcm := rtcmFrames s lead } }

/-- The differences of a claimant go into its first set; any other new lead holds none (R328). -/
def obsClaim (shadow : Bool) (s : State) : State :=
  if shadow then
    let s := if s.obs.own.isSome then runsEnd s else s
    { s with obs := { s.obs with first := true, own := none } }
  else { s with obs := { s.obs with first := false, diffs := [], terms := [], own := none } }

/-- Queue the frames formed in the last watch; none while the base position is not VALID (R134). -/
def rtcmQueue (s : State) : State :=
  let fs := if posState s = 2 then s.obs.rtcm else []
  fs.foldl (fun s f => cplPut (s.inc Reg.OBS_RTCM_COUNT.FRAMES) 131 f) { s with obs := { s.obs with rtcm := [] } }

/-- The OBS slot of tick 0 (R128 to R133, R142). -/
def obsSlot (use : SlotUse) (o : ObsIn) (s : State) : State :=
  let s := slotEnd s 2 use
  if s.mode == .dead then s
  else
    let s := rtcmQueue s
    let recs := s.sxt.recs
    let epoch := match recs.head? with
      | some m => m.epoch
      | none => s.tb1 0
    let used := recs.filter fun m => !m.towUnk
    let raw := used.map (observable s false 0)
    let sol := baseSol s epoch raw
    let spp := pointPos s epoch raw
    let corr := sol.isSome
    let st : ObsSet := { tick := s.tick, epoch := epoch, corr := corr
                         obs := used.map (observable s corr ((sol.map fun f => f.2.2).getD 0)), drift := o.drift }
    let s := { s with
      sxt := { s.sxt with recs := [] }
      obs := { s.obs with epochs := s.obs.epochs + 1 }
      ttu := if corr then { s.ttu with gnssSol := sol, gnssNew := true, gnssSlew := s.ttu.slewSum } else s.ttu }
    let s := (s.w Reg.OBS_EPOCH_STATUS.N_OBS st.obs.length).wb Reg.OBS_EPOCH_STATUS.CLK_CORR corr
    let s := if recs.isEmpty then raise s 102 else s
    if s.mode == .shadow && s.inSync then obsShadowSet st s
    else
    let s := obsOwnSet st (if s.mode == .shadow then runsEnd s else s)
    let s := match s.obs.set with
      | some used => { s with obs := { s.obs with rtcm := rtcmFrames s used } }
      | none => s
    if s.mode == .shadow then s
    else if posState s = 1 then surveyEpoch spp s
    else if posState s = 0 then (if corr then surveyStart s else s)
    else if s.obs.checking then obsPosCheck (checkEpoch spp s)
    else s

/-- OBS stops or starts running its slot: a check or survey in progress starts again (R134). -/
def obsRun (s : State) : State :=
  if s.slots = s.obs.ran then s
  else
    let s := { s with obs := { s.obs with ran := s.slots } }
    if s.slots then
      let s := countsClear s
      if posState s = 1 then (s.w Reg.OBS_POS_STATE.SURVEY_ELAPSED 0).w Reg.OBS_SURVEY_SIGMA.SIGMA_MM 0xFFFFFFFF else s
    else s

/-! ### Ephemerides in flash (R138) -/

/-- The entry of a satellite in a copy of the store. -/
def ephPut (m : List (Nat × EphSet)) (sat : Nat) (e : EphSet) : List (Nat × EphSet) :=
  m.filter (fun p => p.1 != sat) ++ [(sat, e)]

/-- The second copies still owed are written. -/
def ephSecond (s : State) : State :=
  let owed := s.obs.half
  { s with obs := { s.obs with
      half := []
      flash2 := owed.foldl (fun m sat => match s.obs.flash.find? (fun p => p.1 == sat) with
        | some (_, e) => ephPut m sat e
        | none => m) s.obs.flash2 } }

/-- A satellite's current set goes to flash, no more than once every 6,000 watches: the first copy now, the second with
the next write or in the next background window, so that one copy of the entry is whole at any time. -/
def ephStore (sat : Nat) (s : State) : State :=
  match s.obs.eph.find? (fun p => p.1 == sat) with
  | none => s
  | some (_, e) =>
    let recent := s.obs.ephAt.any fun p => p.1 == sat && decide ((s.tick : Int) < p.2 + 600000)
    if recent then s
    else
      let s := ephSecond s
      { s with obs := { s.obs with flash := ephPut s.obs.flash sat e, half := [sat]
                                   ephAt := s.obs.ephAt.filter (fun p => p.1 != sat) ++ [(sat, (s.tick : Int))] } }

/-- At power-up every entry is loaded, from its first copy or else its second; its age is judged once time is known. -/
def ephLoad (s : State) : State :=
  let second := s.obs.flash2.filter fun p => !s.obs.flash.any (fun q => q.1 == p.1)
  let s := { s with obs := { s.obs with eph := s.obs.flash ++ second, judged := false } }
  s.w Reg.OBS_EPH.N_LOADED (min s.obs.eph.length 255)

/-- A read of a low word of OBS_POS_X, Y or Z. -/
def obsPosLoRead (axis : Nat) (s : State) : State :=
  let v := ofSigned 64 (match axis with | 0 => s.obs.x | 1 => s.obs.y | _ => s.obs.z)
  let f := match axis with | 0 => Reg.OBS_POS_X.HI | 1 => Reg.OBS_POS_Y.HI | _ => Reg.OBS_POS_Z.HI
  (s.w f (v / 2 ^ 32)).emit (.readData (v % 2 ^ 32))

/-! ### The commands -/

def execObsSetPos (h : Handle) (x y z : Int) (store : Bool) (rsv : Nat) (s : State) : Host.Outcome State Fault Refusal :=
  withOut s (ringOp leadModes h (descOf (.obsSetPos h x y z store rsv)) (obsSetPos h x y z store rsv))
def execObsSlot (use : SlotUse) (o : ObsIn) (s : State) : Host.Outcome State Fault Refusal :=
  withOut s fun s => engines s fun s => if s.ttu.pos = 0 then obsSlot use o s else s
def execObsPosCheck (s : State) : Host.Outcome State Fault Refusal := withOut s fun s => engines s obsPosCheck
def execObsPosLoRead (axis : Fin 3) (s : State) : Host.Outcome State Fault Refusal :=
  withOut s (latchRead (obsPosLoRead axis))
def execEphStore (sat : Nat) (s : State) : Host.Outcome State Fault Refusal := withOut s fun s => alive s (ephStore sat)

end Sys2Proof.Machine
end

