-- ==== Sys2Proof/Machine/Geom.lean ====
section
/-! DEFINITION. Sys2Proof/Machine/Geom.lean: the field frame and the plane geometry of footprints, in exact integer
arithmetic (R183, R184, R193, R521). -/

namespace Sys2Proof.Machine

open Sys2Proof

/-! ### The field frame (R183) -/

/-- Scale of sines and cosines. -/
def trigS : Nat := 2 ^ 64
/-- WGS 84 (PRESUMED, log entry 9): semi-major axis in 0.1 mm, and e² = wgsE / wgsF. -/
def wgsA : Nat := 63781370000
def wgsE : Nat := 2 * 298257223563 * 10 ^ 9 - 10 ^ 18
def wgsF : Nat := 298257223563 ^ 2

/-- Sine and cosine of the geodetic latitude, refined n times from the ones given: p and z scaled by 2³². -/
def latIter (p : Nat) (z : Int) : Nat → Int × Int → Int × Int
  | 0, sc => sc
  | n + 1, sc =>
    let w : Nat := isqrt (trigS * trigS - (sc.1 * sc.1).toNat * wgsE / wgsF)
    let nn : Nat := wgsA * 2 ^ 32 * trigS / (max w 1)
    let num := z + (wgsE : Int) * (nn : Int) * sc.1 / ((wgsF : Int) * trigS)
    let norm := max (isqrt ((num * num).toNat + p * p)) 1
    latIter p z n (num * trigS / norm, ((p * trigS / norm : Nat) : Int))

/-- sin φ, cos φ, sin λ, cos λ of an ECEF point, scaled by 2⁶⁴. -/
def fieldAxes (o : Int × Int × Int) : Int × Int × Int × Int :=
  let (x, y, z) := o
  let p := isqrt ((x * x + y * y).toNat * 2 ^ 64)
  let z' := z * 2 ^ 32
  let norm := max (isqrt ((z' * z').toNat + p * p)) 1
  let sc := latIter p z' 20 (z' * trigS / norm, ((p * trigS / norm : Nat) : Int))
  if p = 0 then (sc.1, sc.2, 0, trigS)
  else (sc.1, sc.2, y * 2 ^ 32 * trigS / p, x * 2 ^ 32 * trigS / p)

/-- v / d to the nearest whole number. -/
def roundDiv (v : Int) (d : Nat) : Int := (2 * v + d) / (2 * d)

/-- East, north and up of a point in mm (R183). -/
def fieldFrame (o p : Int × Int × Int) : Int × Int × Int :=
  let (sp, cp, sl, cl) := fieldAxes o
  let dx := p.1 - o.1
  let dy := p.2.1 - o.2.1
  let dz := p.2.2 - o.2.2
  (roundDiv (-sl * dx + cl * dy) (10 * trigS),
   roundDiv (-sp * cl * dx - sp * sl * dy + cp * dz * trigS) (10 * trigS * trigS),
   roundDiv (cp * cl * dx + cp * sl * dy + sp * dz * trigS) (10 * trigS * trigS))

/-! ### Distances -/

/-- A point of the plane in mm. -/
abbrev Pt := Int × Int

/-- A squared distance as a fraction. -/
abbrev Dist2 := Nat × Nat

def Dist2.le (a b : Dist2) : Bool := decide (a.1 * b.2 ≤ b.1 * a.2)
def Dist2.min (a b : Dist2) : Dist2 := if Dist2.le a b then a else b
/-- Whole millimetres, rounded down. -/
def Dist2.floor (d : Dist2) : Nat := isqrt (d.1 / d.2)
/-- To the nearest millimetre. -/
def Dist2.round (d : Dist2) : Nat := (isqrt (4 * d.1 / d.2) + 1) / 2
/-- In 2⁻²⁰ mm, rounded down. -/
def Dist2.fine (d : Dist2) : Nat := isqrt (d.1 * 2 ^ 40 / d.2)
/-- Twice the distance exceeds l. -/
def Dist2.twiceOver (d : Dist2) (l : Nat) : Bool := decide (l * l * d.2 < 4 * d.1)

def sqLen (a b : Pt) : Nat := ((a.1 - b.1) * (a.1 - b.1) + (a.2 - b.2) * (a.2 - b.2)).toNat

/-- Distance of p from the centreline a–b. -/
def pointDist (p a b : Pt) : Dist2 :=
  let vv := sqLen a b
  let t := (p.1 - a.1) * (b.1 - a.1) + (p.2 - a.2) * (b.2 - a.2)
  if vv = 0 ∨ t ≤ 0 then (sqLen p a, 1)
  else if (vv : Int) ≤ t then (sqLen p b, 1)
  else
    let c := (p.1 - a.1) * (b.2 - a.2) - (p.2 - a.2) * (b.1 - a.1)
    ((c * c).toNat, vv)

/-- On which side of a–b the point c lies. -/
def side (a b c : Pt) : Int := (b.1 - a.1) * (c.2 - a.2) - (b.2 - a.2) * (c.1 - a.1)

/-- The centrelines cross properly. -/
def crosses (a b c d : Pt) : Bool :=
  let o1 := side a b c
  let o2 := side a b d
  let o3 := side c d a
  let o4 := side c d b
  decide ((o1 < 0 ∧ 0 < o2) ∨ (o2 < 0 ∧ 0 < o1)) && decide ((o3 < 0 ∧ 0 < o4) ∨ (o4 < 0 ∧ 0 < o3))

/-- Distance between two centrelines. -/
def segDist (a b c d : Pt) : Dist2 :=
  if crosses a b c d then (0, 1)
  else Dist2.min (Dist2.min (pointDist a c d) (pointDist b c d)) (Dist2.min (pointDist c a b) (pointDist d a b))

/-! ### Buckets (R521) -/

/-- Distance of the centreline a–b from the bucket (i, j). -/
def bucketDist (a b : Pt) (i j : Int) : Dist2 :=
  let x0 := i * 32000
  let x1 := x0 + 32000
  let y0 := j * 32000
  let y1 := y0 + 32000
  if x0 ≤ a.1 ∧ a.1 ≤ x1 ∧ y0 ≤ a.2 ∧ a.2 ≤ y1 then (0, 1)
  else
    Dist2.min (Dist2.min (segDist a b (x0, y0) (x1, y0)) (segDist a b (x0, y1) (x1, y1)))
      (Dist2.min (segDist a b (x0, y0) (x0, y1)) (segDist a b (x1, y0) (x1, y1)))

/-- The integers from lo to hi. -/
def intRange (lo hi : Int) : List Int := (List.range (hi - lo + 1).toNat).map fun k => lo + k

/-- The buckets a centreline touches with twice the reach given. -/
def bucketsOf (a b : Pt) (reach2 : Nat) : List (Int × Int) :=
  let r : Int := reach2 / 2 + 2
  let is := intRange ((min a.1 b.1 - r) / 32000) ((max a.1 b.1 + r) / 32000)
  let js := intRange ((min a.2 b.2 - r) / 32000) ((max a.2 b.2 + r) / 32000)
  is.flatMap fun i => (js.filter fun j => decide (2 * (bucketDist a b i j).floor ≤ reach2)).map fun j => (i, j)

/-- Along-track distance from a to the foot of p on a–b, in mm, held within the segment. -/
def alongTrack (p a b : Pt) : Nat :=
  let l := isqrt (sqLen a b)
  let t := (p.1 - a.1) * (b.1 - a.1) + (p.2 - a.2) * (b.2 - a.2)
  if t ≤ 0 ∨ l = 0 then 0 else min l (t.toNat / l)

end Sys2Proof.Machine
end

