-- ==== Sys2Proof/Machine/Air.lean ====
section
/-! DEFINITION. Sys2Proof/Machine/Air.lean: what goes on the air: frames and their tags, the planned elements of a tick,
what a stop burst does to them, and the airtime limits (R269 to R275, R281, R288 to R290, R296, R298, R300). -/

namespace Sys2Proof.Machine

open Sys2Proof

/-- One OFDM symbol, 14.4 µs, in time-counter cycles (R269). -/
def symCyc : Nat := 3600

/-- Cycles of a stop burst of n frames: a preamble and ⌈32 n / 28⌉ data symbols (R255). -/
def burstCyc (n : Nat) : Nat := (1 + ceilDiv (32 * n) 28) * symCyc

/-- Data bytes per symbol at an MCS (R270). -/
def dataBytes : Nat → Nat
  | 0 => 14 | 1 => 28 | 2 => 42 | 3 => 56 | 4 => 84 | 5 => 112 | 6 => 126 | 7 => 140 | _ => 168

/-- Payload capacity of a slot frame (R285). -/
def slotCap (mcs : Nat) : Nat := 5 * dataBytes mcs - 32

/-- Profile EU. -/
def profileEu (s : State) : Bool := s.r Reg.LUV_CFG.PROFILE == 0

/-- Conducted power of a high-band transceiver in 0.5 dBm: the lesser of TX_DBM, 24 dBm and the profile limit less
ANT_GAIN (R271). -/
def hbPower (s : State) (hb : Nat) : Int :=
  let gain := s.ri Reg.LUV_HB.ANT_GAIN hb
  let limit : Int := if profileEu s then 60 - gain else 72 - gain
  min (min (2 * (s.r Reg.LUV_HB.TX_DBM hb : Int)) 48) limit

/-- Power of the lantern link in dBm: the lesser of L_TX_DBM and the profile limit (R271). -/
def lanternPower (s : State) : Int := min (s.r Reg.LUV_LANTERN.L_TX_DBM : Int) (if profileEu s then 27 else 30)

/-- The hop channel of the lantern link (R290). -/
def lanternChan (s : State) : Option Nat :=
  if profileEu s then none
  else
    let m := s.r Reg.LUV_LANTERN.HOP_MUL
    some (((if m % 2 = 0 then m + 1 else m) * (s.tick / 10) + s.r Reg.LUV_LANTERN.HOP_ADD) % 64)

/-- The transceiver is in service: active, in a mode that sends (R2, R291). One that runs its stable period as standby sends
nothing, stop bursts included (DESIGN CHOICE, log entry 80). -/
def hbActive (s : State) (hb : Nat) : Bool :=
  s.r Reg.LUV_HB_STATUS.ROLE hb == 1 && s.mode != .boot && s.mode != .dead

/-- The present tick is blocked on a transceiver (R273). -/
def hbBlocked (s : State) (hb : Nat) : Bool := profileEu s && mget false s.luv.busy hb

/-! ### Frames and tags (R252, R281, R296, R298) -/

/-- A nonce from its 12 bytes. -/
def nonceOf (b : List Byte) : Nat := leNat b

/-- The link session keys of rover r can be used (R461, R462). -/
def linkKeys (s : State) (r : Nat) : Bool := s.kvt.volatile && !s.kvt.redo.contains (.link r)

/-- The key epoch in force. -/
def keyEpoch (s : State) : Nat := s.r Reg.KVT_KEYS.KEY_EPOCH

/-- The fleet key of key epoch e: the active one, or for another epoch that of the previous one (R451). -/
def fleetKey (s : State) (e : Nat) : List Byte := if e = keyEpoch s then s.kvt.fk else s.kvt.fkOld

/-- The tag under the group session key of epoch e, over data in clear (R296). -/
def groupTag (s : State) (e nonce : Nat) (data : List Byte) : Nat := gcmTag (keyGroup (fleetKey s e) e) nonce data []

/-- A stop frame (R252, R298). -/
def stopBytes (s : State) (f : StopFrame) : List Byte :=
  let kind := if f.rover.isNone then 0x51 else 0x52
  let rover := f.rover.getD 255
  let b := le 1 kind ++ le 1 rover ++ le 1 f.epoch ++ le 1 0 ++ le 8 f.tick ++ le 4 0
  b ++ le 16 (groupTag s f.epoch (nonceOf (le 1 6 ++ le 1 kind ++ le 1 rover ++ le 1 0 ++ le 8 f.tick)) b)

/-- The header of R281. -/
def frameHeader (s : State) (kind rover seq len : Nat) : List Byte :=
  le 1 kind ++ le 1 rover ++ le 1 0x10 ++ le 1 (keyEpoch s) ++ le 6 seq ++ le 2 len ++ le 4 0

/-- A frame under the group key: header, payload and tag, in clear. -/
def groupFrame (s : State) (hb kind seq : Nat) (payload : List Byte) : List Byte :=
  let b := frameHeader s kind 255 seq payload.length ++ payload
  b ++ le 16 (groupTag s (keyEpoch s) (nonceOf (le 1 4 ++ le 1 hb ++ le 4 0 ++ le 6 seq)) b)

/-- A frame under the link key of a rover: header, encrypted payload and tag; the domain byte is 2 for a downlink frame
and 3 for a bulk frame. -/
def linkFrame (s : State) (dom kind rover seq : Nat) (payload : List Byte) : List Byte :=
  let hd := frameHeader s kind rover seq payload.length
  let n := nonceOf (le 1 dom ++ le 1 rover ++ le 4 0 ++ le 6 seq)
  let k := keySession s.kvt.fk rover (keyEpoch s)
  hd ++ gcmCipher k n payload ++ le 16 (gcmTag k n hd payload)

/-- A frame goes out under the epoch in force: the first one raises SEC_KEY_SWITCH (R315). -/
def secSent (s : State) : State :=
  if s.sec.switch then raise { s with sec := { s.sec with switch := false } } 358 else s

/-! ### Group SEQ (R300) -/

def groupSeq (s : State) (hb : Nat) : Nat := s.r Reg.SEC_GSEQ.GSEQ_LO hb + 2 ^ 32 * s.r Reg.SEC_GSEQ.GSEQ_HI hb
def setGroupSeq (s : State) (hb v : Nat) : State :=
  (s.w Reg.SEC_GSEQ.GSEQ_LO v hb).w Reg.SEC_GSEQ.GSEQ_HI (v / 2 ^ 32) hb

/-- The next group SEQ of a transceiver. -/
def nextGroupSeq (s : State) (hb : Nat) : Nat × State :=
  let v := groupSeq s hb + 1
  (v, reflect (setGroupSeq s hb v) (.groupSeq hb v))

/-! ### The planned elements of a tick (R274, R275) -/

def hbPlan (s : State) (hb : Nat) : List LuvEl := mget ([] : List LuvEl) s.luv.plan hb
def setPlan (s : State) (hb : Nat) (p : List LuvEl) : State :=
  { s with luv := { s.luv with plan := mput ([] : List LuvEl) s.luv.plan hb p } }

/-- Symbols of an element (R275; slot frames R274). -/
def elSyms : ElKind → Nat
  | .beacon => 2 | .copy => 2 | .ack => 5 | .notice => 3 | .downlink => 6 | .bulk => 6

def isHead (k : ElKind) : Bool := k != .downlink && k != .bulk

/-- The entry of slot j in the ACK of this tick (R283). -/
def ackEntry (s : State) (hb j : Nat) : List Byte :=
  match s.luv.acks.find? (fun a => a.1 + 1 == s.tick && a.2.1 == hb && a.2.2.1 == j) with
  | some (_, _, _, rover, result, seq) => le 1 rover ++ le 1 result ++ le 6 seq
  | none => le 1 255 ++ le 7 0

/-- The payload of a channel notice (R284). -/
def noticePayload (s : State) : List Byte :=
  le 2 (s.r Reg.LUV_HB_STATUS.CUR_MHZ 0) ++ le 2 (s.r Reg.LUV_HB_STATUS.CUR_MHZ 1)
    ++ le 1 (b2n (s.r Reg.LUV_HB_STATUS.ROLE 0 == 1) + 2 * b2n (s.r Reg.LUV_HB_STATUS.ROLE 1 == 1)) ++ le 3 0

/-- An element begins: an ACK or notice is assembled and takes its group SEQ. -/
def elBegin (hb : Nat) (s : State) (e : LuvEl) : LuvEl × State :=
  match e.kind with
  | .ack =>
    let (q, s) := nextGroupSeq s hb
    let p := (List.range 7).flatMap (ackEntry s hb)
    ({ e with begun := true, frame := groupFrame s hb 0x31 q p }, secSent s)
  | .notice =>
    let (q, s) := nextGroupSeq s hb
    ({ e with begun := true, frame := groupFrame s hb 0x32 q (noticePayload s) }, secSent s)
  | _ => ({ e with begun := true }, s)

/-- Segments of rover r wait for the downlink; the first n have been sent. -/
def segsSent (s : State) (r n : Nat) : State :=
  let v := mget ({} : ChtRover) s.cht.rovers r
  { s with cht := { s.cht with rovers := mput ({} : ChtRover) s.cht.rovers r { v with dl := v.dl.drop n } } }

/-- The first frame with the segments of a new grant has been sent: bulk slots may carry on. -/
def grantBegun (s : State) (r : Nat) : State :=
  let v := mget ({} : ChtRover) s.cht.rovers r
  { s with cht := { s.cht with rovers := mput ({} : ChtRover) s.cht.rovers r { v with dlNew := false } } }

/-- An element has ended: the lead has sent it; its segments leave the pending ones. The shadow's output is muted (R30). -/
def elEnd (hb : Nat) (s : State) (e : LuvEl) : State :=
  let s := match e.kind with
    | .downlink => grantBegun (segsSent s e.rover e.take) e.rover
    | .bulk => segsSent s e.rover e.take
    | _ => s
  if s.leading then s.emit (.air hb e.start e.mcs (hbPower s hb) e.frame) else s

/-- An ACK or notice that cannot be tagged when it begins is not sent (R31). -/
def elKeyless (s : State) (e : LuvEl) : Bool := (e.kind == .ack || e.kind == .notice) && !e.begun && !s.kvt.gs

/-- The elements that have begun or ended by a cycle. -/
def elsUpTo (hb t : Nat) : List LuvEl → State → List LuvEl × State
  | [], s => ([], s)
  | e :: es, s =>
    if e.start < t && elKeyless s e then elsUpTo hb t es s
    else
    let i := s.inst
    let (e, s) := if e.start < t && !e.begun then elBegin hb (s.atInst (some (cycU e.start))) e else (e, s)
    let s := s.atInst i
    if e.begun && decide (e.stop ≤ t) then elsUpTo hb t es (elEnd hb s e)
    else
      let (es, s) := elsUpTo hb t es s
      (e :: es, s)

/-- The plan of a transceiver up to a cycle of the tick. -/
def luvFlush (s : State) (hb t : Nat) : State :=
  let (es, s) := elsUpTo hb t (hbPlan s hb) s
  setPlan s hb es

/-- Head elements placed one after the other from a cycle on; what cannot end by the end of symbol 12, and all after
it, is not sent (R275). -/
def headLay : List LuvEl → Nat → List LuvEl
  | [], _ => []
  | e :: es, t =>
    let a := max (ceilDiv t symCyc) (e.start / symCyc)
    let b := a + elSyms e.kind
    if 13 < b then [] else { e with start := a * symCyc, stop := b * symCyc } :: headLay es (b * symCyc)

/-- A frame of the data path has been cut or blocked (R288): the counter, and row 3 for a downlink frame. -/
def preempted (s : State) (hb : Nat) (e : LuvEl) : State :=
  let s := s.inc Reg.LUV_COUNTS.PREEMPT_COUNT
  if e.kind = .downlink then
    let q := mget ([] : List (Nat × Option Int)) s.luv.redo hb ++ [(e.rover, e.adj)]
    raiseTick { s with luv := { s.luv with redo := mput ([] : List (Nat × Option Int)) s.luv.redo hb q } } 330
  else s

/-- What a stop burst from cycle a to b does to the data path of a transceiver (R288). -/
def luvCut (s : State) (hb a b : Nat) : State :=
  let s := { s with luv := { s.luv with bursts := s.luv.bursts ++ [(hb, a, b)] } }
  let s := luvFlush s hb a
  let p := hbPlan s hb
  let cut := p.filter fun e => decide (e.start < b) && (e.begun || !isHead e.kind)
  let head := p.filter fun e => isHead e.kind && (!e.begun || e.kind == .beacon)
  let rest := p.filter fun e => !isHead e.kind && decide (b ≤ e.start)
  let s := setPlan s hb (headLay (head.map fun e => { e with begun := false }) b ++ rest)
  cut.foldl (fun s e => preempted s hb e) s

/-! ### Airtime (R273, R289, R290) -/

/-- Short control signalling of a transceiver in the last 50 ticks, in cycles. -/
def scsUsed (s : State) (hb : Nat) : Nat :=
  ((mget [] s.luv.scs hb).filter (fun p => decide (s.tick < p.1 + 50))).foldl (fun a p => a + p.2) 0

/-- A stop burst may go out on a transceiver, and the state after its accounting: in a tick whose channel is busy in
profile EU it is short control signalling, limited to 5 ms in 50 ticks (R273). -/
def burstAllowed (s : State) (hb cyc : Nat) : Bool × State :=
  if !hbActive s hb then (false, s)
  else if hbBlocked s hb then
    if 1250000 < scsUsed s hb + cyc then (false, raise (s.inc Reg.LUV_COUNTS.SCS_SKIP) 326 hb)
    else
      let used := (s.tick, cyc) :: (mget [] s.luv.scs hb).filter (fun p => decide (s.tick < p.1 + 50))
      (true, { s with luv := { s.luv with scs := mput [] s.luv.scs hb used } })
  else (true, s)

/-- Lantern frames sent in the last 3,600 s; each lasts 0.96 ms (R289, R290). -/
def lanternCount (s : State) : Nat := (s.luv.airTicks.filter (fun t => decide (s.tick < t + 3600000))).length

/-- Cycles of a lantern frame, 0.96 ms (R289). -/
def lanternCyc : Nat := 240000

/-- A lantern frame goes on the air at a cycle and, in profile EU, is counted. It cuts the one in flight (R257). -/
def lanternAir (s : State) (cyc sync : Nat) (payload : List Byte) : State :=
  let s := if cyc < s.luv.lanEnd then s.emit (.lanternCut cyc) else s
  let s : State := { s with luv := { s.luv with lanEnd := cyc + lanternCyc } }
  let s := if profileEu s then
      let ts := s.tick :: s.luv.airTicks.filter (fun t => decide (s.tick < t + 3600000))
      { s with luv := { s.luv with airTicks := ts } }.w Reg.LUV_COUNTS.AIRTIME_MS (ts.length * 96 / 100)
    else s
  s.emit (.lantern sync (lanternChan s) (lanternPower s) payload)

/-- A lantern frame that would take the airtime above a limit in units of 10 µs is skipped in profile EU (R290). -/
def lanternFits (s : State) (limit : Nat) : Bool := !profileEu s || decide ((lanternCount s + 1) * 96 ≤ limit)

/-- A skip of the lantern link. -/
def lanternSkip (s : State) : State := raise (s.inc Reg.LUV_COUNTS.LANTERN_SKIP) 327

/-- The lantern link at a tick boundary: a frame in flight goes on, and the airtime of the last 3,600 s is shown (R294). -/
def lanternTick (s : State) : State :=
  let s : State := { s with luv := { s.luv with lanEnd := s.luv.lanEnd - 250000 } }
  if s.luv.airTicks = [] then s else s.w Reg.LUV_COUNTS.AIRTIME_MS (lanternCount s * 96 / 100)

/-- The payload of a lantern stop burst (R289). -/
def lanternStopPayload (s : State) (f : StopFrame) : List Byte :=
  le 1 f.epoch ++ le 3 f.tick ++ ((stopBytes s f).drop 16).take 4

end Sys2Proof.Machine
end

