-- ==== Sys2Proof/Machine/Stp.lean ====
section
/-! DEFINITION. Sys2Proof/Machine/Stp.lean: Stop Authority: latches, armed frames, bursts, STOP_OUT, stop and resume
(R244 to R267). -/

namespace Sys2Proof.Machine

open Sys2Proof

/-- A raising of STP; during an ACTIVATE pause it follows after the return (R497 row 6). -/
def stpRaise (s : State) (e : Nat) (detail : Nat := noDetail) : State :=
  if s.paused then { s with bt := { s.bt with heldEvts := s.bt.heldEvts ++ [(e, detail)] } }
  else if e = 289 ∨ e = 291 then raiseTick s e detail else raise s e detail

/-- The targeted latch of a rover. -/
def tgtLatch (s : State) (r : Nat) : Bool := s.rbit Reg.STP_TSTOP.TSTOP r
def fleetLatch (s : State) : Bool := s.rb Reg.STP_STATE.FLEET
def tgtWin (s : State) (r : Nat) : TgtWin := mget ({} : TgtWin) s.stp.tgt r
def setTgtWin (s : State) (r : Nat) (w : TgtWin) : State :=
  { s with stp := { s.stp with tgt := mput ({} : TgtWin) s.stp.tgt r w } }

/-! ### STOP_OUT (R261) -/

/-- An enabled STOP_IN pair is in RUN and without PAIR_FAULT. -/
def pairClear (s : State) (p : Nat) : Bool :=
  !bitAt (s.r Reg.STP_CTRL.PAIR_EN) p
    || (bitAt (s.r Reg.STP_STATE.PAIR_RUN) p && !bitAt (s.r Reg.STP_STATE.PAIR_FAULT) p)

/-- The conditions under which driver n may be energised. -/
def outMay (s : State) (n : Nat) : Bool :=
  s.rb Reg.STP_OUT_CFG.EN n
    && (s.mode == .lead || s.mode == .shadow || (s.mode == .halt && !s.rb Reg.STP_OUT_CFG.REL_ON_HALT n))
    && !fleetLatch s && pairClear s 0 && pairClear s 1 && s.r Reg.STP_STATE.OUT_FAULT == 0

/-- Every driver whose conditions fail is released at once. -/
def outsRelease (s : State) : State :=
  iter (fun n s => if outMay s n then s else s.wset Reg.STP_STATE.OUT_ON n false) 4 s

/-- At a tick boundary every driver whose conditions hold is energised. -/
def outsBoundary (s : State) : State :=
  iter (fun n s => s.wset Reg.STP_STATE.OUT_ON n (outMay s n)) 4 s

/-! ### Bursts (R251 to R257) -/

/-- The key epoch of the frames armed for this tick, if any are. -/
def armedEpoch (s : State) : Option Nat := (s.stp.armed.find? (fun p => p.1 == s.tick)).map (·.2)

def hbPath (s : State) (hb : Nat) : HbPath := if hb = 0 then s.stp.hbA else s.stp.hbB
def setHbPath (s : State) (hb : Nat) (p : HbPath) : State :=
  if hb = 0 then { s with stp := { s.stp with hbA := p } } else { s with stp := { s.stp with hbB := p } }

/-- The rovers of a burst have been sent. -/
def markSent (s : State) (fs : List (Option Nat)) : State :=
  fs.foldl (fun s f => match f with
    | some r => setTgtWin s r { tgtWin s r with sent := true }
    | none => s) s

/-- A burst of up to 8 frames of this tick starts on a transceiver at a cycle; `rest` holds the frames that wait. The first
frame under a new key epoch may be a stop frame (R315). -/
def burstStart (s : State) (hb start : Nat) (fs : List (Option Nat)) (rest : HbPath) (epoch : Nat) : State :=
  let n := burstCyc fs.length
  let i := s.inst
  let s := s.atInst (some (cycU start))
  let done (s : State) : State := s.atInst i
  done <|
  match burstAllowed s hb n with
  | (false, s) => setHbPath s hb { rest with onAir := [], endCyc := start }
  | (true, s) =>
    let s := luvCut s hb start (start + n)
    let s := setHbPath s hb { rest with onAir := fs, endCyc := start + n }
    let s := if epoch = keyEpoch s then secSent s else s
    (markSent s fs).emit (.stopBurst hb start (fs.map fun r => { rover := r, epoch := epoch, tick := s.tick }))

/-- The next burst of a stop path, its start and what then waits: released frames follow at once, those left over when the
beacon has ended (R256 items 2 and 4). -/
def nextBurst (p : HbPath) : Option (Nat × List (Option Nat) × HbPath) :=
  if p.waiting ≠ [] then some (p.endCyc, p.waiting.take 8, { p with waiting := p.waiting.drop 8 })
  else if p.left ≠ [] then some (max p.endCyc p.hold, p.left.take 8, { p with left := p.left.drop 8 })
  else none

/-- The bursts that begin up to cycle t. -/
def burstAdvance (hb t epoch : Nat) : Nat → State → State
  | 0, s => s
  | k + 1, s =>
    match nextBurst (hbPath s hb) with
    | none => s
    | some (a, fs, rest) => if a ≤ t then burstAdvance hb t epoch k (burstStart s hb a fs rest epoch) else s

/-- Every burst of a transceiver up to a cycle of the tick has begun. -/
def burstsTo (s : State) (hb t : Nat) : State :=
  match armedEpoch s with
  | some e => burstAdvance hb t e 32 s
  | none => s

/-- Stop bursts and the plan of a transceiver up to a cycle of the tick. -/
def luvTo (s : State) (hb t : Nat) : State := luvFlush (burstsTo s hb t) hb t

/-- A released frame reaches the stop path of a transceiver at a cycle (R255, R256). -/
def burstRelease (s : State) (hb cyc : Nat) (f : Option Nat) (epoch : Nat) : State :=
  let s := burstAdvance hb cyc epoch 32 s
  let p := hbPath s hb
  if p.onAir ≠ [] ∧ cyc < p.endCyc then
    if f = none ∧ none ∉ p.onAir then
      burstStart s hb cyc (none :: p.onAir.take 7) { p with waiting := p.onAir.drop 7 ++ p.waiting } epoch
    else setHbPath s hb { p with waiting := if f = none then none :: p.waiting else p.waiting ++ [f] }
  else if p.waiting ≠ [] then
    setHbPath s hb { p with waiting := if f = none then none :: p.waiting else p.waiting ++ [f] }
  else burstStart s hb cyc [f] p epoch

/-- The stop burst of a fleet release on the lantern link, from a cycle on (R257, R290). -/
def lanternStop (s : State) (cyc epoch limit : Nat) : State :=
  if !s.rb Reg.STP_CTRL.LANTERN_EN || s.mode == .boot || s.mode == .dead then s
  else if lanternFits s limit then
    let s := if epoch = keyEpoch s then secSent s else s
    lanternAir s cyc 0xD42B (lanternStopPayload s { rover := none, epoch := epoch, tick := s.tick })
  else lanternSkip s

/-! ### CAN stop-class buffers (R259, R389) -/

def canCh (s : State) (c : Nat) : CanCh := mget ({} : CanCh) s.can.chans c
def setCanCh (s : State) (c : Nat) (v : CanCh) : State :=
  { s with can := { s.can with chans := mput ({} : CanCh) s.can.chans c v } }

/-- A stop-class buffer with a new frame: fleet frames ahead of targeted ones. -/
def stopInsert (f : StopFrame) (q : List StopFrame) : List StopFrame :=
  if f.rover = none then q.filter (fun g => g.rover.isNone) ++ [f] ++ q.filter (fun g => g.rover.isSome) else q ++ [f]

/-- The buffer without its oldest targeted frame (its oldest frame where it holds none). -/
def dropOldestTgt : List StopFrame → List StopFrame
  | [] => []
  | f :: q => if f.rover.isSome || !q.any (fun g => g.rover.isSome) then q else f :: dropOldestTgt q

/-- STP places a frame in the stop-class buffer of channel c; a ninth frame discards the oldest targeted one. A channel
in restricted operation is in normal operation while it waits (R378). -/
def canStopPut (s : State) (c : Nat) (f : StopFrame) : State :=
  let q := (canCh s c).stop
  let s := if 8 ≤ q.length then s.inc Reg.CAN_CH_CNT.STOP_EXPIRED c else s
  let q := stopInsert f (if 8 ≤ q.length then dropOldestTgt q else q)
  let v := canCh s c
  let s := setCanCh s c (if v.offer.isNone then { v with stop := q, offer := some none, stopOn := q.head? } else { v with stop := q })
  (s.w Reg.CAN_STOPV.DEPTH q.length c).wb Reg.CAN_CH_STATUS.RESTRICTED false c

/-- The frame goes to every channel designated for stop. -/
def canStopAll (s : State) (f : StopFrame) : State :=
  iter (fun c s => if bitAt (s.r Reg.STP_REPEAT.CAN_STOP_CH) c then canStopPut s c f else s) 4 s

/-! ### Release (R248, R255 to R263) -/

/-- STP_LAST takes a release. -/
def stpLast (s : State) (src : Nat) (rover : Option Nat) (lat : Nat) : State :=
  ((((s.w Reg.STP_LAST.TICK_LO s.tick).w Reg.STP_LAST.TICK_HI (s.tick / 2 ^ 32)).w Reg.STP_LAST.SOURCE src).w
    Reg.STP_LAST.ROVER (rover.getD 0xFF)).w Reg.STP_LAST.LAT_NS (lat / 4 * 4)

/-- CAN_TGT_COUNT and TGT_REPEAT, 0 taken as 1; CAN_REPEAT clamped (R266). -/
def canTgtCount (s : State) : Nat := max 1 (s.r Reg.STP_REPEAT.CAN_TGT_COUNT)
def tgtRepeat (s : State) : Nat := max 1 (s.r Reg.STP_REPEAT.TGT_REPEAT)
def canRepeat (s : State) : Nat := clampN 1 100 (s.r Reg.STP_REPEAT.CAN_REPEAT)

/-- The frames of a release go out: bursts, lantern, CAN; nothing where the tick holds no armed frame (R251). -/
def releaseFrames (s : State) (rover : Option Nat) (rel : RelIn) : State :=
  match armedEpoch s with
  | none => s
  | some e =>
    let s := if rel.storeBad then stpRaise s 294 else s
    let s := burstRelease s 0 rel.cyc rover e
    let s := burstRelease s 1 rel.cyc rover e
    let s := if rover = none then lanternStop s rel.cyc e 36000000 else s
    canStopAll s { rover := rover, epoch := e, tick := s.tick }

/-- A stop is released: the latch has just been set. -/
def release (s : State) (src : Nat) (rover : Option Nat) (rel : RelIn) : State :=
  let s := stpLast s src rover rel.latNs
  let s := match rover with
    | none => { s with stp := { s.stp with canFleet := s.tick, fleetRel := (s.tick, rel.cyc) } }
    | some r => setTgtWin s r { left := tgtRepeat s, sent := false, canLeft := canTgtCount s - 1, canTick := s.tick }
  let s := releaseFrames s rover rel
  let s := if rover = none then outsRelease s else s
  if rover = none ∧ src ≠ 8 then s.emit .byhelStop else s

/-- Resumes of a latch that a request for it withdraws complete with CANCELLED (R265 row 2). -/
def cancelResumes (s : State) (rover : Option Nat) : State :=
  let hit := s.stp.resumes.filter (fun p => p.rover == rover)
  let s := { s with stp := { s.stp with resumes := s.stp.resumes.filter (fun p => !(p.rover == rover)) } }
  hit.foldl (fun s p => complete s p.h stCancelled) s

/-- STP_LAST holds a release of this tick for the latch. -/
def lastHere (s : State) (rover : Option Nat) : Bool :=
  s.r Reg.STP_LAST.TICK_LO + 2 ^ 32 * s.r Reg.STP_LAST.TICK_HI == s.tick && s.r Reg.STP_LAST.ROVER == rover.getD 0xFF

/-- A repeated fleet request on the cycle of the release: SOURCE holds the lowest code (row 4 of R265); a release that
so gets a source other than PEER is pulsed on. -/
def fleetSame (s : State) (src cyc : Nat) : State :=
  let was := s.r Reg.STP_STATE.SOURCE
  if s.stp.fleetRel == (s.tick, cyc) && decide (src < was) then
    let s := s.w Reg.STP_STATE.SOURCE src
    let s := if lastHere s none then s.w Reg.STP_LAST.SOURCE src else s
    if was = 8 then s.emit .byhelStop else s
  else s

/-- A breach of a rover whose LOST has set its latch in this tick: the source is BREACH (row 6 of R265). -/
def breachSame (s : State) (src r : Nat) : State :=
  if src == 6 && lastHere s (some r) && s.r Reg.STP_LAST.SOURCE == 7 then s.w Reg.STP_LAST.SOURCE 6 else s

/-- A request sets a latch (R248, R265): nothing acts in BOOT and DEAD; a request for a set latch is counted. -/
def requestStop (s : State) (src : Nat) (rover : Option Nat) (rel : RelIn) : State :=
  if s.mode == .boot || s.mode == .dead then s
  else
    let s := s.wset Reg.STP_SRC_SEEN.SEEN src true
    let again := s.stp.resumes.any (fun p => p.rover == rover)
    let s := cancelResumes s rover
    let s := if again then reflect s (.latch rover src) else s
    match rover with
    | none =>
      if fleetLatch s then fleetSame (s.inc Reg.STP_COUNTS.REPEAT_COUNT) src rel.cyc
      else
        let s := (s.wb Reg.STP_STATE.FLEET true).w Reg.STP_STATE.SOURCE src
        let s := release (s.inc Reg.STP_COUNTS.FLEET_COUNT) src none rel
        reflect (stpRaise s 288) (.latch none src)
    | some r =>
      if tgtLatch s r then breachSame (s.inc Reg.STP_COUNTS.REPEAT_COUNT) src r
      else
        let s := s.wbit Reg.STP_TSTOP.TSTOP r true
        let s := release (s.inc Reg.STP_COUNTS.TGT_COUNT) src (some r) rel
        reflect (stpRaise s 289 r) (.latch (some r) src)

/-- The circumstances of a release that no operand gives: its latency, a multiple of 4 ns, and whether both copies of its
frame are uncorrectable are free (log entry 6). -/
def relAt (s : State) (cyc : Nat) : RelIn × State :=
  let (v, s) := s.fresh
  ({ cyc := cyc, latNs := v % 16384 * 4, storeBad := bitAt v 14 }, s)

/-- A request whose circumstances no operand gives. -/
def requestStopAt (s : State) (src : Nat) (rover : Option Nat) (cyc : Nat) : State :=
  let (rel, s) := relAt s cyc
  requestStop s src rover rel

/-! ### Arming (R251) -/

/-- How many of the present tick and the next seven hold armed frames. -/
def armedTicks (s : State) : Nat :=
  (s.stp.armed.filter (fun p => decide (s.tick ≤ p.1) && decide (p.1 < s.tick + 8))).length

/-- The STP slot of a tick: the frames of tick n + 8 are armed, or arming fails. In BOOT it arms outside the schedule. -/
def stpArm (ok : Bool) (use : SlotUse) (s : State) : State :=
  if s.mode == .dead || (s.mode == .boot && !s.bt.sealed) then s
  else
    let s := if s.mode == .boot then s else slotEnd s 7 use
    if s.mode == .dead then s
    else if ok && s.kvt.gs then
      let e := s.r Reg.KVT_KEYS.KEY_EPOCH
      let keep := s.stp.armed.filter (fun p => decide (s.tick ≤ p.1) && p.1 != s.tick + 8)
      let s := { s with stp := { s.stp with armed := keep ++ [(s.tick + 8, e)] } }
      ((s.w Reg.STP_ARM.ARMED_TICKS (armedTicks s)).w Reg.STP_ARM.KEY_ID (e % 256)).wb Reg.STP_ARM.ARM_OK true
    else
      let s := { s with stp := { s.stp with armed := s.stp.armed.filter (fun p => p.1 != s.tick + 8) } }
      let s := stpRaise (s.wb Reg.STP_ARM.ARM_OK false) 294
      let (v, s) := s.fresh
      requestStopAt s 9 none (v % 7500)

/-! ### Stop inputs (R244 to R247) and STOP_OUT faults (R262) -/

/-- A qualified de-energising edge of a STOP_IN channel. The pair is not in RUN then, enabled or not (R246); a stop is
asked for by an enabled pair alone (R244). -/
def stopInEdge (chan : Nat) (rel : RelIn) (s : State) : State :=
  let p := chan / 2
  let s := (s.wset Reg.STP_STATE.IN_LEVEL chan false).wset Reg.STP_STATE.PAIR_RUN p false
  if bitAt (s.r Reg.STP_CTRL.PAIR_EN) p then requestStop (outsRelease s) (1 + p) none rel
  else s

/-- Both channels of pair p have been energised for REARM_MS: RUN; the event is that of an enabled pair (R244). -/
def pairRun (p : Nat) (s : State) : State :=
  let was := bitAt (s.r Reg.STP_STATE.PAIR_RUN) p
  let s := (s.wset Reg.STP_STATE.IN_LEVEL (2 * p) true).wset Reg.STP_STATE.IN_LEVEL (2 * p + 1) true
  let s := s.wset Reg.STP_STATE.PAIR_RUN p true
  if bitAt (s.r Reg.STP_CTRL.PAIR_EN) p && !was then stpRaise s 293 p else s

/-- The channels of pair p have differed for DISC_MS. -/
def pairFault (p : Nat) (rel : RelIn) (s : State) : State :=
  if bitAt (s.r Reg.STP_CTRL.PAIR_EN) p && !bitAt (s.r Reg.STP_STATE.PAIR_FAULT) p then
    let s := stpRaise (s.wset Reg.STP_STATE.PAIR_FAULT p true) 292 p
    requestStop (outsRelease s) 3 none rel
  else s

/-- Both channels were de-energised together and have stayed energised for REARM_MS since: the fault clears, and the
pair is in RUN (R246, R247). -/
def pairFaultClear (p : Nat) (s : State) : State := pairRun p (s.wset Reg.STP_STATE.PAIR_FAULT p false)

/-- Driver n is not off within 10 µs of a release. -/
def outFault (n : Nat) (rel : RelIn) (s : State) : State :=
  if bitAt (s.r Reg.STP_STATE.OUT_FAULT) n then s
  else
    let s := stpRaise (s.wset Reg.STP_STATE.OUT_FAULT n true) 295 n
    requestStop (outsRelease s) 10 none rel

/-- The readback of driver n has matched for 1 tick. -/
def outFaultClear (n : Nat) (s : State) : State := s.wset Reg.STP_STATE.OUT_FAULT n false

/-- A pulse on the Byhel STOP pair (R263). -/
def peerStop (rel : RelIn) (s : State) : State :=
  if s.mode == .boot || s.mode == .dead then s else requestStop (stpRaise s 297) 8 none rel

/-! ### Stop and resume commands (R264) -/

/-- STP_STOP: the scope is given by `rover`; `bad` holds where a field is not listed or reserved bytes are not 0. -/
def stpStop (h : Handle) (rover : Option Nat) (bad : Bool) (s : State) : State :=
  if bad then complete (s.inc Reg.STP_COUNTS.REFUSE_COUNT) h stStop
  else complete (requestStopAt s 5 rover h.cyc) h stOk

/-- The corridor of a rover is BREACHED or FROZEN (R197). -/
def corridorHeld (s : State) (r : Nat) : Bool := s.r Reg.CHT_ROVER.STATE r == 4 || s.r Reg.CHT_ROVER.STATE r == 5

/-- Every stop chain is clear: pairs in RUN here and at the peer, as it last said while it is heard, no PAIR_FAULT or
OUT_FAULT (R264 row 4). -/
def stopChainClear (s : State) : Bool :=
  pairClear s 0 && pairClear s 1 && s.r Reg.STP_STATE.PAIR_FAULT == 0 && s.r Reg.STP_STATE.OUT_FAULT == 0
    && (s.pair == 0 || s.twn.silent || s.twn.peerStopClear)

/-- STP_RESUME by the rows of R264; rows 7 and 8 wait for their boundary. -/
def stpResume (h : Handle) (rover : Option Nat) (bad : Bool) (s : State) : State :=
  let refuse (s : State) := complete (s.inc Reg.STP_COUNTS.REFUSE_COUNT) h stResume
  if bad || !(s.leading || s.twn.reflecting) then refuse s
  else
    let clear := match rover with
      | none => !fleetLatch s
      | some r => !tgtLatch s r
    let blocked := match rover with
      | none => !stopChainClear s
      | some r => s.rbit Reg.SEC_LOST.LOST r || corridorHeld s r
    if clear then refuse s
    else if blocked then refuse (stpRaise s 296)
    else reflect (accept { s with stp := { s.stp with
      resumes := s.stp.resumes ++ [{ h := h, rover := rover, tick := s.now, sure := !s.twn.reflecting }] } } h) (.resume h rover)

/-- An accepted resume takes effect: rows 7 and 8 of R264. -/
def resumeEffect (s : State) (p : ResumePend) : State :=
  match p.rover with
  | none =>
    let s := s.wb Reg.STP_STATE.FLEET false
    let s := if s.mode == .halt then enterMode s .lead else s
    complete (stpRaise s 290) p.h stOk
  | some r => complete (stpRaise (setTgtWin (s.wbit Reg.STP_TSTOP.TSTOP r false) r {}) 291 r) p.h stOk

/-- The accepted resumes whose boundary this is: in solo operation the next one, otherwise the first after the stream
that carries the resume has been acknowledged (R264). -/
def resumeDue (s : State) (p : ResumePend) : Bool := s.solo || (s.inSync && decide (p.tick ≤ s.twn.ack1))

def resumesTick (s : State) : State :=
  if !s.leading then s
  else
    let due := s.stp.resumes.filter (resumeDue s)
    let s := { s with stp := { s.stp with resumes := s.stp.resumes.filter (fun p => !resumeDue s p) } }
    due.foldl resumeEffect s

/-- A module leaves LEAD or HALT for MAINTENANCE: no accepted resume is carried out (R265 row 10). -/
def resumesCancel (s : State) : State :=
  let ps := s.stp.resumes
  ps.foldl (fun s p => complete s p.h stCancelled) { s with stp := { s.stp with resumes := [] } }

/-! ### The tick boundary -/

/-- The rovers within their repeat window, those never sent first (R256 row 4). -/
def repeatTargets (s : State) : List (Option Nat) :=
  let live := s.stp.tgt.filter (fun p => decide (0 < p.2.left) && tgtLatch s p.1)
  (live.filter (fun p => !p.2.sent)).map (fun p => some p.1) ++ (live.filter (fun p => p.2.sent)).map (fun p => some p.1)

/-- The repeat burst of a transceiver at the boundary; frames left over wait until the beacon of the tick has ended: after a
burst of 8 frames, with symbol 12 (R256 item 4). -/
def repeatBurst (hb epoch : Nat) (fs : List (Option Nat)) (s : State) : State :=
  if fs = [] then setHbPath s hb {} else burstStart s hb 0 (fs.take 8) { left := fs.drop 8, hold := 13 * symCyc } epoch

/-- The store is read for the repeat bursts of a tick: whether both copies of a frame are uncorrectable is free (R253). -/
def repeatStore (fs : List (Option Nat)) (s : State) : State :=
  if fs = [] then s
  else
    let (v, s) := s.fresh
    if bitAt v 0 then stpRaise s 294 else s

/-- STP at a tick boundary, after the mode changes: last tick's bursts run out, resumes, HALT entry (R250), repeat
bursts, windows, STOP_OUT. -/
def stpBursts (s : State) : State :=
  match armedEpoch s with
  | some e =>
    let fs := (if fleetLatch s then [none] else []) ++ repeatTargets s
    if s.mode == .boot || s.mode == .dead then s else repeatBurst 1 e fs (repeatBurst 0 e fs (repeatStore fs s))
  | none => setHbPath (setHbPath s 0 {}) 1 {}

/-- The repeat windows count down (R256). -/
def windowsTick (s : State) : State :=
  s.stp.tgt.foldl (fun s p => if 0 < p.2.left then setTgtWin s p.1 { tgtWin s p.1 with left := p.2.left - 1 } else s) s

/-- Frames waiting at the end of the old tick go out up to the boundary. -/
def burstsEnd (s : State) : State := burstsTo (burstsTo s 0 249999) 1 249999

/-- HALT entry at a tick boundary (R250). -/
def haltEntry (s : State) : State := if s.mode == .lead && fleetLatch s then enterMode s .halt else s

/-- STP at the boundary. -/
def stpTick (s : State) : State :=
  let s := haltEntry (resumesTick (lanternTick s))
  let s := windowsTick (stpBursts s)
  let s := { s with stp := { s.stp with armed := s.stp.armed.filter (fun p => decide (s.tick ≤ p.1)) } }
  outsBoundary (s.w Reg.STP_ARM.ARMED_TICKS (armedTicks s))

/-- A repeat on the stop-designated CAN channels every CAN_REPEAT ticks (R259); none in BOOT and DEAD (row 1 of R265). -/
def canStopRepeat (s : State) : State :=
  match if s.mode == .boot || s.mode == .dead then none else armedEpoch s with
  | none => s
  | some e =>
    let s := if fleetLatch s && decide (s.stp.canFleet + canRepeat s ≤ s.tick) then
        canStopAll { s with stp := { s.stp with canFleet := s.tick } } { rover := none, epoch := e, tick := s.tick }
      else s
    s.stp.tgt.foldl (fun s p =>
      let w := tgtWin s p.1
      if 0 < w.canLeft ∧ w.canTick + canRepeat s ≤ s.tick then
        canStopAll (setTgtWin s p.1 { w with canLeft := w.canLeft - 1, canTick := s.tick })
          { rover := some p.1, epoch := e, tick := s.tick }
      else s) s

/-! ### The commands -/

def execStpStopFleet (h : Handle) (rsv : Nat) (s : State) : Host.Outcome State Fault Refusal :=
  withOut s (ringOp anyRunMode h (descOf (.stpStopFleet h rsv)) (stpStop h none (rsv != 0)))
def execStpStopRover (h : Handle) (rover rsv : Nat) (s : State) : Host.Outcome State Fault Refusal :=
  withOut s (ringOp anyRunMode h (descOf (.stpStopRover h rover rsv))
    (stpStop h (some rover) (rsv != 0 || decide (127 < rover))))
def execStpResumeFleet (h : Handle) (rsv : Nat) (s : State) : Host.Outcome State Fault Refusal :=
  withOut s (ringOp anyRunMode h (descOf (.stpResumeFleet h rsv)) (stpResume h none (rsv != 0)))
def execStpResumeRover (h : Handle) (rover rsv : Nat) (s : State) : Host.Outcome State Fault Refusal :=
  withOut s (ringOp anyRunMode h (descOf (.stpResumeRover h rover rsv))
    (stpResume h (some rover) (rsv != 0 || decide (127 < rover))))
def execStopInEdge (chan : Fin 4) (rel : RelIn) (s : State) : Host.Outcome State Fault Refusal :=
  withOutAt s (some (cycU rel.cyc)) (stopInEdge chan rel)
def execPairRun (p : Fin 2) (s : State) : Host.Outcome State Fault Refusal := withOut s (pairRun p)
def execPairFault (p : Fin 2) (rel : RelIn) (s : State) : Host.Outcome State Fault Refusal := withOutAt s (some (cycU rel.cyc)) (pairFault p rel)
def execPairFaultClear (p : Fin 2) (s : State) : Host.Outcome State Fault Refusal := withOut s (pairFaultClear p)
def execPeerStop (rel : RelIn) (s : State) : Host.Outcome State Fault Refusal := withOutAt s (some (cycU rel.cyc)) (peerStop rel)
def execOutReadbackFault (n : Fin 4) (rel : RelIn) (s : State) : Host.Outcome State Fault Refusal :=
  withOutAt s (some (cycU rel.cyc)) (outFault n rel)
def execOutFaultClear (n : Fin 4) (s : State) : Host.Outcome State Fault Refusal := withOut s (outFaultClear n)
def execStpArmSlot (ok : Bool) (use : SlotUse) (s : State) : Host.Outcome State Fault Refusal := withOut s (stpArm ok use)
def execCanStopRepeat (s : State) : Host.Outcome State Fault Refusal := withBoundary s canStopRepeat

end Sys2Proof.Machine
end

