-- ==== Sys2Proof/Machine/Cht.lean ====
section
/-! DEFINITION. Sys2Proof/Machine/Cht.lean: Chart: origin, requests, the conflict test, grants and generations,
containment (R183 to R208, R520 to R523). -/

namespace Sys2Proof.Machine

open Sys2Proof

/-! ### Rovers and their registers -/

def chtRover (s : State) (r : Nat) : ChtRover := mget ({} : ChtRover) s.cht.rovers r
def chtSt (s : State) (r : Nat) : Nat := s.r Reg.CHT_ROVER.STATE r
def chtHeld (s : State) (r : Nat) : Bool := chtSt s r == 4 || chtSt s r == 5

/-- TIME_MARGIN and HORIZON_S in force (R207). -/
def timeMargin (s : State) : Nat := clampN 0 60000 (s.r Reg.CHT_TIME_CFG.TIME_MARGIN)
def horizonS (s : State) : Nat := clampN 10 65535 (s.r Reg.CHT_TIME_CFG.HORIZON_S)
def clearance (s : State) : Nat := s.r Reg.CHT_CFG.CLEARANCE_MM

/-- Live segments in the store. -/
def liveSegs (s : State) : Nat :=
  s.cht.rovers.foldl (fun n p => n + p.2.segs.length + (match p.2.pend with | some q => q.segs.length | none => 0)) 0

/-- Replace what Chart holds of a rover, and show it. -/
def setChtRover (s : State) (r : Nat) (v : ChtRover) : State :=
  let s := { s with cht := { s.cht with rovers := mput ({} : ChtRover) s.cht.rovers r v } }
  let live := liveSegs s
  let s := s.w Reg.CHT_STATUS.LIVE_SEGS live
  let s := (s.w Reg.CHT_ROVER.N_SEG (v.segs.length
    + (if chtSt s r = 1 then (match v.pend with | some q => q.segs.length | none => 0) else 0)) r)
  let s := s.wb Reg.CHT_ROVER.PENDING (v.pend.any (fun q => q.mode != 0)) r
  let s := s.wb Reg.CHT_ROVER.STAGED v.stage.isSome r
  let s := match v.stage with
    | some g => ((s.wi Reg.CHT_STAGE.E g.e r).wi Reg.CHT_STAGE.N g.n r).w Reg.CHT_STAGE.RADIUS_MM g.rad r
    | none => ((s.w Reg.CHT_STAGE.E 0 r).w Reg.CHT_STAGE.N 0 r).w Reg.CHT_STAGE.RADIUS_MM 0 r
  let high := decide (471860 ≤ live)
  let s := if high && !s.cht.high then raise s 169 else s
  { s with cht := { s.cht with high := high } }

/-- The corridor state of a rover, and with it the grant permit (R197, R200). -/
def setChtSt (s : State) (r v : Nat) : State := (s.w Reg.CHT_ROVER.STATE v r).wbit Reg.CHT_PERMIT.PERMIT r (v == 2)

/-- The grant generation advances at most once per boundary (R199). -/
def genAdvance (s : State) : State :=
  if s.cht.genTick = some s.tick then s
  else { s.w Reg.CHT_GRANT_GEN.GEN (s.r Reg.CHT_GRANT_GEN.GEN + 1) with cht := { s.cht with genTick := some s.tick } }

def showQueue (s : State) : State := s.w Reg.CHT_STATUS.QUEUED_REQS s.cht.queue.length

/-! ### Discarding (R520) -/

/-- Every command Chart holds completes with CANCELLED, and every corridor and staging area goes. -/
def chtDiscard (s : State) : State :=
  let q := s.cht.queue ++ s.cht.doubt.map (·.1)
  let s := q.foldl (fun s x => complete s x.h stCancelled) { s with cht := { s.cht with queue := [], doubt := [] } }
  let s := s.cht.rovers.foldl (fun s p =>
    let v := p.2
    let s := match v.pend with
      | some x => complete s x.h stCancelled
      | none => s
    let s := v.stages.foldl (fun s x => complete s x.2.2 stCancelled) s
    let s := (v.unstage ++ v.release).foldl (fun s h => complete s h stCancelled) s
    setChtRover (setChtSt s p.1 0) p.1 { fixedAt := v.fixedAt }) s
  showQueue s

/-! ### The origin (R185) -/

/-- The origin of this module's own registers. -/
def ownOrigin (s : State) : Option (Int × Int × Int) :=
  if s.rb Reg.CHT_ORIGIN_CTRL.ORIGIN_VALID then
    some (toSigned 64 (s.r Reg.CHT_ORIGIN_X.LO + 2 ^ 32 * s.r Reg.CHT_ORIGIN_X.HI),
      toSigned 64 (s.r Reg.CHT_ORIGIN_Y.LO + 2 ^ 32 * s.r Reg.CHT_ORIGIN_Y.HI),
      toSigned 64 (s.r Reg.CHT_ORIGIN_Z.LO + 2 ^ 32 * s.r Reg.CHT_ORIGIN_Z.HI))
  else none

/-- The origin in force, as CHT_ORIGIN_CTRL shows it. -/
def originShow (s : State) (o : Option (Int × Int × Int)) (fromLead : Bool) : State :=
  let s := { s with cht := { s.cht with origin := o } }
  (s.wb Reg.CHT_ORIGIN_CTRL.IN_FORCE o.isSome).wb Reg.CHT_ORIGIN_CTRL.FROM_LEAD (fromLead && o.isSome)

/-- In BOOT and MAINTENANCE the origin follows the module's own registers; nothing is judged there. -/
def originOwn (s : State) : State :=
  if s.mode == .boot || s.mode == .maintenance then originShow s (ownOrigin s) false else s

/-- The module enters SHADOW or LEAD with an origin: one that differs from the origin last in force there discards every
corridor. -/
def originSet (s : State) (o : Option (Int × Int × Int)) (fromLead : Bool) : State :=
  let s := originShow s o fromLead
  match o with
  | none => s
  | some _ =>
    let changed := s.cht.last.isSome && s.cht.last != o
    let s := { s with cht := { s.cht with last := o } }
    if changed then raise (genAdvance (chtDiscard s)) 167 else s

/-- The shadow takes the lead's origin; a difference from its own registers is reported once. -/
def originFromLead (s : State) (o : Option (Int × Int × Int)) : State :=
  let s := originSet s o true
  let differs := ownOrigin s != o
  let s := if differs && !s.cht.mismatch then raise s 168 else s
  { s with cht := { s.cht with mismatch := differs } }

/-! ### Footprints (R187) -/

/-- A footprint: OTHER_KIND, segment index, centreline, twice its half width, conflict window. -/
structure Footprint where
  kind  : Nat
  seg   : Nat
  a     : Pt
  b     : Pt
  width : Nat
  enter : Nat
  exit  : Option Nat
  deriving DecidableEq, Repr

/-- T_ENTER of a segment's conflict window. -/
def segStart (g : ChtSeg) : Nat := if g.first then min g.tEnter g.resTick else g.tEnter

def segFoot (kind : Nat) (open_ : Bool) (g : ChtSeg) : Footprint :=
  { kind := kind, seg := g.idx, a := (g.e0, g.n0), b := (g.e1, g.n1), width := g.width, enter := segStart g
    exit := if open_ then none else some g.tExit }

def capFoot (kind : Nat) (g : ChtSeg) : Footprint :=
  { kind := kind, seg := 0xFFFF, a := (g.e1, g.n1), b := (g.e1, g.n1), width := g.width, enter := g.tExit, exit := none }

def stageFoot (g : Stage) : Footprint :=
  { kind := 2, seg := 0xFFFF, a := (g.e, g.n), b := (g.e, g.n), width := 2 * g.rad, enter := 0, exit := none }

/-- Every footprint of a rover that later tests meet. -/
def footprints (s : State) (r : Nat) : List Footprint :=
  let v := chtRover s r
  let held := chtHeld s r
  let own := v.segs.map (segFoot (if held then 3 else 0) held)
  let cap := match v.cap with
    | some g => [capFoot (if held then 3 else 1) g]
    | none => []
  let new := match v.pend with
    | some p => p.segs.map (segFoot 4 false) ++ (match p.segs.getLast? with | some g => [capFoot 1 g] | none => [])
    | none => []
  let areas := (match v.stage with | some g => [stageFoot g] | none => []) ++ v.stages.map (fun x => stageFoot x.1)
  own ++ cap ++ new ++ areas

/-- The bytes of a footprint in the CRC-32C of a footprint set (DESIGN CHOICE, log entry 81). -/
def footBytes (f : Footprint) : List Byte :=
  le 1 f.kind ++ le 2 f.seg ++ le 4 (ofSigned 32 f.a.1) ++ le 4 (ofSigned 32 f.a.2) ++ le 4 (ofSigned 32 f.b.1)
    ++ le 4 (ofSigned 32 f.b.2) ++ le 4 f.width ++ le 8 f.enter ++ le 8 (f.exit.getD (2 ^ 64 - 1))

/-- The CRC-32C of a rover's footprint set (R323 item 1). -/
def footCrc (s : State) (r : Nat) : Nat := crc32c ((footprints s r).flatMap footBytes)

/-! ### The conflict test (R192, R193, R196) -/

/-- GAP_MM where two footprints conflict (R193), distances rounded down to whole mm. -/
def clash (clr tm : Nat) (f g : Footprint) : Option Int :=
  let d := (segDist f.a f.b g.a g.b).floor
  let gap : Int := 2 * (d : Int) - f.width - g.width - 2 * clr
  let before (x : Nat) (e : Option Nat) : Bool := match e with
    | some t => decide (x ≤ t + tm)
    | none => true
  if gap < 0 ∧ before f.enter g.exit = true ∧ before g.enter f.exit = true then some (gap / 2) else none

/-- A conflict found: the request's footprint, the other rover and footprint, the gap. -/
abbrev Hit := Footprint × Nat × Footprint × Int

/-- Pair tests of one footprint in one bucket. -/
def scanBucket (clr tm : Nat) (f : Footprint) (k : Int × Int) :
    List (Nat × Footprint × List (Int × Int)) → Nat → Nat × Option Hit
  | [], n => (n, none)
  | (o, g, bs) :: rest, n =>
    if bs.contains k then
      match clash clr tm f g with
      | some gap => (n + 1, some (f, o, g, gap))
      | none => scanBucket clr tm f k rest (n + 1)
    else scanBucket clr tm f k rest n

/-- Pair tests of one footprint, bucket by bucket. -/
def scanFoot (clr tm : Nat) (f : Footprint) (others : List (Nat × Footprint × List (Int × Int))) :
    List (Int × Int) → Nat → Nat × Option Hit
  | [], n => (n, none)
  | k :: ks, n =>
    match scanBucket clr tm f k others n with
    | (n, some x) => (n, some x)
    | (n, none) => scanFoot clr tm f others ks n

/-- Pair tests of a request until the first conflict. -/
def scanAll (clr tm : Nat) (others : List (Nat × Footprint × List (Int × Int))) :
    List Footprint → Nat → Nat × Option Hit
  | [], n => (n, none)
  | f :: fs, n =>
    match scanFoot clr tm f others (bucketsOf f.a f.b (f.width + 2 * clr)) n with
    | (n, some x) => (n, some x)
    | (n, none) => scanAll clr tm others fs n

/-- The conflict test of a request of rover r: pair tests made, and the first conflict. -/
def conflictTest (s : State) (r : Nat) (fs : List Footprint) : Nat × Option Hit :=
  let others := (s.cht.rovers.filter (fun p => p.1 != r)).flatMap fun p =>
    (footprints s p.1).map fun g => (p.1, g, bucketsOf g.a g.b g.width)
  scanAll (clearance s) (timeMargin s) others fs 0

/-! ### Validation (R189, R190) -/

/-- The k-th segment record of the array; none where a reserved field is not 0 or the rover differs. -/
def segRecord (bs : List Byte) (k r : Nat) : Option ChtSeg :=
  let b := (bs.drop (48 * k)).take 48
  if field b 0 1 = r ∧ field b 1 3 = 0 ∧ field b 22 2 = 0 ∧ field b 44 4 = 0 ∧ b.length = 48 then
    some { idx := k, e0 := toSigned 32 (field b 4 4), n0 := toSigned 32 (field b 8 4), e1 := toSigned 32 (field b 12 4)
           n1 := toSigned 32 (field b 16 4), width := field b 20 2, tEnter := field b 24 8, tExit := field b 32 8
           vMax := field b 40 4 }
  else none

/-- What R189 asks of one segment. -/
def segOk (s : State) (acc : Nat) (g : ChtSeg) : Bool :=
  decide (500 ≤ g.width) && decide (g.width ≤ 60000) && decide (1 ≤ g.vMax) && decide (g.vMax ≤ 20000)
    && decide (sqLen (g.e0, g.n0) (g.e1, g.n1) ≤ 1000000 ^ 2)
    && decide ((bucketsOf (g.e0, g.n0) (g.e1, g.n1) (g.width + 2 * clearance s)).length ≤ 256)
    && decide (g.tEnter ≤ g.tExit) && decide (acc ≤ g.tExit)

/-- Each segment follows the one before. -/
def chained : List ChtSeg → Bool
  | g :: h :: rest =>
    decide (h.e0 = g.e1 ∧ h.n0 = g.n1 ∧ g.tEnter ≤ h.tEnter ∧ h.tEnter ≤ g.tExit) && chained (h :: rest)
  | _ => true

/-- The segments of a request, where R189 accepts them. -/
def segArray (s : State) (rover nSeg : Nat) (bs : List Byte) : Option (List ChtSeg) :=
  let gs := (List.range nSeg).filterMap fun k => segRecord bs k rover
  match gs.getLast? with
  | none => none
  | some l =>
    if gs.length = nSeg ∧ gs.all (segOk s s.now) = true ∧ chained gs = true ∧ l.tExit ≤ s.now + horizonS s * 1000 then
      some gs
    else none

/-- A point lies within the reach (twice given) of a centre. -/
def within2 (p c : Pt) (reach2 : Nat) : Bool := decide (4 * sqLen p c ≤ reach2 * reach2)

/-- A segment lies within the staging area (R201). -/
def inStage (g : Stage) (x : ChtSeg) : Bool :=
  decide (x.width ≤ 2 * g.rad) && within2 (x.e0, x.n0) (g.e, g.n) (2 * g.rad - x.width)
    && within2 (x.e1, x.n1) (g.e, g.n) (2 * g.rad - x.width)

/-- An active footprint for containment: SEG code, centreline, width. -/
abbrev Active := Nat × Pt × Pt × Nat

/-- The containment window of a segment holds tick t (R187). -/
def segActive (tm t : Nat) (g : ChtSeg) : Bool :=
  let from_ := if g.first then g.grantTick else some g.tEnter
  from_.any (fun a => decide (a ≤ t)) && decide (t ≤ g.tExit + tm)

/-- The active footprints of a rover at tick t (R202). -/
def activeFoots (s : State) (r t : Nat) : List Active :=
  let v := chtRover s r
  let segs := (v.segs.filter (segActive (timeMargin s) t)).map fun g => (g.idx, (g.e0, g.n0), (g.e1, g.n1), g.width)
  let cap : List Active := match v.cap with
    | some g => if g.tExit ≤ t then [(0xFFFE, (g.e1, g.n1), (g.e1, g.n1), g.width)] else []
    | none => []
  let area : List Active := match v.stage with
    | some g => [(0xFFFF, (g.e, g.n), (g.e, g.n), 2 * g.rad)]
    | none => []
  segs ++ cap ++ area

/-- Rows 2 to 8 of R190: the status a request is refused with. -/
def reserveRefusal (s : State) (q : ChtReq) : Option Nat :=
  let v := chtRover s q.rover
  let st := chtSt s q.rover
  match q.segs.head? with
  | none => some stSeg
  | some g0 =>
    let p0 : Pt := (g0.e0, g0.n0)
    if st = 4 ∨ st = 5 ∨ v.pend.isSome = true then some stState
    else if (q.mode = 0 ∧ st ≠ 0 ∧ st ≠ 3) ∨ (q.mode ≠ 0 ∧ st = 0) then some stState
    else
      let startBad : Bool := match q.mode with
        | 0 =>
          let inArea := v.stage.any fun g => within2 p0 (g.e, g.n) (2 * g.rad)
          let inCap := v.cap.any fun g => within2 p0 (g.e1, g.n1) g.width
          (v.stage.isSome || v.cap.isSome) && !inArea && !inCap
        | 1 => !(v.cap.any fun g =>
            decide (g0.e0 = g.e1 ∧ g0.n0 = g.n1 ∧ g.tEnter ≤ g0.tEnter ∧ g0.tEnter ≤ g.tExit))
        | _ => !((activeFoots s q.rover q.acc).any fun f => f.1 != 0xFFFF && !(pointDist p0 f.2.1 f.2.2.1).twiceOver f.2.2.2)
      if startBad then some stSeg
      else
        let inside := v.stage.any fun g => q.segs.all (inStage g)
        let fresh := v.fixedAt.any fun t => decide (q.acc ≤ t + 200)
        if !inside && !fresh then some stFixStale
        else
          let held := q.segs.length + (if q.mode = 1 then v.segs.length else 0)
          if 4096 < held ∨ 524288 < liveSegs s + q.segs.length then some stCapacity else none

/-! ### Decisions (R194, R198 row 1) -/

/-- The bytes of a conflict record (R194). -/
def conflictBytes (r acc : Nat) (x : Hit) : List Byte :=
  let (f, o, g, gap) := x
  le 1 3 ++ le 1 r ++ le 1 o ++ le 1 g.kind ++ le 2 f.seg ++ le 2 g.seg ++ le 4 (ofSigned 32 gap) ++ le 4 0
    ++ le 8 (max f.enter g.enter) ++ le 8 acc

/-- A request is refused with a conflict record. -/
def chtConflict (s : State) (h : Handle) (b : List Byte) : State :=
  let s := cplPut s 133 b
  let s := (((s.w Reg.CHT_LAST_CONFLICT.ROVER (field b 1 1)).w Reg.CHT_LAST_CONFLICT.OTHER_ROVER (field b 2 1)).w
    Reg.CHT_LAST_CONFLICT.OTHER_KIND (field b 3 1)).w Reg.CHT_LAST_CONFLICT.SEG (field b 4 2)
  let s := (s.w Reg.CHT_LAST_CONFLICT.OTHER_SEG (field b 6 2)).inc Reg.CHT_COUNTS.CONFLICT_COUNT
  complete (raise s 161 (field b 1 1)) h stConflict

/-- The segments of a request as they are stored: numbered on from an appended corridor; the first of a NEW or REPLACE
corridor, and of an APPEND from REST, takes the reservation tick (R187, R191). -/
def storedSegs (s : State) (q : ChtReq) (tick : Nat) : List ChtSeg :=
  let base := match q.mode, (chtRover s q.rover).cap with
    | 1, some g => g.idx + 1
    | _, _ => 0
  let lead := q.mode != 1 || chtSt s q.rover == 3
  q.segs.map fun g => { g with idx := base + g.idx, first := lead && g.idx == 0, resTick := if lead && g.idx == 0 then tick else 0 }

/-- A request has passed its test in tick `tick`: its footprints are stored (R198 row 1). -/
def chtReserved (s : State) (q : ChtReq) (tick : Nat) : State :=
  let v := chtRover s q.rover
  match q.area with
  | some g => setChtRover s q.rover { v with stages := v.stages ++ [(g, tick, q.h)] }
  | none =>
    let p : ChtPend := { mode := q.mode, segs := storedSegs s q tick, tick := tick, h := q.h }
    let s := if q.mode = 0 then setChtSt s q.rover 1 else s
    setChtRover s q.rover { v with pend := some p }

/-- The outcome of the test of a request: a status with the conflict record of a CONFLICT_REFUSED (none: it passed), and
the pair tests it takes. -/
def chtJudge (s : State) (q : ChtReq) (tick : Nat) : Nat × List Byte × Nat :=
  if s.cht.origin.isNone then (stOrigin, [], 0)
  else
    let refusal := if q.area.isSome then none else reserveRefusal s q
    match refusal with
    | some st => (st, [], 0)
    | none =>
      let fs := match q.area with
        | some g => [stageFoot g]
        | none => (storedSegs s q tick).map (fun g => segFoot 0 false { g with idx := g.idx - ((storedSegs s q tick).headD g).idx })
      match conflictTest s q.rover fs with
      | (n, some x) => (stConflict, conflictBytes q.rover q.acc x, n)
      | (n, none) => (stOk, [], n)

/-- A decision takes effect. -/
def chtDecide (s : State) (q : ChtReq) (status tick : Nat) (conflict : List Byte) : State :=
  if status = stOk then chtReserved s q tick
  else if status = stConflict then chtConflict s q.h conflict
  else complete s q.h status

/-- The CHT slot of the lead: requests in order until the pair tests of the tick are used up (R195, R196). -/
def chtRun : Nat → Nat → State → State
  | 0, _, s => s
  | k + 1, budget, s =>
    match s.cht.queue with
    | [] => s
    | q :: rest =>
      let (status, conflict, n) := chtJudge s q s.tick
      if budget < n - q.done then
        let s := { s with cht := { s.cht with queue := { q with done := q.done + budget } :: rest } }
        overrun (s.inc Reg.CHT_COUNTS.CARRY_COUNT) 4
      else
        let s := { s with cht := { s.cht with queue := rest } }
        let s := reflect s (.chart q.h status s.tick conflict q.rover (footCrc (chtDecide s q status s.tick conflict) q.rover))
        chtRun k (budget - (n - q.done)) (chtDecide s q status s.tick conflict)

/-- The CHT slot; `limit`: the pair tests it has time for. A shadow compares its own tests with the lead's decisions
(R522). -/
def chtSlot (use : SlotUse) (limit : Nat) (s : State) : State :=
  let s := slotEnd s 4 use
  if s.mode == .dead then s
  else if s.mode == .shadow then
    let n := s.cht.differ
    let s := { s with cht := { s.cht with differ := 0 } }
    if n = 0 then s else raiseWatch (s.add Reg.TWN_COUNTS.DIGEST_MISMATCH n) 391
  else showQueue (chtRun 256 (min limit 4194304) s)

/-! ### Commands (R188, R189, R198, R201, R523) -/

/-- `a` is tested before `b`: acceptance tick, HST window, rover (R195); a carried test stays at the head. -/
def reqBefore (a b : ChtReq) : Bool :=
  b.done == 0 && (decide (a.acc < b.acc) || (a.acc == b.acc && (decide (a.win < b.win) || (a.win == b.win && decide (a.rover < b.rover)))))

def reqInsert (q : ChtReq) : List ChtReq → List ChtReq
  | [] => [q]
  | x :: xs => if reqBefore q x then q :: x :: xs else x :: reqInsert q xs

/-- A request joins the queue, 256 at most. -/
def chtEnqueue (s : State) (q : ChtReq) : State :=
  if 256 ≤ s.cht.queue.length then complete s q.h stCapacity
  else showQueue (accept { s with cht := { s.cht with queue := reqInsert q s.cht.queue } } q.h)

/-- A request that a shadow's own checks refuse waits for what the lead does with it (R522). -/
def chtDoubt (s : State) (q : ChtReq) (status : Nat) : State :=
  accept { s with cht := { s.cht with doubt := s.cht.doubt ++ [(q, status)] } } q.h

/-- CHT_RESERVE is refused, or waits in doubt where the lead has it accepted. -/
def chtRefuse (s : State) (q : ChtReq) (status : Nat) : State :=
  if s.twn.reflecting then chtDoubt s q status else complete s q.h status

/-- CHT_RESERVE. -/
def chtReserve (mode : Nat) (h : Handle) (rover nSeg bufAddr rsv : Nat) (buf : BufIn) (s : State) : State :=
  let q : ChtReq := { h := h, rover := rover, mode := mode, segs := (List.range nSeg).filterMap fun k => segRecord buf.data k rover
                      area := none, acc := s.now, win := h.cyc / 31250, done := 0 }
  if !bufOk s bufAddr (48 * nSeg) buf then chtRefuse s q stBuffer
  else if 256 ≤ s.cht.queue.length then chtRefuse s q stCapacity
  else if rsv ≠ 0 ∨ 127 < rover ∨ nSeg = 0 ∨ 4096 < nSeg ∨ bufAddr % 8 ≠ 0 then chtRefuse s q stSeg
  else
    match segArray s rover nSeg buf.data with
    | none => chtRefuse s q stSeg
    | some gs => chtEnqueue s { q with segs := gs }

/-- CHT_RELEASE: FORCE is judged against the state at acceptance; it takes effect at the next boundary. -/
def chtRelease (h : Handle) (rover : Nat) (force : Bool) (rsv : Nat) (s : State) : State :=
  if rsv ≠ 0 ∨ 127 < rover then complete s h stSeg
  else
    let st := chtSt s rover
    if st = 0 ∨ ((st = 4 ∨ st = 5) ∧ force = false) then complete s h stState
    else
      let v := chtRover s rover
      accept (setChtRover s rover { v with release := v.release ++ [h] }) h

/-- CHT_STAGING. -/
def chtStaging (h : Handle) (rover : Nat) (e n : Int) (radius rsv : Nat) (s : State) : State :=
  if rsv ≠ 0 ∨ 127 < rover ∨ ¬ (radius = 0 ∨ (1000 ≤ radius ∧ radius ≤ 200000)) then complete s h stSeg
  else if s.cht.origin.isNone then complete s h stOrigin
  else if radius = 0 then
    let v := chtRover s rover
    accept (setChtRover s rover { v with unstage := v.unstage ++ [h] }) h
  else chtEnqueue s { h := h, rover := rover, mode := 0, segs := [], area := some { e := e, n := n, rad := radius }
                      acc := s.now, win := h.cyc / 31250, done := 0 }

/-! ### Grants (R198 to R201) -/

/-- A decision of tick t may be granted: the shadow has acknowledged it, items 1 and 8 (R4, R324, R326), or the module is
in solo operation, after the boundary of its claim (step 6 of R330). -/
def grantDue (s : State) (t : Nat) : Bool :=
  decide (t < s.tick)
    && ((s.solo && s.twn.claimLeft != 2) || (s.inSync && decide (t ≤ s.twn.ack1) && decide (t ≤ s.twn.ack8)))

/-- A change of rover r's corridor or staging area is carried to the shadow, with the generation in force (R43, R323). -/
def chtTell (s : State) (r : Nat) (c : ChtChange) : State := 
  reflect s (.grant r c s.tick (s.r Reg.CHT_GRANT_GEN.GEN) (footCrc s r))

/-- Row 2 of R198 for a corridor; `tick`: the grant tick of R187. -/
def grantCorridor (s : State) (r : Nat) (p : ChtPend) (tick : Nat) : State :=
  let v := chtRover s r
  let segs := p.segs.map fun g => if g.first then { g with grantTick := some tick } else g
  let s := setChtSt s r 2
  let s := setChtRover s r { v with segs := if p.mode = 1 then v.segs ++ segs else segs, cap := segs.getLast?, pend := none, dl := segs, how := p.mode, dlNew := true }
  let s := genAdvance s
  let s := s.w Reg.CHT_ROVER.GEN_GRANTED (s.r Reg.CHT_GRANT_GEN.GEN) r
  raiseTick (complete s p.h stOk) 160 r

/-- A reserved staging area comes in force (R201). -/
def grantStage (s : State) (r : Nat) (x : Stage × Nat × Handle) : State :=
  let v := chtRover s r
  let s := setChtRover s r { v with stage := some x.1, stages := v.stages.filter (fun y => !(y == x)) }
  raiseTick (complete (genAdvance s) x.2.2 stOk) 160 r

/-- The corridor of rover r comes in force where it is due; a shadow has that from the lead (R522). -/
def chtGrantCorridor (r : Nat) (s : State) : State :=
  match (chtRover s r).pend with
  | some p => if s.mode != .shadow && grantDue s p.tick then chtTell (grantCorridor s r p s.tick) r .granted else s
  | none => s

/-- The staging areas of rover r that are due come in force. -/
def chtGrantStages (r : Nat) (s : State) : State :=
  (chtRover s r).stages.foldl
    (fun s x => if s.mode != .shadow && grantDue s x.2.1 then chtTell (grantStage s r x) r (.staged x.2.2) else s) s

/-- What rover r has reserved and may now be granted. -/
def chtGrant (r : Nat) (s : State) : State := chtGrantStages r (chtGrantCorridor r s)

/-- The corridor of rover r goes to REST. -/
def chtRest (s : State) (r : Nat) : State := raiseTick (genAdvance (setChtSt s r 3)) 166 r

/-- Row 4 of R198 is due: the containment window of the last segment has ended while GRANTED. -/
def restDue (s : State) (r : Nat) : Bool :=
  chtSt s r == 2 && (chtRover s r).cap.any (fun g => decide (g.tExit + timeMargin s < s.tick))

/-- Row 4 of R198, after what rows 1 to 3 bring at the same boundary (R206 row 6). -/
def corridorRest (r : Nat) (s : State) : State :=
  let s := if (chtRover s r).release.isEmpty then chtGrantCorridor r s else s
  if s.mode != .shadow && restDue s r then chtTell (chtRest s r) r .rested else s

/-- The segments of rover r whose windows have ended by tick t (R187). -/
def segsFree (t r : Nat) (s : State) : State :=
  let v := chtRover s r
  setChtRover s r { v with segs := v.segs.filter fun g => decide (t ≤ g.tExit + 2 * timeMargin s + 1) }

/-- Expired segments are freed at a watch boundary (R187); a shadow has that from the lead (R522). -/
def segmentFreed (r : Nat) (s : State) : State :=
  if s.ttu.pos ≠ 0 ∨ chtHeld s r = true ∨ s.mode = .shadow then s
  else
    let t := segsFree s.tick r s
    if (chtRover t r).segs = (chtRover s r).segs then s else chtTell t r .freed

/-! ### The next boundary (R198 rows 5 to 7, R206) -/

/-- A breach or LOST takes effect on rover r. -/
def chtHoldAll (s : State) (r st : Nat) : State :=
  if chtSt s r = 5 ∨ chtSt s r = st then s
  else
    let v := chtRover s r
    let s := match v.pend with
      | some p =>
        let old : List ChtSeg := match v.cap with
          | some g => v.segs ++ [{ g with e0 := g.e1, n0 := g.n1, tEnter := g.tExit }]
          | none => v.segs
        let v := if p.mode = 0 then { v with segs := old ++ p.segs, cap := p.segs.getLast?, pend := none } else { v with pend := none }
        complete (setChtRover (setChtSt s r st) r v) p.h stState
      | none => setChtRover (setChtSt s r st) r v
    let s := genAdvance s
    if st = 5 then raise s 164 r else s

/-- A release takes effect on rover r. -/
def chtReleaseAll (s : State) (r : Nat) (hs : List Handle) : State :=
  let v := chtRover s r
  let gen := chtSt s r != 1
  let under := s.cht.queue.filter fun q => q.rover == r && q.area.isNone
  let s := { s with cht := { s.cht with queue := s.cht.queue.filter fun q => !(q.rover == r && q.area.isNone) } }
  let s := under.foldl (fun s q => complete s q.h stCancelled) s
  let s := match v.pend with
    | some p => complete s p.h stCancelled
    | none => s
  let s := setChtRover (setChtSt s r 0) r { v with segs := [], cap := none, pend := none, release := [], dl := [] }
  let s := if gen then genAdvance s else s
  raise (hs.foldl (fun s h => complete s h stOk) (showQueue s)) 165 r

/-- A removal of the staging area takes effect (R201). -/
def chtUnstage (s : State) (r : Nat) : State :=
  let v := chtRover s r
  v.unstage.foldl (fun s h => complete s h stOk) (setChtRover s r { v with stage := none, unstage := [] })

/-- A breach or a freeze waiting is done with. -/
def chtHeldDone (s : State) (r : Nat) : State := setChtRover s r { chtRover s r with breach := false, freeze := false }

/-- Rows 5 and 6 of R198: the state a breach or LOST that waits brings; LOST first (row 1 of R206). -/
def chtHoldDue (s : State) (r : Nat) : State :=
  let v := chtRover s r
  if v.freeze then chtTell (chtHoldAll s r 5) r .frozen
  else if v.breach then chtTell (chtHoldAll s r 4) r .breached
  else s

/-- What a boundary does to rover r: the removal of its staging area (log entry 70), then by R198 and R206 a grant due, then
REST, whose row prevails over those of a breach or LOST, and a release. -/
def chtBoundary (s : State) (r : Nat) : State :=
  let v := chtRover s r
  let s := if v.unstage.isEmpty then s else chtTell (chtUnstage s r) r .unstaged
  let s := chtGrantStages r (if v.release.isEmpty then chtGrantCorridor r s else s)
  let rest := restDue s r
  let s := if rest then chtTell (chtRest s r) r .rested else s
  let s := if rest then s else chtHoldDue s r
  let s := if v.breach || v.freeze then chtHeldDone s r else s
  if v.release.isEmpty then s else chtTell (chtReleaseAll s r v.release) r .released

/-- Chart at a tick boundary: start and stop of its slot, the origin, the changes due in the lead, and at a watch boundary
the segments freed (R185, R187, R493, R520). A shadow takes its changes from the lead (R522); its own registers give it no
origin. A lead that becomes shadow in step with its peer keeps the origin in force, now as the lead's. -/
def chtTick (s : State) : State :=
  if !s.running then
    let s := if s.cht.ran then chtDiscard s else s
    originOwn { s with cht := { s.cht with ran := false, asLead := false } }
  else if s.leading then
    let s := if s.cht.asLead then s else originSet s (ownOrigin s) false
    let s := { s with cht := { s.cht with ran := true, asLead := true } }
    let s := s.cht.rovers.foldl (fun s p => chtBoundary s p.1) s
    s.cht.rovers.foldl (fun s p => segmentFreed p.1 s) s
  else
    let s := if !s.cht.ran then originShow s none true
      else if s.cht.asLead then originShow s (if s.inSync then s.cht.origin else none) true
      else s
    { s with cht := { s.cht with ran := true, asLead := false } }

/-- A rover is declared LOST: its corridor freezes at the next boundary (R205). -/
def chtFreeze (s : State) (r : Nat) : State := setChtRover s r { chtRover s r with freeze := true }

/-! ### Containment (R202 to R204) -/

/-- The active footprint with the smallest deviation less limit: (excess, deviation, width, SEG). -/
def worstFoot (p : Pt) (tol : Nat) : List Active → Option (Int × Dist2 × Nat × Nat) → Option (Int × Dist2 × Nat × Nat)
  | [], best => best
  | f :: fs, best =>
    let d := pointDist p f.2.1 f.2.2.1
    let x : Int := 2 * (d.fine : Int) - (f.2.2.2 + 2 * tol) * 2 ^ 20
    let better := match best with
      | some b => decide (x < b.1)
      | none => true
    worstFoot p tol fs (if better then some (x, d, f.2.2.2, f.1) else best)

/-- The bytes of a deviation record (R204). -/
def devBytes (kind r consec dev lim : Nat) (fe fn : Int) (seg acted te : Nat) : List Byte :=
  le 1 kind ++ le 1 r ++ le 2 consec ++ le 4 dev ++ le 4 lim ++ le 4 (ofSigned 32 fe) ++ le 4 (ofSigned 32 fn)
    ++ le 2 seg ++ le 1 acted ++ le 1 0 ++ le 8 te

/-- The check of a FIXED record of rover r at (fe, fn), of the epoch tick te, at a cycle of the tick. -/
def containment (s : State) (r : Nat) (fe fn : Int) (consec te cyc : Nat) : State :=
  if !s.running || s.cht.origin.isNone then s
  else
    let s := setChtRover s r { chtRover s r with fixedAt := some te }
    let tol := s.r Reg.CHT_CFG.CONTAIN_TOL_MM
    let fs := activeFoots s r te
    match worstFoot (fe, fn) tol fs none with
    | none => s
    | some (_, d, w, seg) =>
      let far (k : Nat) := fs.all fun f => (pointDist (fe, fn) f.2.1 f.2.2.1).twiceOver (k * (f.2.2.2 + 2 * tol))
      let over_ := far 1
      let dev := d.round
      let lim := (w + 2 * tol + 1) / 2
      let s := (s.w Reg.CHT_ROVER.DEV_MM dev r).w Reg.CHT_ROVER.CHECK_TICK te r
      let put (kind acted : Nat) (s : State) := cplPut s 133 (devBytes kind r consec dev lim fe fn seg acted te)
      if chtHeld s r && over_ then put 2 0 s
      else if far 2 || (over_ && decide (2 ≤ consec)) then
        let s := put 2 1 s
        let s := raise (s.inc Reg.CHT_COUNTS.BREACH_COUNT) 162 r
        let s := setChtRover s r { chtRover s r with breach := true }
        requestStopAt s 6 (some r) cyc
      else if over_ && consec == 1 then raiseTick ((put 1 0 s).inc Reg.CHT_COUNTS.DEV_HELD_COUNT) 163 r
      else s

/-! ### The shadow (R522) -/

/-- The lead has completed a request that waits in doubt. -/
def doubtDone (s : State) (h : Handle) : State :=
  { s with cht := { s.cht with doubt := s.cht.doubt.filter (fun x => !(x.1.h.sq == h.sq && x.1.h.idx == h.idx)) } }

/-- A claimant completes the requests in doubt by its own checks. -/
def doubtClaim (s : State) : State :=
  s.cht.doubt.foldl (fun s x => complete s x.1.h x.2) { s with cht := { s.cht with doubt := [] } }

/-- The shadow makes a change of the lead's, with the lead's tick and grant generation; a footprint set that then differs
from the lead's is counted (R327). -/
def chtMirror (r : Nat) (c : ChtChange) (tick gen crc : Nat) (s : State) : State :=
  let was := s.cht.genTick
  let s := match c with
    | .granted => match (chtRover s r).pend with
      | some p => (grantCorridor s r p tick).w Reg.CHT_ROVER.GEN_GRANTED gen r
      | none => s
    | .staged h => match (chtRover s r).stages.find? (fun (x : Stage × Nat × Handle) => x.2.2.sq == h.sq && x.2.2.idx == h.idx) with
      | some x => grantStage s r x
      | none => s
    | .unstaged => chtUnstage s r
    | .rested => chtHeldDone (chtRest s r) r
    | .breached => chtHeldDone (chtHoldAll s r 4) r
    | .frozen => chtHeldDone (chtHoldAll s r 5) r
    | .released => chtReleaseAll s r (chtRover s r).release
    | .freed => segsFree tick r s
  { s with cht := { s.cht with genTick := was, differ := s.cht.differ + b2n (footCrc s r != crc) } }.w Reg.CHT_GRANT_GEN.GEN gen

/-- The shadow applies a decision of the lead, and holds its own test and its footprint set against it. -/
def chtApply (s : State) (h : Handle) (status tick : Nat) (conflict : List Byte) (crc : Nat) : State :=
  let mine (q : ChtReq) : Bool := q.h.sq == h.sq && q.h.idx == h.idx
  let doubt := (s.cht.doubt.find? (fun x => mine x.1)).map (·.1)
  match s.cht.queue.find? mine <|> doubt with
  | none => s
  | some q =>
    let own := chtJudge s q tick
    let same := own.1 == status && own.2.1 == conflict && doubt.isNone
      && footCrc (chtDecide s q status tick conflict) q.rover == crc
    let s := { s with cht := { s.cht with
      queue := s.cht.queue.filter (fun x => !mine x), doubt := s.cht.doubt.filter (fun x => !mine x.1)
      differ := s.cht.differ + b2n (!same) } }
    showQueue (chtDecide s q status tick conflict)

/-! ### The commands -/

def execChtReserveNew (h : Handle) (rover nSeg bufAddr rsv : Nat) (buf : BufIn) (s : State) :
    Host.Outcome State Fault Refusal :=
  withOut s (ringOp leadModes h (descOf (.chtReserveNew h rover nSeg bufAddr rsv buf))
    (chtReserve 0 h rover nSeg bufAddr rsv buf))
def execChtReserveAppend (h : Handle) (rover nSeg bufAddr rsv : Nat) (buf : BufIn) (s : State) :
    Host.Outcome State Fault Refusal :=
  withOut s (ringOp leadModes h (descOf (.chtReserveAppend h rover nSeg bufAddr rsv buf))
    (chtReserve 1 h rover nSeg bufAddr rsv buf))
def execChtReserveReplace (h : Handle) (rover nSeg bufAddr rsv : Nat) (buf : BufIn) (s : State) :
    Host.Outcome State Fault Refusal :=
  withOut s (ringOp leadModes h (descOf (.chtReserveReplace h rover nSeg bufAddr rsv buf))
    (chtReserve 2 h rover nSeg bufAddr rsv buf))
def execChtRelease (h : Handle) (rover : Nat) (force : Bool) (rsv : Nat) (s : State) : Host.Outcome State Fault Refusal :=
  withOut s (ringOp leadModes h (descOf (.chtRelease h rover force rsv)) (chtRelease h rover force rsv))
def execChtStaging (h : Handle) (rover : Nat) (e n : Int) (radius rsv : Nat) (s : State) :
    Host.Outcome State Fault Refusal :=
  withOut s (ringOp leadModes h (descOf (.chtStaging h rover e n radius rsv))
    (chtStaging h rover e n radius rsv))
def execChtStagingRemove (h : Handle) (rover : Nat) (e n : Int) (rsv : Nat) (s : State) :
    Host.Outcome State Fault Refusal :=
  withOut s (ringOp leadModes h (descOf (.chtStagingRemove h rover e n rsv))
    (chtStaging h rover e n 0 rsv))
def execChtSlot (use : SlotUse) (limit : Nat) (s : State) : Host.Outcome State Fault Refusal :=
  withOut s fun s => engines s (chtSlot use limit)
def execChtGrant (r : Fin 128) (s : State) : Host.Outcome State Fault Refusal :=
  withBoundary s fun s => if s.running then chtGrant r s else s
def execCorridorRest (r : Fin 128) (s : State) : Host.Outcome State Fault Refusal :=
  withBoundary s fun s => if s.running then corridorRest r s else s
def execSegmentFreed (r : Fin 128) (s : State) : Host.Outcome State Fault Refusal :=
  withBoundary s fun s => if s.running then segmentFreed r s else s

end Sys2Proof.Machine
end

