-- ==== Sys2Proof/Machine/Ils.lean ====
section
/-! DEFINITION. Sys2Proof/Machine/Ils.lean: integer least squares as R164 to R166 define them, over exact fractions:
matrices, an integer-preserving transformation, conditional variances, and the search for the best and second-best integer
vectors in the metric of a covariance. -/

namespace Sys2Proof.Machine

/-! ### Matrices -/

/-- Σ xᵢ yᵢ. -/
def dotQ (xs ys : List Rat) : Rat := (xs.zip ys).foldl (fun a p => a + p.1 * p.2) 0

def colQ (m : List (List Rat)) (j : Nat) : List Rat := m.map fun r => r.getD j 0

/-- The product of two matrices of n columns. -/
def mulQ (n : Nat) (a b : List (List Rat)) : List (List Rat) := a.map fun r => (List.range n).map fun j => dotQ r (colQ b j)

def transposeQ (n : Nat) (m : List (List Rat)) : List (List Rat) := (List.range n).map (colQ m)

def identQ (n : Nat) : List (List Rat) := (List.range n).map fun i => (List.range n).map fun j => if i = j then 1 else 0

def toQ (m : List (List Int)) : List (List Rat) := m.map fun r => r.map fun v => (v : Rat)

/-- An integer-preserving transformation with its inverse: integers map to integers both ways, so it is unimodular (R164). -/
structure Unimod where
  fwd : List (List Rat)
  bwd : List (List Rat)

/-- The transformation a proposal gives: an n × n pair of integer matrices that are each other's inverses; of any other pair
the ambiguities are left as they are. -/
def unimodOf (n : Nat) (z zi : List (List Int)) : Unimod :=
  let sized := decide (z.length = n) && decide (zi.length = n)
  if sized && mulQ n (toQ z) (toQ zi) == identQ n then { fwd := toQ z, bwd := toQ zi } else { fwd := identQ n, bwd := identQ n }

/-! ### Conditional variances -/

/-- A level of the search: the place of its ambiguity among those left, its variance given those taken before it, and what the
others' means move by with it. -/
structure IlsLevel where
  at_  : Nat
  var  : Rat
  move : List Rat

/-- The place of the smallest variance on the diagonal. -/
def smallestVar (q : List (List Rat)) : Nat :=
  (List.range q.length).foldl (fun b i => if (q.getD i []).getD i 0 < (q.getD b []).getD b 0 then i else b) 0

/-- The levels of a covariance in the order of the conditional variances, the smallest first. -/
def ilsLevels : Nat → List (List Rat) → List IlsLevel
  | 0, _ => []
  | n + 1, q =>
    let k := smallestVar q
    let d := (q.getD k []).getD k 0
    let v := ((colQ q k).eraseIdx k).map fun x => x / d
    let rest := (q.eraseIdx k).map fun r => r.eraseIdx k
    { at_ := k, var := d, move := v }
      :: ilsLevels n ((rest.zip v).map fun p => (p.1.zip v).map fun x => x.1 - p.2 * x.2 * d)

/-! ### The search -/

/-- The k-th nearest integer to m. -/
def nearestInt (m : Rat) (k : Nat) : Int :=
  let r := (m + 1 / 2).floor
  let up : Int := if (r : Rat) ≤ m then 1 else -1
  if k % 2 = 1 then r + up * ((k + 1) / 2 : Nat) else r - up * (k / 2 : Nat)

/-- An unfinished node: the levels and conditional means left, the squared distance so far, the integers taken (the last
first), and which of its integers is next. -/
structure IlsFrame where
  levels : List IlsLevel
  means  : List Rat
  dist   : Rat
  taken  : List Int
  next   : Nat

/-- A vector found joins the two best, nearest first. -/
def bestTwo (d : Rat) (v : List Int) : List (Rat × List Int) → List (Rat × List Int)
  | [] => [(d, v)]
  | [b] => if d < b.1 then [(d, v), b] else [b, (d, v)]
  | b :: c :: _ => if d < b.1 then [(d, v), b] else if d < c.1 then [b, (d, v)] else [b, c]

/-- A node no nearer than the second best. -/
def ilsPruned (d : Rat) (best : List (Rat × List Int)) : Bool :=
  match best with
  | _ :: c :: _ => decide (c.1 ≤ d)
  | _ => false

/-- The depth-first search, nearest integers first, visiting at most the number of nodes given: the two best vectors and
whether they are established (R165). -/
def ilsSearch : Nat → List IlsFrame → List (Rat × List Int) → List (Rat × List Int) × Bool
  | _, [], best => (best, true)
  | 0, _, best => (best, false)
  | n + 1, f :: fs, best =>
    match f.levels, f.means with
    | l :: ls, ms =>
      let m := ms.getD l.at_ 0
      let z := nearestInt m f.next
      let d := f.dist + (z - m) * (z - m) / l.var
      if ilsPruned d best then ilsSearch n fs best
      else
        let f' := { f with next := f.next + 1 }
        if ls.isEmpty then ilsSearch n (f' :: fs) (bestTwo d (z :: f.taken) best)
        else
          let means := ((ms.eraseIdx l.at_).zip l.move).map fun p => p.1 - p.2 * (m - z)
          ilsSearch n ({ levels := ls, means := means, dist := d, taken := z :: f.taken, next := 0 } :: f' :: fs) best
    | [], _ => ilsSearch n fs best

/-- The integers of a vector found, each at the place its level took it from; `taken` holds the last level's first. -/
def ilsPlace (levels : List IlsLevel) (taken : List Int) : List Int :=
  ((levels.reverse.zip taken).foldl (fun (v : List Int) p => v.insertIdx p.1.at_ p.2) [])

/-- What the search of a set gives (R164 to R166): best and second best with their squared distances, transformed back;
whether both are established within the node limit; the conditional variances. -/
structure IlsOut where
  ints   : List Int
  d1     : Rat
  d2     : Rat
  done   : Bool
  vars   : List Rat

/-- Float ambiguities, their covariance, a proposed transformation and its inverse, and the node limit. -/
def ilsSolve (flt : List Rat) (cov : List (List Rat)) (z zi : List (List Int)) (limit : Nat) : IlsOut :=
  let n := flt.length
  let u := unimodOf n z zi
  let means := u.fwd.map fun r => dotQ r flt
  let q := mulQ n (mulQ n u.fwd cov) (transposeQ n u.fwd)
  let ls := ilsLevels n q
  let r := ilsSearch limit [{ levels := ls, means := means, dist := 0, taken := [], next := 0 }] []
  let place (v : List Int) : List Int := u.bwd.map fun row => (dotQ row ((ilsPlace ls v).map fun x => (x : Rat))).floor
  match r.1 with
  | b :: c :: _ => { ints := place b.2, d1 := b.1, d2 := c.1, done := r.2, vars := ls.map (·.var) }
  | _ => { ints := [], d1 := 0, d2 := 0, done := false, vars := ls.map (·.var) }

end Sys2Proof.Machine
end

