-- ==== Sys2Proof/Machine/Solve.lean ====
section
/-! DEFINITION. Sys2Proof/Machine/Solve.lean: what a Fix Engine cluster computes for a rover in S2 to S5 (R150 to R161, R164
to R168): entries, light-milliseconds, the observations used, groups and references, double differences, slips, sets of
ambiguities and their tests. The estimator and the geometry of the satellites stand outside the spec (log entry 69). -/

namespace Sys2Proof.Machine

open Sys2Proof

/-! ### Clamped fields (R181) -/

def ratioMin (s : State) : Nat := clampN 150 1000 (s.r Reg.FIX_AR_CFG.RATIO_MIN)
def parMin (s : State) : Nat := clampN 4 64 (s.r Reg.FIX_PAR.PAR_MIN)
def parMinSv (s : State) : Nat := clampN 4 15 (s.r Reg.FIX_PAR.PAR_MIN_SV)
def baselineMaxKm (s : State) : Nat := clampN 1 20 (s.r Reg.FIX_LIMITS.BASELINE_MAX_KM)
/-- SEARCH_NODES in nodes; 0 taken as 1. -/
def searchLimit (s : State) : Nat := 1024 * max 1 (s.r Reg.FIX_PAR.SEARCH_NODES)
/-- ELEV_MASK in degrees, 0 to 30. -/
def fixMask (s : State) : Int :=
  let v := s.ri Reg.FIX_LIMITS.ELEV_MASK
  if v < 0 then 0 else if 30 < v then 30 else v

/-! ### The record's entries (R150, R151, R153) -/

/-- An entry of the record (R151). -/
structure Entry where
  sv      : Nat
  sig     : Nat
  half    : Bool
  restart : Bool
  prMod   : Nat
  carrier : Nat
  lockT   : Nat
  deriving DecidableEq, Repr

def entryAt (b : List Byte) (k : Nat) : Entry :=
  let o := 32 + 16 * k
  { sv := field b o 1, sig := field b (o + 1) 1, half := bitAt (field b (o + 2) 1) 0, restart := bitAt (field b (o + 2) 1) 1
    prMod := field b (o + 4) 4, carrier := field b (o + 8) 6, lockT := field b (o + 14) 1 }

/-- Row 4 of R153, from the entry k on with those used so far: an entry of an unknown or disabled signal, or one like an
earlier entry, is ignored. `en`: SXT_SIG_EN; `seen`: the satellites and signals of every earlier entry. -/
def entriesFrom (en : Nat) (b : List Byte) : Nat → Nat → List (Nat × Nat) → List Entry
  | 0, _, _ => []
  | n + 1, k, seen =>
    let e := entryAt b k
    let rest := entriesFrom en b n (k + 1) ((e.sv, e.sig) :: seen)
    if 17 < e.sig ∨ bitAt en e.sig = false ∨ (e.sv, e.sig) ∈ seen then rest else e :: rest

/-- The entries of a record that are used. -/
def entriesUsed (en : Nat) (b : List Byte) : List Entry := entriesFrom en b (field b 2 1) 0 []

/-- The carrier, unwrapped against the last one modulo 2⁴⁸ units (R152). -/
def unwrap (last : Option Int) (c : Nat) : Int :=
  match last with
  | some l => l + toSigned 48 (ofSigned 48 ((c : Int) - l))
  | none => toSigned 48 c

/-- One light-millisecond in 0.1 mm (R151). -/
def lightMs : Int := 2997924580

/-- The pseudorange in 0.1 mm whose remainder is PR_MOD and which lies nearest to the one expected (R152). -/
def wholeRange (expected prMod : Int) : Int := prMod + (2 * (expected - prMod) + lightMs) / (2 * lightMs) * lightMs

/-! ### Observations used (R155 to R157, R160) -/

/-- An observation of the rover with the base's: ranges in 2⁻²⁴ µm, carriers in 2⁻³² cycle, elevation in 0.01° seen from the
base; the rover's unwrapped carrier, the satellite's position, and what the next record is held against. -/
structure UsedObs where
  e      : Entry
  freqK  : Nat
  elev   : Int
  prR    : Int
  prB    : Int
  cyR    : Int
  cyB    : Int
  unwr   : Int
  sat    : Int × Int × Int
  halfB  : Bool
  lockB  : Nat
  deriving DecidableEq, Repr

/-- A group (R155, R157): one constellation on one carrier frequency; of GLONASS, one band. -/
def groupOf (g : Nat) : Nat × Int := (sigConst g, if g = 12 ∨ g = 13 then (g : Int) else sigFreq g 0)

/-- The base's code-phase bias in 2⁻²⁴ µm, from units of 0.02 m (R157). -/
def gloBias (s : State) (g : Nat) : Int :=
  (if g = 12 then s.ri Reg.OBS_GLO_BIAS.L1CA_BIAS else if g = 13 then s.ri Reg.OBS_GLO_BIAS.L2CA_BIAS else 0) * 20000 * 2 ^ 24

/-- What a half epoch adds to a base range: the change of range, of the satellite's clock, and the base clock drift, over
50 ms (R160). -/
def carriedBy (s : State) (st : ObsSet) (ps : List Nat) (half : Bool) : Int :=
  if half then
    let t1 := st.epoch + uSec / 20
    let b := (s.obs.x, s.obs.y, s.obs.z)
    Config.geoRange b (Config.satPos ps t1) - Config.geoRange b (Config.satPos ps st.epoch)
      + (Config.satClock ps t1 - Config.satClock ps st.epoch) + (lightSpeed : Int) * st.drift * 256 / 1000
  else 0

/-- A carrier change in 2⁻³² cycle that goes with a range change in 2⁻²⁴ µm. -/
def rangeCycles (d : Int) (g k : Nat) : Int := d * sigFreq g k * 256 / ((lightSpeed : Int) * 1000000)

/-- The observation FIX forms from an entry, where R155 lets it be used: the base set holds the same satellite and signal
without UNCORRECTED, a current ephemeris, the elevation; of GLONASS only a satellite whose slot and so frequency channel
is known (R157). `rx`: the rover receiver's clock offset in ns. -/
def usedObs (s : State) (st : ObsSet) (half : Bool) (fl : FixFilt) (rx : Int) (e : Entry) : Option UsedObs :=
  let b := (s.obs.x, s.obs.y, s.obs.z)
  match st.obs.find? (fun o => o.sv == e.sv && o.sig == e.sig && !o.uncorr),
      s.obs.eph.find? (fun p => p.1 == 256 * sigConst e.sig + e.sv) with
  | some o, some (_, eph) =>
    let ps := eph.params
    let t := st.epoch + (if half then uSec / 20 else 0)
    let elev := Config.elevation b (Config.satPos ps t)
    if elev < fixMask s * 100 ∨ (sigConst e.sig = 1 ∧ e.sv = 0) then none
    else
      let near := Config.geoRange (fl.pos.getD b) (Config.satPos ps t) + Config.satClock ps t
      let expected := near / (100 * 2 ^ 24) + rx * (lightSpeed : Int) / 100000
      let c := unwrap ((fl.ambs.find? (fun a => a.sv == e.sv && a.sig == e.sig)).map (·.carr)) e.carrier
      let d := carriedBy s st ps half
      some { e := e, freqK := o.freqK, elev := elev, prR := wholeRange expected e.prMod * 100 * 2 ^ 24
             prB := o.pr - gloBias s e.sig + d, cyR := c * 2 ^ 16, cyB := o.carrier + rangeCycles d e.sig o.freqK
             unwr := c, sat := Config.satPos ps t, halfB := o.half, lockB := o.lockMs + (if half then 50 else 0) }
  | _, _ => none

/-- Satellites of a list of observations. -/
def satsOf (us : List UsedObs) : List (Nat × Nat) := (us.map fun u => (sigConst u.e.sig, u.e.sv)).eraseDups

/-! ### Double differences (R155, R157) -/

/-- The satellite of highest elevation; of equal ones the lowest number. -/
def highest (us : List UsedObs) : Option Nat :=
  (us.foldl (fun (best : Option UsedObs) u => match best with
    | some b => if b.elev < u.elev ∨ (b.elev = u.elev ∧ u.e.sv < b.e.sv) then some u else best
    | none => some u) none).map (·.e.sv)

/-- The reference satellite of a group: the highest of those held in the epoch before; in the first epoch and when the
reference before is lost, the highest of all (R155). -/
def refOf (fl : FixFilt) (us : List UsedObs) (g : Nat × Int) : Option Nat :=
  let mine := us.filter fun u => groupOf u.e.sig == g
  match fl.refs.find? (fun p => p.1 == g) with
  | some (_, r) =>
    if mine.any (fun u => u.e.sv == r) then
      highest (mine.filter fun u => fl.ambs.any fun a => a.te == fl.te && a.sv == u.e.sv && groupOf a.sig == g)
    else highest mine
  | none => highest mine

/-- The groups of an epoch with their reference satellites. -/
def refsOf (fl : FixFilt) (us : List UsedObs) : List ((Nat × Int) × Nat) :=
  ((us.map fun u => groupOf u.e.sig).eraseDups).filterMap fun g => (refOf fl us g).map fun r => (g, r)

/-- The reference's observation for one of its group: of the same signal, or else its first of the group. -/
def refObs (refs : List ((Nat × Int) × Nat)) (us : List UsedObs) (u : UsedObs) : Option UsedObs :=
  match refs.find? (fun p => p.1 == groupOf u.e.sig) with
  | some (g, r) =>
    let mine := us.filter fun x => groupOf x.e.sig == g && x.e.sv == r
    match mine.find? (fun x => x.e.sig == u.e.sig) with
    | some x => some x
    | none => mine.head?
  | none => none

/-- A phase in 2⁻²⁴ µm, by the satellite's own wavelength (R157). -/
def phaseMetres (cy : Int) (g k : Nat) : Int := cy * (lightSpeed : Int) * 1000000 / (sigFreq g k * 256)

/-- GPS, Galileo, BeiDou and QZSS ambiguities may be fixed; GLONASS carriers take part in the float filter; SBAS carriers in
nothing (R156). -/
def mayFix (g : Nat) : Bool := sigConst g != 1 && sigConst g != 3
def inFloat (g : Nat) : Bool := sigConst g != 3

/-- The double difference of an observation against its group's reference, for the estimator: satellite, signal, reference,
code in 2⁻²⁴ µm, whether the carrier takes part, carrier in 2⁻³² cycle (GLONASS: in 2⁻²⁴ µm), elevation, difference of the
frequency channels, whether the ambiguity is new, and the positions of both satellites. -/
def ddRow (u r : UsedObs) (new : Bool) : List Int :=
  let glo := sigConst u.e.sig == 1
  let ph (x : UsedObs) (c : Int) := if glo then phaseMetres c x.e.sig x.freqK else c
  [(u.e.sv : Int), u.e.sig, r.e.sv, (u.prR - u.prB) - (r.prR - r.prB), b2n (inFloat u.e.sig),
    (ph u u.cyR - ph u u.cyB) - (ph r r.cyR - ph r r.cyB), u.elev, toSigned 8 u.freqK - toSigned 8 r.freqK, b2n new,
    u.sat.1, u.sat.2.1, u.sat.2.2, r.sat.1, r.sat.2.1, r.sat.2.2]

/-! ### Slips (R158) -/

/-- What an earlier record holds of an observation. -/
def ambFind (fl : FixFilt) (u : UsedObs) : Option Amb := fl.ambs.find? fun a => a.sv == u.e.sv && a.sig == u.e.sig

/-- An observation goes on from no earlier record: none holds it, a restart of lock on either side since then, a lower
LOCK_T, a change of HALF_CYCLE, or a reset of the receiver. -/
def obsSlip (fl : FixFilt) (te : Nat) (clk : Bool) (u : UsedObs) : Bool :=
  match ambFind fl u with
  | none => true
  | some a =>
    clk || u.e.restart || decide (u.lockB < te - a.te) || (a.lockT != 255 && decide (u.e.lockT < a.lockT))
      || a.halfR != u.e.half || a.halfB != u.halfB

/-- The ambiguity of a double difference is new: a slip of either satellite, or a residual of the predicted state above half
a cycle. -/
def ambNew (fl : FixFilt) (te : Nat) (clk : Bool) (u r : UsedObs) : Bool :=
  obsSlip fl te clk u || obsSlip fl te clk r
    || decide (2 ^ 31 < (Config.slipResidual fl.vec (te - fl.te) (ddRow u r false)).natAbs)

/-- The integer of an observation against the reference of the epoch before: 0 for that reference itself. -/
def ambInt (fl : FixFilt) (u : UsedObs) : Option Int :=
  if fl.refs.contains (groupOf u.e.sig, u.e.sv) then some 0 else ((ambFind fl u).map (·.int)).getD none

/-- The integer at which an ambiguity stays held, against the reference of this epoch. -/
def ambHeld (fl : FixFilt) (te : Nat) (clk : Bool) (u r : UsedObs) : Option Int :=
  if ambNew fl te clk u r then none
  else match ambInt fl u, ambInt fl r with
    | some a, some b => some (a - b)
    | _, _ => none

/-- What the filter keeps of an observation for the next record. -/
def ambOf (te : Nat) (u : UsedObs) (int : Option Int) : Amb :=
  { sig := u.e.sig, sv := u.e.sv, te := te, carr := u.unwr, lockT := u.e.lockT, halfR := u.e.half, halfB := u.halfB, int := int }

/-! ### Sets of ambiguities (R164 to R167) -/

/-- Distinct satellites of a list of ambiguities. -/
def ambSats (as : List (Nat × Nat)) : List (Nat × Nat) := (as.map fun a => (sigConst a.2, a.1)).eraseDups

/-- The outcome of a test of a set, held ambiguities counted with it: its size and satellites, the ratio in 0.01, the
bootstrapped failure rate in 10⁻⁶, whether the search met its node limit (R165), and the integers found. -/
structure SetTest where
  nAmb   : Nat
  nSv    : Nat
  ratio  : Nat
  pf     : Nat
  capped : Bool
  ints   : List Int
  deriving DecidableEq, Repr

/-- The rows of a set's ambiguities as the estimator names them. -/
def setRows (as : List (Nat × Nat)) : List (List Int) := as.map fun a => [(a.1 : Int), a.2]

/-- The ratio in 0.01 (R166). -/
def ratioOf (d1 d2 : Rat) : Nat := if d1 = 0 then Config.ratioOpen else (100 * d2 / d1).floor.toNat

/-- Decorrelation, search and ratio of one set (R164 to R167); `held`: the ambiguities held. -/
def testSet (s : State) (vec : List Int) (held as : List (Nat × Nat)) : SetTest :=
  let cov := Config.ambCov vec (setRows as)
  let z := Config.decorrelate cov
  let flt := (Config.ambFloat vec (setRows as)).map fun v => (v : Rat) / (2 ^ 32 : Nat)
  let r := ilsSolve flt ((toQ cov).map fun row => row.map fun v => v / (2 ^ 64 : Nat)) z.1 z.2 (searchLimit s)
  { nAmb := (held ++ as).length, nSv := (ambSats (held ++ as)).length, ratio := ratioOf r.d1 r.d2
    pf := Config.bootFailure r.vars, capped := !r.done, ints := r.ints }

/-- A set is fixed (R167). -/
def setPasses (s : State) (t : SetTest) : Bool :=
  !t.capped && decide (ratioMin s ≤ t.ratio) && decide (parMin s ≤ t.nAmb) && decide (parMinSv s ≤ t.nSv)
    && decide (t.pf ≤ s.r Reg.FIX_AR_CFG.PAR_PF)

/-- The float variance of one ambiguity. -/
def ambVar (vec : List Int) (a : Nat × Nat) : Int := ((Config.ambCov vec (setRows [a])).headD []).headD 0

/-- The satellite with the largest float ambiguity variance. -/
def worstSat (vec : List Int) (as : List (Nat × Nat)) : Option (Nat × Nat) :=
  (as.foldl (fun (best : Option (Nat × Nat)) a => match best with
    | some b => if ambVar vec b < ambVar vec a then some a else best
    | none => some a) none).map fun a => (sigConst a.2, a.1)

/-- The set without the ambiguities of its worst satellite. -/
def dropWorst (vec : List Int) (as : List (Nat × Nat)) : List (Nat × Nat) :=
  match worstSat vec as with
  | some w => as.filter fun a => (sigConst a.2, a.1) != w
  | none => []

/-- The sets tested, up to the first that passes, at most n after the full one (R167). -/
def triedSets (s : State) (vec : List Int) (held : List (Nat × Nat)) : Nat → List (Nat × Nat) → List (List (Nat × Nat) × SetTest)
  | n, as =>
    if as.isEmpty then []
    else
      let t := testSet s vec held as
      if setPasses s t then [(as, t)]
      else match n with
        | 0 => [(as, t)]
        | m + 1 => (as, t) :: triedSets s vec held m (dropWorst vec as)

/-- RATIO as a record reports it (R166). -/
def setRatio (t : SetTest) : Nat := if t.capped then 0 else min t.ratio 65535

/-! ### The solution of an epoch (R161 to R168, R519) -/

/-- The baseline exceeds BASELINE_MAX_KM. -/
def baselineLong (s : State) (p : Int × Int × Int) : Bool :=
  let d := (p.1 - s.obs.x, p.2.1 - s.obs.y, p.2.2 - s.obs.z)
  decide (((baselineMaxKm s * 10000000 : Nat) : Int) ^ 2 < d.1 * d.1 + d.2.1 * d.2.1 + d.2.2 * d.2.2)

/-- REASON of a FLOAT record (R519). `nFixSv`: satellites carrying fixable ambiguities. -/
def floatReason (s : State) (long : Bool) (after nFixSv : Nat) (tried : List SetTest) : Nat :=
  if long then 0x0B
  else if after ≤ 2 then 0x08
  else if nFixSv < parMinSv s then 0x07
  else if tried.any (·.capped) then 0x0A
  else 0x09

/-- What weighs the update: the base position, ms since the last epoch, ACC_PSD, PHASE_SIGMA in 0.1 mm, the code's 0.30 m,
and ODO_SPEED with its 50 mm/s where it is valid. -/
def updateCfg (s : State) (fl : FixFilt) (te : Nat) (b : List Byte) : List Int :=
  [s.obs.x, s.obs.y, s.obs.z, (te - fl.te : Nat), s.r Reg.FIX_NOISE.ACC_PSD, s.r Reg.FIX_NOISE.PHASE_SIGMA, 300]
    ++ (if bitAt (field b 3 1) 2 then [toSigned 32 (field b 12 4), 50] else [])

/-- The position in 0.1 mm: the first three numbers of a state vector (log entry 69). -/
def filtPos (vec : List Int) : Int × Int × Int := (vec.getD 0 0, vec.getD 1 0, vec.getD 2 0)

/-- A state vector whose position is moved, everything else kept (R163 row 2). -/
def vecMove (d : Int × Int × Int) : List Int → List Int
  | x :: y :: z :: rest => (x + d.1) :: (y + d.2.1) :: (z + d.2.2) :: rest
  | v => v

/-- The position, speed and standard deviations of a state vector. -/
def solPos (vec : List Int) : SolPos :=
  let p := filtPos vec
  let v := Config.filtVel vec
  let g := Config.filtSig vec
  { x := p.1, y := p.2.1, z := p.2.2, ve := v.1, vn := v.2, sigH := g.1, sigV := g.2 }

/-- The base set a record of epoch tick te is solved against (R159, R160). -/
def baseSetFor (s : State) (te : Nat) (half : Bool) : Option ObsSet :=
  s.obs.set.filter fun b => decide (b.tick + (if half then 50 else 0) = te) && b.obs.any (fun o => !o.uncorr)

/-- An observation with its reference; the reference of a group itself has none. -/
def paired (refs : List ((Nat × Int) × Nat)) (us : List UsedObs) : List (UsedObs × UsedObs) :=
  us.filterMap fun u => match refObs refs us u with
    | some r => if r.e.sv = u.e.sv ∧ sigConst r.e.sig = sigConst u.e.sig then none else some (u, r)
    | none => none

/-- Ambiguities estimated: one for each carrier double difference, and for GLONASS one for each satellite and band. -/
def ambCount (ds : List (UsedObs × UsedObs)) (us : List UsedObs) : Nat :=
  (ds.filter fun d => mayFix d.1.e.sig).length + (us.filter fun u => sigConst u.e.sig == 1).length

/-- The filter and record of an epoch in a filter that holds a state (rows 8 to 10 of R163). `fl`: the filter before, `vec`
its vector after the float update, `ds` the double differences, `us` the observations. -/
def solveHeld (s : State) (fl : FixFilt) (te : Nat) (clk : Bool) (vec : List Int) (us : List UsedObs)
    (ds : List (UsedObs × UsedObs)) (flags : SolFlags) : SolOut :=
  let long := baselineLong s (filtPos vec)
  let fixable := ds.filter fun d => mayFix d.1.e.sig
  let kept : List (UsedObs × Int) := if long then [] else fixable.filterMap fun d =>
    match ambHeld fl te clk d.1 d.2 with
    | some n => if s.r Reg.FIX_PAR.HOLD_RES_MM < Config.heldResidual vec (ddRow d.1 d.2 false) n then none else some (d.1, n)
    | none => none
  let name (u : UsedObs) := (u.e.sv, u.e.sig)
  let held := kept.map fun k => name k.1
  let free := (fixable.map fun d => name d.1).filter fun a => !held.contains a
  let nFixSv := (ambSats (fixable.map fun d => name d.1)).length
  let tried := if long || decide (nFixSv < parMinSv s) then []
    else triedSets s vec held (s.r Reg.FIX_PAR.PAR_MAX_DROP) free
  let pass := tried.getLast?.filter fun t => setPasses s t.2
  let ratio := match tried.getLast? with
    | some t => setRatio t.2
    | none => 0
  let intOf (u : UsedObs) : Option Int :=
    match kept.find? (fun k => name k.1 == name u), pass with
    | some k, _ => some k.2
    | none, some t => (t.1.zip t.2.ints).find? (fun p => p.1 == name u) |>.map (·.2)
    | none, none => none
  let ints : List (UsedObs × Option Int) := us.map fun u => (u, intOf u)
  let rows := ints.filterMap fun p => p.2.map fun n => [(p.1.e.sv : Int), p.1.e.sig, n]
  let vec := if rows.isEmpty then vec else Config.floatUpdate [] vec [] rows
  let fl : FixFilt := { fl with
    after := fl.after + 1, te := te, vec := vec, pos := some (filtPos vec), refs := refsOf fl us
    ratio := if tried.isEmpty then fl.ratio else ratio, ambs := ints.map fun p => ambOf te p.1 p.2 }
  let q : SolRec := { quality := 1, reason := 0, nSv := (satsOf us).length, nFixed := rows.length, nAmb := ambCount ds us
                      ratio := ratio, sol := some (solPos vec) }
  match pass with
  | some _ =>
    { q := { q with quality := 2 }, flags := { flags with partialFix := decide (1 < tried.length) }, filt := some { fl with st := 3 } }
  | none =>
    if long = false ∧ parMin s ≤ held.length ∧ parMinSv s ≤ (ambSats held).length then
      { q := { q with quality := 2, ratio := fl.ratio }, flags := { flags with held := true }, filt := some { fl with st := 3 } }
    else
      { q := { q with reason := floatReason s long fl.after nFixSv (tried.map (·.2)) }, flags := { flags with long := long }
        filt := some { fl with st := 2 }, dropped := fl.st == 3 }

/-- What a cluster computes for a loaded record (S2 to S6). `fl`: the filter loaded; `stale`: it has had no update for more
than 1,000 ticks (row 6 of R163). -/
def solveJob (s : State) (j : FixJob) (fl : FixFilt) (stale : Bool) : SolOut :=
  let b := j.data
  let flags : SolFlags := { carried := j.half, reset := stale, odo := bitAt (field b 3 1) 2 }
  match baseSetFor s j.te j.half with
  | none => { q := { quality := 0, reason := 5 }, flags := { carried := j.half } }
  | some st =>
    let fl := if stale then {} else fl
    let clk := bitAt (field b 3 1) 1
    let us := (entriesUsed (s.r Reg.SXT_SIG_EN.SIG_EN) b).filterMap (usedObs s st j.half fl (toSigned 32 (field b 8 4)))
    let nSv := (satsOf us).length
    let ds := paired (refsOf fl us) us
    if nSv < 5 then { q := { quality := 0, reason := 7, nSv := nSv, nAmb := ambCount ds us }, flags := { carried := j.half } }
    else
      let rows := ds.map fun d => ddRow d.1 d.2 (ambNew fl j.te clk d.1 d.2)
      let held := ds.filterMap fun d => (ambHeld fl j.te clk d.1 d.2).map fun n => [(d.1.e.sv : Int), d.1.e.sig, n]
      let vec := Config.floatUpdate (updateCfg s fl j.te b) fl.vec rows held
      if fl.st = 0 then
        { q := { quality := 0, reason := 8, nSv := nSv, sol := some (solPos vec) }, flags := { flags with codeOnly := true }
          filt := some { st := 1, te := j.te, vec := vec, pos := some (filtPos vec), refs := refsOf fl us
                         ambs := us.map fun u => ambOf j.te u none } }
      else solveHeld s fl j.te clk vec us ds flags

end Sys2Proof.Machine
end

