-- ==== Sys2Proof/Machine/Fix.lean ====
section
/-! DEFINITION. Sys2Proof/Machine/Fix.lean: the Fix Engine: rovers, upload windows, the pipeline, the filter's states,
solution records and clusters (R145 to R182, R519). What a cluster computes stands in Solve.lean. -/

namespace Sys2Proof.Machine

open Sys2Proof

/-! ### Registers -/

def fixRover (s : State) (r : Nat) : FixRover := mget ({} : FixRover) s.fix.rovers r

/-- Replace what FIX holds of a rover, and show its filter state. -/
def setFixRover (s : State) (r : Nat) (v : FixRover) : State :=
  { s with fix := { s.fix with rovers := mput ({} : FixRover) s.fix.rovers r v } }.w Reg.FIX_ROVER.FSTATE
    (if v.paused.isSome then 4 else v.filt.st) r

/-- Replace a rover's filter. -/
def setFilt (s : State) (r : Nat) (f : FixFilt) : State := setFixRover s r { fixRover s r with filt := f }

def fixEnabled (s : State) (r : Nat) : Bool := s.rb Reg.FIX_ROVER.ENABLED r

/-- The tick-in-watch number. -/
def tiw (s : State) : Nat := s.r Reg.TTU_WATCH_POS.TICK_IN_WATCH

/-! ### Filters (R163) -/

/-- A filter not yet stored becomes what f makes of it. -/
def outFilt (s : State) (r : Nat) (f : FixFilt → FixFilt) : State :=
  { s with fix := { s.fix with outs := s.fix.outs.map fun o => if o.rover = r then { o with filt := o.filt.map f } else o } }

/-- A filter that holds a state, in LPDDR5 or in an output buffer. -/
def filtHolds (s : State) (r : Nat) : Bool :=
  (fixRover s r).filt.st != 0 || s.fix.outs.any fun o => o.rover == r && o.filt.any (fun f => f.st != 0)

/-- Reset filters under row 1 of R163; an EMPTY filter is left as it is and is not counted. -/
def fixReset (s : State) (rs : List Nat) : State :=
  let hit := rs.filter (filtHolds s)
  let s := rs.foldl (fun s r => setFixRover s r { fixRover s r with bad := false }) s
  let s := hit.foldl (fun s r => (setFixRover (outFilt s r fun _ => {}) r { fixRover s r with filt := {}, reset := true }).inc
    Reg.FIX_COUNTS.RESET_COUNT) s
  match hit with
  | [] => s
  | [r] => raiseTick s 132 r
  | _ => raiseTick s 132

/-- A change of the VALID base position at a watch boundary (rows 1 and 2 of R163). -/
def fixBase (s : State) : State :=
  if posState s ≠ 2 then s
  else
    let p := (s.obs.x, s.obs.y, s.obs.z)
    let old := s.fix.base
    let s := { s with fix := { s.fix with base := some p } }
    match old with
    | none => s
    | some q =>
      let d := (p.1 - q.1, p.2.1 - q.2.1, p.2.2 - q.2.2)
      if d = (0, 0, 0) then s
      else if 10000 * 10000 < d.1 * d.1 + d.2.1 * d.2.1 + d.2.2 * d.2.2 then fixReset s (s.fix.rovers.map (·.1))
      else
        let move (f : FixFilt) : FixFilt :=
          { f with pos := f.pos.map fun x => (x.1 + d.1, x.2.1 + d.2.1, x.2.2 + d.2.2)
                   vec := vecMove d f.vec }
        s.fix.rovers.foldl (fun s p => setFilt (outFilt s p.1 move) p.1 (move p.2.filt)) s

/-- Row 4 of R163. -/
def filterExpired (r : Nat) (s : State) : State :=
  match (fixRover s r).paused with
  | some t => if t + 1000 < s.tick then raise (setFixRover s r { fixRover s r with filt := {}, paused := none }) 133 r else s
  | none => s

/-! ### Solution records (R169, R170, R175) -/

/-- The bytes of a solution record. -/
def solBytes (r : Nat) (f : SolFlags) (unset : Bool) (q : SolRec) (consec epoch : Nat) (fe : Int × Int × Int)
    (u : Option Nat) (tick : Nat) : List Byte :=
  let flags := b2n f.codeOnly + 2 * b2n f.carried + 4 * b2n f.partialFix + 8 * b2n f.held + 16 * b2n f.reset
    + 32 * b2n f.odo + 64 * b2n f.long + 128 * b2n unset
  let body := match q.sol with
    | some v => le 8 (ofSigned 64 v.x) ++ le 8 (ofSigned 64 v.y) ++ le 8 (ofSigned 64 v.z) ++ le 4 (ofSigned 32 fe.1)
        ++ le 4 (ofSigned 32 fe.2.1) ++ le 4 (ofSigned 32 fe.2.2) ++ le 4 (ofSigned 32 v.ve) ++ le 4 (ofSigned 32 v.vn)
        ++ le 2 (min v.sigH 0xFFFE) ++ le 2 (min v.sigV 0xFFFE)
    | none => List.replicate 44 0 ++ le 2 0xFFFF ++ le 2 0xFFFF
  le 1 r ++ le 1 q.quality ++ le 1 q.reason ++ le 1 flags ++ le 1 q.nSv ++ le 1 (min q.nFixed 255) ++ le 1 (min q.nAmb 255)
    ++ le 1 0 ++ le 2 q.ratio ++ le 2 consec ++ le 4 epoch ++ body
    ++ le 8 (match u with | some t => t | none => 0xFFFFFFFFFFFFFFFF) ++ le 8 tick

/-- Write and deliver the record of rover r for an epoch: queue, registers, events, containment. `fl`: the filter after the
epoch. -/
def fixWrite (s : State) (r te epoch : Nat) (u : Option Nat) (f : SolFlags) (q : SolRec) (fl : FixFilt) (cyc : Nat) : State :=
  let v := fixRover s r
  let f := { f with reset := f.reset || v.reset }
  let consec : Nat := if q.quality = 2 then satInc 16 (s.r Reg.FIX_ROVER.CONSEC_FIXED r) else 0
  let fe : Int × Int × Int := match s.cht.origin, q.sol with
    | some o, some p => fieldFrame o (p.x, p.y, p.z)
    | _, _ => (0, 0, 0)
  let bytes := solBytes r f s.cht.origin.isNone q consec (epoch % 2 ^ 32) fe u s.tick
  let old := s.r Reg.FIX_ROVER.QUALITY r
  let s := setFixRover s r { v with
    reset := false, sol := bytes, fixed := if q.quality = 2 then some (te, fe.1, fe.2.1) else v.fixed }
  let s := ((s.w Reg.FIX_ROVER.QUALITY q.quality r).w Reg.FIX_ROVER.N_AMB_FIXED (min q.nFixed 255) r).w
    Reg.FIX_ROVER.REASON q.reason r
  let s := (s.w Reg.FIX_ROVER.CONSEC_FIXED consec r).w Reg.FIX_ROVER.RATIO q.ratio r
  let s := s.w Reg.FIX_STATUS.N_FIXED (s.r Reg.FIX_STATUS.N_FIXED - b2n (old == 2) + b2n (q.quality == 2))
  let s := s.w Reg.FIX_STATUS.N_FLOAT (s.r Reg.FIX_STATUS.N_FLOAT - b2n (old == 1) + b2n (q.quality == 1))
  let s := if q.quality = 2 ∧ old ≠ 2 then raise s 130 r else s
  let s := if q.quality = 4 ∧ old ≠ 4 then raise s 129 r else s
  let s := { s with fix := { s.fix with wTiw := tiw s } }
  let s := cplPut s 132 bytes
  let s := reflect s (.solution r bytes fl)
  if q.quality = 2 then containment s r fe.1 fe.2.1 consec te cyc else s

/-- A record without a position. -/
def fixNone (s : State) (r te epoch : Nat) (u : Option Nat) (quality reason : Nat) : State :=
  fixWrite s r te epoch u {} { quality := quality, reason := reason } (fixRover s r).filt 0

/-! ### Uploads (R148 to R154, R159) -/

/-- The record FIX uses of rover r: the oldest packet of its queue behind the uploads not used that wait for their window to
close. -/
def fixTake (s : State) (r : Nat) : Option Pkt × State :=
  cplTakeAt s r ((s.fix.win.map fun w => (w.free.filter fun x => x == r).length).getD 0)

/-- The record FIX would use of rover r is freed. -/
def fixFree (s : State) (r : Nat) : State := (fixTake s r).2

/-- The oldest packet of rover r's queue is freed: an upload not used. -/
def fixFreeOld (s : State) (r : Nat) : State := (cplTake s r).2

/-- The newest packet of rover r's queue is freed. -/
def fixFreeNewest (s : State) (r : Nat) : State :=
  let v := cplQ s r
  match v.pkts.getLast? with
  | none => s
  | some p =>
    let s := cplSetQ s r { v with pkts := v.pkts.dropLast }
    let s := s.w Reg.CPL_Q.PKTS (v.pkts.length - 1) r
    cplSetCells s r (s.r Reg.CPL_Q.CELLS r - cellsOf p.data.length)

/-- The window in which uploads complete in this tick; the shadow takes the uploads of a tick from the lead's stream at
the next boundary (R323). -/
def fixWin (s : State) : Option FixWin :=
  s.fix.win.filter fun w => decide (tiw s ≤ w.last) || (s.mode == .shadow && tiw s == w.last + 1)

def setWin (s : State) (w : FixWin) : State := { s with fix := { s.fix with win := some w } }

/-- A fragment of rover r's record has been accepted. -/
def fixFragment (r : Nat) (s : State) : State :=
  match fixWin s with
  | some w => setWin s { w with frags := if r ∈ w.frags then w.frags else w.frags ++ [r] }
  | none => s

/-- CPL has posted the notice for a complete record of rover r in tick u (R153). -/
def fixUpload (r u : Nat) (s : State) : State :=
  match fixWin s with
  | none => fixFreeNewest s r
  | some w =>
    if w.void then fixFreeNewest s r
    else if !fixEnabled s r then setWin s { w with free := w.free ++ [r] }
    else if r ∈ w.done then (fixFreeNewest s r).inc Reg.FIX_COUNTS.INVALID_COUNT
    else
      let s := setWin s { w with done := w.done ++ [r] }
      let s := setFixRover s r { fixRover s r with lost := false }
      { s with fix := { s.fix with jobs := s.fix.jobs ++
        [{ rover := r, u := u, te := w.te, epoch := w.epoch, half := w.half }] } }

/-- The epoch has no usable base observable set (R159, R160). -/
def noBaseSet (s : State) (te : Nat) (half : Bool) : Bool := (baseSetFor s te half).isNone

/-- FIX_NO_BASE, once for an epoch without a usable base set (R159). -/
def noBaseRaise (s : State) (te : Nat) : State :=
  if te ∈ s.fix.noBase then s else raise { s with fix := { s.fix with noBase := s.fix.noBase ++ [te] } } 135

/-- Rows 1 and 2 of R153: the REASON a record is discarded with. -/
def recordRefusal (s : State) (j : FixJob) (b : List Byte) : Option Nat :=
  let n := field b 2 1
  if field b 0 1 ≠ 1 ∨ field b 1 1 ≠ j.rover ∨ n = 0 ∨ 96 < n ∨ b.length ≠ 32 + 16 * n ∨ field b 3 1 / 8 ≠ 0
      ∨ field b 16 8 ≠ 0 ∨ field b 24 8 ≠ 0 then some 2
  else if field b 4 4 ≠ j.epoch ∨ bitAt (field b 3 1) 0 ≠ j.half ∨ (j.half = true ∧ s.rb Reg.FIX_ROVER.RATE j.rover = false) then
    some 3
  else none

/-- Cluster time of S2 to S6 (R172), in µs. -/
def clusterCost (n : Nat) : Nat := if n ≤ 32 then 500 else if n ≤ 64 then 875 else 1730

/-! ### The FIX slot (R172 to R174) -/

/-- Clusters that take work: in service, neither the free spare nor standby. -/
def clActive (s : State) (c : Nat) : Bool :=
  bitAt (s.r Reg.FIX_CLUSTER_MAP.IN_SERVICE) c
    && !(s.r Reg.FIX_CLUSTER_MAP.SPARE == c && s.r Reg.FIX_CLUSTER_MAP.SPARE_FOR == 0xF)

def clJobs (s : State) (c : Nat) : List FixJob := s.fix.jobs.filter fun j => j.cl == some c
def clQueued (s : State) (c : Nat) : Nat := ((clJobs s c).map (·.cost)).sum

/-- The cluster to fill: an empty input buffer, least queued cluster time, lower number. -/
def clPick (s : State) : Option Nat :=
  (List.range 9).foldl (fun best c =>
    if clActive s c && decide ((clJobs s c).length < 3) then
      match best with
      | some b => if clQueued s c < clQueued s b then some c else best
      | none => some c
    else best) none

def jobBefore (a b : FixJob) : Bool := decide (a.u < b.u) || (a.u == b.u && decide (a.rover < b.rover))

/-- The ready rover with the earliest deadline, from the tick after u. -/
def nextReady (s : State) : Option FixJob :=
  s.fix.jobs.foldl (fun best j =>
    if j.cl.isNone && decide (j.u < s.tick) then
      match best with
      | some b => if jobBefore j b then some j else best
      | none => some j
    else best) none

def dropJob (s : State) (j : FixJob) : State :=
  { s with fix := { s.fix with jobs := s.fix.jobs.filter fun x => !(x.rover == j.rover && x.te == j.te) } }

/-- S2 begins on the oldest solution loaded on each cluster: the entry checks, row 4 of R153. -/
def fixBegin (s : State) : State :=
  let en := s.r Reg.SXT_SIG_EN.SIG_EN
  iter (fun c s =>
    match (clJobs s c).head? with
    | some j =>
      if j.begun then s
      else
        let s := s.add Reg.FIX_COUNTS.ENTRY_DROP_COUNT (field j.data 2 1 - (entriesUsed en j.data).length)
        { s with fix := { s.fix with jobs := s.fix.jobs.map fun x => if x = j then { j with begun := true } else x } }
    | none => s) 9 s

/-- S1 for one rover: the checks, then the load. The stages' costs go by the entries in use. -/
def fixLoad (j : FixJob) (s : State) : State :=
  let (p, s) := fixTake s j.rover
  let b := match p with
    | some p => p.data
    | none => []
  let s := dropJob s j
  match recordRefusal s j b with
  | some why =>
    let s := s.inc Reg.FIX_COUNTS.INVALID_COUNT
    let s := if why = 2 then raiseWatch s 134 j.rover else s
    fixNone s j.rover j.te j.epoch (some j.u) 0 why
  | none =>
    if posState s ≠ 2 then fixNone s j.rover j.te j.epoch (some j.u) 0 6
    else if noBaseSet s j.te j.half then fixNone (noBaseRaise s j.te) j.rover j.te j.epoch (some j.u) 0 5
    else
      let used := (entriesUsed (s.r Reg.SXT_SIG_EN.SIG_EN) b).length
      let j := { j with cost := clusterCost used, data := b, cl := clPick s }
      { s with fix := { s.fix with jobs := s.fix.jobs ++ [j] } }

/-- Load up to n ready rovers; a loaded solution of a lost cluster needs no new check. -/
def fixLoads : Nat → State → State
  | 0, s => s
  | n + 1, s =>
    match nextReady s, clPick s with
    | some j, some c =>
      if j.cost = 0 then fixLoads n (fixLoad j s)
      else
        let s := dropJob s j
        fixLoads n { s with fix := { s.fix with jobs := s.fix.jobs ++ [{ j with cl := some c }] } }
    | _, _ => s

/-- S7 for one output buffer: the filter state goes to LPDDR5 (R173). -/
def fixStore (s : State) (o : OutBuf) : State :=
  match o.filt with
  | some f => (setFixRover s o.rover { fixRover s o.rover with filt := f, upd := some s.tick }).w Reg.FIX_ROVER.GAP_WATCHES 0 o.rover
  | none => s

/-- The FIX slot: stores, then loads, as far as the time of the slot goes; idle clusters begin. -/
def fixSlot (use : SlotUse) (stores loads : Nat) (s : State) : State :=
  let s := slotEnd s 3 use
  if s.mode == .dead then s
  else
    let full := s.fix.outs.take stores
    let s := full.foldl fixStore { s with fix := { s.fix with outs := s.fix.outs.drop stores } }
    fixBegin (fixLoads loads s)

/-! ### Delivery (R175) -/

/-- The record of a solution is delivered, at cycle cyc of the tick. -/
def fixDeliver (s : State) (j : FixJob) (o : SolOut) (cyc : Nat) : State :=
  let r := j.rover
  if posState s ≠ 2 then fixNone s r j.te j.epoch (some j.u) 0 6
  else
    let s := if o.dropped then raise s 131 r else s
    fixWrite s r j.te j.epoch (some j.u) o.flags o.q (o.filt.getD (fixRover s r).filt) cyc

/-- The filter has had no update for more than 1,000 ticks (row 6 of R163). -/
def filtStale (s : State) (r : Nat) : Bool :=
  (fixRover s r).filt.st != 0 && (fixRover s r).upd.any fun t => decide (t + 1000 < s.tick)

/-- A cluster completes the solution it is running, the oldest loaded on it: an output buffer takes it (R173), and its record
is delivered, after 980 µs at the next boundary (R41). `us`: the cluster time used. -/
def fixDone (r us cyc : Nat) (s : State) : State :=
  match s.fix.jobs.find? (fun j => j.rover == r && j.cl.isSome) with
  | none => s
  | some j =>
    let c := j.cl.getD 0
    if (clJobs s c).head? ≠ some j ∨ j.u + 20 ≤ s.tick ∨ 3 ≤ (s.fix.outs.filter fun o => o.cl == c).length then s
    else
      let o := solveJob s j (fixRover s r).filt (filtStale s r)
      let o := if posState s = 2 then o else { o with filt := none }
      let s := dropJob s j
      let s := fixBegin { s with fix := { s.fix with
        wBusy := s.fix.wBusy + us, outs := s.fix.outs ++ [{ cl := c, rover := r, filt := o.filt }] } }
      if cyc < 245000 then fixDeliver s j o cyc else { s with fix := { s.fix with late := s.fix.late ++ [(j, o)] } }

/-- The cluster time a solution that is abandoned or restarted has used counts too (R181): of the one that was running, how
far it had come is a free value up to what it needs at most. -/
def busyUsed (s : State) (j : FixJob) : State :=
  if j.cl.any fun c => (clJobs s c).head? == some j then
    let (v, s) := s.fresh
    { s with fix := { s.fix with wBusy := s.fix.wBusy + v % (j.cost + 1) } }
  else s

/-- At the boundary of tick u + 20 (R176). -/
def fixDeadline (s : State) : State :=
  let out := s.fix.jobs.filter fun j => decide (j.u + 20 ≤ s.tick)
  out.foldl (fun s j =>
    let s := if j.cost = 0 then fixFree s j.rover else s
    let s := busyUsed s j
    let s := fixBegin ((dropJob s j).inc Reg.FIX_ROVER.LATE_COUNT j.rover)
    let s := { s with fix := { s.fix with wLate := s.fix.wLate + 1 } }
    raiseWatch (fixNone s j.rover j.te j.epoch (some j.u) 3 0x0C) 128 j.rover) s

/-- The boundary that closes an upload window (R154). -/
def uploadClose (s : State) : State :=
  match s.fix.win with
  | none => s
  | some w =>
    if tiw s ≤ w.last ∧ s.ttu.pos ≠ 0 then s
    else
      let s := w.free.foldl fixFreeOld { s with fix := { s.fix with win := none } }
      if w.void then s
      else
        let any := (List.range 128).any fun r => fixEnabled s r && (!w.half || s.rb Reg.FIX_ROVER.RATE r)
        let s := if any && noBaseSet s w.te w.half then noBaseRaise s w.te else s
        iter (fun r s =>
          if !fixEnabled s r || w.done.contains r || (w.half && !s.rb Reg.FIX_ROVER.RATE r) then s
          else if (fixRover s r).lost then fixNone s r w.te w.epoch none 4 0x0D
          else if posState s ≠ 2 then fixNone s r w.te w.epoch none 0 6
          else if noBaseSet s w.te w.half then fixNone s r w.te w.epoch none 0 5
          else fixNone s r w.te w.epoch none 0 (if r ∈ w.frags then 4 else 1)) 128 s

/-! ### FIX_ROVER_SET (R145 to R147, R177) -/

/-- Enabled, and the load it brings, after the commands accepted so far. -/
def loadAfter (s : State) (r : Nat) : Nat :=
  s.fix.cmds.foldl (fun n (c : Nat × Nat × Nat) =>
    if c.1 = r then (match c.2.1 with | 0 => 0 | 1 => 1 + c.2.2 | _ => n) else n)
    (if fixEnabled s r then 1 + s.r Reg.FIX_ROVER.RATE r else 0)

/-- FIX_ROVER_SET. -/
def fixRoverSet (act : Nat) (h : Handle) (rover rate rsv : Nat) (s : State) : State :=
  if rsv ≠ 0 ∨ 127 < rover ∨ (act = 1 ∧ 1 < rate) then complete s h stRover
  else
    let others := ((List.range 128).map fun r => if r = rover then 0 else loadAfter s r).sum
    if act = 1 ∧ 128 < others + 1 + rate then complete s h stRate
    else complete { s with fix := { s.fix with cmds := s.fix.cmds ++ [(rover, act, rate)] } } h stOk

/-- An accepted FIX_ROVER_SET takes effect. -/
def fixApply (s : State) (c : Nat × Nat × Nat) : State :=
  let (r, act, rate) := c
  let v := fixRover s r
  match act with
  | 0 =>
    if !fixEnabled s r then s
    else
      let started := fun (j : FixJob) => j.cl.any fun c => (clJobs s c).head? == some j
      let jobs := s.fix.jobs.filter fun j => j.rover != r || started j
      let gone := s.fix.jobs.filter fun j => j.rover == r && j.cost == 0
      let s := gone.foldl (fun s j => fixFree s j.rover) { s with fix := { s.fix with jobs := jobs } }
      setFixRover ((s.wb Reg.FIX_ROVER.ENABLED false r).w Reg.SEC_ROVER.MISS_WATCHES 0 r) r { v with paused := some s.tick }
  | 1 =>
    let s := (s.wb Reg.FIX_ROVER.ENABLED true r).w Reg.FIX_ROVER.RATE rate r
    setFixRover s r { v with paused := none }
  | _ => fixReset s [r]

/-- N_ENABLED and RATE_LOAD. -/
def fixStatus (s : State) : State :=
  let en := (List.range 128).filter (fixEnabled s)
  (s.w Reg.FIX_STATUS.N_ENABLED en.length).w Reg.FIX_STATUS.RATE_LOAD
    ((en.map fun r => 1 + s.r Reg.FIX_ROVER.RATE r).sum)

/-! ### Clusters (R178, R179) -/

/-- A cluster fails. -/
def clusterFault (c : Nat) (s : State) : State :=
  let u := unit s 1 c
  if u.out then s
  else if u.standby then
    let s := if unitStable s 1 c then unitOut s 1 c true else unitStandbyFault s 1 c
    if (unit s 1 c).out then raise (s.w Reg.FIX_CLUSTER_MAP.STANDBY 0xF) 136 c else s
  else { s with fix := { s.fix with clOut := s.fix.clOut ++ [(c, true)] } }

/-- The solutions on cluster c go to another one, or wait for one; `all`: the running one too, which starts again. -/
def clMove (s : State) (c : Nat) (all : Bool) (dst : Option Nat) : Nat × State :=
  let on := if all then clJobs s c else (clJobs s c).drop 1
  let s := match if all then (clJobs s c).head? else none with
    | some j => busyUsed s j
    | none => s
  (on.length, { s with fix := { s.fix with jobs := s.fix.jobs.map fun j => if on.contains j then { j with cl := dst } else j } })

/-- Cluster c goes out at a tick boundary (rows 2 to 4 of R179). -/
def clusterOut (s : State) (c : Nat) (fault : Bool) : State :=
  if (unit s 1 c).out then s
  else
    let h := (unit s 1 c).outPend
    let s := unitOut s 1 c fault
    let s := raise (s.wset Reg.FIX_CLUSTER_MAP.IN_SERVICE c false) 136 c
    let spare := s.r Reg.FIX_CLUSTER_MAP.SPARE
    let for_ := s.r Reg.FIX_CLUSTER_MAP.SPARE_FOR
    let s := if spare = c then
        let s := (s.w Reg.FIX_CLUSTER_MAP.SPARE 0xF).w Reg.FIX_CLUSTER_MAP.SPARE_FOR 0xF
        if for_ = 0xF then s else raise (clMove s c fault none).2 137 c
      else if spare ≠ 0xF ∧ for_ = 0xF then
        let s := s.w Reg.FIX_CLUSTER_MAP.SPARE_FOR c
        if fault then
          let (n, s) := clMove s c true none
          s.add Reg.FIX_COUNTS.RESTART_COUNT n
        else (clMove s c false (some spare)).2
      else raise (clMove s c fault none).2 137 c
    completeAll s h stOk

/-- Cluster c rejoins as standby at a watch boundary (row 5). -/
def clusterBack (c : Nat) (s : State) : State :=
  if s.ttu.pos = 0 ∧ unitMayJoin s 1 c = true then raise ((unitJoin s 1 c).w Reg.FIX_CLUSTER_MAP.STANDBY c) 138 c else s

/-- Cluster c takes back its role at the boundary of tick 45 (row 6). -/
def clusterRestored (c : Nat) (s : State) : State :=
  if tiw s ≠ 45 ∨ unitStable s 1 c = false then s
  else
    let s := unitInService s 1 c
    let s := (s.wset Reg.FIX_CLUSTER_MAP.IN_SERVICE c true).w Reg.FIX_CLUSTER_MAP.STANDBY 0xF
    let s := if c = 8 then s.w Reg.FIX_CLUSTER_MAP.SPARE 8
      else if s.r Reg.FIX_CLUSTER_MAP.SPARE_FOR = c then s.w Reg.FIX_CLUSTER_MAP.SPARE_FOR 0xF else s
    raise s 139 c

/-- The known-answer tests of tick 45: the outcome by cluster. -/
def fixKat (results : List (Nat × Bool)) (s : State) : State :=
  if tiw s ≠ 45 then s
  else results.foldl (fun s p =>
    if 8 < p.1 then s
    else if (unit s 1 p.1).out then unitTested s 1 p.1 p.2
    else if p.2 then s else clusterFault p.1 s) s

/-! ### Boundaries -/

/-- The epoch of a boundary (R150). -/
def epochOf (s : State) : Nat := (s.tb1 0 + uSec / 40) / (uSec / 20) % 2 ^ 32

/-- FIX leaves the running modes: work in flight is dropped and every filter is EMPTY (R39, R493). -/
def fixStop (s : State) : State :=
  let s := (s.fix.jobs.filter fun j => j.cost == 0).foldl (fun s j => fixFree s j.rover) s
  let s := match s.fix.win with
    | some w => w.free.foldl fixFreeOld s
    | none => s
  let s := { s with fix := { s.fix with jobs := [], outs := [], late := [], win := none, full := none, half := none, ran := false } }
  s.fix.rovers.foldl (fun s p => setFixRover s p.1 { p.2 with filt := {}, bad := false }) s

/-- Epochs and upload windows at a boundary (R148, R149). -/
def fixWindows (s : State) : State :=
  let closing := s.ttu.closing.isSome
  let halfJob := fun (j : FixJob) => j.half && decide (s.tick ≤ j.te + s.ttu.pos)
  let s := if closing then
      let s := (s.fix.jobs.filter fun j => halfJob j && j.cost == 0).foldl (fun s j => fixFree s j.rover) s
      { s with fix := { s.fix with half := none, win := s.fix.win.map (fun w => if w.half then { w with void := true } else w)
                                   jobs := s.fix.jobs.filter fun j => !halfJob j } }
    else s
  let n := tiw s
  let s := if s.ttu.pos = 0 then { s with fix := { s.fix with full := some (s.tick, epochOf s), half := none } }
    else if n = 50 ∧ closing = false then { s with fix := { s.fix with half := some (s.tick, epochOf s) } }
    else s
  let open_ := fun (s : State) (e : Option (Nat × Nat)) (half : Bool) (last : Nat) => match e with
    | some (te, ep) => setWin s { te := te, epoch := ep, half := half, last := last }
    | none => s
  if n = 2 then open_ s s.fix.full false 21 else if n = 52 then open_ s s.fix.half true 71 else s

/-- FIX at a tick boundary. -/
def fixTick (s : State) : State :=
  let cmds := s.fix.cmds
  let s := cmds.foldl fixApply { s with fix := { s.fix with cmds := [] } }
  let s := if cmds.isEmpty then s else fixStatus s
  if !s.slots then (if s.fix.ran && !s.paused then fixStop s else s)
  else
    let s := { s with fix := { s.fix with ran := true } }
    let late := s.fix.late
    let s := late.foldl (fun s p => fixDeliver s p.1 p.2 0) { s with fix := { s.fix with late := [] } }
    let s := fixReset s ((s.fix.rovers.filter (fun p => p.2.bad)).map (·.1))
    let outs := s.fix.clOut
    let s := outs.foldl (fun s o => clusterOut s o.1 o.2) { s with fix := { s.fix with clOut := [] } }
    fixWindows s

/-- FIX at a watch boundary: the base position, the statistics of the watch just ended. -/
def fixWatch (s : State) : State :=
  if !s.slots then s
  else
    let s := fixBase s
    let s := ((s.w Reg.FIX_WATCH_STATS.LAST_TIW s.fix.wTiw).w Reg.FIX_WATCH_STATS.N_LATE (min s.fix.wLate 255)).w
      Reg.FIX_WATCH_STATS.BUSY (min (s.fix.wBusy / 100) 65535)
    let s := { s with fix := { s.fix with wTiw := 0, wLate := 0, wBusy := 0
                                          noBase := s.fix.noBase.filter fun t => decide (s.tick < t + 300) } }
    s.fix.rovers.foldl (fun s p =>
      s.w Reg.FIX_ROVER.GAP_WATCHES (match p.2.upd with | some t => min ((s.tick - t) / 100) 255 | none => 0) p.1) s

/-! ### What other subsystems bring -/

/-- Link Security declares rover r LOST (R154). -/
def fixLost (s : State) (r : Nat) : State := setFixRover s r { fixRover s r with lost := true }

/-- The registers of rover r show a solution record (R170, R181). -/
def solShow (s : State) (r : Nat) (data : List Byte) : State :=
  let q := field data 1 1
  let old := s.r Reg.FIX_ROVER.QUALITY r
  let s := ((s.w Reg.FIX_ROVER.QUALITY q r).w Reg.FIX_ROVER.N_AMB_FIXED (field data 5 1) r).w Reg.FIX_ROVER.REASON (field data 2 1) r
  let s := (s.w Reg.FIX_ROVER.CONSEC_FIXED (field data 10 2) r).w Reg.FIX_ROVER.RATIO (field data 8 2) r
  let s := s.w Reg.FIX_STATUS.N_FIXED (s.r Reg.FIX_STATUS.N_FIXED - b2n (old == 2) + b2n (q == 2))
  s.w Reg.FIX_STATUS.N_FLOAT (s.r Reg.FIX_STATUS.N_FLOAT - b2n (old == 1) + b2n (q == 1))

/-- The shadow takes the lead's record where its own differs (R327). -/
def fixAdopt (s : State) (r : Nat) (data : List Byte) : Bool × State :=
  let v := fixRover s r
  if v.sol = data then (false, s) else (true, solShow (setFixRover s r { v with sol := data }) r data)

/-! ### The commands -/

def execFixRoverDisable (h : Handle) (rover rate rsv : Nat) (s : State) : Host.Outcome State Fault Refusal :=
  withOut s (ringOp leadModes h (descOf (.fixRoverDisable h rover rate rsv)) (fixRoverSet 0 h rover rate rsv))
def execFixRoverEnable (h : Handle) (rover rate rsv : Nat) (s : State) : Host.Outcome State Fault Refusal :=
  withOut s (ringOp leadModes h (descOf (.fixRoverEnable h rover rate rsv)) (fixRoverSet 1 h rover rate rsv))
def execFixRoverReset (h : Handle) (rover rate rsv : Nat) (s : State) : Host.Outcome State Fault Refusal :=
  withOut s (ringOp leadModes h (descOf (.fixRoverReset h rover rate rsv)) (fixRoverSet 2 h rover rate rsv))
def execFixSlot (use : SlotUse) (stores loads : Nat) (s : State) : Host.Outcome State Fault Refusal :=
  withOut s fun s => engines s (fixSlot use stores loads)
def execFixSolutionDone (r : Fin 128) (x : DoneIn) (s : State) : Host.Outcome State Fault Refusal :=
  withOutAt s (some (cycU x.cyc)) fun s => engines s (fixDone r x.us x.cyc)
def execFixDeadline (s : State) : Host.Outcome State Fault Refusal := withOut s fun s => engines s fixDeadline
def execUploadWindowClose (s : State) : Host.Outcome State Fault Refusal := withOut s fun s => engines s uploadClose
def execFilterExpired (r : Fin 128) (s : State) : Host.Outcome State Fault Refusal :=
  withOut s fun s => engines s (filterExpired r)
def execFixKat (results : List (Nat × Bool)) (s : State) : Host.Outcome State Fault Refusal :=
  withOut s fun s => engines s (fixKat results)
def execClusterFault (c : Fin 9) (s : State) : Host.Outcome State Fault Refusal :=
  withOut s fun s => engines s (clusterFault c)
def execClusterBack (c : Fin 9) (s : State) : Host.Outcome State Fault Refusal :=
  withBoundary s fun s => engines s (clusterBack c)
def execClusterRestored (c : Fin 9) (s : State) : Host.Outcome State Fault Refusal :=
  withBoundary s fun s => engines s (clusterRestored c)

end Sys2Proof.Machine
end

