-- ==== Sys2Proof/Machine/Asg.lean ====
section
/-! DEFINITION. Sys2Proof/Machine/Asg.lean: the Assignment Engine: matrices, auctions, publication (R209 to R226). -/

namespace Sys2Proof.Machine

open Sys2Proof

/-! ### Registers -/

def maxWatches (s : State) : Nat := clampN 1 10 (s.r Reg.ASG_CFG.MAX_WATCHES)

/-- RUN_STATE of R225. -/
def runState (a : Option Auction) : Nat :=
  match a with
  | none => 0
  | some a => if a.ended then 3 else if a.bidding then 2 else 1

/-- ASG_STATUS and ASG_CUR_TAG follow the auctions held. -/
def asgShow (s : State) : State :=
  let s := (s.w Reg.ASG_STATUS.RUN_STATE (runState s.asg.run)).wb Reg.ASG_STATUS.PENDING s.asg.pend.isSome
  match s.asg.run with
  | some a => ((s.w Reg.ASG_STATUS.PHASE a.phase).w Reg.ASG_STATUS.WATCHES_RUN a.watches).w Reg.ASG_CUR_TAG.TAG a.tag
  | none => ((s.w Reg.ASG_STATUS.PHASE 0).w Reg.ASG_STATUS.WATCHES_RUN 0).w Reg.ASG_CUR_TAG.TAG 0

def setRun (s : State) (a : Option Auction) : State := asgShow { s with asg := { s.asg with run := a } }
def setPend (s : State) (a : Option Auction) : State := asgShow { s with asg := { s.asg with pend := a } }

/-- The pending auction starts once no auction is running: not one to be withdrawn, nor while one that preempts waits for
its boundary. -/
def asgPromote (s : State) : State :=
  if s.asg.run.isSome || s.asg.next.isSome || s.asg.pend.any (fun p => s.asg.cancel.contains p.h) then s
  else asgShow { s with asg := { s.asg with run := s.asg.pend, pend := none } }

/-- An auction is abandoned. -/
def asgLost (s : State) (a : Auction) : State :=
  raise (complete (s.inc Reg.ASG_COUNTS.ABANDON_COUNT) a.h stAbandoned) 194

/-- The running auction is abandoned; the pending one takes its place. -/
def asgAbandon (s : State) : State :=
  match s.asg.run with
  | some a => asgPromote (setRun (asgLost s a) none)
  | none => s

/-- The running auction is to be abandoned at the next boundary. -/
def asgDropping (s : State) : Bool := s.asg.run.any (fun a => s.asg.drop.contains a.h)

/-- The command of an auction, in the list of those to be abandoned or withdrawn at the next boundary. -/
def handleOf (a : Option Auction) : List Handle := (a.map (·.h)).toList

/-! ### Commands (R210 to R212, R224) -/

def asgRefuse (s : State) (h : Handle) : State := raise (complete (s.inc Reg.ASG_COUNTS.REFUSE_COUNT) h stMatrix) 195

/-- ASG_SUBMIT. -/
def asgSubmit (h : Handle) (warm preempt : Bool) (tag addr len rsv : Nat) (s : State) : State :=
  if !inWindow s addr len then complete s h stBuffer
  else if rsv ≠ 0 ∨ addr % 8 ≠ 0 then asgRefuse s h
  else
    let a : Auction := { h := h, tag := tag, warm := warm, addr := addr, len := len }
    let s := accept s h
    if s.asg.run.isNone && s.asg.next.isNone then setRun s (some a)
    else
      let s := match s.asg.pend with
        | some p => complete (setPend s none) p.h stSuperseded
        | none => s
      if preempt then
        let s := match s.asg.next with
          | some n => asgLost s n
          | none => s
        { s with asg := { s.asg with next := some a, drop := s.asg.drop ++ handleOf s.asg.run } }
      else setPend s (some a)

/-- ASG_CANCEL: with `all`, the running auction too, at the next tick boundary. -/
def asgCancel (all : Bool) (h : Handle) (rsv : Nat) (s : State) : State :=
  if rsv ≠ 0 then complete s h stMatrix
  else
    let s := complete s h stOk
    if all then { s with asg := { s.asg with
      drop := s.asg.drop ++ handleOf s.asg.run
      cancel := s.asg.cancel ++ handleOf s.asg.next ++ handleOf s.asg.pend } }
    else
      match s.asg.pend with
      | some p => complete (setPend s none) p.h stCancelled
      | none => s

/-! ### The matrix (R209, R211) -/

/-- The rovers of a mask. -/
def maskRovers (m : Nat) : List Nat := (List.range 128).filter (bitAt m)

def matrixLen (nRov nTask : Nat) : Nat := 32 + nRov * 8 * ((nTask + 1) / 2)

/-- The rows of a matrix. -/
def matrixRows (b : List Byte) (nTask : Nat) : List Nat → Nat → List (Nat × List Nat)
  | [], _ => []
  | r :: rs, off =>
    (r, (List.range nTask).map fun t => field b (off + 4 * t) 4) :: matrixRows b nTask rs (off + 8 * ((nTask + 1) / 2))

/-- Every padding word is 0. -/
def paddingOk (b : List Byte) (nRov nTask : Nat) : Bool :=
  nTask % 2 == 0 || (List.range nRov).all fun k => field b (32 + 8 * ((nTask + 1) / 2) * k + 4 * nTask) 4 == 0

/-- The auction with its matrix, where R211 accepts it. -/
def matrixOf (a : Auction) (b : List Byte) : Option Auction :=
  let n := field b 2 2
  let rs := maskRovers (field b 8 16)
  let idle := field b 24 4
  if field b 0 1 ≠ 1 ∨ field b 1 1 ≠ 0 ∨ n = 0 ∨ 1024 < n ∨ field b 4 4 ≠ 0 ∨ rs = [] ∨ idle = 0xFFFFFFFF
      ∨ field b 28 4 ≠ 0 ∨ a.len ≠ matrixLen rs.length n ∨ paddingOk b rs.length n = false then none
  else some { a with read := true, nTask := n, idle := idle, rows := matrixRows b n rs 32 }

/-- Auction a is that of the command: of SQ and index, by which both modules know it. -/
def ofCmd (h : Handle) (a : Option Auction) : Bool := a.any fun a => a.h.sq == h.sq && a.h.idx == h.idx

/-- The auction of a command. -/
def asgFind (s : State) (h : Handle) : Option Auction :=
  if ofCmd h s.asg.run then s.asg.run else if ofCmd h s.asg.next then s.asg.next
  else if ofCmd h s.asg.pend then s.asg.pend else none

/-- The auction of a command becomes v; none: it is no longer held. -/
def asgPut (s : State) (h : Handle) (v : Option Auction) : State :=
  if ofCmd h s.asg.run then setRun s v
  else if ofCmd h s.asg.next then { s with asg := { s.asg with next := v } }
  else if ofCmd h s.asg.pend then setPend s v
  else s

/-- A command ends because of its matrix: refused (ASG_REFUSED), or its buffer could not be read. -/
def asgDrop (h : Handle) (status : Nat) (s : State) : State :=
  match asgFind s h with
  | none => s
  | some a =>
    let s := asgPut s h none
    asgPromote (if status = stMatrix then asgRefuse s a.h else complete s a.h status)

/-- The matrix of an accepted ASG_SUBMIT has been read and checked; the lead sends it on to the shadow. -/
def asgMatrix (h : Handle) (buf : BufIn) (s : State) : State :=
  match asgFind s h with
  | none => s
  | some a =>
    if a.read then s
    else if buf.err then asgDrop h stBuffer (reflect s (.matrixOut h stBuffer))
    else
      match matrixOf a buf.data with
      | some v => asgPut s h (some { v with data := if s.solo then [] else buf.data })
      | none => asgDrop h stMatrix (reflect s (.matrixOut h stMatrix))

/-- A matrix item of the reflection stream, and whether it carries the last of its matrix. -/
def matrixItem : ReflItem → Option (Handle × Bool)
  | .matrix h _ last => some (h, last)
  | _ => none

/-- The next part of a matrix joins the reflection stream of this tick, 64 KiB at most (R213). -/
def asgReflect (s : State) : State :=
  let due (a : Option Auction) : Option Auction := a.filter fun a => a.read && !a.bidding && !a.ended && a.data != []
  match (due s.asg.run <|> due s.asg.next <|> due s.asg.pend) with
  | none => s
  | some a =>
    if (s.twn.carry ++ s.twn.items).any (fun i => (matrixItem i.item).isSome) then s
    else
      let rest := a.data.drop 65536
      reflect (asgPut s a.h (some { a with data := rest })) (.matrix a.h (a.data.take 65536) (rest == []))

/-- The stream of this tick carries the last part of a matrix. -/
def asgSent (items : List ReflEntry) (s : State) : State :=
  items.foldl (fun s i => match matrixItem i.item with
    | some (h, true) => match asgFind s h with
      | some a => asgPut s h (some { a with sentAt := some s.tick })
      | none => s
    | _ => s) s

/-- The snapshot of R337 holds every matrix read: none is left to send. -/
def asgSynced (s : State) : State :=
  let whole (a : Option Auction) : Option Auction := a.map fun a => if a.read then { a with data := [], sentAt := none } else a
  { s with asg := { s.asg with run := whole s.asg.run, next := whole s.asg.next, pend := whole s.asg.pend } }

/-- Bytes of the lead's matrix reach the shadow; with the last it holds the matrix. -/
def asgMirror (h : Handle) (data : List Byte) (last : Bool) (s : State) : State :=
  match asgFind s h with
  | none => s
  | some a =>
    let b := a.data ++ data
    if a.read then s
    else if last then
      match matrixOf a b with
      | some v => asgPut s h (some { v with data := [] })
      | none => s
    else asgPut s h (some { a with data := b })

/-! ### Bidding (R214 to R217) -/

/-- The running auction begins bidding: its matrix is read, and acknowledged where there is a shadow. -/
def asgStart (s : State) : State :=
  match s.asg.run with
  | none => s
  | some a =>
    let sent := a.data == [] && !((s.twn.carry ++ s.twn.items).any fun i => (matrixItem i.item).any fun x => ofCmd x.1 s.asg.run)
      && a.sentAt.all (fun t => decide (t ≤ s.twn.lastRefl)) && s.inSync
    let acked := s.mode == .shadow || s.solo || sent
    if a.bidding || a.ended || !a.read || !acked || asgDropping s then s
    else
      let epsEnd := max 1 (s.r Reg.ASG_CFG.EPS_FINAL)
      let warm := a.warm && s.asg.prices.length == a.nTask
      setRun s (some { a with
        bidding := true, epsEnd := epsEnd, epsDiv := 2 ^ (s.r Reg.ASG_CFG.EPS_DIV_LOG2_M1 + 1)
        eps := max (2 ^ clampN 0 40 (s.r Reg.ASG_CFG.EPS_START_LOG2)) epsEnd
        prices := if warm then s.asg.prices else List.replicate a.nTask 0, warmUsed := warm })

/-- No cost (R210). -/
def infeasible : Nat := 0xFFFFFFFF

/-- Best task with its value, and the least value over the other options: from task t on. -/
def bestOf : List Nat → List Nat → Nat → Option (Nat × Nat) → Nat → Option (Nat × Nat) × Nat
  | c :: cs, p :: ps, t, best, second =>
    if c = infeasible then bestOf cs ps (t + 1) best second
    else
      let v := 256 * c + p
      match best with
      | none => bestOf cs ps (t + 1) (some (t, v)) second
      | some (bt, bv) =>
        if v < bv then bestOf cs ps (t + 1) (some (t, v)) (min second bv)
        else bestOf cs ps (t + 1) (some (bt, bv)) (min second v)
  | _, _, _, best, second => (best, second)

/-- One bid of a rover (R217). -/
def bidOnce (a : Auction) (r : Nat) (row : List Nat) : Auction :=
  let idle := 256 * a.idle
  let (best, second) := bestOf row a.prices 0 none idle
  let a := { a with bids := satInc 32 a.bids }
  match best with
  | some (t, v) =>
    if idle < v then { a with taken := a.taken ++ [(r, 0xFFFE)] }
    else { a with
      prices := a.prices.set t ((a.prices.getD t 0 + (second - v) + a.eps) % 2 ^ 64)
      taken := a.taken.filter (fun p => p.2 != t) ++ [(r, t)] }
  | none => { a with taken := a.taken ++ [(r, 0xFFFE)] }

/-- A row without a feasible task. -/
def rowDead (row : List Nat) : Bool := row.all (· == infeasible)

/-- The unassigned rover with the lowest ID. -/
def nextBidder (a : Auction) : Option (Nat × List Nat) :=
  a.rows.find? fun p => !rowDead p.2 && !(a.taken.any fun q => q.1 == p.1)

/-- The end of a phase (R216). -/
def phaseEnd (a : Auction) : Auction :=
  if a.eps ≤ a.epsEnd then { a with ended := true, bidding := false }
  else { a with eps := max a.epsEnd (a.eps / a.epsDiv), phase := a.phase + 1, taken := [] }

/-- At most n bids, and the ends of phases they bring (41 phases at most). -/
def bidRun : Nat → Nat → Auction → Auction
  | 0, _, a => a
  | k + 1, n, a =>
    if !a.bidding then a
    else
      match nextBidder a with
      | none => bidRun k n (phaseEnd a)
      | some (r, row) => if n = 0 then a else bidRun k (n - 1) (bidOnce a r row)

/-- The ASG slot; `bids`: the bids it has time for. An auction that is ready begins bidding in it (R213). -/
def asgSlot (use : SlotUse) (bids : Nat) (s : State) : State :=
  let s := asgStart (slotEnd s 5 use)
  if s.mode == .dead then s
  else
    match s.asg.run with
    | none => s
    | some a =>
      if !a.bidding then s
      else
        let a := if a.bidNow then a else { a with watches := a.watches + 1, bidNow := true }
        let b := bidRun (bids + 64) bids a
        let s := setRun s (some b)
        if a.bids = 0 ∧ 0 < b.bids then raise s 196 else s

/-! ### Publication (R218, R220 to R223) -/

/-- The task a rover holds in a finished auction: 0xFFFF outside the mask, 0xFFFE idle. -/
def taskOf (a : Auction) (r : Nat) : Nat :=
  if !(a.rows.any fun p => p.1 == r) then 0xFFFF
  else
    match a.taken.find? (fun p => p.1 == r) with
    | some p => p.2
    | none => 0xFFFE

/-- The unscaled cost of a rover's pair; 0 where it holds no task. -/
def costOf (a : Auction) (r : Nat) : Nat :=
  let t := taskOf a r
  if 1024 ≤ t then 0
  else
    match a.rows.find? (fun p => p.1 == r) with
    | some p => p.2.getD t 0
    | none => 0

/-- OPTIMAL of R218. -/
def isOptimal (a : Auction) : Bool :=
  decide (a.rows.length * a.epsEnd < 256)
    && (List.range a.nTask).all fun t => (a.taken.any fun p => p.2 == t) || a.prices.getD t 0 == 0

/-- An entry of the result record. -/
def asgEntry (s : State) (a : Auction) (r : Nat) : List Byte :=
  let t := taskOf a r
  let dead := (a.rows.find? (fun p => p.1 == r)).any fun p => rowDead p.2
  le 2 t ++ le 1 (b2n (s.r Reg.ASG_ROVER.TASK r != t) + 2 * b2n dead) ++ le 1 0 ++ le 4 (costOf a r)

/-- The result record of R222. -/
def asgRecord (s : State) (a : Auction) (total : Nat) : List Byte :=
  let n := (a.taken.filter fun p => decide (p.2 < 1024)).length
  le 1 1 ++ le 1 (b2n (isOptimal a) + 2 * b2n a.warmUsed + 4 * b2n (decide (1 < a.watches))) ++ le 1 (a.phase + 1)
    ++ le 1 a.watches ++ le 4 a.tag ++ le 4 a.bids ++ le 2 n ++ le 2 a.nTask ++ le 8 total ++ le 8 s.tick
    ++ (List.range 128).flatMap (asgEntry s a)

/-- At 860 µs of tick 99 an auction that has ended is published. -/
def asgPublish (s : State) : State :=
  match s.asg.run with
  | none => s
  | some a =>
    if tiw s ≠ 99 ∨ a.ended = false ∨ asgDropping s = true then s
    else
      let total := ((List.range 128).map (costOf a)).sum
      let s := cplPut s 134 (asgRecord s a total)
      let s := iter (fun r s =>
        ((s.wb Reg.ASG_ROVER.CHANGED (s.r Reg.ASG_ROVER.TASK r != taskOf a r) r).w Reg.ASG_ROVER.TASK (taskOf a r) r).w
          Reg.ASG_ROVER.COST (costOf a r) r) 128 s
      let s := ((s.w Reg.ASG_LAST.TAG a.tag).w Reg.ASG_LAST.N_ASSIGNED
        (a.taken.filter fun p => decide (p.2 < 1024)).length).wb Reg.ASG_LAST.OPTIMAL (isOptimal a)
      let s := ((s.w Reg.ASG_LAST.COST_LO total).w Reg.ASG_LAST.COST_HI (total / 2 ^ 32)).w Reg.ASG_COUNTS.BIDS_LAST a.bids
      let s := { s with asg := { s.asg with prices := a.prices } }
      asgPromote (setRun (raise (complete s a.h stOk) 192) none)

/-- An auction running at tick 99 has not ended. -/
def asgNoResult (s : State) : State :=
  match s.asg.run with
  | none => s
  | some a => if tiw s ≠ 99 ∨ a.ended = true then s else raise (s.inc Reg.ASG_COUNTS.NO_RESULT_COUNT) 193

/-- At the end of tick 99, an auction that has started bidding in MAX_WATCHES watches is abandoned. -/
def asgLimit (s : State) : State :=
  match s.asg.run with
  | none => s
  | some a => if tiw s ≠ 99 ∨ a.ended = true ∨ a.watches < maxWatches s then s else asgAbandon s

/-! ### Boundaries and coinciding events (R224) -/

/-- The waiting auctions of the commands given are withdrawn. -/
def asgWithdraw (hs : List Handle) (s : State) : State :=
  let s := match s.asg.pend with
    | some p => if hs.contains p.h then complete (setPend s none) p.h stCancelled else s
    | none => s
  match s.asg.next with
  | some p => if hs.contains p.h then complete { s with asg := { s.asg with next := none } } p.h stCancelled else s
  | none => s

/-- A waiting auction whose matrix is lost is abandoned with the running one. -/
def asgLostWaiting (s : State) : State :=
  let s := match s.asg.pend with
    | some p => if s.asg.drop.contains p.h then asgLost (setPend s none) p else s
    | none => s
  match s.asg.next with
  | some p => if s.asg.drop.contains p.h then asgLost { s with asg := { s.asg with next := none } } p else s
  | none => s

/-- ASG at a tick boundary. -/
def asgTick (s : State) : State :=
  if !s.running then
    if !s.asg.ran then s
    else
      let s := asgWithdraw (handleOf s.asg.pend ++ handleOf s.asg.next) s
      asgAbandon { s with asg := { s.asg with ran := false, prices := [], cancel := [], drop := [] } }
  else
    let s := asgLostWaiting (asgWithdraw s.asg.cancel { s with asg := { s.asg with ran := true } })
    let s := match s.asg.run with
      | some a => if s.asg.drop.contains a.h then setRun (asgLost s a) none else s
      | none => s
    let s := { s with asg := { s.asg with drop := [], cancel := [] } }
    match s.asg.run, s.asg.next with
    | none, some n => setRun { s with asg := { s.asg with next := none } } (some n)
    | _, _ => asgPromote s

/-- ASG at a watch boundary. -/
def asgWatch (s : State) : State :=
  { s with asg := { s.asg with run := s.asg.run.map fun a => { a with bidNow := false } } }

/-- An uncorrectable word of ASG (row 8): 0 the running auction's matrix or prices, 1 or 2 those of the auction that
preempts or is pending, whose command ends in the same way; otherwise the prices kept of the last published auction. -/
def asgMemErr (which : Nat) (s : State) : State :=
  match which with
  | 0 => { s with asg := { s.asg with drop := s.asg.drop ++ handleOf s.asg.run } }
  | 1 => { s with asg := { s.asg with drop := s.asg.drop ++ handleOf s.asg.next } }
  | 2 => { s with asg := { s.asg with drop := s.asg.drop ++ handleOf s.asg.pend } }
  | _ => { s with asg := { s.asg with prices := [] } }

/-- A new lead discards a matrix it does not hold whole (row 6). -/
def asgClaim (s : State) : State :=
  let replay (s : State) (a : Option Auction) : State := match a with
    | some a => if a.read then s else complete (asgPut s a.h none) a.h stReplay
    | none => s
  asgPromote (replay (replay (replay s s.asg.pend) s.asg.next) s.asg.run)

/-! ### The commands -/

def execAsgSubmit (h : Handle) (warm preempt : Bool) (tag bufAddr bufLen rsv : Nat) (s : State) :
    Host.Outcome State Fault Refusal :=
  withOut s (ringOp leadModes h (descOf (.asgSubmit h warm preempt tag bufAddr bufLen rsv))
    (asgSubmit h warm preempt tag bufAddr bufLen rsv))
def execAsgCancel (h : Handle) (rsv : Nat) (s : State) : Host.Outcome State Fault Refusal :=
  withOut s (ringOp leadModes h (descOf (.asgCancel h rsv)) (asgCancel true h rsv))
def execAsgCancelPending (h : Handle) (rsv : Nat) (s : State) : Host.Outcome State Fault Refusal :=
  withOut s (ringOp leadModes h (descOf (.asgCancelPending h rsv)) (asgCancel false h rsv))
def execAsgMatrixReadDone (h : Handle) (buf : BufIn) (s : State) : Host.Outcome State Fault Refusal :=
  withOut s fun s => if s.leading then asgMatrix h buf s else s
def execAsgAuctionStart (s : State) : Host.Outcome State Fault Refusal := withOut s fun s => engines s asgStart
def execAsgSlot (use : SlotUse) (bids : Nat) (s : State) : Host.Outcome State Fault Refusal :=
  withOut s fun s => engines s (asgSlot use bids)
def execAsgPublish (s : State) : Host.Outcome State Fault Refusal := withOut s fun s => engines s asgPublish
def execAsgNoResult (s : State) : Host.Outcome State Fault Refusal := withOut s fun s => engines s asgNoResult
def execAsgAbandonLimit (s : State) : Host.Outcome State Fault Refusal := withOut s fun s => engines s asgLimit

end Sys2Proof.Machine
end

