-- ==== Sys2Proof/Machine/Log.lean ====
section
/-! DEFINITION. Sys2Proof/Machine/Log.lean: the Logbook: its ring of blocks, merging, failed blocks, export and the
read port (R436 to R447). -/

namespace Sys2Proof.Machine

open Sys2Proof

/-- LEN of a record (R440). -/
def logLen (dlen : Nat) : Nat := 8 * ceilDiv (44 + dlen) 8

def logKindNum : LogKind → Nat
  | .event => 1 | .fault => 2 | .note => 3 | .memFault => 4

/-- The bytes of a record, with the flags a read copies (R440). -/
def logBytes (r : LogRec) (isOpen : Bool) : List Byte :=
  let body := padTo (logLen r.data.length - 4)
    (le 2 (logLen r.data.length) ++ le 1 (logKindNum r.kind)
      ++ le 1 (b2n r.peer + 2 * b2n (r.rep == 0xFFFF) + 4 * b2n isOpen)
      ++ le 4 r.seq ++ le 2 r.source ++ le 2 r.rep ++ le 1 r.mode ++ le 1 r.data.length ++ le 2 0
      ++ stampBytes r.stamp ++ le 8 r.tick ++ le 4 r.lastDt ++ r.data)
  body ++ le 4 (crc32c body)

/-- Every record held, in ring order. -/
def logAll (s : State) : List LogRec := s.log.blocks.flatMap (·.recs)

/-- A record among records in rising SEQ. -/
def seqInsert (r : LogRec) : List LogRec → List LogRec
  | [] => [r]
  | x :: xs => if r.seq ≤ x.seq then r :: x :: xs else x :: seqInsert r xs

/-- Every record held, oldest first: a spare that replaced a block begins with a newer record (R442). -/
def logBySeq (s : State) : List LogRec := (logAll s).foldr seqInsert []

/-- REPEAT_WIN in ticks; 0 taken as 1 watch (R446). -/
def logWin (s : State) : Nat := 100 * max 1 (s.r Reg.LOG_CFG.REPEAT_WIN)

/-- Those of the last 16 records written to the ring that it holds, newest first. -/
def logLast (s : State) : List LogRec :=
  (logBySeq s).reverse.filter fun r => decide (s.r Reg.LOG_SEQ.NEXT_SEQ ≤ r.seq + 16)

/-- Occurrence x may merge into record r (R441). -/
def logMerges (s : State) (r x : LogRec) : Bool :=
  r.kind == x.kind && r.source == x.source && r.peer == x.peer && r.data == x.data
    && r.kind != .fault && r.kind != .memFault
    && decide (x.tick ≤ r.tick + logWin s) && decide (r.tick ≤ x.tick + logWin s) && decide (r.rep < 0xFFFF)

/-- A record is open while a further occurrence could still merge into it. -/
def logOpen (s : State) (r : LogRec) : Bool :=
  (logLast s).any (fun t => t.seq == r.seq) && r.kind != .fault && r.kind != .memFault
    && decide (s.tick ≤ r.tick + logWin s) && decide (r.tick ≤ s.tick + logWin s) && decide (r.rep < 0xFFFF)

/-- The sequence registers follow the ring. -/
def logSeqRegs (s : State) (next : Nat) : State :=
  let s := s.w Reg.LOG_SEQ.NEXT_SEQ next
  s.w Reg.LOG_SEQ.OLDEST_SEQ (match logBySeq s with
    | r :: _ => r.seq
    | [] => next)

/-- Bytes a block holds. -/
def blockUsed (b : LogBlock) : Nat := (b.recs.map fun r => logLen r.data.length).sum

/-- The ring with record r in the next block; the oldest block is cleared as a whole before it is reused (R436). -/
def ringNext (l : LogState) (r : LogRec) : LogState :=
  match l.empty with
  | e :: es => { l with blocks := l.blocks ++ [{ id := e, recs := [r] }], empty := es }
  | [] => match l.blocks with
    | o :: bs => { l with blocks := bs ++ [{ id := o.id, recs := [r] }] }
    | [] => l

/-- The ring with record r appended: in the block being written where it fits, otherwise in the next block
(R436). -/
def ringAppend (l : LogState) (r : LogRec) : LogState :=
  match l.blocks.getLast? with
  | some b =>
    if blockUsed b + logLen r.data.length ≤ 65536 then
      { l with blocks := l.blocks.dropLast ++ [{ b with recs := b.recs ++ [r] }] }
    else ringNext l r
  | none => ringNext l r

/-- A record goes to the peer in the next link status frame: FAULT, MEM_FAULT, a latched record, or all (R443). -/
def logToPeer (s : State) (r : LogRec) (latched : Bool) : State :=
  if (r.kind == .fault || r.kind == .memFault || latched || s.rb Reg.LOG_CFG.PEER_ALL) && !r.peer
      && (s.pair == 1 || s.pair == 2 || s.pair == 3) then
    { s with log := { s.log with toPeer := s.log.toPeer ++ [r] } }
  else s

/-- A record that could not be stored goes to the last-word latch (R442). -/
def logLatch (s : State) (r : LogRec) : State :=
  if r.peer then s
  else
    let bs := logBytes r false
    let s := iter (fun k s => s.w Reg.LOG_LATCH.WORD (field bs (4 * k) 4) k) 8 s
    let s := logToPeer s r true
    raiseTick (s.inc Reg.LOG_COUNTS.LATCH_COUNT) 492

/-- A record enters the ring under the next SEQ, or merges into an earlier one (R439 to R441). -/
def logWrite (s : State) (x : LogRec) : State :=
  if s.rb Reg.LOG_STATUS.LATCH_ONLY then logLatch s { x with seq := s.r Reg.LOG_SEQ.NEXT_SEQ }
  else
    match (logLast s).find? (fun r => logMerges s r x) with
    | some r =>
      let upd (t : LogRec) : LogRec :=
        if t.seq = r.seq then { t with rep := t.rep + 1, lastDt := min (x.tick - t.tick) 0xFFFFFFFF } else t
      { s with log := { s.log with blocks := s.log.blocks.map fun b => { b with recs := b.recs.map upd } } }
    | none =>
      let x := { x with seq := s.r Reg.LOG_SEQ.NEXT_SEQ }
      let s := logToPeer s x false
      logSeqRegs { s with log := ringAppend s.log x } (x.seq + 1)

/-- The MEM_FAULT record of R442: retired block, its spare, first and last SEQ lost (free values where none was). -/
def memFaultRec (s : State) (b spare : Nat) (lost : List LogRec) : LogRec × State :=
  let (v, s) := s.fresh
  let (first, last) := match lost.head?, lost.getLast? with
    | some f, some l => (f.seq, l.seq)
    | _, _ => (v, v)
  let (w, s) := s.fresh
  ({ kind := .memFault, peer := false, seq := 0, source := 0xFFFF, rep := 0, mode := modeNum s.mode,
     stamp := s.tb1 (w % s.ttu.len), tick := s.tick, lastDt := 0,
     data := le 1 b ++ le 1 spare ++ le 4 first ++ le 4 last }, s)

/-- Block b of the ring meets an uncorrectable word (R442). -/
def logBadBlock (b : Nat) (s : State) : State :=
  let lost := (s.log.blocks.filter (fun k => k.id == b)).flatMap (·.recs)
  let inRing := s.log.blocks.any (fun k => k.id == b)
  let wasLast := s.log.blocks.getLast?.any (fun k => k.id == b)
  if s.rb Reg.LOG_STATUS.LATCH_ONLY || !(inRing || s.log.empty.contains b) then s
  else
    match s.log.spares with
    | sp :: rest =>
      let (r, s) := memFaultRec s b sp lost
      let r := { r with seq := s.r Reg.LOG_SEQ.NEXT_SEQ }
      let s := { s with log := { s.log with spares := rest } }
      let s := s.w Reg.LOG_STATUS.SPARES rest.length
      let s := logToPeer s r false
      let s := if inRing then
          logSeqRegs { s with log := { s.log with blocks := s.log.blocks.map fun k =>
            if k.id = b then { id := sp, recs := [r] } else k } } (r.seq + 1)
        else
          let s := { s with log := { s.log with empty := s.log.empty.map fun k => if k = b then sp else k } }
          logSeqRegs { s with log := ringAppend s.log r } (r.seq + 1)
      raise s 491 b
    | [] =>
      let blocks := s.log.blocks.filter (fun k => k.id != b)
      let empty := s.log.empty.filter (fun k => k != b)
      let s := s.w Reg.LOG_STATUS.RING_BLOCKS (blocks.length + empty.length)
      let (r, s) := memFaultRec s b 0xFF lost
      let s := { s with log := { s.log with blocks := blocks, empty := empty } }
      if blocks = [] ∧ empty = [] then
        logLatch (s.wb Reg.LOG_STATUS.LATCH_ONLY true) { r with seq := s.r Reg.LOG_SEQ.NEXT_SEQ }
      else
        let r := { r with seq := s.r Reg.LOG_SEQ.NEXT_SEQ }
        let s := logToPeer s r false
        let log := if wasLast then ringNext s.log r else ringAppend s.log r
        raise (logSeqRegs { s with log := log } (r.seq + 1)) 491 b

/-- The SRAM port reports a fault: only the latch is left, and the peer logs a MEM_FAULT that names no block (R442 row 3). -/
def logPortFault (s : State) : State :=
  if s.rb Reg.LOG_STATUS.LATCH_ONLY then s
  else
    let (r, s) := memFaultRec (s.wb Reg.LOG_STATUS.LATCH_ONLY true) 0xFF 0xFF (logBySeq s)
    logLatch s { r with seq := s.r Reg.LOG_SEQ.NEXT_SEQ }

/-- The Logbook takes one pending record. -/
def logStore (portFault : Bool) (badBlock : Option Nat) (s : State) : State :=
  let s := if portFault then logPortFault s else s
  let s := match badBlock with
    | some b => logBadBlock b s
    | none => s
  match s.log.queue with
  | [] => s
  | r :: q => logWrite { s with log := { s.log with queue := q } } r

/-- A record received from the peer (R443). -/
def logPeerRec (s : State) (p : PeerLog) : State :=
  let kind : LogKind := match p.kind with
    | 2 => .fault | 3 => .note | 4 => .memFault | _ => .event
  let s := s.inc Reg.LOG_COUNTS.PEER_RX
  let s := if s.rb Reg.LOG_STATUS.LATCH_ONLY then s else
    logPush s { kind := kind, peer := true, seq := 0, source := p.source, rep := 0, mode := p.mode,
                stamp := p.stamp, tick := p.tick, lastDt := 0, data := p.data }
  if kind = .fault ∨ kind = .memFault then raise s 494 else s

/-! ### Export (R444) and the read port (R445) -/

/-- Whole records one after another in a buffer, until one would not fit: how many, and the bytes. -/
def logFill : List (List Byte) → Nat → Nat × List Byte
  | [], _ => (0, [])
  | b :: bs, room =>
    if room < b.length then (0, [])
    else let (n, d) := logFill bs (room - b.length); (n + 1, b ++ d)

/-- Logbook records one after another, each of the length its first two bytes give. -/
def logSplit : Nat → List Byte → List (List Byte)
  | 0, _ => []
  | k + 1, bs =>
    let n := field bs 0 2
    if n = 0 ∨ bs.length < n then [] else bs.take n :: logSplit k (bs.drop n)

/-- What the peer's Logbook answers a LOG_READ, as the buffer operand carries it: OLDEST_SEQ, then the records; none
where it is in LATCH_ONLY. -/
def logPeer (buf : BufIn) : Option (List (List Byte) × Nat) :=
  if buf.err then none else some (logSplit buf.data.length (buf.data.drop 4), field buf.data 0 4)

/-- LOG_READ (R444): `peer` is what the peer's Logbook gives from START on for MODULE 1. -/
def logRead (h : Handle) (module start addr len rsv : Nat) (peer : BufIn) (s : State) : State :=
  if s.mode == .shadow then peerWait s h stReplay 0
  else if !inWindow s addr len then complete s h stBuffer
  else if rsv ≠ 0 ∨ 1 < module ∨ addr % 8 ≠ 0 ∨ len % 8 ≠ 0 ∨ len < 256 ∨ 1048576 < len then complete s h stLog 0
  else if module = 1 ∧ s.inSync = false then complete s h stLog 1
  else
    let src : Option (List (List Byte) × Nat) :=
      if module = 1 then logPeer peer
      else if s.rb Reg.LOG_STATUS.LATCH_ONLY then none
      else some (((logBySeq s).filter (fun r => decide (start ≤ r.seq))).map (fun r => logBytes r (logOpen s r)),
                 s.r Reg.LOG_SEQ.OLDEST_SEQ)
    match src with
    | none => complete s h stOk 0
    | some (rs, oldest) =>
      let (n, d) := logFill rs len
      let s := if n = 0 then s else s.hostData h addr d
      complete s h stOk (n % 65536 + (if start < oldest then 65536 else 0))

/-- A read of LOG_PORT_REWIND: the port goes to the first word of the oldest record. -/
def logRewind (s : State) : State :=
  let o := s.r Reg.LOG_SEQ.OLDEST_SEQ
  { s.emit (.readData o) with log := { s.log with portSeq := o, portWord := 0 } }

/-- Every record held, in ring order from the oldest one on. -/
def logRing (s : State) : List LogRec :=
  let o := s.r Reg.LOG_SEQ.OLDEST_SEQ
  (logAll s).dropWhile (fun r => r.seq != o) ++ (logAll s).takeWhile (fun r => r.seq != o)

/-- The records from that of SEQ q on, in ring order; those of a cleared block are passed over. -/
def logFrom (s : State) (q : Nat) : List LogRec :=
  match (logRing s).dropWhile (fun r => r.seq != q) with
  | [] => (logRing s).dropWhile (fun r => decide (r.seq < q))
  | l => l

/-- A read of LOG_PORT_DATA: the next word in ring order; past the newest record 0, without advancing. -/
def logPort (s : State) : State :=
  match logFrom s s.log.portSeq with
  | [] => s.emit (.readData 0)
  | r :: rest =>
    let w := if r.seq = s.log.portSeq then s.log.portWord else 0
    let s := s.emit (.readData (field (logBytes r (logOpen s r)) (4 * w) 4))
    if 4 * (w + 1) < logLen r.data.length then { s with log := { s.log with portSeq := r.seq, portWord := w + 1 } }
    else
      match rest with
      | n :: _ => { s with log := { s.log with portSeq := n.seq, portWord := 0 } }
      | [] => { s with log := { s.log with portSeq := s.r Reg.LOG_SEQ.NEXT_SEQ, portWord := 0 } }

/-! ### The commands -/

def execLogRead (h : Handle) (module start bufAddr bufLen rsv : Nat) (peer : BufIn) (s : State) :
    Host.Outcome State Fault Refusal :=
  withOut s (ringOp anyRunMode h (descOf (.logRead h module start bufAddr bufLen rsv peer))
    (logRead h module start bufAddr bufLen rsv peer))
def execLogPortRewind (s : State) : Host.Outcome State Fault Refusal := withOut s logRewind
def execLogPortData (s : State) : Host.Outcome State Fault Refusal := withOut s logPort
def execLogRecordStore (portFault : Bool) (badBlock : Option Nat) (s : State) : Host.Outcome State Fault Refusal :=
  withOut s (logStore portFault badBlock)

end Sys2Proof.Machine
end

