-- ==== Sys2Proof/Machine/Hst.lean ====
section
/-! DEFINITION. Sys2Proof/Machine/Hst.lean: rings, the doorbell block, completions and event records, descriptor fetch
and the host link (R342 to R365). -/

namespace Sys2Proof.Machine

open Sys2Proof

/-! ### Rings (R346, R361) -/

/-- The fields the three kinds of ring share, by kind. -/
def ringBaseLo : RingKind → Field
  | .sq => Reg.HST_SQ.BASE_LO | .cq => Reg.HST_CQ.BASE_LO | .eq => Reg.HST_EQ.BASE_LO
def ringBaseHi : RingKind → Field
  | .sq => Reg.HST_SQ.BASE_HI | .cq => Reg.HST_CQ.BASE_HI | .eq => Reg.HST_EQ.BASE_HI
def ringLog2 : RingKind → Field
  | .sq => Reg.HST_SQ.SIZE_LOG2 | .cq => Reg.HST_CQ.SIZE_LOG2 | .eq => Reg.HST_EQ.SIZE_LOG2
def ringEn : RingKind → Field
  | .sq => Reg.HST_SQ.EN | .cq => Reg.HST_CQ.EN | .eq => Reg.HST_EQ.EN
def ringFault : RingKind → Field
  | .sq => Reg.HST_SQ.FAULT | .cq => Reg.HST_CQ.FAULT | .eq => Reg.HST_EQ.FAULT
/-- Bytes of an entry. -/
def ringEntry : RingKind → Nat
  | .sq => 32 | .cq => 16 | .eq => 16
def ringCount : RingKind → Nat
  | .sq => 64 | .cq => 64 | .eq => 16

def ringBase (s : State) (k : RingKind) (i : Nat) : Nat := s.r (ringBaseLo k) i * 64 + s.r (ringBaseHi k) i * 2 ^ 32
def ringLen (s : State) (k : RingKind) (i : Nat) : Nat := ringSize (s.r (ringLog2 k) i)

/-- Host address of the entry of index x. -/
def ringAddr (s : State) (k : RingKind) (i x : Nat) : Nat :=
  ringBase s k i + x % ringLen s k i * ringEntry k

/-- PHASE of index x (R351): 1 where ⌊x / SIZE⌋ is even. -/
def phase (s : State) (k : RingKind) (i x : Nat) : Nat := if x / ringLen s k i % 2 = 0 then 128 else 0

/-- EN of a ring set: enabled, or FAULT where its extent lies outside the host window map (R346). -/
def ringEnSet (k : RingKind) (i : Nat) (s : State) : State :=
  if ringCount k ≤ i then s
  else if inWindow s (ringBase s k i) (ringLen s k i * ringEntry k) then
    (s.wb (ringEn k) true i).wb (ringFault k) false i
  else
    let had := s.rb (ringFault k) i
    let s := s.wb (ringFault k) true i
    if had then s else raise s 421 i

/-- EN of a ring cleared; it leaves service at the next tick boundary (R361). -/
def ringEnClear (k : RingKind) (i : Nat) (s : State) : State := s.wb (ringEn k) false i

/-- A fetched or requested descriptor of SQ i that has not started is cancelled; FETCH_CI is kept (R361 row 5). -/
def sqCancel (i : Nat) (s : State) : State :=
  let hit := s.hst.waiting.filter (fun d => d.h.sq == i)
  let s := { s with hst := { s.hst with
    waiting := s.hst.waiting.filter (fun d => d.h.sq != i)
    reading := s.hst.reading.filter (fun p => p.1 != i) } }
  hit.foldl (fun s d => complete (startAt s d.h d.ftick) d.h stCancelled) s

/-- HELD of every CQ counts the completions held for it (R361 row 6). -/
def heldCount (s : State) (j : Nat) : Nat :=
  (s.hst.compl.filter (fun c => s.r Reg.HST_SQ.CQ c.h.sq == j)).length

/-- Completions that cannot be written because the host cannot be reached are discarded and counted (R361 row 2). -/
def complLost (s : State) : State :=
  let n := s.hst.compl.length
  if n = 0 then s
  else
    let s := { s with hst := { s.hst with compl := [] } }
    raiseTick (s.add Reg.HST_COUNTS.COMPL_LOST n) 427

/-- A loss of the link takes effect: EN of every ring is cleared, outstanding reads fetch nothing, and completions due are
discarded, as are those that come while the link is down (R361 row 2). -/
def ringsOff (s : State) : State :=
  let s := if s.hst.linkUp || s.mode == .shadow then s else complLost s
  if s.hst.downPend then
    let s := { s with hst := { s.hst with downPend := false, reading := [] } }
    let s := iter (fun i s => s.wb Reg.HST_SQ.EN false i) 64 s
    let s := iter (fun j s => s.wb Reg.HST_CQ.EN false j) 64 s
    iter (fun k s => s.wb Reg.HST_EQ.EN false k) 16 s
  else s

/-- The rings at a tick boundary (R346, R360 row 3, R361 rows 2 and 5 to 7). -/
def ringsTick (s : State) : State :=
  let s := ringsOff s
  let fp := s.hst.faultPend
  let s := fp.foldl (fun s p =>
    let had := s.rb (ringFault p.1) p.2
    let s := (s.wb (ringEn p.1) false p.2).wb (ringFault p.1) true p.2
    if had then s else raise s 421 p.2) { s with hst := { s.hst with faultPend := [] } }
  let zs := s.hst.idxZero
  let s := zs.foldl (fun s p => match p.1 with
    | .sq => ((s.w Reg.HST_SQ.FETCH_CI 0 p.2).w Reg.HST_SQ.DB_PI 0 p.2).w Reg.HST_SQ.FETCH_LIMIT 0 p.2
    | .cq => (s.w Reg.HST_CQ.PI 0 p.2).w Reg.HST_CQ.DB_CI 0 p.2
    | .eq => (s.w Reg.HST_EQ.PI 0 p.2).w Reg.HST_EQ.DB_CI 0 p.2) { s with hst := { s.hst with idxZero := [] } }
  let s := iter (fun i s =>
    let en := s.rb Reg.HST_SQ.EN i
    let s := if s.rb Reg.HST_SQ.ACTIVE i && !en then sqCancel i s else s
    s.wb Reg.HST_SQ.ACTIVE en i) 64 s
  let s := iter (fun j s =>
    let en := s.rb Reg.HST_CQ.EN j
    let s := { s with hst := { s.hst with cqOn := mput false s.hst.cqOn j en } }
    s.w Reg.HST_CQ.HELD (if en then 0 else min (heldCount s j) 65535) j) 64 s
  iter (fun k s =>
    let en := s.rb Reg.HST_EQ.EN k
    let s := { s with hst := { s.hst with eqOn := mput false s.hst.eqOn k en } }
    if en then s else { s with hst := { s.hst with evq := s.hst.evq.filter (fun e => e.eq != k) } }) 16 s

/-! ### Writing completions and event records (R351 to R355) -/

/-- The vector of a ring is sent once, or its pending bit is set where it or the function is masked; with MSI-X not enabled
in configuration space nothing is sent (R342, R355). -/
def sendVector (v : Nat) (s : State) : State :=
  if !s.hst.pcie.msixEn then s
  else if s.rb Reg.MSIX.MASK v || s.hst.pcie.funcMask then s.wset Reg.MSIX_PBA.PENDING v true
  else s.emit (.msix v)

/-- The completion may be written: in solo operation or MAINTENANCE at once, with an IN_SYNC shadow once the stream of
its tick of fetch is acknowledged; in PAIRED_SILENT it waits (R352). -/
def complReady (s : State) (c : Compl) : Bool :=
  if s.mode == .maintenance || s.solo then true
  else s.inSync && decide (c.ftick ≤ s.twn.lastRefl)

/-- The 16 bytes of a completion (R351). -/
def complBytes (s : State) (j k : Nat) (c : Compl) : List Byte :=
  le 4 c.h.tag ++ le 2 c.h.idx ++ le 1 c.h.sq ++ le 1 c.status ++ le 4 c.detail ++ le 3 s.tick ++ le 1 (phase s .cq j k)

/-- Write the completions that are ready, at most n in all: the entries written, and the rings' vectors to send. -/
def complWrite : List Compl → Nat → List Nat → State → Nat × List Nat × State
  | [], n, vs, s => (n, vs, s)
  | c :: cs, n, vs, s =>
    let j := s.r Reg.HST_SQ.CQ c.h.sq
    let k := s.r Reg.HST_CQ.PI j
    let room := decide ((k + 65536 - s.r Reg.HST_CQ.DB_CI j) % 65536 < ringLen s .cq j)
    if n = 0 then (0, vs, s)
    else if complReady s c && mget false s.hst.cqOn j && room then
      let s := s.emit (.hostWrite (ringAddr s .cq j k) (complBytes s j k c))
      let s := s.w Reg.HST_CQ.PI (k + 1) j
      let s := reflect { s with hst := { s.hst with compl := s.hst.compl.erase c } } (.compl j k c.h)
      let v := s.r Reg.HST_CQ.VECTOR j
      complWrite cs (n - 1) (if v ∈ vs then vs else vs ++ [v]) s
    else complWrite cs n vs s

/-- The 16 bytes of an event record (R353). -/
def evtBytes (s : State) (q k : Nat) (e : EvtRec) : List Byte :=
  le 2 e.source ++ le 1 e.mode ++ le 1 (phase s .eq q k) ++ le 4 e.detail ++ le 8 e.tick

/-- Write the event records that wait, at most n. -/
def evtWrite : List EvtRec → Nat → List Nat → State → List Nat × State
  | [], _, vs, s => (vs, s)
  | e :: es, n, vs, s =>
    if n = 0 then (vs, s)
    else
      let k := s.r Reg.HST_EQ.PI e.eq
      let s := s.emit (.hostWrite (ringAddr s .eq e.eq k) (evtBytes s e.eq k e))
      let s := s.w Reg.HST_EQ.PI (k + 1) e.eq
      let s := { s with hst := { s.hst with evq := s.hst.evq.erase e } }
      let v := s.r Reg.HST_EQ.VECTOR e.eq
      evtWrite es (n - 1) (if v ∈ vs then vs else vs ++ [v]) s

/-! ### Fetching (R347, R325) -/

/-- Descriptors of SQ i requested, waiting or started, whose completion still needs space in CQ j. -/
def cqReserved (s : State) (j : Nat) : Nat :=
  let of (sq : Nat) := s.r Reg.HST_SQ.CQ sq == j
  (s.hst.reading.filter (fun p => of p.1)).length + (s.hst.waiting.filter (fun d => of d.h.sq)).length
    + (s.hst.started.filter (fun p => of p.1.sq)).length + (s.hst.compl.filter (fun c => of c.h.sq)).length

/-- The index SQ i is read up to: the fetch limit of R325 in a pair, otherwise the producer index. -/
def fetchLimit (s : State) (i : Nat) : Nat :=
  if s.leading && s.inSync then s.r Reg.HST_SQ.FETCH_LIMIT i else s.r Reg.HST_SQ.DB_PI i

/-- The next index of SQ i to read. -/
def fetchNext (s : State) (i : Nat) : Nat :=
  (s.r Reg.HST_SQ.FETCH_CI i + (s.hst.reading.filter (fun p => p.1 == i)).length) % 65536

/-- SQ i has a descriptor to fetch; EN counts from the next tick boundary on, through ACTIVE (R51, R346). -/
def sqHas (s : State) (i : Nat) : Bool :=
  s.rb Reg.HST_SQ.ACTIVE i && fetchNext s i != fetchLimit s i
    && decide ((fetchLimit s i + 65536 - fetchNext s i) % 65536 ≤ ringLen s .sq i)

/-- The CQ of SQ i has space for one more completion. -/
def cqRoom (s : State) (i : Nat) : Bool :=
  let j := s.r Reg.HST_SQ.CQ i
  decide ((s.r Reg.HST_CQ.PI j + 65536 - s.r Reg.HST_CQ.DB_CI j) % 65536 + cqReserved s j < ringLen s .cq j)

/-- The first SQ of a list, in cyclic order after `last`, that may be served at PRIO p. -/
def pickSq (s : State) (p last : Nat) : Option Nat :=
  let order := (List.range 64).map (fun k => (last + 1 + k) % 64)
  order.find? fun i => s.r Reg.HST_SQ.PRIO i == p && sqHas s i && cqRoom s i && mget false s.hst.cqOn (s.r Reg.HST_SQ.CQ i)

/-- The SQ served next: the lowest PRIO value that has one, round by round. -/
def pickPrio (s : State) : Option (Nat × Nat) :=
  (List.range 4).findSome? fun p => (pickSq s p (mget 63 s.hst.rr p)).map fun i => (p, i)

/-- Issue the reads of at most n descriptors. -/
def fetchIssue : Nat → State → State
  | 0, s => s
  | n + 1, s =>
    match pickPrio s with
    | none => s
    | some (p, i) =>
      let x := fetchNext s i
      let s := s.emit (.hostRead (ringAddr s .sq i x) 32)
      let s := { s with hst := { s.hst with reading := s.hst.reading ++ [(i, x)], rr := mput 63 s.hst.rr p i } }
      fetchIssue n s

/-- The number of each ring to which a raising applies: the one there is, or none where there are several (R353). -/
def oneDetail : List Nat → Nat
  | [j] => j
  | _ => noDetail

/-- A full CQ keeps its SQs from fetching: HST_CQ_FULL, at most once per watch (R347). -/
def cqFullEvt (s : State) : State :=
  let full := (List.range 64).filter fun j => (List.range 64).any fun i => s.r Reg.HST_SQ.CQ i == j && sqHas s i && !cqRoom s i
  if full = [] then s else raiseWatch s 422 (oneDetail full)

/-- The module fetches in this window: MAINTENANCE, LEAD and HALT, with the host in reach, not in PAIRED_SILENT, and
not after an unacknowledged stream (R325, R326, R332, R347). -/
def mayFetch (s : State) : Bool :=
  hostReach s && !s.hst.compl.any (fun c => c.status == stReplay) && (s.mode == .maintenance || (s.leading && !s.twn.noFetch && s.pair != 4))

/-- Host address of telemetry entry k (R475). -/
def telAddr (s : State) (k : Nat) : Nat :=
  s.r Reg.SVC_TEL.BASE_LO * 64 + s.r Reg.SVC_TEL.BASE_HI * 2 ^ 32 + k % ringSize (s.r Reg.SVC_TEL.SIZE_LOG2) * 64

/-- The telemetry record that waits is written: bytes 16 to 63 first, then bytes 0 to 15 with PHASE (R475); one that
cannot be written is lost. -/
def telWrite (s : State) : State :=
  match s.svc.tel with
  | none => s
  | some rec_ =>
    let s := { s with svc := { s.svc with tel := none } }
    let k := s.r Reg.SVC_TEL.TEL_PI
    let a := telAddr s k
    if hostReach s && inWindow s a 64 then
      let ph := if k / ringSize (s.r Reg.SVC_TEL.SIZE_LOG2) % 2 = 0 then 128 else 0
      let s := s.emit (.hostWrite (a + 16) (rec_.drop 16))
      let s := s.emit (.hostWrite a (rec_.take 3 ++ le 1 (field rec_ 3 1 + ph) ++ (rec_.take 16).drop 4))
      let s := s.w Reg.SVC_TEL.TEL_PI (k + 1)
      if s.rb Reg.SVC_TEL.TEL_EVT_EN then raise s 484 else s
    else s

/-- An HST window (R347, R352 to R355): it writes at most 128 records and fetches at most 64
descriptors; in BOOT its slot runs (R39) with no ring to serve. -/
def hstWindow (use : SlotUse) (s : State) : State :=
  if s.mode == .dead || s.paused then s
  else if s.mode == .boot then slotEnd s 11 use
  else
    let s := telWrite (slotEnd s 11 use)
    if !hostReach s then s
    else
      let (n, vs, s) := if s.mode == .shadow then (128, [], s) else complWrite s.hst.compl 128 [] s
      let (vs, s) := evtWrite s.hst.evq n vs s
      let s := vs.foldl (fun s v => sendVector v s) s
      if mayFetch s then fetchIssue 64 (cqFullEvt s) else s

/-- The overflow record of an EQ that has room again: a raising of E423 that goes to this EQ alone (R354 row 2). -/
def evtOverflow (k : Nat) (s : State) : State :=
  if k ∈ s.hst.evOvf ∧ mget false s.hst.eqOn k = true ∧ s.mode ≠ .boot ∧ s.mode ≠ .dead
      ∧ eqUsed s k < ringLen s .eq k then
    let s := raiseMark s 423 k
    { s with hst := { s.hst with
      evOvf := s.hst.evOvf.erase k
      evq := s.hst.evq ++ [{ source := 423, mode := modeNum s.mode, detail := k, tick := s.tick, eq := k }] } }
  else s

/-! ### The doorbell block (R357 to R360) -/

/-- Host address of the doorbell block. -/
def dbAddr (s : State) : Nat := s.r Reg.HST_DB_ADDR.ADDR_LO * 512 + s.r Reg.HST_DB_ADDR.ADDR_HI * 2 ^ 32

/-- The module samples in this mode (R360). -/
def sampling (s : State) : Bool :=
  s.mode != .boot && s.mode != .dead && s.rb Reg.HST_DB_CFG.DB_EN && !s.paused

/-- A failed read (row 1 of R360). -/
def dbFail (cyc : Nat) (s : State) : State :=
  let run := s.r Reg.HST_DB_STATUS.FAIL_RUN
  let s := raiseTick (s.inc Reg.HST_COUNTS.DB_READ_FAIL) 418
  let s := s.w Reg.HST_DB_STATUS.FAIL_RUN (min (run + 1) 8)
  if run = 7 then
    let s := raise s 419
    if s.rb Reg.HST_DB_CFG.LOSS_STOP then requestStopAt s 4 none cyc else s
  else s

/-- A sample point (R46): HST issues the read; with the link down or in D3hot the point counts as a failed read. So does one
whose block lies outside the host window map, which is not read (R357, R463; DESIGN CHOICE, log entry 80). -/
def doorbellSample (s : State) : State :=
  if !sampling s then s
  else if !s.hst.linkUp || !inWindow s (dbAddr s) 512 then dbFail 0 s
  else if !s.hst.pcie.bme then s
  else { s.emit (.hostRead (dbAddr s) 512) with hst := { s.hst with dbReads := s.hst.dbReads + 1 } }

/-- A ring is in service: enabled at the last tick boundary (R51, R361). -/
def ringServes (s : State) (k : RingKind) (i : Nat) : Bool :=
  match k with
  | .sq => s.rb Reg.HST_SQ.ACTIVE i
  | .cq => mget false s.hst.cqOn i
  | .eq => mget false s.hst.eqOn i

/-- An index field of a ring in service fails or passes the test of row 3 of R360. -/
def dbIndex (k : RingKind) (i prod cons v : Nat) (take : Field) (s : State) : State :=
  if ringServes s k i then
    if ringLen s k i < (prod + 65536 - cons) % 65536 then
      if (k, i) ∈ s.hst.faultPend then s
      else { s with hst := { s.hst with faultPend := s.hst.faultPend ++ [(k, i)] } }
    else s.w take v i
  else s

/-- The rovers whose bit differs between two TGT_REQ words of entry e. -/
def tgtChanged (e old new : Nat) : List Nat :=
  ((List.range 16).filter fun b => bitAt old b != bitAt new b).map fun b => 16 * (e - 17) + b

/-- The stop field of entry e (16 to 24) takes a value (R359). -/
def dbStopField (e v cyc : Nat) (s : State) : State :=
  let old := if e = 16 then s.hst.dbFleet else mget 0 s.hst.dbTgt e
  let known := s.hst.dbSeen.contains e
  let s := if e = 16 then { s with hst := { s.hst with dbFleet := v } }
    else { s with hst := { s.hst with dbTgt := mput 0 s.hst.dbTgt e v } }
  let s := if known then s else { s with hst := { s.hst with dbSeen := s.hst.dbSeen ++ [e] } }
  if known && old != v && s.rb Reg.HST_DB_CFG.STOP_DB_EN then
    let s := raise s 424 (if e = 16 then noDetail else oneDetail (tgtChanged e old v))
    if e = 16 then requestStopAt s 4 none cyc
    else (tgtChanged e old v).foldl (fun s r => requestStopAt s 4 (some r) cyc) s
  else s

/-- One entry of the block (rows 2 to 5 of R360). -/
def dbEntry (block : List Byte) (cyc e : Nat) (s : State) : State :=
  let b := (block.drop (8 * e)).take 8
  if crc16 (le 1 e ++ b.take 6) ≠ field b 6 2 then raiseTick (s.inc Reg.HST_COUNTS.DB_CHECK_FAIL) 417
  else
    let pi := field b 0 2
    let ci := field b 2 2
    let aux := field b 4 2
    let s := dbIndex .sq e pi (s.r Reg.HST_SQ.FETCH_CI e) pi Reg.HST_SQ.DB_PI s
    let s := dbIndex .cq e (s.r Reg.HST_CQ.PI e) ci ci Reg.HST_CQ.DB_CI s
    if e < 16 then dbIndex .eq e (s.r Reg.HST_EQ.PI e) aux aux Reg.HST_EQ.DB_CI s
    else if e ≤ 24 then dbStopField e aux cyc s
    else s

/-- A doorbell read completes with its 512 bytes; a completion no read waits for is discarded. -/
def doorbellDone (block : List Byte) (cyc : Nat) (s : State) : State :=
  if s.hst.dbReads = 0 ∨ sampling s = false then s
  else
    let s := { s with hst := { s.hst with dbReads := s.hst.dbReads - 1 } }
    let s := s.w Reg.HST_DB_STATUS.FAIL_RUN 0
    let s := iter (dbEntry block cyc) 64 s
    s.wb Reg.HST_DB_STATUS.REF_TAKEN (decide (s.hst.dbSeen.length = 9))

/-- A doorbell read errors or times out. -/
def doorbellFail (cyc : Nat) (s : State) : State :=
  if s.hst.dbReads = 0 ∨ sampling s = false then s
  else dbFail cyc { s with hst := { s.hst with dbReads := s.hst.dbReads - 1 } }

/-- The reference of the stop fields is to be taken anew (R359). -/
def dbRefDrop (s : State) : State :=
  { s with hst := { s.hst with dbSeen := [] } }.wb Reg.HST_DB_STATUS.REF_TAKEN false

/-! ### The host link (R361 row 2, R360, R365) -/

/-- The link goes down, or the function is put in D3hot: what follows takes effect at the next tick boundary. A doorbell read
outstanding never completes, and fails in its time (row 1 of R360). -/
def linkDown (s : State) : State :=
  let was := s.hst.linkUp
  let s := { s with hst := { s.hst with linkUp := false } }
  if s.mode == .dead || !was then s
  else raise { s with hst := { s.hst with downPend := true } } 425

/-- The link trains; with Bus Master Enable set HST_LINK_UP is raised. -/
def linkUp (s : State) : State :=
  let s := { s with hst := { s.hst with linkUp := true } }
  if s.mode == .dead then s else if s.hst.pcie.bme then raise s 426 else s

/-- The payload limits as the endpoint takes them: at most 256 and 512 bytes (R342). -/
def pcieClamp (c : PcieCfg) : PcieCfg := { c with mps := min c.mps 256, mrrs := min c.mrrs 512 }

/-- The host writes configuration space, Bus Master Enable with it; vectors that were pending and are masked no more are
sent. -/
def busMaster (c : PcieCfg) (s : State) : State :=
  let was := s.hst.pcie.bme
  let s := { s with hst := { s.hst with pcie := pcieClamp c } }
  if s.mode == .dead then s
  else
    let s := if c.msixEn && !c.funcMask then
        iter (fun v s => if bitAt (s.r Reg.MSIX_PBA.PENDING) v && !s.rb Reg.MSIX.MASK v then
          (s.wset Reg.MSIX_PBA.PENDING v false).emit (.msix v) else s) 32 s
      else s
    if c.bme && !was && s.hst.linkUp then raise s 426 else s

/-! ### The commands -/

/-- HST_NOP completes OK. -/
def execHstNop (h : Handle) (s : State) : Host.Outcome State Fault Refusal :=
  withOut s (ringOp anyRunMode h (descOf (.hstNop h)) fun s => complete s h stOk)
def execSqEnClear (i : Fin 64) (s : State) : Host.Outcome State Fault Refusal :=
  withOut s fun s => if s.mode == .dead then s else ringEnClear .sq i s
def execCqEnClear (j : Fin 64) (s : State) : Host.Outcome State Fault Refusal :=
  withOut s fun s => if s.mode == .dead then s else ringEnClear .cq j s
def execEqEnClear (k : Fin 16) (s : State) : Host.Outcome State Fault Refusal :=
  withOut s fun s => if s.mode == .dead then s else ringEnClear .eq k s
def execRingEnSet (kind : RingKind) (i : Nat) (s : State) : Host.Outcome State Fault Refusal :=
  withOut s fun s => if s.mode == .dead then s else ringEnSet kind i s
def execPcieLinkDown (s : State) : Host.Outcome State Fault Refusal := withOut s linkDown
def execPcieLinkUp (s : State) : Host.Outcome State Fault Refusal := withOut s linkUp
def execBusMasterEnable (c : PcieCfg) (s : State) : Host.Outcome State Fault Refusal := withOut s (busMaster c)
def execDoorbellSample (s : State) : Host.Outcome State Fault Refusal := withOut s doorbellSample
def execDoorbellReadDone (block : List Byte) (cyc : Nat) (s : State) : Host.Outcome State Fault Refusal :=
  withOutAt s (some (cycU cyc)) (doorbellDone block cyc)
def execDoorbellReadFail (cyc : Nat) (s : State) : Host.Outcome State Fault Refusal := withOutAt s (some (cycU cyc)) (doorbellFail cyc)
def execEvtOverflowRecord (k : Fin 16) (s : State) : Host.Outcome State Fault Refusal := withOut s (evtOverflow k)

end Sys2Proof.Machine
end

