-- ==== Sys2Proof/Machine/Prf.lean ====
section
/-! DEFINITION. Sys2Proof/Machine/Prf.lean: the Profile Engine: channels and queues, profile commands, the rover plan
and set-point blocks (R227 to R234, R237 to R243). Rover speeds are in µm/s and along-track positions in 2⁻¹ nm, so that
a tick of 1 ms covers the sum of the speeds at its ends. -/

namespace Sys2Proof.Machine

open Sys2Proof

/-- Units of s in a millimetre. -/
def mmS : Nat := 2000000

/-! ### Channels and sinks (R227 to R229) -/

def prfCh (s : State) (c : Nat) : PrfCh := mget ({} : PrfCh) s.prf.chans c
def setPrfCh (s : State) (c : Nat) (v : PrfCh) : State :=
  { s with prf := { s.prf with chans := mput ({} : PrfCh) s.prf.chans c v } }

def prfSink (s : State) (r : Nat) : PrfSink := mget ({} : PrfSink) s.prf.rovers r
def setPrfSink (s : State) (r : Nat) (v : PrfSink) : State :=
  { s with prf := { s.prf with rovers := mput ({} : PrfSink) s.prf.rovers r v } }

def posSink (s : State) (n : Nat) : PosSink := mget ({} : PosSink) s.prf.poss n
def setPosSink (s : State) (n : Nat) (v : PosSink) : State :=
  { s with prf := { s.prf with poss := mput ({} : PosSink) s.prf.poss n v } }

/-- The channels of a sink by QUEUE_POS. -/
def sinkChans (s : State) (kind k : Nat) : List Nat := if kind = 2 then (posSink s k).chans else (prfSink s k).chans
def setSinkChans (s : State) (kind k : Nat) (cs : List Nat) : State :=
  if kind = 2 then setPosSink s k { posSink s k with chans := cs } else setPrfSink s k { prfSink s k with chans := cs }

def prfDirty (s : State) (c : Nat) : State :=
  if c ∈ s.prf.dirty then s else { s with prf := { s.prf with dirty := s.prf.dirty ++ [c] } }

/-- States 2 to 6 of R232. -/
def chMoving (v : PrfCh) : Bool := decide (2 ≤ v.state) && decide (v.state ≤ 6)

/-- The channels of a sink take their places: the first is active, and starts where it was armed. -/
def prfNumber (s : State) (kind k : Nat) : State :=
  let cs := sinkChans s kind k
  let s := cs.foldl (fun s c =>
    let v := prfCh s c
    let v := if cs.head? = some c then
        let v := if v.state = 1 then { v with state := 0 } else v
        if v.armed then { v with armed := false, start := true } else v
      else if v.state = 0 then { v with state := 1 } else v
    prfDirty (setPrfCh s c v) c) s
  s

/-- A channel leaves its sink; it keeps its parameters, those accepted for its next update among them (R229). -/
def prfFree (s : State) (c : Nat) : State :=
  let v := prfCh s c
  let s := setSinkChans s v.kind v.sink ((sinkChans s v.kind v.sink).filter (· != c))
  prfDirty (setPrfCh s c { par := v.staged.getD v.par }) c

/-- R228: an IDLE active channel gives way to the armed channel of lowest QUEUE_POS. -/
def prfHandover (s : State) (kind k : Nat) : State :=
  match sinkChans s kind k with
  | [] => s
  | c :: rest =>
    let v := prfCh s c
    match rest.find? (fun d => (prfCh s d).armed) with
    | some d =>
      if v.state = 0 ∧ v.start = false then
        let s := prfFree s c
        prfNumber (setSinkChans s kind k (d :: rest.filter (· != d))) kind k
      else s
    | none => s

def prfRefuse (s : State) (h : Handle) (status c : Nat) : State :=
  raise (complete (s.inc Reg.PRF_COUNTS.REFUSE_COUNT) h status) 229 (if c < 512 then c else noDetail)

/-- PRF_BIND with KIND 1 or 2. -/
def prfBind (h : Handle) (c kind k rsv : Nat) (s : State) : State :=
  if rsv ≠ 0 ∨ 511 < c ∨ ¬ ((kind = 1 ∧ k ≤ 127) ∨ (kind = 2 ∧ k ≤ 3)) ∨ (prfCh s c).kind ≠ 0
      ∨ 8 ≤ (sinkChans s kind k).length then prfRefuse s h stBind c
  else
    let s := setPrfCh s c { par := (prfCh s c).par, kind := kind, sink := k }
    complete (prfNumber (setSinkChans s kind k (sinkChans s kind k ++ [c])) kind k) h stOk

/-- PRF_BIND with KIND 0: at the next tick boundary. -/
def prfUnbind (h : Handle) (c k rsv : Nat) (s : State) : State :=
  let v := prfCh s c
  if rsv ≠ 0 ∨ 127 < k ∨ 511 < c ∨ v.kind = 0 ∨ ((sinkChans s v.kind v.sink).head? = some c ∧ (v.state ≠ 0 ∨ v.start = true)) then
    prfRefuse s h stBind c
  else complete { s with prf := { s.prf with unbinds := s.prf.unbinds ++ [c] } } h stOk

/-! ### Parameters (R230, R231) -/

/-- The merged set keeps to R230 (TARGET apart). -/
def parOk (kind : Nat) (p : PrfPar) : Bool :=
  let vMax := if kind = 2 then 25000000 else 20000
  let aMax := if kind = 2 then 50000000 else 20000
  let vMin := if kind = 2 then 100 else 1
  let rate (a : Nat) := decide (1 ≤ a) && decide (a ≤ aMax)
  rate p.a1 && rate p.a2 && rate p.d1 && rate p.d2 && decide (p.vCruise ≤ vMax) && decide (vMin ≤ p.vCruise)
    && decide (vMin ≤ p.vStop) && decide (p.vStop ≤ p.vSplit) && decide (p.vStart ≤ p.vSplit) && decide (p.vSplit ≤ p.vCruise)

/-- The fields of a profile record taken. -/
def parMerge (p : PrfPar) (fields : Nat) (b : List Byte) : PrfPar :=
  let f (i old : Nat) : Nat := if bitAt fields i then field b (4 * i) 4 else old
  { vStart := f 0 p.vStart, a1 := f 1 p.a1, vSplit := f 2 p.vSplit, a2 := f 3 p.a2, vCruise := f 4 p.vCruise
    d2 := f 5 p.d2, d1 := f 6 p.d1, vStop := f 7 p.vStop
    target := if bitAt fields 8 then toSigned 32 (field b 32 4) else p.target }

/-! ### The braking distance (R233), in exact fractions -/

/-- The parts of b: (v² − x²) over D2 and over D1, before the factor of the units. -/
def brakeParts (v vEnd vSplit : Nat) : Nat × Nat :=
  if v ≤ vEnd then (0, 0)
  else if v ≤ vSplit then (0, v * v - vEnd * vEnd)
  else if vSplit ≤ vEnd then (v * v - vEnd * vEnd, 0)
  else (v * v - vSplit * vSplit, vSplit * vSplit - vEnd * vEnd)

/-- b ≤ x, with b = (part2 / D2 + part1 / D1) × num / den. -/
def brakeFits (num den v vEnd vSplit d2 d1 : Nat) (x : Int) : Bool :=
  let (p2, p1) := brakeParts v vEnd vSplit
  decide ((((p2 * d1 + p1 * d2) * num : Nat) : Int) ≤ x * ((den * d1 * d2 : Nat) : Int))

/-- x ≤ b: the distance left, less the distance covered before the next update, is at most b. -/
def brakeDue (num den v vEnd vSplit d2 d1 : Nat) (x : Int) : Bool :=
  let (p2, p1) := brakeParts v vEnd vSplit
  decide (x * ((den * d1 * d2 : Nat) : Int) ≤ (((p2 * d1 + p1 * d2) * num : Nat) : Int))

/-- b rounded up. -/
def brakeUp (num den v vEnd vSplit d2 d1 : Nat) : Nat :=
  let (p2, p1) := brakeParts v vEnd vSplit
  ceilDiv ((p2 * d1 + p1 * d2) * num) (den * d1 * d2)

/-- b of a rover, in units of s: speeds in µm/s, rates in mm/s². -/
def roverBrake (p : PrfPar) (u : Option (Nat × Nat)) (v vEnd : Nat) : Nat :=
  let (d2, d1) := u.getD (p.d2, p.d1)
  brakeUp 1 1 v vEnd (p.vSplit * 1000) d2 d1

/-! ### The corridor in s (R238) -/

/-- A segment with where it begins and ends in s. -/
abbrev MapSeg := Int × Int × ChtSeg

def segLen (g : ChtSeg) : Nat := isqrt (sqLen (g.e0, g.n0) (g.e1, g.n1) * (mmS * mmS))

/-- The segments of a corridor in s, from the ends already known. -/
def mapSegs (seen : List (ChtSeg × Int)) (fresh : Int) : List ChtSeg → Option Int → List MapSeg
  | [], _ => []
  | g :: gs, e =>
    let a : Int := match seen.find? (fun p => p.1 == g), e with
      | some p, _ => p.2
      | none, some e => e
      | none, none => fresh
    (a, a + segLen g, g) :: mapSegs seen fresh gs (some (a + segLen g))

/-- The point of the centrelines at s. -/
def pointOf (m : List MapSeg) (s : Int) : Pt :=
  match m.find? (fun x => decide (s ≤ x.2.1)), m.getLast? with
  | some (a, b, g), _ =>
    let f : Int := max 0 (min (s - a) (b - a))
    if b = a then (g.e0, g.n0)
    else (g.e0 + roundDiv ((g.e1 - g.e0) * f) (b - a).toNat, g.n0 + roundDiv ((g.n1 - g.n0) * f) (b - a).toNat)
  | none, some (_, _, g) => (g.e1, g.n1)
  | none, none => (0, 0)

/-- The nearest point of the centrelines to p, in s. -/
def projectOn (p : Pt) : List MapSeg → Option (Dist2 × Int) → Option Int
  | [], best => best.map (·.2)
  | (a, _, g) :: ms, best =>
    let d := pointDist p (g.e0, g.n0) (g.e1, g.n1)
    let here := (d, a + alongTrack p (g.e0, g.n0) (g.e1, g.n1) * mmS)
    match best with
    | none => projectOn p ms (some here)
    | some b => projectOn p ms (if Dist2.le b.1 d then some b else some here)

/-- Rover r's corridor in s, and the sink that goes with it: s begins at 0 under NEW, runs on under APPEND, and keeps the
horizon point under REPLACE. A corridor whose first segment is new has a new s for all of its segments. -/
def roverMap (s : State) (r : Nat) : List MapSeg × PrfSink :=
  let v := chtRover s r
  let k := prfSink s r
  match v.segs with
  | [] => ([], k)
  | g0 :: _ =>
    let known := k.seen.any fun p => p.1 == g0
    let fresh : Int :=
      if known then 0
      else match v.how with
        | 1 => k.endS.getD 0
        | 2 =>
          let old := mapSegs k.seen 0 (k.seen.map (·.1)) none
          let new := mapSegs [] 0 v.segs none
          match old, projectOn (pointOf old k.s) new none with
          | [], _ => 0
          | _, some x => k.s - x
          | _, none => 0
        | _ => 0
    let m := mapSegs (if known then k.seen else []) fresh v.segs none
    let restart := !known && v.how == 0
    let k := { k with
      seen := m.map (fun x => (x.2.2, x.1)), endS := m.getLast?.map (fun x => x.2.1)
      s := if restart then 0 else k.s, lateSeg := if restart then [] else k.lateSeg }
    (m, k)

/-! ### Points (R232 to R234, R237 to R239, R241) -/

/-- What one step of a channel does beside its new state. -/
structure StepOut where
  ch    : PrfCh
  s     : Int
  v     : Nat
  tgt   : Option Int
  ds    : Nat
  clamp : Bool := false
  done  : Bool := false

/-- The end of a move, or a stop on a limit (R233, R238). -/
def arriveAt (c : PrfCh) (isTgt : Bool) (s0 left : Int) (tgt : Option Int) (clamped : Bool) : StepOut :=
  let c := { c with clamp := false, holdV := false, toTgt := false }
  let l := left.toNat
  if isTgt then
    { ch := { c with state := 0, decUse := none, late := false, hp := false, rate := 0 }, s := s0 + l, v := 0, tgt := tgt
      ds := l, clamp := clamped, done := true }
  else { ch := { c with hp := true, rate := 0 }, s := s0 + l, v := 0, tgt := tgt, ds := l, clamp := clamped }

/-- A TARGET behind s: the point takes speed 0 on that s, and the move has not ended on its target (R234, row 4 of R241). -/
def holdBehind (c : PrfCh) (s0 : Int) (tgt : Option Int) (clamped : Bool) : StepOut :=
  { ch := { c with clamp := false, holdV := false, toTgt := false, rate := 0 }, s := s0, v := 0, tgt := tgt, ds := 0, clamp := clamped }

/-- Decelerate for one tick, not below the floor. -/
def slowDown (v floor vSplit d2 d1 : Nat) : Nat × Nat × Nat :=
  if vSplit < v then (max (v - d2) (max vSplit floor), 5, d2) else (max (v - d1) floor, 6, d1)

/-- Accelerate for one tick, up to the limit. -/
def speedUp (v lim vSplit a1 a2 : Nat) : Nat × Nat × Nat :=
  if v < vSplit then (min (v + a1) (min vSplit lim), 2, a1) else (min (v + a2) lim, 3, a2)

/-- Room to come down to the speed of a slower segment: the braking distance, and what the short steps on its way add. -/
def slowRoom (v vEnd vSplit d2 d1 : Nat) : Int :=
  ((brakeUp 1 1 v vEnd vSplit d2 d1 + 2 * (vEnd + (if vSplit < v ∧ vEnd < vSplit then vSplit else 0)) : Nat) : Int)

/-- The segment of the corridor that holds s. -/
def segHere (m : List MapSeg) (s0 : Int) : Option MapSeg :=
  match m.find? (fun x => decide (x.1 ≤ s0) && decide (s0 < x.2.1)), m.head?, m.getLast? with
  | some x, _, _ => some x
  | none, some x, some y => if s0 < x.1 then some x else some y
  | _, _, _ => none

/-- The target in force of a point planned for tick k, after the limits of R238: TARGET, the start of the first segment
entered later, the end of the corridor; without a GRANTED corridor, where the point is. -/
def roverLimit (granted : Bool) (m : List MapSeg) (k : Nat) (s0 : Int) (p : PrfPar) : Int :=
  if !granted || m.isEmpty then s0
  else
    let tgt : Int := p.target * mmS
    let late := (m.find? (fun x => decide (k < x.2.2.tEnter))).map (·.1)
    let endS := m.getLast?.map (fun x => x.2.1)
    min tgt (min (late.getD tgt) (endS.getD tgt))

/-- One point of a moving channel, for tick k. -/
def roverMove (granted : Bool) (m : List MapSeg) (k : Nat) (c : PrfCh) (s0 : Int) (v : Nat) (old : Option Int) : StepOut :=
  let p := c.par
  let (d2, d1) := c.decUse.getD (p.d2, p.d1)
  let vSplit := p.vSplit * 1000
  let vStop := p.vStop * 1000
  let lim := roverLimit granted m k s0 p
  let isTgt := granted && !m.isEmpty && lim == p.target * mmS
  let here := ((segHere m s0).map fun x => x.2.2.vMax).getD 0
  let vMax := min p.vCruise here * 1000
  let left := lim - s0
  let c := { c with tnow := roundDiv lim mmS }
  let c := if old.any (fun o => decide (o < lim)) then { c with clamp := false, toTgt := false } else c
  let near := (match old with | some o => decide (lim < o) | none => true) && decide (0 < v)
    && !brakeFits 1 1 v vStop vSplit d2 d1 left
  let c := if near then { c with clamp := true, decCl := true } else c
  if left < 0 ∧ isTgt = true then holdBehind c s0 (some lim) near
  else if left ≤ 0 then arriveAt c isTgt s0 left (some lim) near
  else
    let c := if v = 0 then { c with hp := false } else c
    let v := if v = 0 then p.vStart * 1000 else v
    let cov : Int := ((2 * v : Nat) : Int)
    let out (c : PrfCh) (vn st rate : Nat) : StepOut :=
      let c := { c with state := st, rate := rate }
      if left ≤ ((v + vn : Nat) : Int) then arriveAt c isTgt s0 left (some lim) near
      else { ch := c, s := s0 + ((v + vn : Nat) : Int), v := vn, tgt := some lim, ds := v + vn, clamp := near }
    if c.clamp then
      let rate := (v * v - vStop * vStop) / left.toNat
      out c (max (v - rate) vStop) (if vSplit < v then 5 else 6) rate
    else if (c.toTgt && (c.state == 5 || c.state == 6) && !c.holdV) || brakeDue 1 1 v vStop vSplit d2 d1 (left - cov) then
      let (vn, st, rate) := slowDown v vStop vSplit d2 d1
      let vn := if v ≤ vStop then v else vn
      out { c with toTgt := true, holdV := false } vn st (if vn = v then 0 else rate)
    else
      let c := { c with toTgt := false }
      let ahead := m.filter fun x => decide (s0 < x.1)
      let braking := ahead.filter fun x =>
        let vm := x.2.2.vMax * 1000
        (decide (vm < v) && (c.slow.contains x.2.2.idx || decide (x.1 - s0 - cov ≤ slowRoom v vm vSplit d2 d1)))
          || (vm == v && c.slow.contains x.2.2.idx)
      let slower := braking.filter fun x => decide (x.2.2.vMax * 1000 < v)
      let floor : Option Nat := slower.foldl (fun (f : Option Nat) x => some (match f with
        | some y => min y (x.2.2.vMax * 1000)
        | none => x.2.2.vMax * 1000)) (if vMax < v then some vMax else none)
      let c := { c with slow := braking.map (fun x => x.2.2.idx) }
      let (vn, st, rate) : Nat × Nat × Nat := match floor with
        | some f => slowDown v f vSplit d2 d1
        | none => if c.holdV then (v, 4, 0) else if v < vMax then speedUp v vMax vSplit p.a1 p.a2 else (vMax, 4, 0)
      let cap := ahead.foldl (fun (w : Nat) x =>
        let vm := x.2.2.vMax * 1000
        if v < w ∧ vm < w ∧ (c.slow.contains x.2.2.idx = true ∨ x.1 - s0 - ((v + w : Nat) : Int) < slowRoom w vm vSplit d2 d1) then
          max v (min w vm)
        else w) vn
      if cap = v ∧ v < vn then out c v 4 0 else out c cap st rate

/-- A change accepted takes effect: TARGET first, then the rates (rows 2, 3, 6 and 9 of R241). Whether row 2 applies. `up`:
the channel travels in the positive direction. -/
def prfStage (c : PrfCh) (up : Bool) (v : Nat) (left : PrfPar → Int) (fits : PrfPar → Int → Bool) : Bool × PrfCh :=
  match c.staged with
  | none => (false, c)
  | some n =>
    let old := c.par
    let c := { c with staged := none, par := n, tnow := n.target, holdV := c.holdV && !(if up then decide (old.target < n.target) else decide (n.target < old.target)) }
    if v ≠ 0 ∧ (c.state = 5 ∨ c.state = 6) ∧ (c.toTgt = true ∨ c.clamp = true) ∧ (n.d2 ≠ old.d2 ∨ n.d1 ≠ old.d1) then
      if fits n (left n) then (false, { c with holdV := true, clamp := false })
      else (true, { c with decUse := some (c.decUse.getD (old.d2, old.d1)), decCl := true })
    else (false, c)

/-- Rows 2 and 4 of R241. -/
def prfClamped (s : State) (c : Nat) : State := raise (s.inc Reg.PRF_COUNTS.CLAMP_COUNT) 225 c

/-- DONE is set. -/
def prfDone (s : State) (c : Nat) : State :=
  let s := s.wb Reg.PRF_CH.DONE true c
  if s.rb Reg.PRF_CFG.DONE_EVT_EN then raiseTick s 224 c else s

/-- The permit bit of rover r on the air (R249). -/
def permitOnAir (s : State) (r : Nat) : Bool :=
  s.rbit Reg.CHT_PERMIT.PERMIT r && !s.rb Reg.STP_STATE.FLEET && !s.rbit Reg.STP_TSTOP.TSTOP r && s.mode != .halt

/-- The s at which a rover is anchored when its permit returns (R239). -/
def prfAnchor (s : State) (r : Nat) (m : List MapSeg) (k : PrfSink) : Option Int :=
  let v := chtRover s r
  match (fixRover s r).fixed with
  | some (te, e, n) =>
    if s.tick ≤ te + 200 then (if m.isEmpty then none else projectOn (e, n) m none)
    else if !m.isEmpty && v.stage.any (fun g => m.all fun x => inStage g x.2.2) then some k.s else none
  | none => if !m.isEmpty && v.stage.any (fun g => m.all fun x => inStage g x.2.2) then some k.s else none

/-- The planned point of tick t. -/
def planPoint (k : PrfSink) (t : Nat) : Int × Nat :=
  if t < k.planAt then (k.s, 0) else k.plan.getD (t - k.planAt) (k.s, 0)

/-- The plan leaves s inside a segment at its T_EXIT, in one of the ticks given: EXIT_LATE of channel c, once for each
such segment (R238). -/
def exitLate (r c : Nat) (m : List MapSeg) (x : Int) (ticks : Nat → Bool) (s : State) : State :=
  let outs := m.filter fun g => ticks g.2.2.tExit && decide (g.1 ≤ x) && decide (x < g.2.1)
    && !(prfSink s r).lateSeg.contains (g.2.2.idx, g.2.2.tExit)
  outs.foldl (fun s g =>
    let k := prfSink s r
    let s := setPrfSink s r { k with lateSeg := k.lateSeg ++ [(g.2.2.idx, g.2.2.tExit)] }
    raise ((setPrfCh s c { prfCh s c with late := true }).inc Reg.PRF_COUNTS.EXIT_LATE_COUNT) 226 c) s

/-- One new point of rover r's plan, for tick t. -/
def prfPoint (r : Nat) (m : List MapSeg) (granted hold : Bool) (t : Nat) (s : State) : State :=
  let k := prfSink s r
  let put (s : State) (k : PrfSink) (ds : Nat) (s0 : Int) : State := setPrfSink s r { k with plan := k.plan ++ [(s0, ds)] }
  match k.chans.head? with
  | none => put s { k with v := 0 } 0 k.s
  | some c =>
    let s := exitLate r c m k.s (· == t) s
    let k := prfSink s r
    let v := prfCh s c
    let begin_ := v.start
    let v := if begin_ then { v with start := false, state := 2, decCl := false, rev := false } else v
    let k := if begin_ then { k with v := 0, tgt := none } else k
    if hold || !chMoving v then
      let v := { v with speed := 0, rate := 0, tnow := roundDiv (roverLimit granted m t k.s v.par) mmS
                        hp := !granted || (chMoving v && v.hp) }
      put (setPrfCh s c v) { k with v := 0 } 0 k.s
    else
      let o := roverMove granted m t v k.s k.v k.tgt
      let s := setPrfCh s c { o.ch with speed := ((o.v + 500) / 1000 : Nat) }
      let s := if o.clamp then prfClamped s c else s
      let s := if o.done then prfDone s c else s
      put s { k with s := o.s, v := o.v, tgt := o.tgt } o.ds k.s

/-- Points up to tick `last`. -/
def prfPoints (r : Nat) (m : List MapSeg) (granted hold : Bool) (last : Nat) : Nat → State → State
  | 0, s => s
  | n + 1, s =>
    let k := prfSink s r
    let t := k.planAt + k.plan.length
    if last < t then s else prfPoints r m granted hold last n (prfPoint r m granted hold t s)

/-- The profile update of a rover sink in the PRF slot. -/
def prfRover (r : Nat) (s : State) : State :=
  let (m, k) := roverMap s r
  let drop := s.tick - k.planAt
  let k := if k.plan.isEmpty || decide (k.planAt + k.plan.length ≤ s.tick) then
      { k with plan := List.replicate 120 (k.s, 0), planAt := s.tick }
    else { k with plan := k.plan.drop drop, planAt := k.planAt + drop }
  let s := prfHandover (setPrfSink s r k) 1 r
  let s := k.chans.foldl (fun s c =>
    let v := prfCh s c
    let k := prfSink s r
    let moving := k.chans.head? == some c
    let (cl, v) := prfStage v true (if moving then k.v else 0)
      (fun p => roverLimit (chtSt s r == 2) m (s.tick + 120) k.s p - k.s)
      (fun p x => brakeFits 1 1 k.v (p.vStop * 1000) (p.vSplit * 1000) p.d2 p.d1 x)
    let s := setPrfCh s c v
    if cl then prfClamped s c else s) s
  let k := prfSink s r
  let on := permitOnAir s r
  let anchor := if on && k.held then prfAnchor s r m k else none
  let held := !on || (k.held && anchor.isNone)
  let s := match held, k.chans.head? with
    | true, some c => if s.rb Reg.PRF_CH.HELD c then s else raiseTick s 228 c
    | _, _ => s
  let s := setPrfSink s r { k with held := held }
  let granted := chtSt s r == 2
  let s := prfPoints r m granted (held || anchor.isSome) (s.tick + 120) 121 s
  match anchor with
  | none => s
  | some x =>
    let k := prfSink s r
    let s := setPrfSink s r { k with plan := k.plan.take 1 ++ List.replicate 120 (x, 0), s := x, v := 0, tgt := none }
    match k.chans.head? with
    | some c =>
      let s := setPrfCh s c { prfCh s c with clamp := false, holdV := false, toTgt := false }
      exitLate r c m x (fun t => decide (s.tick < t) && decide (t ≤ s.tick + 120)) s
    | none => s

/-! ### The slot and the registers (R237, R242) -/

/-- Position and speed shown of a channel: a rover's horizon point in mm, a positioner's microsteps and 0.01 microstep/s. -/
def prfShown (s : State) (c : Nat) (v : PrfCh) (position : Nat → Int) : Int × Int :=
  let active := (sinkChans s v.kind v.sink).head? == some c
  match v.kind with
  | 1 => (if active then v.speed else 0, roundDiv (prfSink s v.sink).s mmS)
  | 2 =>
    let k := posSink s v.sink
    let sp : Int := ((k.vel * 10 ^ 10 + 2 ^ 63) / 2 ^ 64 : Nat)
    (if active then (if k.pos then sp else -sp) else 0, position v.sink)
  | _ => (0, 0)

/-- PRF_CH and PRF_PAR of a channel. -/
def prfShow (position : Nat → Int) (s : State) (c : Nat) : State :=
  let v := prfCh s c
  let cs := sinkChans s v.kind v.sink
  let at_ := cs.findIdx (· == c)
  let active := v.kind != 0 && cs.head? == some c
  let (speed, pos) := prfShown s c v position
  let s := (((s.w Reg.PRF_CH.KIND v.kind c).wb Reg.PRF_CH.ARMED v.armed c).w Reg.PRF_CH.QUEUE_POS
    (if v.kind = 0 then 0 else at_) c).w Reg.PRF_CH.SINK v.sink c
  let s := ((s.w Reg.PRF_CH.STATE v.state c).wb Reg.PRF_CH.DECEL_CLAMPED v.decCl c).wb Reg.PRF_CH.REVERSED v.rev c
  let s := ((s.wb Reg.PRF_CH.HELD (active && v.kind == 1 && (prfSink s v.sink).held) c).wb Reg.PRF_CH.HOLD_POINT v.hp c).wb
    Reg.PRF_CH.EXIT_LATE v.late c
  let s := (((s.wi Reg.PRF_CH.SPEED speed c).wi Reg.PRF_CH.POSITION pos c).w Reg.PRF_CH.RATE_NOW v.rate c).wi
    Reg.PRF_CH.TARGET_NOW v.tnow c
  let p := v.par
  let s := (((s.w Reg.PRF_PAR.V_START p.vStart c).w Reg.PRF_PAR.A1 p.a1 c).w Reg.PRF_PAR.V_SPLIT p.vSplit c).w
    Reg.PRF_PAR.A2 p.a2 c
  let s := (((s.w Reg.PRF_PAR.V_CRUISE p.vCruise c).w Reg.PRF_PAR.D2 p.d2 c).w Reg.PRF_PAR.D1 p.d1 c).w
    Reg.PRF_PAR.V_STOP p.vStop c
  s.wi Reg.PRF_PAR.TARGET p.target c

/-- Every bound channel. -/
def boundChans (s : State) : List Nat := (s.prf.chans.filter fun p => p.2.kind != 0).map (·.1)

/-- The state of every channel is latched into the registers. -/
def prfLatch (s : State) : State :=
  let position (n : Nat) : Int := s.ri Reg.POS_CH.COUNTER n + (posSink s n).ahead
  let bound := boundChans s
  let dirty := s.prf.dirty.filter fun c => !bound.contains c
  let s := (bound ++ dirty).foldl (prfShow position) { s with prf := { s.prf with dirty := [] } }
  (s.w Reg.PRF_STATUS.N_MOVING (bound.filter fun c => chMoving (prfCh s c)).length).w Reg.PRF_STATUS.N_BOUND bound.length

/-- The PRF slot. A rover's corridor is followed in s from its grant on, whether or not a channel is bound. -/
def prfSlot (use : SlotUse) (s : State) : State :=
  let s := slotEnd s 6 use
  let others := (s.cht.rovers.map (·.1)).filter fun r => !(s.prf.rovers.any fun p => p.1 == r)
  if s.mode == .dead then s else prfLatch ((s.prf.rovers.map (·.1) ++ others).foldl (fun s r => prfRover r s) s)

/-! ### PRF_PROFILE (R231) -/

/-- STOP sets TARGET to the nearest point the channel can reach with D2 and D1. -/
def stopTarget (s : State) (v : PrfCh) (p : PrfPar) (moving : Bool) : Int :=
  if v.kind = 1 then
    let k := prfSink s v.sink
    let b : Nat := if moving then roverBrake p v.decUse k.v (p.vStop * 1000) else 0
    Int.neg ((-(k.s + (b : Int))) / (mmS : Int))
  else
    let k := posSink s v.sink
    let here := s.ri Reg.POS_CH.COUNTER v.sink + k.ahead
    if !moving then here
    else
      let word (x : Nat) : Nat := (x * 2 ^ 48 + 5000000000) / 10000000000 * 2 ^ 16
      let (d2, d1) := v.decUse.getD (p.d2, p.d1)
      let b := brakeUp (10 ^ 16) (2 ^ 81) k.vel (word p.vStop) (word p.vSplit) d2 d1
      let n : Int := (ceilDiv (b + k.acc) (2 ^ 48) : Nat)
      if k.pos then here + n else here - n

/-- PRF_PROFILE: ACTION 0 UPDATE, 1 START, 2 STOP, 3 HALT. -/
def prfProfile (act : Nat) (h : Handle) (c fields addr rsv : Nat) (buf : BufIn) (s : State) : State :=
  if fields ≠ 0 ∧ bufOk s addr 40 buf = false then complete s h stBuffer
  else
    let v := prfCh s c
    let base := v.staged.getD v.par
    let n := parMerge base fields buf.data
    let active := (sinkChans s v.kind v.sink).head? == some c
    let moving := chMoving v || v.start
    let n := if act = 2 then { n with target := stopTarget s v n (moving && active) } else n
    let behind := v.kind == 1 && decide (n.target * mmS < (prfSink s v.sink).s)
    if rsv ≠ 0 ∨ 511 < c ∨ 512 ≤ fields ∨ (fields ≠ 0 ∧ (addr % 8 ≠ 0 ∨ field buf.data 36 4 ≠ 0)) ∨ v.kind = 0
        ∨ (act = 3 ∧ v.kind = 1) ∨ (act = 1 ∧ (moving = true ∨ v.armed = true)) ∨ parOk v.kind n = false ∨ behind = true then
      prfRefuse s h stProfile c
    else
      let v := { v with
        staged := some n
        start := act != 3 && (v.start || (act == 1 && active))
        armed := v.armed || (act == 1 && !active)
        halt := v.halt || (act == 3 && active) }
      complete (prfDirty (setPrfCh s c v) c) h stOk

/-! ### Set-point blocks (R240) -/

/-- The 120 speeds: the running sum keeps within a micrometre of the plan, on the side that offsets the rounding of S0. -/
def blockSpeeds (up : Bool) : List Nat → Nat → Nat → List Byte
  | [], _, _ => []
  | d :: ds, sum, done =>
    let sum := sum + d
    let cum := if up then ceilDiv sum 2000 else sum / 2000
    let sp := min (cum - done) 20000
    le 2 sp ++ blockSpeeds up ds sum (done + sp)

/-- The set-point block of rover r, read in tick t. -/
def setPointBlock (s : State) (r t : Nat) : List Byte :=
  let k := prfSink s r
  let start := (planPoint k t).1
  let s0 := roundDiv start mmS
  let speeds := blockSpeeds (decide (s0 * mmS < start)) ((List.range 120).map fun i => (planPoint k (t + i)).2) 0 0
  let flags : Nat := match k.chans.head? with
    | none => if speeds.all (· == 0) then 8 else 0
    | some c => b2n k.held + 2 * b2n (prfCh s c).hp + 4 * b2n (prfCh s c).decCl
  le 1 r ++ le 1 flags ++ le 2 120 ++ le 4 (ofSigned 32 s0) ++ le 8 t ++ speeds

/-! ### Boundaries (R229, R241) -/

/-- Every bound channel becomes HALTED, with no ramp; bindings are kept. -/
def prfHaltAll (s : State) : State :=
  let s := s.prf.rovers.foldl (fun s p =>
    let here := (planPoint p.2 s.tick).1
    setPrfSink s p.1 { p.2 with s := here, v := 0, tgt := none, plan := [], planAt := 0 }) s
  let s := s.prf.poss.foldl (fun s p => setPosSink s p.1 { p.2 with vel := 0, tgt := none }) s
  (boundChans s).foldl (fun s c =>
    let v := prfCh s c
    if v.state = 7 then s
    else raise (prfDirty (setPrfCh s c { kind := v.kind, sink := v.sink, par := v.par, state := 7, decCl := v.decCl, rev := v.rev
                                         late := v.late }) c) 227 c) s

/-- PRF at a tick boundary. -/
def prfTick (s : State) : State :=
  let outs := s.prf.unbinds
  let s := outs.foldl (fun s c =>
    let v := prfCh s c
    if v.kind = 0 then s else prfNumber (prfFree s c) v.kind v.sink) { s with prf := { s.prf with unbinds := [] } }
  if s.running then { s with prf := { s.prf with ran := true } }
  else if s.prf.ran then prfLatch (prfHaltAll { s with prf := { s.prf with ran := false } })
  else prfLatch s

/-! ### The commands -/

def execPrfBind (h : Handle) (channel kind sink rsv : Nat) (s : State) : Host.Outcome State Fault Refusal :=
  withOut s (ringOp leadModes h (descOf (.prfBind h channel kind sink rsv)) (prfBind h channel kind sink rsv))
def execPrfUnbind (h : Handle) (channel sink rsv : Nat) (s : State) : Host.Outcome State Fault Refusal :=
  withOut s (ringOp leadModes h (descOf (.prfUnbind h channel sink rsv)) (prfUnbind h channel sink rsv))
def execPrfProfileUpdate (h : Handle) (channel fields bufAddr rsv : Nat) (buf : BufIn) (s : State) :
    Host.Outcome State Fault Refusal :=
  withOut s (ringOp leadModes h (descOf (.prfProfileUpdate h channel fields bufAddr rsv buf))
    (prfProfile 0 h channel fields bufAddr rsv buf))
def execPrfProfileStart (h : Handle) (channel fields bufAddr rsv : Nat) (buf : BufIn) (s : State) :
    Host.Outcome State Fault Refusal :=
  withOut s (ringOp leadModes h (descOf (.prfProfileStart h channel fields bufAddr rsv buf))
    (prfProfile 1 h channel fields bufAddr rsv buf))
def execPrfProfileStop (h : Handle) (channel fields bufAddr rsv : Nat) (buf : BufIn) (s : State) :
    Host.Outcome State Fault Refusal :=
  withOut s (ringOp leadModes h (descOf (.prfProfileStop h channel fields bufAddr rsv buf))
    (prfProfile 2 h channel fields bufAddr rsv buf))
def execPrfProfileHalt (h : Handle) (channel fields bufAddr rsv : Nat) (buf : BufIn) (s : State) :
    Host.Outcome State Fault Refusal :=
  withOut s (ringOp leadModes h (descOf (.prfProfileHalt h channel fields bufAddr rsv buf))
    (prfProfile 3 h channel fields bufAddr rsv buf))
def execPrfSlot (use : SlotUse) (s : State) : Host.Outcome State Fault Refusal :=
  withOut s fun s => engines s (prfSlot use)

end Sys2Proof.Machine
end

