-- ==== Sys2Proof/Machine/Pos.lean ====
section
/-! DEFINITION. Sys2Proof/Machine/Pos.lean: positioner channels of the Profile Engine and the Positioner Drives (R235,
R236, R241, R401 to R418). Velocities are in 2⁻¹⁶ of the velocity word V, distances in 2⁻⁴⁸ microstep. -/

namespace Sys2Proof.Machine

open Sys2Proof

/-! ### Registers and levels -/

def posCh (s : State) (n : Nat) : PosCh := mget ({} : PosCh) s.pos.chans n

/-- The channel's bridges are driven (R402, R412, R416). -/
def posDriven (s : State) (v : PosCh) : Bool :=
  v.en && !v.fault && s.leading && s.rb Reg.POS_SUPPLY.VMOT_OK && !(s.pos.wait.any fun t => decide (s.tick < t))

/-- STATE of R417. -/
def posStateOf (s : State) (v : PosCh) : Nat :=
  if v.fault then 4
  else if !v.en || !s.leading || s.pos.wait.any (fun t => decide (s.tick < t)) then 0
  else if !s.rb Reg.POS_SUPPLY.VMOT_OK then 4
  else if v.homing.isSome then 3
  else if v.stepping then 2 else 1

/-- cos (k × 5.625°) in 2⁻¹⁶, for k = 0 to 16. -/
def cosQuarter : List Int :=
  [65536, 65220, 64277, 62714, 60547, 57798, 54491, 50660, 46341, 41576, 36410, 30893, 25080, 19024, 12785, 6424, 0]

/-- cos (k × 5.625°) in 2⁻¹⁶, for any k below 64. -/
def cosStep (k : Nat) : Int :=
  if k ≤ 16 then cosQuarter.getD k 0
  else if k ≤ 32 then -cosQuarter.getD (32 - k) 0
  else if k ≤ 48 then -cosQuarter.getD (k - 32) 0
  else cosQuarter.getD (64 - k) 0

/-- The current in force: RUN_MA while the channel steps, and as the test current of AUTO_TUNE (R405); else HOLD_MA (R404). -/
def posCurrent (s : State) (n : Nat) (v : PosCh) : Nat :=
  let run := clampN 100 5600 (s.r Reg.POS_CH.RUN_MA n)
  if v.run || v.tuning then run else min run (s.r Reg.POS_CH.HOLD_MA n)

/-- The target currents I cos θ and I sin θ in µA; the phase sequence is reversed with DIR_INV (R403). -/
def coilTarget (s : State) (n : Nat) (v : PosCh) : Int × Int :=
  if !posDriven s v then (0, 0)
  else
    let u := s.r Reg.POS_CH.USTEP_INDEX n
    let k := if s.rb Reg.POS_CH.DIR_INV n then (64 - u) % 64 else u
    let i : Int := posCurrent s n v * 1000
    ((i * cosStep k + 32768) / 65536, (i * cosStep ((k + 48) % 64) + 32768) / 65536)

/-- Replace what POS holds of a channel, and show its state. -/
def setPosCh (s : State) (n : Nat) (v : PosCh) : State :=
  let v := { v with coil := coilTarget s n v }
  let s := { s with pos := { s.pos with chans := mput ({} : PosCh) s.pos.chans n v } }
  let s := (s.w Reg.POS_CH.STATE (posStateOf s v) n).w Reg.POS_CH.HOME_PHASE
    (match v.homing with | some g => g.phase | none => 0) n
  s.wb Reg.POS_CH.ENC_COVER (posDriven s v && s.rb Reg.POS_CH.ENC_EN n && bitAt (s.r Reg.POS_CH.STALL_SRC n) 0) n

/-- Events of POS limited to one per watch and channel. -/
def raiseWatchCh (s : State) (e n : Nat) : State :=
  let key := 1000 * (n + 1) + e
  if key ∈ s.onceWatch then s else raise { s with onceWatch := s.onceWatch ++ [key] } e n

/-- The velocity word V of a speed in 0.01 microstep/s (R235). -/
def vWord (speed : Nat) : Nat := (speed * 2 ^ 48 + 5000000000) / 10000000000
/-- The velocity, with its 16 fraction bits, of a speed. -/
def vOf (speed : Nat) : Nat := vWord speed * 2 ^ 16
/-- The change of velocity at each update of an acceleration in microsteps/s² (R235). -/
def aWord (a : Nat) : Nat := (a * 2 ^ 64 + 50000000000000) / 100000000000000

/-- b of a positioner in 2⁻⁴⁸ microstep: factor 10¹⁶ / 2⁸¹. -/
def posFits (p : PrfPar) (d : Nat × Nat) (v : Nat) (x : Int) : Bool :=
  brakeFits (10 ^ 16) (2 ^ 81) v (vOf p.vStop) (vOf p.vSplit) d.1 d.2 x
def posDue (p : PrfPar) (d : Nat × Nat) (v : Nat) (x : Int) : Bool :=
  brakeDue (10 ^ 16) (2 ^ 81) v (vOf p.vStop) (vOf p.vSplit) d.1 d.2 x

/-! ### Encoder (R409) -/

def encPos (s : State) (n : Nat) (v : PosCh) : Int :=
  (v.count * s.ri Reg.POS_CH.ENC_FACTOR n + v.encOff + 32768) / 65536

/-- The offset that makes ENC_POS equal COUNTER. -/
def encAlign (s : State) (n : Nat) : State :=
  let v := posCh s n
  setPosCh s n { v with encOff := s.ri Reg.POS_CH.COUNTER n * 65536 - v.count * s.ri Reg.POS_CH.ENC_FACTOR n, align := false }

/-- DEV, in full. -/
def posDev (s : State) (n : Nat) : Int := s.ri Reg.POS_CH.COUNTER n - encPos s n (posCh s n)

/-- ENC_POS and DEV at an update, and the warning level of the module that drives (R411). -/
def encUpdate (s : State) (n : Nat) : State :=
  if !s.rb Reg.POS_CH.ENC_EN n then s
  else
    let d := posDev s n
    let s := (s.wi Reg.POS_CH.ENC_POS (encPos s n (posCh s n)) n).wi Reg.POS_CH.DEV (max (-32768) (min d 32767)) n
    if s.leading ∧ s.r Reg.POS_CH.ENC_WARN n < d.natAbs then raiseWatchCh (s.wb Reg.POS_CH.STALL_WARN true n) 258 n else s

/-- COUNTER takes ENC_POS and USTEP_INDEX moves by −DEV (row 5 of R412). -/
def encSync (s : State) (n : Nat) : State :=
  let d := posDev s n
  let u : Int := s.r Reg.POS_CH.USTEP_INDEX n
  let s := (s.wi Reg.POS_CH.COUNTER (encPos s n (posCh s n)) n).w Reg.POS_CH.USTEP_INDEX ((u - d) % 64).toNat n
  setPosCh s n (posCh s n)

/-! ### Halts (R412, R415) -/

/-- HOMED clears outside homing. -/
def posUnhome (s : State) (n : Nat) : State :=
  if s.rb Reg.POS_CH.HOMED n then raise (s.wb Reg.POS_CH.HOMED false n) 268 n else s

/-- HOMED clears unless the encoder is in use. -/
def posUnhomeNoEnc (s : State) (n : Nat) : State := if s.rb Reg.POS_CH.ENC_EN n then s else posUnhome s n

/-- The active channel of positioner sink n becomes HALTED, V = 0 (R236). -/
def prfPosHalt (s : State) (n : Nat) : State :=
  let k := posSink s n
  let s := setPosSink s n { k with vel := 0, tgt := none }
  match k.chans.head? with
  | none => s
  | some c =>
    let v := prfCh s c
    if v.state = 7 then setPrfCh s c { v with start := false, halt := false }
    else raise (prfDirty (setPrfCh s c { v with
      state := 7, start := false, halt := false, clamp := false, holdV := false, toTgt := false, decUse := none, rate := 0 }) c) 227 c

/-- A halted channel stands still: HOLD_MA, quiet mode, history restarted. -/
def posStand (s : State) (n : Nat) : State :=
  let s := (s.w Reg.POS_CH.DRV_MODE 0 n).w Reg.POS_CH.LA_STATE 0 n
  setPosCh s n { posCh s n with run := false, stepping := false, laHist := 0, laLow := 0 }

/-- A channel that no longer steps: quiet mode at standstill, whose change restarts the history, and the detector is off; the
current falls when HOLD_DELAY has passed (R404, R405, R410). -/
def posRest (s : State) (n : Nat) : State :=
  let v := { posCh s n with stepping := false }
  let v := if s.rb Reg.POS_CH.DRV_MODE n then { v with laHist := 0, laLow := 0 } else v
  setPosCh ((s.w Reg.POS_CH.DRV_MODE 0 n).w Reg.POS_CH.LA_STATE 0 n) n v

/-- A halt with its reason. -/
def posHalt (s : State) (n reason : Nat) : State := prfPosHalt ((posStand s n).w Reg.POS_CH.HALT_REASON reason n) n

/-- Homing ends with a fault. -/
def homeFault (s : State) (n cause : Nat) : State :=
  match (posCh s n).homing with
  | none => s
  | some g =>
    let s := setPosCh s n { posCh s n with homing := none }
    let s := posHalt s n 4
    raise (complete s g.h stHomeFault cause) 260 n

/-- A tripped limit switch in the direction of travel (row 4). -/
def limitHit (s : State) (n : Nat) : State := raise ((posHalt s n 1).inc Reg.POS_CH.LIMIT_COUNT n) 256 n

/-- The switch is enabled: 0 LIM_P, 1 LIM_N, 2 HOME. -/
def switchEn (s : State) (n sw : Nat) : Bool :=
  match sw with
  | 0 => s.rb Reg.POS_CH.LIM_P_EN n
  | 1 => s.rb Reg.POS_CH.LIM_N_EN n
  | _ => s.rb Reg.POS_CH.HOME_EN n

/-- The limit switch in a direction of travel is enabled and tripped. -/
def limitTripped (s : State) (n : Nat) (positive : Bool) : Bool :=
  let sw := if positive then 0 else 1
  switchEn s n sw && bitAt (s.r Reg.POS_CH.TRIPPED n) sw

/-- The PRF channel of n is moving, and its direction. -/
def posMoving (s : State) (n : Nat) : Option Bool :=
  let k := posSink s n
  match k.chans.head? with
  | some c => if chMoving (prfCh s c) then some k.pos else none
  | none => none

/-! ### Microsteps (R403 to R405, R408, R410) -/

/-- The control mode the speed asks for (R405). -/
def wantStrong (s : State) (n vel : Nat) : Bool :=
  let lim := vOf (s.r Reg.POS_CH.STRONG_SPEED n)
  decide (lim ≤ vel) || (s.rb Reg.POS_CH.DRV_MODE n && decide (lim * 15 ≤ vel * 16))

/-- The load-angle detector at a microstep: history, and at a full step the margin. -/
def laStep (s : State) (n vel la : Nat) (full : Bool) : State :=
  let v := posCh s n
  if vel < vOf (s.r Reg.POS_CH.LA_MIN_SPEED n) then s.w Reg.POS_CH.LA_STATE 0 n
  else
    let v := { v with laHist := min 128 (v.laHist + 1) }
    let active := decide (128 ≤ v.laHist)
    let s := s.w Reg.POS_CH.LA_STATE (if active then 2 else 1) n
    if !full then setPosCh s n v
    else
      if !active then setPosCh s n v
      else
        let s := s.w Reg.POS_CH.LA_MARGIN (min la 180) n
        let s := setPosCh s n { v with laLow := if la ≤ s.r Reg.POS_CH.LA_STALL n then v.laLow + 1 else 0 }
        if la ≤ s.r Reg.POS_CH.LA_WARN n then raiseWatchCh (s.wb Reg.POS_CH.STALL_WARN true n) 258 n else s

/-- One microstep is issued. -/
def posIssue (s : State) (n : Nat) (positive : Bool) (vel la : Nat) : State :=
  let d : Int := if positive then 1 else -1
  let u := (((s.r Reg.POS_CH.USTEP_INDEX n : Int) + d) % 64).toNat
  let s := (s.wi Reg.POS_CH.COUNTER (s.ri Reg.POS_CH.COUNTER n + d) n).w Reg.POS_CH.USTEP_INDEX u n
  let s := setPosCh s n { posCh s n with run := true, stepping := true, last := s.tick }
  let full := u % 16 == 0
  let want := wantStrong s n vel
  let s := if full && want != s.rb Reg.POS_CH.DRV_MODE n then
      setPosCh (s.wb Reg.POS_CH.DRV_MODE want n) n { posCh s n with laHist := 0, laLow := 0 }
    else s
  laStep s n vel la full

/-- A microstep of the step stream reaches POS (R236, R408, row 7 of R412); in the wait of a takeover it counts although the
bridges are still off (R416 item 4). -/
def posStep (s : State) (n : Nat) (positive : Bool) (vel la : Nat) : State :=
  let v := posCh s n
  if !v.en || v.fault then raise (posHalt s n 5) 257 n
  else if !s.rb Reg.POS_SUPPLY.VMOT_OK then posHalt s n 6
  else if limitTripped s n positive then limitHit s n
  else posIssue s n positive vel la

/-! ### Profile updates of a positioner channel (R233 to R236, R241) -/

/-- The new velocity of a moving channel: velocity, state, rate, and the channel's flags. -/
def posSpeed (c : PrfCh) (k : PosSink) (left : Int) : Nat × Nat × Nat × PrfCh :=
  let p := c.par
  let d := c.decUse.getD (p.d2, p.d1)
  let v := k.vel
  let vStop := vOf p.vStop
  let vSplit := vOf p.vSplit
  let vMax := vOf p.vCruise
  let down (floor : Nat) : Nat × Nat × Nat :=
    if vSplit < v then (max (v - aWord d.1) (max vSplit floor), 5, d.1) else (max (v - aWord d.2) floor, 6, d.2)
  let cov : Int := ((v / 2 ^ 16 * 100 : Nat) : Int)
  if c.clamp then
    let dv := ceilDiv ((v * v - vStop * vStop) * 100) (131072 * max left.toNat 1)
    (max (v - dv) (min v vStop), if vSplit < v then 5 else 6, dv * 10 ^ 14 / 2 ^ 64, c)
  else if (c.toTgt && (c.state == 5 || c.state == 6) && !c.holdV) || posDue p d v (left - cov) then
    let (vn, st, rate) := if v ≤ vStop then (v, 6, 0) else down vStop
    (vn, st, rate, { c with toTgt := true, holdV := false })
  else if vMax < v then
    let (vn, st, rate) := down vMax
    (vn, st, rate, { c with toTgt := false })
  else if c.holdV then (v, 4, 0, { c with toTgt := false })
  else if v < vMax then
    if v < vSplit then (min (v + aWord p.a1) (min vSplit vMax), 2, p.a1, { c with toTgt := false })
    else (min (v + aWord p.a2) vMax, 3, p.a2, { c with toTgt := false })
  else (vMax, 4, 0, { c with toTgt := false })

/-- The position of a positioner sink. -/
def posHere (s : State) (n : Nat) : Int := s.ri Reg.POS_CH.COUNTER n + (posSink s n).ahead

/-- A move has ended on its target. -/
def posArrive (s : State) (n c : Nat) : State :=
  let s := setPosSink s n { posSink s n with vel := 0, tgt := none }
  let v := prfCh s c
  let s := prfDirty (setPrfCh s c { v with
    state := 0, clamp := false, holdV := false, toTgt := false, decUse := none, rev := false, rate := 0 }) c
  let s := if s.mode == .shadow then s else posRest s n
  prfDone s c

/-- 100 engine clocks at the velocity in force: the microstep they bring. -/
def posClocks (s : State) (n c la : Nat) : State :=
  let k := posSink s n
  let acc := k.acc + 100 * (k.vel / 2 ^ 16)
  let s := setPosSink s n { k with acc := acc % 2 ^ 48 }
  if acc < 2 ^ 48 then s
  else
    let s := if s.mode == .shadow then
        setPosSink s n { posSink s n with ahead := (posSink s n).ahead + (if k.pos then 1 else -1) }
      else posStep s n k.pos k.vel la
    if (prfCh s c).state ≠ 7 ∧ posHere s n = (prfCh s c).par.target then posArrive s n c else s

/-- A move begins, or begins again behind the position (row 5). -/
def posBegin (s : State) (n c la : Nat) : State :=
  let v := prfCh s c
  let here := posHere s n
  if v.par.target = here then posArrive s n c
  else
    let s := setPosSink s n { posSink s n with vel := vOf v.par.vStart, pos := decide (here < v.par.target), tgt := some v.par.target }
    posClocks (prfDirty (setPrfCh s c { v with state := 2, rate := v.par.a1, tnow := v.par.target }) c) n c la

/-- One update of the active channel. -/
def posUpdateCh (s : State) (n c la : Nat) : State :=
  let start := (prfCh s c).start
  let s := if (prfCh s c).halt then (if s.mode == .shadow then prfPosHalt s n else posRest (prfPosHalt s n) n) else s
  let v := prfCh s c
  if start then
    posBegin (setPrfCh s c { v with start := false, decCl := false, rev := false, clamp := false, holdV := false, toTgt := false
                                    decUse := none }) n c la
  else if !chMoving v then s
  else
    let k := posSink s n
    let t := v.par.target
    let here := posHere s n
    let dist : Int := if k.pos then t - here else here - t
    let left := dist * 2 ^ 48 - k.acc
    if dist = 0 then
      let cl := decide (vOf v.par.vStop < k.vel)
      posArrive (if cl then prfClamped (setPrfCh s c { v with decCl := true, tnow := t }) c else s) n c
    else if dist < 0 then
      let d := v.decUse.getD (v.par.d2, v.par.d1)
      let vSplit := vOf v.par.vSplit
      let vStop := vOf v.par.vStop
      let (vn, st, rate) : Nat × Nat × Nat :=
        if vSplit < k.vel then (max (k.vel - aWord d.1) vSplit, 5, d.1) else (k.vel - aWord d.2, 6, d.2)
      let v := { v with rev := true, clamp := false, holdV := false, toTgt := false, state := st, rate := rate, tnow := t }
      if vn ≤ vStop then
        posBegin (setPosSink (setPrfCh s c { v with decUse := none, decCl := false }) n { k with vel := 0 }) n c la
      else posClocks (setPosSink (setPrfCh s c v) n { k with vel := vn, tgt := some t }) n c la
    else
      let nearer := k.tgt.any fun o => if k.pos then decide (t < o) else decide (o < t)
      let further := k.tgt.any fun o => if k.pos then decide (o < t) else decide (t < o)
      let v := if further then { v with clamp := false, toTgt := false } else v
      let cl := nearer && !posFits v.par (v.decUse.getD (v.par.d2, v.par.d1)) k.vel left
      let v := if cl then { v with clamp := true, decCl := true } else v
      let (vn, st, rate, v) := posSpeed v k left
      let s := setPosSink (setPrfCh s c { v with state := st, rate := rate, tnow := t }) n { k with vel := vn, tgt := some t }
      posClocks (if cl then prfClamped s c else s) n c la

/-! ### Homing (R414, R415) -/

/-- Homing ends. -/
def homeDone (s : State) (n : Nat) (g : Homing) : State :=
  let s := setPosCh s n { posCh s n with homing := none }
  let s := setPosCh s n { posCh s n with laHist := 0, laLow := 0 }
  let s := encAlign ((posRest s n).wb Reg.POS_CH.HOMED true n) n
  raise (complete s g.h stOk (ofSigned 32 g.was)) 259 n

def setHoming (s : State) (n : Nat) (g : Homing) : State := setPosCh s n { posCh s n with homing := some g }

/-- The next phase starts at the next update. -/
def homePhase (s : State) (n : Nat) (g : Homing) (p : Nat) : State :=
  setHoming s n { g with phase := p, travel := 0, vel := 0, acc := 0, stopping := false }

/-- COUNTER takes HOME_OFFSET at the last microstep issued. -/
def homeEdge (s : State) (n : Nat) (g : Homing) : State := encAlign (s.wi Reg.POS_CH.COUNTER g.offset n) n

/-- One update of a homing channel. -/
def homeUpdate (s : State) (n : Nat) (g : Homing) (la : Nat) : State :=
  let a := aWord (clampN 1 50000000 (s.r Reg.POS_CH.HOME_ACC n))
  let vel : Nat :=
    if g.phase = 1 then (if g.stopping then g.vel - a else min (g.vel + a) (vOf g.fast)) else vOf g.slow
  let positive := if g.phase = 2 then !g.dir else g.dir
  if g.phase = 1 ∧ g.stopping = true ∧ vel = 0 then homePhase s n g 2
  else
    let acc := g.acc + 100 * (vel / 2 ^ 16)
    let g := { g with vel := vel, acc := acc % 2 ^ 48 }
    if acc < 2 ^ 48 then setHoming s n g
    else if limitTripped s n positive then homeFault (setHoming s n g) n 1
    else if !posDriven s (posCh s n) then setHoming s n g
    else posIssue (setHoming s n { g with travel := g.travel + 1 }) n positive vel la

/-- PRF_POS_UPDATE: one 1 µs update of positioner channel n; `la`: the margin the load-angle detector would report. -/
def posUpdate (n la : Nat) (s : State) : State :=
  let s := prfHandover s 2 n
  let k := posSink s n
  let s := k.chans.foldl (fun s c =>
    let v := prfCh s c
    let active := k.chans.head? == some c
    let left (p : PrfPar) : Int := (if k.pos then p.target - posHere s n else posHere s n - p.target) * 2 ^ 48 - k.acc
    let (cl, v) := prfStage v k.pos (if active then k.vel else 0) left fun p x => posFits p (p.d2, p.d1) k.vel x
    let s := setPrfCh s c v
    if cl then prfClamped s c else s) s
  let s := match (posCh s n).homing with
    | some g =>
      if s.leading then
        match k.chans.head? with
        | some c => if (prfCh s c).start then homeFault s n 4 else homeUpdate s n g la
        | none => homeUpdate s n g la
      else s
    | none =>
      match k.chans.head? with
      | some c => posUpdateCh s n c la
      | none => s
  encUpdate s n

/-! ### Switches (R406 to R408) -/

/-- A switch has tripped, or chatters: what it halts. -/
def switchActs (s : State) (n sw : Nat) (chatter : Bool) : State :=
  if !s.leading then s
  else
    match (posCh s n).homing with
    | some g =>
      if sw < 2 then homeFault s n 1
      else if chatter then homeFault s n 5
      else if g.phase = 1 then setHoming s n { g with stopping := true }
      else if g.phase = 3 then
        let g := { g with was := s.ri Reg.POS_CH.COUNTER n }
        let s := homeEdge s n g
        if g.useIndex then homePhase s n g 4 else homeDone s n g
      else s
    | none =>
      match posMoving s n with
      | some positive => if (sw = 0 ∧ positive = true) ∨ (sw = 1 ∧ positive = false) then limitHit s n else s
      | none => s

/-- A switch trips on its first qualified active edge; a disabled one only changes its input. -/
def switchTrip (n sw : Nat) (s : State) : State :=
  let v := posCh s n
  let s := setPosCh s n { v with act := if bitAt v.act sw then v.act else setBit v.act sw }
  if !switchEn s n sw then s
  else
    if bitAt (s.r Reg.POS_CH.TRIPPED n) sw then s else switchActs (s.wset Reg.POS_CH.TRIPPED sw true n) n sw false

/-- A switch has been inactive for DEBOUNCE. -/
def switchRelease (n sw : Nat) (s : State) : State :=
  let v := posCh s n
  let s := setPosCh s n { v with act := clrBit v.act sw }
  if !switchEn s n sw then s
  else
    if bitAt (s.r Reg.POS_CH.SWITCH_CHATTER n) sw then s
    else
      let s := s.wset Reg.POS_CH.TRIPPED sw false n
      match (posCh s n).homing with
      | some g => if sw = 2 ∧ g.phase = 2 ∧ s.leading = true then homePhase s n g 3 else s
      | none => s

/-- The ninth edge within 64 ms. -/
def switchChatter (n sw : Nat) (s : State) : State :=
  if !switchEn s n sw || bitAt (s.r Reg.POS_CH.SWITCH_CHATTER n) sw then s
  else
    let s := (s.wset Reg.POS_CH.SWITCH_CHATTER sw true n).wset Reg.POS_CH.TRIPPED sw true n
    switchActs (raise (s.inc Reg.POS_CH.CHATTER_COUNT n) 261 n) n sw true

/-! ### Detectors and faults (R409 to R412) -/

/-- A quadrature edge: the new levels of A and B. -/
def encEdge (n : Nat) (a b : Bool) (s : State) : State :=
  let v := posCh s n
  let both := v.encA != a && v.encB != b
  let none_ := v.encA == a && v.encB == b
  let up := if v.encA != a then a != b else a == b
  let w := { v with encA := a, encB := b }
  if !s.rb Reg.POS_CH.ENC_EN n || none_ then setPosCh s n w
  else if both then raiseWatch ((setPosCh s n w).inc Reg.POS_CH.ENC_ERR n) 267 n
  else setPosCh s n { w with count := v.count + (if up then 1 else -1) }

/-- The encoder index edge. -/
def encIndex (n : Nat) (s : State) : State :=
  match (posCh s n).homing with
  | some g => if g.phase = 4 ∧ s.leading = true then homeDone (homeEdge s n g) n g else s
  | none => s

/-- A homing phase has exceeded its travel limit. -/
def homeLimit (n : Nat) (s : State) : State :=
  match (posCh s n).homing with
  | some g =>
    let lim := if g.phase = 1 then g.maxTravel else s.r Reg.POS_CH.HOME_WINDOW n
    if lim < g.travel ∧ s.leading = true then homeFault s n 2 else s
  | none => s

/-- A stall of row 5 (encoder) or 6 (load angle) of R412, or of row 5 of R415. -/
def posStall (s : State) (n : Nat) (enc : Bool) : State :=
  let s := s.inc Reg.POS_CH.STALL_COUNT n
  let s := if enc then encSync s n else posUnhomeNoEnc s n
  if (posCh s n).homing.isSome then homeFault s n 3
  else raise (posHalt s n (if enc then 2 else 3)) 257 n

/-- |DEV| exceeds ENC_STALL. -/
def encStall (n : Nat) (s : State) : State :=
  let on := s.rb Reg.POS_CH.ENC_EN n && bitAt (s.r Reg.POS_CH.STALL_SRC n) 0 && posDriven s (posCh s n)
  let lim := max (s.r Reg.POS_CH.ENC_STALL n) (s.r Reg.POS_CH.ENC_WARN n)
  if on && decide (lim < (posDev s n).natAbs) then posStall s n true else s

/-- The margin has stayed at the stall level for LA_COUNT full steps. -/
def laStall (n : Nat) (s : State) : State :=
  let on := bitAt (s.r Reg.POS_CH.STALL_SRC n) 1 && s.r Reg.POS_CH.LA_STATE n == 2 && posDriven s (posCh s n)
  if on && decide (max 1 (s.r Reg.POS_CH.LA_COUNT n) ≤ (posCh s n).laLow) then posStall s n false else s

/-- The bridges of channel n go off, a coil measurement with them, and it halts. -/
def bridgesOff (s : State) (n reason : Nat) : State :=
  let s := posUnhomeNoEnc (setPosCh s n { posCh s n with tuning := false }) n
  if (posCh s n).homing.isSome then homeFault s n 6 else posHalt s n reason

/-- Row 1 of R412. -/
def phaseShort (n : Nat) (s : State) : State :=
  if !s.leading then s
  else
    let s := setPosCh (s.wb Reg.POS_CH.SHORT true n) n { posCh s n with en := false, fault := true }
    raise (bridgesOff s n 7) 262 n

/-- A driver temperature at or above 135 °C. -/
def drvTempWarn (celsius : Int) (s : State) : State :=
  let s := s.wi Reg.POS_TEMP.DRV_TEMP celsius
  if s.rb Reg.POS_TEMP.TEMP_WARN ∨ celsius < 135 then s else raise (s.wb Reg.POS_TEMP.TEMP_WARN true) 263

/-- Row 2 of R412. -/
def drvOvertemp (celsius : Int) (s : State) : State :=
  let s := drvTempWarn celsius s
  if celsius < 145 then s
  else
  let s := { s with pos := { s.pos with hot := true } }
  if !s.leading then s
  else iter (fun n s =>
    let s := setPosCh s n { posCh s n with en := false, fault := (posCh s n).en || (posCh s n).fault }
    raise (bridgesOff s n 8) 264 n) 4 s

/-- Row 3 of R412: a supply that was not yet good only shows its voltage. -/
def vmotLow (mv : Nat) (s : State) : State :=
  let was := s.rb Reg.POS_SUPPLY.VMOT_OK
  let s := s.w Reg.POS_SUPPLY.VMOT_MV mv
  if 5500 ≤ mv ∨ was = false then s
  else
  let s := s.wb Reg.POS_SUPPLY.VMOT_OK false
  let s := if s.leading then iter (fun n s => bridgesOff s n 6) 4 s else s
  raise s 265

/-- VMOT is back: each enabled channel is energised at HOLD_MA. -/
def vmotOk (mv : Nat) (s : State) : State :=
  let s := s.w Reg.POS_SUPPLY.VMOT_MV mv
  if s.rb Reg.POS_SUPPLY.VMOT_OK ∨ mv < 6000 then s
  else
    let s := raise (s.wb Reg.POS_SUPPLY.VMOT_OK true) 266
    iter (fun n s => setPosCh s n { posCh s n with run := false, stepping := false }) 4 s

/-- HOLD_DELAY has passed without a microstep (R404). -/
def holdCurrent (n : Nat) (s : State) : State :=
  let v := posCh s n
  if v.run && decide (v.last + s.r Reg.POS_CH.HOLD_DELAY n ≤ s.tick) then setPosCh s n { v with run := false } else s

/-- The coil measurement of an ENABLE ends (R405). -/
def autoTune (n kp ki : Nat) (s : State) : State :=
  let v := posCh s n
  if v.tuning then setPosCh ((s.w Reg.POS_CH.KP kp n).w Reg.POS_CH.KI ki n) n { v with tuning := false } else s

/-! ### POS_DRIVE and POS_HOME (R413, R414) -/

/-- The channel is homing, or its active PRF channel is moving. -/
def posBusy (s : State) (n : Nat) : Bool :=
  (posCh s n).homing.isSome || (posMoving s n).isSome

/-- The drivers are too hot for ENABLE. -/
def posHot (s : State) : Bool := s.pos.hot && decide (130 ≤ s.ri Reg.POS_TEMP.DRV_TEMP)

/-- POS_DRIVE. -/
def posDrive (act : Nat) (h : Handle) (n flags : Nat) (position : Int) (rsv : Nat) (s : State) : State :=
  let bad := rsv ≠ 0 ∨ 3 < n ∨ 1 < flags
  if bad ∨ s.rb Reg.POS_CH.EN n = false ∨ ((act = 2 ∨ act = 3) ∧ posBusy s n = true)
      ∨ (act = 3 ∧ s.rb Reg.POS_CH.ENC_EN n = false)
      ∨ (act = 1 ∧ (s.rb Reg.POS_CH.SHORT n = true ∨ posHot s = true)) then complete s h stDrive
  else
    accept { s with pos := { s.pos with
      cmds := s.pos.cmds ++ [{ h := h, n := n, action := act, homed := flags == 1, position := position }] } } h

/-- A POS_DRIVE takes effect at a tick boundary. -/
def driveApply (s : State) (c : DriveCmd) : State :=
  let n := c.n
  let v := posCh s n
  let s := match c.action with
    | 0 =>
      let s := setPosCh ((s.w Reg.POS_CH.DRV_MODE 0 n).w Reg.POS_CH.LA_STATE 0 n) n { v with en := false, tuning := false, stepping := false }
      if v.homing.isSome then homeFault s n 6 else s
    | 1 =>
      let s := { s with pos := { s.pos with hot := posHot s } }
      setPosCh s n { v with
        en := true, fault := false, run := false, stepping := false, laHist := 0, laLow := 0, tuning := s.rb Reg.POS_CH.AUTO_TUNE n
        align := v.align || !v.enSeen, enSeen := true }
    | 2 =>
      let s := s.wi Reg.POS_CH.COUNTER c.position n
      let s := if c.homed then s.wb Reg.POS_CH.HOMED true n else posUnhome s n
      encAlign s n
    | 3 => encSync s n
    | _ =>
      let s := ((s.w Reg.POS_CH.SWITCH_CHATTER 0 n).wb Reg.POS_CH.SHORT false n).w Reg.POS_CH.HALT_REASON 0 n
      setPosCh (s.w Reg.POS_CH.TRIPPED v.act n) n { v with fault := v.fault && s.pos.hot }
  complete s c.h stOk

/-- POS_HOME. -/
def posHome (h : Handle) (n flags fast slow : Nat) (offset : Int) (maxTravel rsv : Nat) (s : State) : State :=
  let useIndex := bitAt flags 1
  if rsv ≠ 0 ∨ 3 < n ∨ 3 < flags ∨ fast < 100 ∨ 5000000 < fast ∨ slow < 100 ∨ 200000 < slow ∨ maxTravel = 0
      ∨ 2147483647 < maxTravel ∨ s.rb Reg.POS_CH.EN n = false ∨ posBusy s n = true ∨ (posCh s n).en = false
      ∨ s.rb Reg.POS_CH.HOME_EN n = false ∨ (useIndex = true ∧ s.rb Reg.POS_CH.ENC_EN n = false) then complete s h stDrive
  else
    let g : Homing := { h := h, dir := bitAt flags 0, useIndex := useIndex, fast := fast, slow := slow, offset := offset
                        maxTravel := maxTravel, phase := if bitAt (s.r Reg.POS_CH.TRIPPED n) 2 then 2 else 1 }
    setHoming (accept (s.wb Reg.POS_CH.HOMED false n) h) n g

/-! ### Boundaries and the pair (R402, R416) -/

/-- What the module measures of the drives by a tick boundary: VMOT in mV, driver temperature, peak currents in mA. -/
def posMeasure (mv : Nat) (celsius : Int) (ma : List Nat) (s : State) : State :=
  let s := (s.w Reg.POS_SUPPLY.VMOT_MV (min mv 65535)).wi Reg.POS_TEMP.DRV_TEMP celsius
  let s := if celsius < 135 then s.wb Reg.POS_TEMP.TEMP_WARN false else s
  let s := if celsius < 130 then { s with pos := { s.pos with hot := false } } else s
  iter (fun n s => s.w Reg.POS_CH.CUR_MA (min (ma.getD n 0) 8191) n) 4 s

/-- POS at a tick boundary: a disabled switch is not tripped (R406). -/
def posTick (s : State) : State :=
  let cmds := s.pos.cmds
  let s := iter (fun n s => if (posCh s n).align then encAlign s n else s) 4 s
  let s := cmds.foldl driveApply { s with pos := { s.pos with cmds := [] } }
  let s := iter (fun n s => iter (fun sw s => if switchEn s n sw then s else s.wset Reg.POS_CH.TRIPPED sw false n) 3 s) 4 s
  let s := if s.pos.ran && !s.leading then
      iter (fun n s =>
        if s.mode == .shadow then posStand (setPosCh s n { posCh s n with homing := none }) n
        else if (posCh s n).homing.isSome then homeFault s n 6 else posStand s n) 4 s
    else s
  let s := { s with pos := { s.pos with ran := s.leading, wait := s.pos.wait.filter fun t => decide (s.tick < t) } }
  iter (fun n s => setPosCh s n (posCh s n)) 4 s

/-- What the lead carries of channel n. -/
def posShare (s : State) (n : Nat) : PosShare :=
  let v := posCh s n
  { counter := s.ri Reg.POS_CH.COUNTER n, ustep := s.r Reg.POS_CH.USTEP_INDEX n, encOff := v.encOff
    homed := s.rb Reg.POS_CH.HOMED n, reason := s.r Reg.POS_CH.HALT_REASON n, chatter := s.r Reg.POS_CH.SWITCH_CHATTER n
    short := s.rb Reg.POS_CH.SHORT n, en := v.en, homing := v.homing }

/-- The shadow adopts it; a channel is off by a fault while SHORT is latched. -/
def posAdopt (s : State) (n : Nat) (p : PosShare) : State :=
  let s := (s.wi Reg.POS_CH.COUNTER p.counter n).w Reg.POS_CH.USTEP_INDEX p.ustep n
  let s := (s.wb Reg.POS_CH.HOMED p.homed n).w Reg.POS_CH.HALT_REASON p.reason n
  let s := (s.w Reg.POS_CH.SWITCH_CHATTER p.chatter n).wb Reg.POS_CH.SHORT p.short n
  let s := setPosSink s n { posSink s n with ahead := 0 }
  setPosCh s n { posCh s n with encOff := p.encOff, en := p.en, fault := p.short, enSeen := true, homing := p.homing }

/-- A new lead takes the drives over: at once, or 2 ticks later. -/
def posClaim (now : Bool) (s : State) : State :=
  let s := { s with pos := { s.pos with wait := if now then none else some (s.tick + 2), ran := true } }
  iter (fun n s =>
    let s := setPosSink s n { posSink s n with ahead := 0 }
    let s := if s.rb Reg.POS_CH.ENC_EN n then encSync s n else posUnhome s n
    match (posCh s n).homing with
    | some g => homePhase s n g (if bitAt (s.r Reg.POS_CH.TRIPPED n) 2 then 2 else 1)
    | none => setPosCh s n (posCh s n)) 4 s

/-! ### The commands -/

def execPrfPosUpdate (n : Fin 4) (la : Nat) (s : State) : Host.Outcome State Fault Refusal :=
  withOut s fun s => engines s (posUpdate n la)
def execPosDriveDisable (h : Handle) (channel flags rsv : Nat) (s : State) : Host.Outcome State Fault Refusal :=
  withOut s (ringOp leadModes h (descOf (.posDriveDisable h channel flags rsv)) (posDrive 0 h channel flags 0 rsv))
def execPosDriveEnable (h : Handle) (channel flags rsv : Nat) (s : State) : Host.Outcome State Fault Refusal :=
  withOut s (ringOp leadModes h (descOf (.posDriveEnable h channel flags rsv)) (posDrive 1 h channel flags 0 rsv))
def execPosDriveSetPos (h : Handle) (channel flags : Nat) (position : Int) (rsv : Nat) (s : State) :
    Host.Outcome State Fault Refusal :=
  withOut s (ringOp leadModes h (descOf (.posDriveSetPos h channel flags position rsv))
    (posDrive 2 h channel flags position rsv))
def execPosDriveSyncEnc (h : Handle) (channel flags rsv : Nat) (s : State) : Host.Outcome State Fault Refusal :=
  withOut s (ringOp leadModes h (descOf (.posDriveSyncEnc h channel flags rsv)) (posDrive 3 h channel flags 0 rsv))
def execPosDriveClear (h : Handle) (channel flags rsv : Nat) (s : State) : Host.Outcome State Fault Refusal :=
  withOut s (ringOp leadModes h (descOf (.posDriveClear h channel flags rsv)) (posDrive 4 h channel flags 0 rsv))
def execPosHome (h : Handle) (channel flags fast slow : Nat) (offset : Int) (maxTravel rsv : Nat) (s : State) :
    Host.Outcome State Fault Refusal :=
  withOut s (ringOp leadModes h (descOf (.posHome h channel flags fast slow offset maxTravel rsv))
    (posHome h channel flags fast slow offset maxTravel rsv))
def execSwitchTrip (n : Fin 4) (sw : Fin 3) (s : State) : Host.Outcome State Fault Refusal :=
  withOut s fun s => alive s (switchTrip n sw)
def execSwitchRelease (n : Fin 4) (sw : Fin 3) (s : State) : Host.Outcome State Fault Refusal :=
  withOut s fun s => alive s (switchRelease n sw)
def execSwitchChatter (n : Fin 4) (sw : Fin 3) (s : State) : Host.Outcome State Fault Refusal :=
  withOut s fun s => alive s (switchChatter n sw)
def execEncIndex (n : Fin 4) (s : State) : Host.Outcome State Fault Refusal := withOut s fun s => alive s (encIndex n)
def execHomeTravelLimit (n : Fin 4) (s : State) : Host.Outcome State Fault Refusal :=
  withOut s fun s => alive s (homeLimit n)
def execEncStall (n : Fin 4) (s : State) : Host.Outcome State Fault Refusal := withOut s fun s => alive s (encStall n)
def execLaStall (n : Fin 4) (s : State) : Host.Outcome State Fault Refusal := withOut s fun s => alive s (laStall n)
def execPhaseShort (n : Fin 4) (s : State) : Host.Outcome State Fault Refusal := withOut s fun s => alive s (phaseShort n)
def execDrvOvertemp (celsius : Int) (s : State) : Host.Outcome State Fault Refusal :=
  withOut s fun s => alive s (drvOvertemp celsius)
def execDrvTempWarn (celsius : Int) (s : State) : Host.Outcome State Fault Refusal :=
  withOut s fun s => alive s (drvTempWarn celsius)
def execVmotLow (mv : Nat) (s : State) : Host.Outcome State Fault Refusal := withOut s fun s => alive s (vmotLow mv)
def execVmotOk (mv : Nat) (s : State) : Host.Outcome State Fault Refusal := withOut s fun s => alive s (vmotOk mv)
def execPosHoldCurrent (n : Fin 4) (s : State) : Host.Outcome State Fault Refusal :=
  withOut s fun s => alive s (holdCurrent n)
def execEncoderEdge (n : Fin 4) (a b : Bool) (s : State) : Host.Outcome State Fault Refusal :=
  withOut s fun s => alive s (encEdge n a b)
def execPosAutoTuneDone (n : Fin 4) (kp ki : Nat) (s : State) : Host.Outcome State Fault Refusal :=
  withOut s fun s => alive s (autoTune n kp ki)

end Sys2Proof.Machine
end

