-- ==== Sys2Proof/Machine/Can.lean ====
section
/-! DEFINITION. Sys2Proof/Machine/Can.lean: the CAN FD channels (R377 to R400). -/

namespace Sys2Proof.Machine

open Sys2Proof

def canTxQ (c : Nat) : Nat := 140 + c
def canRxQ (c : Nat) : Nat := 136 + c

/-- Modes in which a channel sends any frame (R378). -/
def canSends (s : State) : Bool := s.mode == .maintenance || s.leading

def canBuf (s : State) (c b : Nat) : CanBuf := mget ({} : CanBuf) (canCh s c).bufs b
def setCanBuf (s : State) (c b : Nat) (v : CanBuf) : State :=
  setCanCh s c { canCh s c with bufs := mput ({} : CanBuf) (canCh s c).bufs b v }

def canBox (s : State) (c m : Nat) : CanBox := mget ({} : CanBox) (canCh s c).boxes m
def setCanBox (s : State) (c m : Nat) (v : CanBox) : State :=
  setCanCh s c { canCh s c with boxes := mput ({} : CanBox) (canCh s c).boxes m v }

def canState (s : State) (c : Nat) : Nat := s.r Reg.CAN_CH_STATUS.STATE c
def busOff (s : State) (c : Nat) : Bool := s.r Reg.CAN_CH_STATUS.ERR_STATE c == 2

/-! ### Bit timing (R379, R380) -/

/-- Nominal and data-phase bit times in 12.5 ns. -/
def nomBit (s : State) (c : Nat) : Nat :=
  (s.r Reg.CAN_CH_BT.NBRP_M1 c + 1) * (3 + s.r Reg.CAN_CH_BT.NTSEG1_M1 c + s.r Reg.CAN_CH_BT.NTSEG2_M1 c)
def dataBit (s : State) (c : Nat) : Nat :=
  (s.r Reg.CAN_CH_BT.DBRP_M1 c + 1) * (3 + s.r Reg.CAN_CH_BT.DTSEG1_M1 c + s.r Reg.CAN_CH_BT.DTSEG2_M1 c)

/-- The cases of R379, and that of R395: wake-up frames at another nominal rate (DEDUCED, log entry 84). -/
def cfgErr (s : State) (c : Nat) : Bool :=
  let nb := nomBit s c
  let db := dataBit s c
  decide (nb < 80) || decide (8000 < nb) || decide (db < 16) || decide (nb < db)
    || decide (s.r Reg.CAN_CH_BT.NTSEG2_M1 c < s.r Reg.CAN_CH_BT.NSJW_M1 c)
    || decide (s.r Reg.CAN_CH_BT.DTSEG2_M1 c < s.r Reg.CAN_CH_BT.DSJW_M1 c)
    || (decide (db < 80) && !s.rb Reg.CAN_CH_BT.TDC_EN c)
    || (bitAt (s.r Reg.STP_REPEAT.CAN_STOP_CH) c && !s.rb Reg.CAN_CH_CFG.FD_EN c)
    || (s.rb Reg.CAN_CH_CFG.WAKE_SRC c && !([640, 320, 160, 80].contains nb))

/-! ### The frame record (R381) -/

/-- Data bytes a DLC gives. -/
def dlcBytes (fdf : Bool) (d : Nat) : Nat :=
  if d ≤ 8 then d
  else if !fdf then 8
  else match d with
    | 9 => 12 | 10 => 16 | 11 => 20 | 12 => 24 | 13 => 32 | 14 => 48 | _ => 64

def recId (b : List Byte) : Nat := field b 0 4 % 2 ^ 29
def recIde (b : List Byte) : Bool := bitAt (field b 0 4) 29
def recRtr (b : List Byte) : Bool := bitAt (field b 0 4) 30
def recFdf (b : List Byte) : Bool := bitAt (field b 4 1) 0
def recBytes (b : List Byte) : Nat := if recRtr b then 0 else dlcBytes (recFdf b) (field b 5 1 % 16)
def recDeadline (b : List Byte) : Nat := field b 8 8

/-- A transmitted record is valid on channel c. -/
def recOk (s : State) (c : Nat) (b : List Byte) : Bool :=
  let ctrl := field b 4 1
  let fdf := recFdf b
  !bitAt (field b 0 4) 31 && decide (ctrl < 4) && decide (field b 5 1 < 16) && field b 6 2 == 0 && field b 16 16 == 0
    && (recIde b || decide (recId b ≤ 0x7FF)) && (fdf || (!bitAt ctrl 1 && decide (field b 5 1 ≤ 8)))
    && !(recRtr b && fdf) && (!fdf || s.rb Reg.CAN_CH_CFG.FD_EN c) && decide (32 + recBytes b ≤ b.length)

/-- Bus priority: the base identifier first, a standard frame before an extended one. -/
def busKey (b : List Byte) : Nat :=
  if recIde b then recId b / 2 ^ 18 * 2 ^ 19 + 2 ^ 18 + recId b % 2 ^ 18 else recId b * 2 ^ 19

/-! ### ISOBUS (R396) -/

def isoOn (s : State) (c : Nat) : Bool := s.rb Reg.CAN_GLOBAL.ISO_AVAIL && s.rb Reg.CAN_CH_CFG.ISO_EN c
def isoName (s : State) (c : Nat) : Nat := s.r Reg.CAN_CH_ISO.NAME_LO c + 2 ^ 32 * s.r Reg.CAN_CH_ISO.NAME_HI c

/-- An Address Claimed frame, or Cannot Claim Address from 254. -/
def isoSend (s : State) (c addr : Nat) : State :=
  s.emit (.can c (le 4 (2 ^ 29 + 0x18EEFF00 + addr) ++ le 1 0 ++ le 1 8 ++ le 26 0 ++ le 8 (isoName s c)))

/-- The address registers; CAN_ISO_ADDR on a change of CLAIMED; the lead's address is reflected. -/
def isoShow (s : State) (c addr : Nat) (claimed : Bool) : State :=
  let was := s.rb Reg.CAN_CH_ISO.CLAIMED c
  let s := (s.w Reg.CAN_CH_ISO.CUR_ADDR (if claimed then addr else 0xFE) c).wb Reg.CAN_CH_ISO.CLAIMED claimed c
  let s := reflect s (.isoAddr c addr claimed)
  if was = claimed then s else raise s 507 c

/-- A claim of an address begins. -/
def isoClaim (s : State) (c addr : Nat) : State :=
  isoSend (setCanCh s c { canCh s c with iso := addr, isoAt := s.tick }) c addr

/-- The next free address from 128 to 247 after one that was lost. -/
def isoNext (seen : List Nat) (lost : Nat) : Option Nat :=
  let free := ((List.range 120).map (128 + ·)).filter fun a => a != lost && !seen.contains a
  match free.find? (fun a => decide (lost < a)) with
  | some a => some a
  | none => free.head?

/-- The address is lost to a lower NAME. -/
def isoLose (s : State) (c : Nat) : State :=
  let v := canCh s c
  let s := isoShow s c v.iso false
  match (if bitAt (isoName s c) 63 then isoNext v.seen v.iso else none) with
  | some a => isoClaim s c a
  | none => isoSend (setCanCh s c { canCh s c with iso := 0xFE }) c 0xFE

/-- A frame of another node as pilot pair 0 sees it. -/
def isoRx (s : State) (c : Nat) (f : CanRx) : State :=
  let v := canCh s c
  let sa := f.id % 256
  let pf := f.id / 2 ^ 16 % 2 ^ 10
  let ps := f.id / 2 ^ 8 % 256
  if !isoOn s c || !canSends s || !f.ide then s
  else if pf = 0xEE ∧ ps = 0xFF then
    let s := setCanCh s c { v with seen := if v.seen.contains sa then v.seen else v.seen ++ [sa] }
    if sa = v.iso ∧ v.iso ≠ 0xFE then
      if field f.data 0 8 < isoName s c then isoLose s c else isoSend s c v.iso
    else s
  else if pf = 0xEA ∧ (ps = 0xFF ∨ ps = v.iso) ∧ field f.data 0 3 = 0xEE00 then isoSend s c v.iso
  else s

/-! ### Transmitting (R382, R383, R386) -/

/-- The frame as it goes on the bus: with SA_SUBST, the source address of a 29-bit identifier is the claimed one. -/
def busFrame (s : State) (c : Nat) (b : List Byte) : List Byte :=
  if isoOn s c && s.rb Reg.CAN_CH_CFG.SA_SUBST c && recIde b then le 1 (s.r Reg.CAN_CH_ISO.CUR_ADDR c) ++ b.drop 1 else b

def txState (s : State) (c b : Nat) : Nat := s.r Reg.CAN_TXB.STATE c b
def setTx (s : State) (c b st : Nat) : State := (s.w Reg.CAN_TXB.STATE st c b).wb Reg.CAN_TXB.REQ (st == 1) c b

/-- The frame the channel offers at an arbitration. -/
def canPick (s : State) (c : Nat) : Option (Option Nat) :=
  if (canCh s c).stop ≠ [] then some none
  else if !canSends s || (isoOn s c && !s.rb Reg.CAN_CH_ISO.CLAIMED c) then none
  else
    let ps := (List.range 3).filter fun b => txState s c b == 1
    let key (b : Nat) : Nat := busKey (busFrame s c (canBuf s c b).frame)
    if s.rb Reg.CAN_CH_CFG.TX_ORDER c then ps.head?.map some
    else
      (ps.foldl (fun (best : Option Nat) b => match best with
        | some a => if key b < key a then some b else best
        | none => some b) none).map some

/-- The next arbitration. -/
def canReoffer (s : State) (c : Nat) : State :=
  let v := canCh s c
  setCanCh s c { v with offer := canPick s c, stopOn := v.stop.head? }

/-- A frame may start on an idle bus. -/
def canIdleOffer (s : State) (c : Nat) : State := if (canCh s c).offer.isNone then canReoffer s c else s

/-- The state in which a frame waits. -/
def waitState (s : State) (c : Nat) : Nat := if busOff s c then 4 else 1

/-- Buffers fed from the queue take its oldest packets (TX_SRC = 1). -/
def canLoad (s : State) (c : Nat) : State :=
  if !canSends s || canState s c == 0 || canState s c == 2 then s
  else
    let s := iter (fun b s =>
      if bitAt (s.r Reg.CAN_CH_CFG.TX_SRC c) b && [0, 2, 5, 6].contains (txState s c b) then
        match cplTake s (canTxQ c) with
        | (some p, s) =>
          let v := canCh s c
          let s := setCanCh s c { v with handles := v.handles.drop 1 }
          let s := setCanBuf s c b { frame := p.data, h := v.handles.head? }
          setTx ((s.w Reg.CAN_TXB.CLASH_RUN 0 c b).w Reg.CAN_TXB.RETRIES 0 c b) c b (waitState s c)
        | (none, s) => s
      else s) 3 s
    canIdleOffer s c

/-- The outcome of a buffer: its state, the completion of a queue-fed frame, its reflection (R384, R392), and the next
frame of the queue. -/
def txOutcome (s : State) (c b st status detail : Nat) : State :=
  let v := canBuf s c b
  let s := setTx (s.w Reg.CAN_TXB.CLASH_RUN 0 c b) c b st
  let s := match v.h with
    | some h => reflect (complete (setCanBuf s c b { v with h := none }) h status detail) (.canOut c h status detail)
    | none => s
  canLoad (canReoffer s c) c

/-- A frame's deadline has passed. -/
def txLate (s : State) (frame : List Byte) : Bool := recDeadline frame != 0 && decide (recDeadline frame < s.tick)

/-- The waiting frames of the stop-class buffer whose implicit deadline has passed are discarded; an attempt on the bus runs
to its end first. -/
def stopLate (s : State) (c : Nat) (onBus : Bool) : State :=
  let v := canCh s c
  let runs (f : StopFrame) : Bool := onBus && v.offer == some none && v.stopOn == some f
  let keep := v.stop.filter fun f => runs f || decide (s.tick ≤ f.tick + 1)
  let s := s.add Reg.CAN_CH_CNT.STOP_EXPIRED (v.stop.length - keep.length) c
  let s := (setCanCh s c { v with stop := keep }).w Reg.CAN_STOPV.DEPTH keep.length c
  if onBus then s else canReoffer s c

/-- Waiting buffers in a state are judged by their deadlines, and wait on. -/
def txJudge (s : State) (c st : Nat) : State :=
  iter (fun b s =>
    if txState s c b = st then
      if txLate s (canBuf s c b).frame then txOutcome s c b 5 stExpired 0 else setTx s c b (waitState s c)
    else s) 3 s

/-- A packet of len bytes fits into CAN_TX_c with nothing removed from it (R385). -/
def canRoom (s : State) (c len : Nat) : Bool :=
  let q := canTxQ c
  cplFitsLimits s q (cellsOf len) (cplQ s q).pkts.length (s.r Reg.CPL_Q.CELLS q) && cplFitsPool s q (cellsOf len) (s.r Reg.CPL_Q.CELLS q)

/-- A packet enters queue q whatever its limits: the lead's queue had room for it. -/
def cplForce (s : State) (q : Nat) (data : List Byte) : State :=
  let v := cplQ s q
  let n := cellsOf data.length
  cplCommit (cplSetCells (cplSetQ s q { v with writing := v.writing + n }) q (s.r Reg.CPL_Q.CELLS q + n)) q data

/-- CAN_SEND. The lead has judged its queue for the shadow, whose own still holds frames the lead has loaded (R392). A record
that would fit only with others removed is refused (DESIGN CHOICE, log entry 84). -/
def canSend (h : Handle) (c addr rsv : Nat) (buf : BufIn) (s : State) : State :=
  let len := 32 + recBytes buf.data
  if !bufOk s addr len buf then complete s h stBuffer
  else if decide (3 < c) || rsv != 0 || addr % 8 != 0 || !recOk s c buf.data || !s.rb Reg.CAN_CH_CFG.EN c
    || (s.mode != .shadow && (decide (s.r Reg.CPL_Q.MAX_PKTS (canTxQ c) ≤ s.r Reg.CPL_Q.PKTS (canTxQ c)) || !canRoom s c len)) then
    complete s h stCan
  else
    let s := cplForce s (canTxQ c) (buf.data.take len)
    let v := canCh s c
    canLoad (accept (setCanCh s c { v with handles := v.handles ++ [h] }) h) c

/-- A write of REQ. -/
def txReq (c b : Nat) (s : State) : State :=
  let st := txState s c b
  if bitAt (s.r Reg.CAN_CH_CFG.TX_SRC c) b || st == 1 || st == 3 || st == 4 then s
  else if s.mode == .shadow then setTx s c b 6
  else
    let frame := padTo 96 (canBuf s c b).frame
    if recOk s c frame then
      canIdleOffer (setTx ((s.w Reg.CAN_TXB.CLASH_RUN 0 c b).w Reg.CAN_TXB.RETRIES 0 c b) c b (waitState s c)) c
    else setTx s c b 7

/-- A write of ABORT. -/
def txAbort (c b : Nat) (s : State) : State :=
  if [1, 3, 4].contains (txState s c b) then txOutcome s c b 6 stCancelled 0 else s

/-- A write of RELEASE. -/
def txRelease (c b : Nat) (s : State) : State :=
  if txState s c b = 3 then
    if txLate s (canBuf s c b).frame then txOutcome s c b 5 stExpired 0
    else canIdleOffer (setTx (s.w Reg.CAN_TXB.CLASH_RUN 0 c b) c b (waitState s c)) c
  else s

/-- A write to the RECORD area of a transmit buffer: ignored while its frame waits, and where the queue feeds it. -/
def txRecord (c b k : Nat) (value : Word) (s : State) : State :=
  let st := txState s c b
  if bitAt (s.r Reg.CAN_CH_CFG.TX_SRC c) b || st == 1 || st == 3 || st == 4 then s
  else
    let f := padTo 96 (canBuf s c b).frame
    setCanBuf s c b { frame := f.take (4 * k) ++ le 4 value.toNat ++ f.drop (4 * k + 4) }

/-- The error counters and what shows them (R388 row 1). -/
def setCounters (s : State) (c tec rx : Nat) : State :=
  let s := setCanCh s c { canCh s c with tec := tec, rx := rx }
  let s := (s.w Reg.CAN_CH_STATUS.TEC (if busOff s c then 255 else min tec 255) c).w Reg.CAN_CH_STATUS.REC (min rx 255) c
  s.wb Reg.CAN_CH_STATUS.WARN (decide (96 ≤ tec) || decide (96 ≤ rx)) c

/-- The receive error counter after a frame received without error: ISO 11898-1 takes one above 127 to 119 to 127. -/
def rxLess (rx : Nat) : Nat := min (rx - 1) 127

/-- RESTRICTED and TRIPLE_ACTIVE. -/
def canShow (s : State) (c : Nat) : State :=
  let on := canState s c == 1 || canState s c == 3
  let s := s.wb Reg.CAN_CH_STATUS.RESTRICTED (on && s.mode == .shadow && (canCh s c).stop.isEmpty) c
  s.wb Reg.CAN_CH_STATUS.TRIPLE_ACTIVE (on && s.rb Reg.CAN_CH_CFG.TRIPLE c && decide (320 ≤ nomBit s c)) c

/-- After a frame without error, an error-passive channel whose counters have fallen below 128 is error-active again. -/
def errRelax (s : State) (c : Nat) : State :=
  if s.r Reg.CAN_CH_STATUS.ERR_STATE c = 1 ∧ (canCh s c).tec < 128 ∧ (canCh s c).rx < 128 then
    s.w Reg.CAN_CH_STATUS.ERR_STATE 0 c else s

/-- The record of a stop-class frame (R389); with IDE 0 an identifier has 11 bits. -/
def stopRecord (s : State) (f : StopFrame) : List Byte :=
  let ide := s.r Reg.STP_CAN_ID.IDE
  le 4 (s.r Reg.STP_CAN_ID.STOP_CAN_ID % (if ide = 0 then 2 ^ 11 else 2 ^ 29) + 2 ^ 29 * ide) ++ le 1 3 ++ le 1 13 ++ le 2 0 ++ le 8 (f.tick + 1)
    ++ le 16 0 ++ stopBytes s f

/-- A TB1 stamp with a resolution of 12.5 ns; before the boundary of the tick it stands on TB1 as the last tick ended. -/
def canStamp (s : State) (sofAt : Int) : Nat :=
  (if 0 ≤ sofAt then s.tb1 sofAt.toNat else ((s.ttu.tb1Was : Int) + sofAt).toNat) / 819200 * 819200

/-- The shadow takes the outcome of a queue-fed frame; so does a channel whose frame went out after it was put back. -/
def canOutcome (s : State) (c : Nat) (h : Handle) (status detail : Nat) : State :=
  let v := canCh s c
  match v.handles.findIdx? (· == h) with
  | none => s
  | some k =>
    let q := canTxQ c
    let p := cplQ s q
    let n := cellsOf ((p.pkts.getD k { data := [], tick := 0 }).data.length)
    let s := cplSetQ s q { p with pkts := p.pkts.eraseIdx k }
    let s := cplSetCells (s.w Reg.CPL_Q.PKTS (p.pkts.length - 1) q) q (s.r Reg.CPL_Q.CELLS q - n)
    complete (setCanCh s c { canCh s c with handles := v.handles.eraseIdx k }) h status detail

/-- TX_STAMP of a buffer takes the SOF of the frame just sent. -/
def txStamp (s : State) (c b : Nat) (sofAt : Int) : State :=
  let st := stampBytes (canStamp s sofAt)
  ((s.w Reg.CAN_TXB.TX_STAMP_0 (field st 0 4) c b).w Reg.CAN_TXB.TX_STAMP_1 (field st 4 4) c b).w
    Reg.CAN_TXB.TX_STAMP_2 (field st 8 4) c b

/-- A stop-class frame has been sent: it leaves the buffer, where it still stands there. -/
def stopGone (s : State) (c : Nat) (f : StopFrame) : State :=
  let q := (canCh s c).stop.erase f
  (((setCanCh s c { canCh s c with stop := q }).w Reg.CAN_STOPV.DEPTH q.length c).inc Reg.CAN_CH_CNT.STOP_SENT c).emit
    (.can c (stopRecord s f))

/-- A handover that waits takes place: the channel integrates on its new controller (R397). -/
def canHandNow (s : State) (c : Nat) : State :=
  let v := canCh s c
  match v.hand with
  | none => s
  | some keep => (setCanCh s c { v with hand := none, keep := keep }).w Reg.CAN_CH_STATUS.STATE 3 c

/-- The frame on the bus as the channel went OFF has run to its end (R394): it is sent, and leaves its buffer or queue. -/
def canTailDone (c : Nat) (sofAt : Int) (s : State) : State :=
  match (canCh s c).tail with
  | none => s
  | some x =>
    let s := (setCanCh s c { canCh s c with tail := none }).inc Reg.CAN_CH_CNT.TX_OK c
    match x.buf with
    | none =>
      match x.stop with
      | none => s
      | some f => stopGone s c f
    | some b =>
      let s := setTx ((txStamp s c b sofAt).emit (.can c x.frame)) c b 2
      match x.h with
      | none => s
      | some h =>
        let d := s.r Reg.CAN_TXB.RETRIES c b
        if (canCh s c).handles.contains h then reflect (canOutcome s c h stOk d) (.canOut c h stOk d) else s

/-- The offered frame has been sent. -/
def canTxDone (c : Nat) (sofAt : Int) (s : State) : State :=
  if canState s c = 0 then canTailDone c sofAt s
  else if canState s c ≠ 1 || busOff s c then s
  else
    let v := canCh s c
    (fun s => canHandNow s c) <|
    let ok (s : State) : State := errRelax (setCounters (s.inc Reg.CAN_CH_CNT.TX_OK c) c (v.tec - 1) v.rx) c
    match v.offer with
    | none => s
    | some none =>
      match v.stopOn with
      | none => canReoffer s c
      | some f => canShow (canLoad (canReoffer (ok (stopGone s c f)) c) c) c
    | some (some b) =>
      if txState s c b = 1 ∧ canSends s = true then
        let s := ok ((txStamp s c b sofAt).emit (.can c (busFrame s c (canBuf s c b).frame)))
        txOutcome s c b 2 stOk (s.r Reg.CAN_TXB.RETRIES c b)
      else canReoffer s c

/-- The channel becomes error-passive, where its counters make it so. -/
def errPassive (c tec rx : Nat) (s : State) : State :=
  if canState s c = 1 ∧ s.r Reg.CAN_CH_STATUS.ERR_STATE c = 0 ∧ (127 < tec ∨ 127 < rx) then
    raise (setCounters (s.w Reg.CAN_CH_STATUS.ERR_STATE 1 c) c tec rx) 500 c
  else s

/-- The transmit error counter exceeds 255. -/
def canBusOff (c : Nat) (s : State) : State :=
  if canState s c ≠ 1 || busOff s c then s
  else
    let s := (s.w Reg.CAN_CH_STATUS.ERR_STATE 2 c).w Reg.CAN_CH_STATUS.RECOV_COUNT 0 c
    let s := setCounters s c 256 (canCh s c).rx
    let s := iter (fun b s => if txState s c b = 1 then setTx s c b 4 else s) 3 (s.inc Reg.CAN_CH_CNT.BUSOFF_COUNT c)
    let s := setCanCh s c { canCh s c with recov := s.rb Reg.CAN_CH_CFG.AUTO_RECOVER c, offer := none }
    raise s 501 c

/-- The error state the counters give (rows 2 and 3 of R388). -/
def errJudge (c : Nat) (s : State) : State :=
  let v := canCh s c
  if 255 < v.tec then canBusOff c s else errPassive c v.tec v.rx s

/-- The offered frame of a transmit buffer is repeated n times more (R384). -/
def canRetry (c n : Nat) (s : State) : State :=
  match (canCh s c).offer with
  | some (some b) => if txState s c b = 1 then s.add Reg.CAN_TXB.RETRIES n c b else s
  | _ => s

/-- Errors on the bus have brought the counters to new values (R377, R388): the error state follows them. -/
def canErrors (c : Nat) (e : CanErrs) (rx : Nat) (s : State) : State :=
  if canState s c ≠ 1 || busOff s c then s
  else
    let s := canRetry c e.retries (s.add Reg.CAN_CH_CNT.ERR_FRAMES e.frames c)
    canHandNow (errJudge c (canReoffer (errRelax (setCounters s c e.tec rx) c) c)) c

/-- The transmit error counter exceeds 255 in an attempt of the offered frame, which is repeated after recovery. -/
def canBusLost (c : Nat) (s : State) : State :=
  if canState s c ≠ 1 || busOff s c then s else canBusOff c (canRetry c 1 s)

/-- A bit error after the offered frame has won arbitration (R387), and the error state it leads to. -/
def canBitError (c : Nat) (s : State) : State :=
  if canState s c ≠ 1 || busOff s c then s
  else
    let v := canCh s c
    let s := setCounters (s.inc Reg.CAN_CH_CNT.ERR_FRAMES c) c (v.tec + 8) v.rx
    (fun s => canHandNow (errJudge c s) c) <| match v.offer with
    | some (some b) =>
      if txState s c b = 1 then
        let run := s.r Reg.CAN_TXB.CLASH_RUN c b + 1
        let s := (s.w Reg.CAN_TXB.CLASH_RUN run c b).inc Reg.CAN_TXB.RETRIES c b
        if 16 ≤ run then
          let f := (canBuf s c b).frame
          let s := setTx s c b 3
          let s := (s.w Reg.CAN_CH_STATUS.CLASH_ID (recId f) c).wb Reg.CAN_CH_STATUS.CLASH_IDE (recIde f) c
          canReoffer (raise (note s 500 (le 4 (recId f + 2 ^ 29 * b2n (recIde f)))) 503 c) c
        else canReoffer s c
      else canReoffer s c
    | _ => canReoffer s c

/-- Recovery has counted 128 occurrences of 11 recessive bits. -/
def canRecovered (c : Nat) (s : State) : State :=
  if !(busOff s c) || !(canCh s c).recov then s
  else
    let s := (s.w Reg.CAN_CH_STATUS.ERR_STATE 0 c).w Reg.CAN_CH_STATUS.RECOV_COUNT 128 c
    let s := setCounters (setCanCh s c { canCh s c with recov := false }) c 0 0
    raise (canReoffer (txJudge (stopLate s c false) c 4) c) 502 c

/-- Frames whose deadline has passed at the boundary, and which are not on the bus. -/
def canExpired (c : Nat) (frame : CanLate) (s : State) : State :=
  if busOff s c || canState s c == 2 then s
  else
    match frame with
    | .stop onBus => canShow (stopLate s c onBus) c
    | .txb b =>
      if txState s c b = 1 ∧ txLate s (canBuf s c b).frame = true then txOutcome s c b 5 stExpired 0 else s

/-! ### Receiving (R390, R391) -/

/-- The first filter a frame matches. -/
def canFilter (s : State) (c : Nat) (f : CanRx) : Option Nat :=
  (List.range 32).find? fun k =>
    s.r Reg.CAN_FLT.DEST c k != 0 && ((f.id ^^^ s.r Reg.CAN_FLT.ID c k) &&& s.r Reg.CAN_FLT.MASK c k) == 0
      && s.rb Reg.CAN_FLT.IDE c k == f.ide

/-- The record of a received frame. -/
def rxRecord (s : State) (f : CanRx) (filter : Nat) (lost : Bool) : List Byte :=
  let n := if f.rtr then 0 else dlcBytes f.fdf f.dlc
  le 4 (f.id % 2 ^ 29 + 2 ^ 29 * b2n f.ide + 2 ^ 30 * b2n f.rtr) ++ le 1 (b2n f.fdf + 2 * b2n f.brs + 4 * b2n f.esi)
    ++ le 1 (f.dlc % 16) ++ le 1 filter ++ le 1 (b2n lost) ++ le 8 s.tick ++ stampBytes (canStamp s f.sofAt) ++ le 4 0
    ++ padTo n (f.data.take n)

/-- A frame for a mailbox. -/
def boxIn (s : State) (c m k : Nat) (f : CanRx) : State :=
  let lostEvt (s : State) : State := raiseTickKey ((s.wb Reg.CAN_MB.OVERRUN true c m).inc Reg.CAN_CH_CNT.RX_OVERRUN c) (300000 + c) 504 c
  if s.rb Reg.CAN_MB.LOCK c m then
    let was := s.rb Reg.CAN_MB.SHADOW_FULL c m
    let s := setCanBox s c m { canBox s c m with shad := rxRecord s f k was }
    let s := s.wb Reg.CAN_MB.SHADOW_FULL true c m
    if was then lostEvt s else s
  else
    let was := s.rb Reg.CAN_MB.FULL c m
    let s := setCanBox s c m { canBox s c m with frame := rxRecord s f k was }
    let s := s.wb Reg.CAN_MB.FULL true c m
    if was then lostEvt s else s

/-- A frame for a queue; the lead reflects what it places. The shadow's host-facing queues follow the stream. -/
def queueIn (s : State) (c q k : Nat) (f : CanRx) : State :=
  if s.mode == .shadow then s
  else
    let v := canCh s c
    let lost := v.lostQ.contains q
    let held := (cplQ s q).pkts.length
    match cplBegin s q (rxRecord s f k lost).length with
    | (true, s) =>
      let d := rxRecord s f k (lost || decide ((cplQ s q).pkts.length < held))
      let s := reflect (cplCommit s q d) (.canRx q d)
      setCanCh s c { canCh s c with lostQ := (canCh s c).lostQ.filter (· != q) }
    | (false, s) => if lost then s else setCanCh s c { canCh s c with lostQ := v.lostQ ++ [q] }

/-- A frame for a user queue (DEST 3): a QUEUE below 256 names none (R371 row 1). -/
def userQueueIn (s : State) (c q k : Nat) (f : CanRx) : State :=
  if s.mode == .shadow || decide (256 ≤ q) then queueIn s c q k f else raiseTick (s.inc Reg.CPL_COUNTS.NOQ_DROP) 452

/-- A frame of another node. -/
def canRx (c : Nat) (f : CanRx) (s : State) : State :=
  if canState s c ≠ 1 || busOff s c then s
  else
    let s := errRelax (setCounters (s.inc Reg.CAN_CH_CNT.RX_OK c) c (canCh s c).tec (rxLess (canCh s c).rx)) c
    let s := isoRx s c f
    let s := match canFilter s c f with
      | none => s.inc Reg.CAN_CH_CNT.NOMATCH c
      | some k =>
        match s.r Reg.CAN_FLT.DEST c k with
        | 1 => boxIn s c (s.r Reg.CAN_FLT.MAILBOX c k) k f
        | 2 => queueIn s c (canRxQ c) k f
        | _ => userQueueIn s c (s.r Reg.CAN_FLT.QUEUE c k) k f
    canHandNow (canReoffer s c) c

/-- The W1C bits of a mailbox: [1] FULL, [2] OVERRUN. -/
def boxClear (s : State) (c m w1c : Nat) : State :=
  let s := if bitAt w1c 1 then s.wb Reg.CAN_MB.FULL false c m else s
  if bitAt w1c 2 then s.wb Reg.CAN_MB.OVERRUN false c m else s

/-- A write with LOCK = 1. -/
def boxLock (c m w1c : Nat) (s : State) : State := (boxClear s c m w1c).wb Reg.CAN_MB.LOCK true c m

/-- A write with LOCK = 0: the W1C bits first, then the shadow frame of a mailbox that was locked. -/
def boxUnlock (c m w1c : Nat) (s : State) : State :=
  let s := (boxClear s c m w1c).wb Reg.CAN_MB.LOCK false c m
  if s.rb Reg.CAN_MB.SHADOW_FULL c m then
    let v := canBox s c m
    let s := setCanBox s c m { frame := v.shad, shad := [] }
    (s.wb Reg.CAN_MB.FULL true c m).wb Reg.CAN_MB.SHADOW_FULL false c m
  else s

/-! ### Channel control (R378, R394, R395) -/

/-- CAN_CTRL: 0 OFF, 1 ON, 2 SLEEP, 3 RECOVER, 4 FLUSH. -/
def canCtrl (act : Nat) (h : Handle) (c rsv : Nat) (s : State) : State :=
  if decide (3 < c) || rsv != 0 || !s.rb Reg.CAN_CH_CFG.EN c || (act == 3 && !busOff s c)
    || (act == 2 && bitAt (s.r Reg.STP_REPEAT.CAN_STOP_CH) c) then complete s h stCan
  else accept (setCanCh s c { canCh s c with acts := (canCh s c).acts ++ [(h, act)] }) h

/-- A queue-fed frame of a buffer returns to the head of CAN_TX_c. -/
def txReturn (s : State) (c b : Nat) : State :=
  let v := canBuf s c b
  match v.h with
  | none => s
  | some h =>
    let q := canTxQ c
    let p := cplQ s q
    let s := cplSetQ s q { p with pkts := { data := v.frame, tick := s.tick } :: p.pkts }
    let s := cplSetCells (s.w Reg.CPL_Q.PKTS (p.pkts.length + 1) q) q (s.r Reg.CPL_Q.CELLS q + cellsOf v.frame.length)
    let s := setCanBuf s c b {}
    setTx (setCanCh s c { canCh s c with handles := h :: (canCh s c).handles }) c b 0

/-- Waiting frames of a channel that stops sending: BAR2-fed ones are aborted, queue-fed ones return. -/
def canHalt (s : State) (c : Nat) : State :=
  let s := iter (fun k s =>
    let b := 2 - k
    if [1, 3, 4].contains (txState s c b) then
      if (canBuf s c b).h.isSome then txReturn s c b else setTx (s.w Reg.CAN_TXB.CLASH_RUN 0 c b) c b 6
    else s) 3 s
  canReoffer s c

/-- The frame that may be on the bus now. -/
def canOnBus (s : State) (c : Nat) : Option CanTail :=
  if canState s c ≠ 1 || busOff s c then none
  else match (canCh s c).offer with
    | none => none
    | some none => some { buf := none, stop := (canCh s c).stopOn }
    | some (some b) => some { buf := some b, h := (canBuf s c b).h, frame := busFrame s c (canBuf s c b).frame }

/-- The channel is OFF: an attempt already on the bus runs to its end; the address of R396 is no longer held. -/
def canOff (s : State) (c : Nat) : State :=
  let tail := canOnBus s c
  let s := canHalt s c
  let s := setCanCh s c { canCh s c with tail := tail }
  let s := if s.rb Reg.CAN_CH_ISO.CLAIMED c then isoShow s c (canCh s c).iso false else s
  let s := (s.w Reg.CAN_CH_STATUS.STATE 0 c).w Reg.CAN_CH_STATUS.ERR_STATE 0 c
  setCounters (setCanCh s c { canCh s c with recov := false, keep := false, hand := none }) c 0 0

/-- FLUSH. -/
def canFlush (s : State) (c : Nat) : State :=
  let s := iter (fun b s =>
    if [1, 3, 4].contains (txState s c b) && (canBuf s c b).h.isSome then
      let v := canBuf s c b
      let s := setTx ((setCanBuf s c b { v with h := none }).w Reg.CAN_TXB.CLASH_RUN 0 c b) c b 6
      match v.h with
      | some h => reflect (complete s h stCancelled) (.canOut c h stCancelled 0)
      | none => s
    else s) 3 s
  let hs := (canCh s c).handles
  let s := hs.foldl (fun s h =>
    reflect (complete (cplTake s (canTxQ c)).2 h stCancelled) (.canOut c h stCancelled 0)) s
  canReoffer (setCanCh s c { canCh s c with handles := [] }) c

/-- An accepted CAN_CTRL takes effect. -/
def canAct (c : Nat) (s : State) (p : Handle × Nat) : State :=
  let v := canCh s c
  let s := match p.2 with
    | 0 => setCanCh s c { v with off := true }
    | 1 =>
      let s := setCanCh s c { v with off := false }
      if canState s c = 2 then s.w Reg.CAN_CH_STATUS.STATE 3 c else s
    | 2 => if canState s c = 1 ∨ canState s c = 3 then s.w Reg.CAN_CH_STATUS.STATE 2 c else s
    | 3 => if busOff s c then setCanCh s c { v with recov := true } else s
    | _ => canFlush s c
  complete s p.1 stOk

/-- The channel has a controller: its own, or the spare. -/
def canServed (s : State) (c : Nat) : Bool :=
  bitAt (s.r Reg.CAN_CTRL_MAP.IN_SERVICE) c || s.r Reg.CAN_CTRL_MAP.SPARE_FOR == c

/-- RECOV_COUNT during a recovery: the sequences seen so far, which the bus gives (a free value below 128). -/
def recovShow (s : State) (c : Nat) : State :=
  if busOff s c && (canCh s c).recov then
    let (v, s) := s.fresh
    s.w Reg.CAN_CH_STATUS.RECOV_COUNT (max (s.r Reg.CAN_CH_STATUS.RECOV_COUNT c) (v % 128)) c
  else s

/-- Whether the bus of a channel that waits for its handover is idle at a boundary is free. -/
def handTry (s : State) (c : Nat) : State :=
  if (canCh s c).hand.isNone then s
  else
    let (v, s) := s.fresh
    if bitAt v 0 then canHandNow s c else s

/-- A channel at the tick boundary. -/
def canChTick (c : Nat) (s : State) : State :=
  let acts := (canCh s c).acts
  let s := acts.foldl (canAct c) (setCanCh s c { canCh s c with acts := [] })
  let s := s.wb Reg.CAN_CH_STATUS.CFG_ERR (s.rb Reg.CAN_CH_CFG.EN c && cfgErr s c) c
  let on := s.rb Reg.CAN_CH_CFG.EN c && !s.rb Reg.CAN_CH_STATUS.CFG_ERR c && !(canCh s c).off && canServed s c
    && (canSends s || s.mode == .shadow)
  let s := if !on && canState s c != 0 then canOff s c
    else if on && canState s c == 0 then (setCanCh s c { canCh s c with tail := none }).w Reg.CAN_CH_STATUS.STATE 3 c
    else if s.can.sending && !canSends s then canHalt s c
    else s
  canShow (canLoad (recovShow (handTry s c) c) c) c

/-- The channel has seen 11 recessive bits. -/
def canIntegrated (c : Nat) (s : State) : State :=
  if canState s c ≠ 3 then s
  else
    let v := canCh s c
    let s := s.w Reg.CAN_CH_STATUS.STATE 1 c
    let s := if v.keep then setCanCh s c { v with keep := false }
      else setCounters (s.w Reg.CAN_CH_STATUS.ERR_STATE 0 c) c 0 0
    let s := if isoOn s c && canSends s && !s.rb Reg.CAN_CH_ISO.CLAIMED c then isoClaim s c (s.r Reg.CAN_CH_ISO.PREF_ADDR c) else s
    canShow (canLoad (canReoffer (txJudge (txJudge (stopLate s c false) c 1) c 4) c) c) c

/-- What wakes a sleeping channel (R395). -/
def canWakes (s : State) (c : Nat) (w : CanWakeIn) : Bool :=
  match w with
  | .pattern => !s.rb Reg.CAN_CH_CFG.WAKE_SRC c
  | .errors => s.rb Reg.CAN_CH_CFG.WAKE_SRC c
  | .frame id ide dlc data =>
    let mask := s.r Reg.CAN_CH_WUF.WUF_DATA_LO c + 2 ^ 32 * s.r Reg.CAN_CH_WUF.WUF_DATA_HI c
    s.rb Reg.CAN_CH_CFG.WAKE_SRC c && ((id ^^^ s.r Reg.CAN_CH_WUF.WUF_ID c) &&& s.r Reg.CAN_CH_WUF.WUF_MASK c) == 0
      && s.rb Reg.CAN_CH_WUF.WUF_IDE c == ide
      && (mask == 0 || (dlc == s.r Reg.CAN_CH_WUF.WUF_DLC c && (leNat (data.take 8) &&& mask) != 0))

/-- A wake event: normal operation, and the deadlines of waiting frames. -/
def canWake (c : Nat) (w : CanWakeIn) (s : State) : State :=
  if canState s c = 2 ∧ canWakes s c w = true then
    let s := s.w Reg.CAN_CH_STATUS.STATE 1 c
    canShow (canLoad (raise (txJudge (stopLate s c false) c 1) 505 c) c) c
  else s

/-- 250 ms without a contending claim of lower NAME. -/
def isoClaimed (c : Nat) (s : State) : State :=
  let v := canCh s c
  if isoOn s c && canState s c == 1 && v.iso != 0xFE && !s.rb Reg.CAN_CH_ISO.CLAIMED c && decide (v.isoAt + 250 ≤ s.tick) then
    canReoffer (isoShow s c v.iso true) c
  else s

/-! ### Controller sparing (R397) -/

/-- A handover to another controller, with the counters taken over or not: at the first bus idle after the boundary. -/
def canHandover (s : State) (c : Nat) (keep : Bool) : State :=
  let s := if canState s c = 1 ∨ canState s c = 3 then setCanCh s c { canCh s c with hand := some keep } else s
  if canState s c = 3 then canHandNow s c else s

/-- Controller k goes out of service at a tick boundary. -/
def ctrlOut (s : State) (k : Nat) (fault readable : Bool) : State :=
  let u := unit s 3 k
  if u.out then s
  else
    let s := if fault && u.standby && !unitStable s 3 k then unitStandbyFault s 3 k else unitOut s 3 k fault
    if !(unit s 3 k).out then s
    else
      let free := s.r Reg.CAN_CTRL_MAP.SPARE_FOR == 7 && bitAt (s.r Reg.CAN_CTRL_MAP.IN_SERVICE) 4
      let served := s.r Reg.CAN_CTRL_MAP.SPARE_FOR
      let was := bitAt (s.r Reg.CAN_CTRL_MAP.IN_SERVICE) k
      let s := s.wset Reg.CAN_CTRL_MAP.IN_SERVICE k false
      let s := if s.r Reg.CAN_CTRL_MAP.STANDBY = k then s.w Reg.CAN_CTRL_MAP.STANDBY 7 else s
      let s := if k = 4 then
          if served = 7 then raise s 506 else raise (s.w Reg.CAN_CTRL_MAP.SPARE_FOR 7) 506 served
        else if was && free then raise (canHandover (s.w Reg.CAN_CTRL_MAP.SPARE_FOR k) k (readable || !fault)) 506 k
        else raise s 506 k
      completeAll s u.outPend stOk

/-- A controller fails its self-check. -/
def ctrlFault (k : Nat) (readable : Bool) (s : State) : State :=
  if (unit s 3 k).out then s else { s with can := { s.can with outs := s.can.outs ++ [(k, true, readable)] } }

/-- Row 4, at a watch boundary. -/
def ctrlBack (k : Nat) (s : State) : State :=
  if s.ttu.pos = 0 ∧ unitMayJoin s 3 k = true then raise ((unitJoin s 3 k).w Reg.CAN_CTRL_MAP.STANDBY k) 506 k else s

/-- Row 5, after a watch boundary. -/
def ctrlRestored (k : Nat) (s : State) : State :=
  if s.ttu.pos = 0 ∧ unitStable s 3 k = true then
    let s := (unitInService s 3 k).wset Reg.CAN_CTRL_MAP.IN_SERVICE k true
    let s := if s.r Reg.CAN_CTRL_MAP.STANDBY = k then s.w Reg.CAN_CTRL_MAP.STANDBY 7 else s
    let s := if k ≠ 4 ∧ s.r Reg.CAN_CTRL_MAP.SPARE_FOR = k then canHandover (s.w Reg.CAN_CTRL_MAP.SPARE_FOR 7) k true else s
    raise s 506 k
  else s

/-! ### Boundaries and the pair (R392, R393, R396) -/

/-- CAN at the tick boundary. -/
def canTick (s : State) : State :=
  let outs := s.can.outs
  let s := outs.foldl (fun s o => ctrlOut s o.1 o.2.1 o.2.2) { s with can := { s.can with outs := [] } }
  let s := iter canChTick 4 s
  { s with can := { s.can with sending := canSends s } }

/-- The shadow takes the ISOBUS address of a channel. -/
def isoAdopt (s : State) (c addr : Nat) (claimed : Bool) : State :=
  isoShow (setCanCh s c { canCh s c with iso := addr }) c addr claimed

/-- A new lead sends one Address Claimed on each channel whose address it takes over, and claims where the old lead held none. -/
def canClaim (s : State) : State :=
  iter (fun c s =>
    if !isoOn s c then s
    else if s.rb Reg.CAN_CH_ISO.CLAIMED c then isoSend s c (s.r Reg.CAN_CH_ISO.CUR_ADDR c)
    else if canState s c = 1 then isoClaim s c (s.r Reg.CAN_CH_ISO.PREF_ADDR c) else s) 4 s

/-! ### The commands -/

def execCanSend (h : Handle) (channel bufAddr rsv : Nat) (buf : BufIn) (s : State) : Host.Outcome State Fault Refusal :=
  withOut s (ringOp anyRunMode h (descOf (.canSend h channel bufAddr rsv buf)) (canSend h channel bufAddr rsv buf))
def execCanCtrlOff (h : Handle) (channel rsv : Nat) (s : State) : Host.Outcome State Fault Refusal :=
  withOut s (ringOp anyRunMode h (descOf (.canCtrlOff h channel rsv)) (canCtrl 0 h channel rsv))
def execCanCtrlOn (h : Handle) (channel rsv : Nat) (s : State) : Host.Outcome State Fault Refusal :=
  withOut s (ringOp anyRunMode h (descOf (.canCtrlOn h channel rsv)) (canCtrl 1 h channel rsv))
def execCanCtrlSleep (h : Handle) (channel rsv : Nat) (s : State) : Host.Outcome State Fault Refusal :=
  withOut s (ringOp anyRunMode h (descOf (.canCtrlSleep h channel rsv)) (canCtrl 2 h channel rsv))
def execCanCtrlRecover (h : Handle) (channel rsv : Nat) (s : State) : Host.Outcome State Fault Refusal :=
  withOut s (ringOp anyRunMode h (descOf (.canCtrlRecover h channel rsv)) (canCtrl 3 h channel rsv))
def execCanCtrlFlush (h : Handle) (channel rsv : Nat) (s : State) : Host.Outcome State Fault Refusal :=
  withOut s (ringOp anyRunMode h (descOf (.canCtrlFlush h channel rsv)) (canCtrl 4 h channel rsv))
def execCanTxbReq (c : Fin 4) (b : Fin 3) (s : State) : Host.Outcome State Fault Refusal :=
  withOut s fun s => alive s (txReq c b)
def execCanTxbAbort (c : Fin 4) (b : Fin 3) (s : State) : Host.Outcome State Fault Refusal :=
  withOut s fun s => alive s (txAbort c b)
def execCanTxbRelease (c : Fin 4) (b : Fin 3) (s : State) : Host.Outcome State Fault Refusal :=
  withOut s fun s => alive s (txRelease c b)
def execMailboxLock (c : Fin 4) (m : Fin 32) (w1c : Nat) (s : State) : Host.Outcome State Fault Refusal :=
  withOut s fun s => alive s (boxLock c m w1c)
def execMailboxUnlock (c : Fin 4) (m : Fin 32) (w1c : Nat) (s : State) : Host.Outcome State Fault Refusal :=
  withOut s fun s => alive s (boxUnlock c m w1c)
def execCanFrameRx (c : Fin 4) (f : CanRx) (s : State) : Host.Outcome State Fault Refusal :=
  withOut s fun s => alive s (canRx c f)
def execCanTxDone (c : Fin 4) (sofAt : Int) (s : State) : Host.Outcome State Fault Refusal :=
  withOut s fun s => alive s (canTxDone c sofAt)
def execCanBitError (c : Fin 4) (s : State) : Host.Outcome State Fault Refusal := withOut s fun s => alive s (canBitError c)
def execCanBusOff (c : Fin 4) (s : State) : Host.Outcome State Fault Refusal := withOut s fun s => alive s (canBusLost c)
def execCanErrPassive (c : Fin 4) (errs : CanErrs) (rx : Nat) (s : State) : Host.Outcome State Fault Refusal :=
  withOut s fun s => alive s (canErrors c errs rx)
def execCanRecovered (c : Fin 4) (s : State) : Host.Outcome State Fault Refusal :=
  withOut s fun s => alive s (canRecovered c)
def execCanFrameExpired (c : Fin 4) (frame : CanLate) (s : State) : Host.Outcome State Fault Refusal :=
  withOut s fun s => alive s (canExpired c frame)
def execCanWake (c : Fin 4) (by_ : CanWakeIn) (s : State) : Host.Outcome State Fault Refusal :=
  withOut s fun s => alive s (canWake c by_)
def execIsoAddrClaimed (c : Fin 4) (s : State) : Host.Outcome State Fault Refusal :=
  withOut s fun s => alive s fun s => if canSends s then isoClaimed c s else s
def execCanCtrlFault (k : Fin 5) (readable : Bool) (s : State) : Host.Outcome State Fault Refusal :=
  withOut s fun s => alive s (ctrlFault k readable)
def execCanCtrlBack (k : Fin 5) (s : State) : Host.Outcome State Fault Refusal := withBoundary s fun s => alive s (ctrlBack k)
def execCanCtrlRestored (k : Fin 5) (s : State) : Host.Outcome State Fault Refusal :=
  withBoundary s fun s => alive s (ctrlRestored k)
def execCanIntegrated (c : Fin 4) (s : State) : Host.Outcome State Fault Refusal :=
  withOut s fun s => alive s (canIntegrated c)

end Sys2Proof.Machine
end

