-- ==== Sys2Proof/Machine/Flash.lean ====
section
/-! DEFINITION. Sys2Proof/Machine/Flash.lean: the wear manager of the SLC flash: mapping, moves, levelling, retirement and
the data of lost areas (R473, R474). The logical areas of the records are those of log entry 71. -/

namespace Sys2Proof.Machine

open Sys2Proof

/-! ### Blocks and the mapping -/

/-- Erase blocks of the flash. -/
def flashBlocks : Nat := 32768

def setFlash (s : State) (f : Flash) : State := { s with svc := { s.svc with flash := f } }

/-- The newer copy of the mapping table. -/
def flashMap (f : Flash) : List (Nat × Nat) := if f.seq1 < f.seq0 then f.map0 else f.map1

/-- The block of a logical area. -/
def areaBlock (f : Flash) (area : Nat) : Option Nat :=
  match mget 0 (flashMap f) area with
  | 0 => none
  | b + 1 => some b

/-- Block b may be written: no copy of the mapping names it, it holds no copy, and it is neither retired nor in use. -/
def blockFree (f : Flash) (b : Nat) : Bool :=
  !(f.map0.any fun p => p.2 == b + 1) && !(f.map1.any fun p => p.2 == b + 1) && b != f.blk0 && b != f.blk1
    && !f.bad.contains b && f.move.all fun m => m.2 != b

/-- The lowest block from b on that has the property, within n blocks. -/
def lowBlock (ok : Nat → Bool) : Nat → Nat → Option Nat
  | 0, _ => none
  | n + 1, b => if ok b then some b else lowBlock ok n (b + 1)

/-- The free block with the lowest erase count; among equals, the lowest. -/
def freshBlock (f : Flash) : Option Nat :=
  match lowBlock (fun b => blockFree f b && mget 0 f.erases b == 0) flashBlocks 0 with
  | some b => some b
  | none =>
    ((f.erases.filter fun p => blockFree f p.1).foldl (fun (best : Option (Nat × Nat)) p => match best with
      | some x => if p.2 < x.2 then some p else best
      | none => some p) none).map (·.1)

/-- The free block with the highest erase count. -/
def wornBlock (f : Flash) : Option Nat :=
  ((f.erases.filter fun p => blockFree f p.1).foldl (fun (best : Option (Nat × Nat)) p => match best with
    | some x => if x.2 < p.2 then some p else best
    | none => some p) none).map (·.1)

/-- Block b is erased and programmed. -/
def blockErase (f : Flash) (b : Nat) : Flash := { f with erases := mput 0 f.erases b (mget 0 f.erases b + 1) }

/-! ### Writes, read-back and moves -/

/-- The data of an area goes to block b; the mapping changes once it has been read back. -/
def flashProgram (s : State) (area b : Nat) : State :=
  setFlash s { blockErase s.svc.flash b with move := some (area, b) }

/-- A write of an area: to the free block with the lowest erase count. One at a time; with no spare block it fails. -/
def flashWrite (area : Nat) (s : State) : State :=
  if s.svc.flash.move.isSome || !flashSpare s then s
  else
    match freshBlock s.svc.flash with
    | some b => flashProgram s area b
    | none => s

/-- A new copy of the mapping table takes the place of the older one, in a block of its own. -/
def mapWrite (f : Flash) (area b : Nat) : Flash :=
  let m := mput 0 (flashMap f) area (b + 1)
  let at_ := freshBlock f
  let f := match at_ with
    | some x => blockErase f x
    | none => f
  if f.seq1 < f.seq0 then { f with map1 := m, seq1 := f.seq0 + 1, blk1 := at_.getD f.blk1 }
  else { f with map0 := m, seq0 := f.seq1 + 1, blk0 := at_.getD f.blk0 }

/-- A block is retired; FLASH_LOW below 64 spare blocks (R474). -/
def blockRetire (s : State) (b : Nat) : State :=
  let s := setFlash s { s.svc.flash with bad := s.svc.flash.bad ++ [b], move := none }
  let n := s.r Reg.SVC_SPARES.FLASH_SPARE - 1
  let s := s.w Reg.SVC_SPARES.FLASH_SPARE n
  if n < 64 && !s.rb Reg.SVC_STATUS.FLASH_LOW then raise (s.wb Reg.SVC_STATUS.FLASH_LOW true) 483 else s

/-- The block programmed has been read back: the mapping changes, or the block is retired and its data goes to another. -/
def flashRead (ok : Bool) (s : State) : State :=
  match s.svc.flash.move with
  | none => s
  | some (area, b) =>
    if ok then
      let f := mapWrite s.svc.flash area b
      setFlash s { f with move := none, lost := f.lost.filter (· != area) }
    else flashWrite area (blockRetire s b)

/-- The highest and the lowest erase count. -/
def eraseHigh (f : Flash) : Nat := f.erases.foldl (fun m p => max m p.2) 0
def eraseLow (f : Flash) : Nat :=
  if f.erases.length < flashBlocks then 0 else f.erases.foldl (fun m p => min m p.2) (eraseHigh f)

/-- The area whose block has the lowest erase count. -/
def coldArea (f : Flash) : Option Nat :=
  ((flashMap f).foldl (fun (best : Option (Nat × Nat)) p => match best with
    | some x => if mget 0 f.erases (p.2 - 1) < x.2 then some (p.1, mget 0 f.erases (p.2 - 1)) else best
    | none => some (p.1, mget 0 f.erases (p.2 - 1))) none).map (·.1)

/-- Levelling: the data of the least-erased block goes to a worn free block. -/
def flashLevel (s : State) : State :=
  let f := s.svc.flash
  if f.move.isSome || decide (eraseHigh f ≤ eraseLow f + 2000) then s
  else
    match coldArea f, wornBlock f with
    | some a, some b => flashProgram s a b
    | _, _ => s

/-- The read scrub has read an area: 3 or 4 corrections in a codeword send it to a new block. -/
def flashScrub (area corr : Nat) (s : State) : State :=
  if 3 ≤ corr ∧ (areaBlock s.svc.flash area).isSome = true then flashWrite area s else s

/-! ### Lost areas (R27) -/

/-- The other copy of a dual-copy record, whose copies stand in areas 2k and 2k + 1. -/
def otherCopy (area : Nat) : Option Nat :=
  if 8 ≤ area then none else some (if area % 2 = 0 then area + 1 else area - 1)

/-- The data of an area is gone: one copy of a commit record or of the ephemerides, or a record of which no copy is left. -/
def areaGone (area : Nat) (s : State) : State :=
  let both := (otherCopy area).all fun a => s.svc.flash.lost.contains a
  match area with
  | 2 => { s with kvt := { s.kvt with copy0 := none } }
  | 3 => { s with kvt := { s.kvt with copy1 := none } }
  | 4 => { s with obs := { s.obs with flash := [] } }
  | 5 => { s with obs := { s.obs with flash2 := [] } }
  | 8 => { s with obs := { s.obs with stored := none } }
  | 9 => { s with bt := { s.bt with cfg := none } }
  | 10 => { s with kvt := { s.kvt with hwin := none } }
  | 11 => { s with bt := { s.bt with slotBad := true } }
  | a =>
    if both then
      if a < 2 then { s with twn := { s.twn with flashEpoch := 0 } }
      else if a = 6 ∨ a = 7 then { s with luv := { s.luv with flash := [] } }
      else s
    else s

/-- An uncorrectable word of an area. -/
def flashLost (area : Nat) (s : State) : State :=
  let f := s.svc.flash
  areaGone area (setFlash s { f with lost := if f.lost.contains area then f.lost else f.lost ++ [area] })

end Sys2Proof.Machine
end

