-- ==== Sys2Proof/Machine/Glt.lean ====
section
/-! DEFINITION. Sys2Proof/Machine/Glt.lean: the Glint capture engine (R419 to R435). -/

namespace Sys2Proof.Machine

open Sys2Proof

def gltStream (s : State) (k : Nat) : GltStream := mget ({} : GltStream) s.glt.streams k
def setGltStream (s : State) (k : Nat) (v : GltStream) : State :=
  { s with glt := { s.glt with streams := mput ({} : GltStream) s.glt.streams k v } }

/-- The time of a cycle of this tick on TB3. -/
def nowT3 (s : State) (cyc : Nat) : Nat := s.ttu.tb3 + cycU cyc

/-! ### Streams (R419, R420) -/

/-- Bytes of a sample, and the full-rate sample period in 2⁻¹⁶ ns (0: records). -/
def srcSize (src : Nat) : Nat :=
  if src = 0 then 0 else if src ≤ 3 then 1 else if src ≤ 7 then 3 else if src ≤ 0x0C then 4
  else if src = 0x0D then 8 else if src = 0x0E then 16 else 0
def srcPeriod (src : Nat) : Nat :=
  if src = 0 then 0 else if src ≤ 3 then 409600 else if src ≤ 7 then 3276800 else if src = 8 then 163840000
  else if src ≤ 0x0C then 262144000 else 0

/-- A source that is never reduced. -/
def srcFixed (src : Nat) : Bool := src == 0x0D || src == 0x0E

/-- Samples a block holds, and blocks of a region. -/
def blockCap (src : Nat) : Nat := if srcSize src = 0 then 0 else 4064 / srcSize src
def regionBlocks (v : GltStream) : Nat :=
  match v.seen with
  | some (_, _, size) => size * 256
  | none => 0

/-- The settings of stream k. -/
def gltSet (s : State) (k : Nat) : Nat × Nat × Nat :=
  (s.r Reg.GLT_STREAM.SRC k, s.r Reg.GLT_STREAM.BASE_MIB k, s.r Reg.GLT_STREAM.SIZE_MIB k)

/-- Stream k runs: enabled, started, with a source. -/
def gltRuns (s : State) (k : Nat) : Bool :=
  s.rb Reg.GLT_STREAM.EN k && !s.rb Reg.GLT_STREAM.CFG_ERR k && (match (gltStream s k).seen with
    | some (src, _, _) => srcSize src != 0
    | none => false)

def gltSrc (s : State) (k : Nat) : Nat :=
  match (gltStream s k).seen with
  | some (src, _, _) => src
  | none => 0

/-- Regions that share a MiB. -/
def regionsMeet (a b : Nat × Nat × Nat) : Bool :=
  decide (a.2.1 < b.2.1 + b.2.2) && decide (b.2.1 < a.2.1 + a.2.2)

/-- Stream k may not start: its region lies outside MiB 1 to 1,023, or meets that of another enabled stream that runs. -/
def regionBad (s : State) (k : Nat) : Bool :=
  let me := gltSet s k
  decide (me.2.1 = 0) || decide (me.2.2 = 0) || decide (1024 < me.2.1 + me.2.2)
    || (List.range 8).any fun j => j != k && s.rb Reg.GLT_STREAM.EN j && !s.rb Reg.GLT_STREAM.CFG_ERR j
        && (gltStream s j).seen.any (fun x => regionsMeet x me)

/-- The state of the trigger machine. -/
def gltState (s : State) : Nat := s.r Reg.GLT_STATE.STATE
def setGltState (s : State) (v : Nat) : State := s.w Reg.GLT_STATE.STATE v

/-- FILL begins. -/
def gltFill (s : State) : State := setGltState { s with glt := { s.glt with fill3 := s.ttu.tb3, holds := 0 } } 1

/-- A stream starts, or restarts with changed settings: position 0, no mark, and the machine returns to FILL. The blocks
of a region kept stand until they are written over, each of which takes the windows that begin in it (R428). -/
def gltStart (s : State) (k : Nat) : State :=
  let v := gltStream s k
  let was := v.seen.isSome
  let same := v.seen.any fun x => x.2 == (gltSet s k).2
  let old (c : GltCapture) : GltCapture :=
    let f := mget (0, 0) c.first k
    if f.1 = 0 then c else { c with first := mput (0, 0) c.first k (f.1, f.2 + 2 ^ 32) }
  let s := { s with glt := { s.glt with caps := s.glt.caps.map old } }
  let s := setGltStream s k { seen := some (gltSet s k), mem := if same then v.mem else [] }
  let s := (s.wb Reg.GLT_STREAM.MARK_VALID false k).wb Reg.GLT_STREAM.MARK_HELD false k
  let s := (s.w Reg.GLT_STREAM.WR_POS 0 k).w Reg.GLT_STREAM.DECIM_LOG2 0 k
  if was && gltState s != 0 then gltFill s else s

/-- The decimation of stream k takes the higher of the levels of R422 and R430. -/
def gltDecim (k : Nat) (s : State) : State :=
  let v := gltStream s k
  let d := min 8 (max v.d1 v.d2)
  if d = s.r Reg.GLT_STREAM.DECIM_LOG2 k then s
  else
    let up := decide (s.r Reg.GLT_STREAM.DECIM_LOG2 k < d)
    let s := s.w Reg.GLT_STREAM.DECIM_LOG2 d k
    if up then raiseTick s 497 k else s

/-- A stream at the tick boundary: its settings, and its decimation (R420, R422, R430). -/
def gltStreamTick (k : Nat) (s : State) : State :=
  let v := gltStream s k
  let s := if s.rb Reg.GLT_STREAM.EN k then
      if v.seen = some (gltSet s k) then s
      else
        let bad := regionBad s k
        let s := s.wb Reg.GLT_STREAM.CFG_ERR bad k
        if bad then setGltStream s k {} else gltStart s k
    else s.wb Reg.GLT_STREAM.CFG_ERR false k
  gltDecim k s

/-! ### Blocks -/

/-- The bytes of a block (R420); a corrupt one has its data at 0. -/
def gltBlockBytes (stream : Nat) (b : GltBlock) : List Byte :=
  padTo 4096 (le 1 stream ++ le 1 b.src ++ le 1 b.decim ++ le 1 (b.flags + (if b.bad then 16 else 0)) ++ le 4 b.seq
    ++ stampBytes b.stamp ++ le 4 b.n ++ le 4 (min b.dropped 0xFFFFFFFF) ++ le 4 0 ++ (if b.bad then [] else b.data))

/-- A capture whose window begins in a block that the block of SEQ `seq` is written over (R428). -/
def gltOverwrite (s : State) (k idx seq : Nat) : State :=
  let mark (c : GltCapture) : GltCapture :=
    let f := mget (0, 0) c.first k
    if f.1 = idx + 1 ∧ f.2 ≠ seq + 1 ∧ bitAt c.flags 3 = false then { c with flags := c.flags + 8 } else c
  { s with glt := { s.glt with caps := s.glt.caps.map mark } }

/-- The block being written is complete. -/
def gltClose (s : State) (k : Nat) : State :=
  let v := gltStream s k
  match v.cur with
  | none => s
  | some b =>
    let n := regionBlocks v
    let idx := if n = 0 then 0 else (v.idx + 1) % n
    let s := setGltStream s k { v with mem := mput none v.mem b.idx (some b), cur := none, idx := idx, lastD := b.decim }
    s.w Reg.GLT_STREAM.WR_POS (idx * 4096) k

/-- The free space F of a stream whose mark is valid: blocks from the next block to be written up to the mark. -/
def gltFree (s : State) (k : Nat) : Nat :=
  let v := gltStream s k
  let n := regionBlocks v
  let mark := s.r Reg.GLT_STREAM.MARK_POS k / 4096
  let next := match v.cur with
    | some b => (b.idx + 1) % n
    | none => v.idx
  if n = 0 then 0 else if v.markNew then n else (mark + n - next % n) % n

/-- Samples are dropped. -/
def gltDrop (s : State) (k n : Nat) : State :=
  let v := gltStream s k
  let s := setGltStream s k { v with drop := v.drop + n }
  raiseWatch ({ s with glt := { s.glt with drop3 := some s.ttu.tb3 } }.add Reg.GLT_STREAM.DROPPED n k) 499

/-- A new block begins for a chunk of samples; none where the mark holds the stream (R430). -/
def gltOpen (s : State) (k : Nat) (c : GltChunk) : Option State :=
  let v := gltStream s k
  let marked := s.rb Reg.GLT_STREAM.MARK_VALID k && s.r Reg.GLT_STREAM.MARK_POS k == v.idx * 4096 && v.seq != 0
    && !v.markNew
  if marked && s.rb Reg.GLT_STREAM.PROTECT k then none
  else
    let s := if marked then
        raise ((s.wb Reg.GLT_STREAM.MARK_VALID false k).wb Reg.GLT_STREAM.MARK_LOST true k) 498 k
      else s
    let s := gltOverwrite s k v.idx v.seq
    let gap := v.drop + c.drop
    let flags := b2n (gap != 0) + 2 * b2n (c.decim != 0) + 4 * b2n (v.seq != 0 && c.decim != v.lastD) + 8 * b2n v.step
    let b : GltBlock := { idx := v.idx, src := gltSrc s k, decim := c.decim, flags := flags, seq := v.seq, stamp := c.stamp
                          n := 0, dropped := gap, t3 := c.t3, per := c.per, data := [] }
    some (setGltStream s k { v with
      cur := some b, seq := (v.seq + 1) % 2 ^ 32, drop := 0, step := false, markNew := false })

/-- POS of the captures that wait for the first sample of stream k at or after their trigger. -/
def gltPos (s : State) (k : Nat) (b : GltBlock) (c : GltChunk) (m : Nat) : State :=
  let place (x : GltCapture) : GltCapture :=
    let skip := if x.trig3 ≤ c.t3 then 0 else if c.per = 0 then m else ceilDiv (x.trig3 - c.t3) c.per
    if x.need.contains k && decide (skip < m) then
      { x with
        need := x.need.filter (· != k)
        pos := mput 0xFFFFFFFF x.pos k (b.idx * 4096 + 32 + (b.n + skip) * c.size) }
    else x
  { s with glt := { s.glt with caps := s.glt.caps.map place } }

/-- Samples of a chunk go to the block being written, and to new blocks. -/
def gltWrite (k : Nat) : Nat → GltChunk → State → State
  | 0, _, s => s
  | fuel + 1, c, s =>
    let total := c.data.length / c.size
    if total = 0 then s
    else
      let v := gltStream s k
      let s := match v.cur with
        | some b => if b.decim != c.decim || c.drop != 0 || v.drop != 0 || blockCap b.src ≤ b.n then gltClose s k else s
        | none => s
      let opened := match (gltStream s k).cur with
        | some _ => some s
        | none => gltOpen s k c
      match opened with
      | none => gltDrop (s.wb Reg.GLT_STREAM.MARK_HELD true k) k total
      | some s =>
        let v := gltStream s k
        match v.cur with
        | none => s
        | some b =>
          let m := min total (blockCap b.src - b.n)
          let s := gltPos s k b c m
          let bytes := c.data.take (m * c.size)
          let bytes := if b.src = 0x0D then le 4 (field bytes 0 4) ++ le 4 ((c.t3 - b.t3) / (4 * uNs)) else bytes
          let flags := if v.step && !bitAt b.flags 3 then b.flags + 8 else b.flags
          let s := setGltStream s k { v with cur := some { b with n := b.n + m, data := b.data ++ bytes, flags := flags }
                                             step := false }
          let s := s.wb Reg.GLT_STREAM.MARK_HELD false k
          let rest := { c with t3 := c.t3 + m * c.per, stamp := c.stamp + m * c.per, drop := 0, data := c.data.drop (m * c.size) }
          gltWrite k fuel rest s

/-! ### Staging and drain (R421, R422) -/

/-- Bytes in staging. -/
def stageBytes (v : GltStream) : Nat := (v.stage.map fun c => c.data.length).sum
def backlog (s : State) : Nat := (s.glt.streams.map fun p => stageBytes p.2).sum

/-- Every 2^d-th of some samples is kept. -/
def decimate (size step : Nat) : Nat → Nat → List Byte → List Byte
  | 0, _, _ => []
  | fuel + 1, ph, b =>
    if b.length < size then []
    else (if ph % step = 0 then b.take size else []) ++ decimate size step fuel (ph + 1) (b.drop size)

/-- Samples enter staging; those for which there is no room are dropped. -/
def stageIn (s : State) (k at_ ph decim size per : Nat) (data : List Byte) : State :=
  let all := data.length / size
  let step := 2 ^ decim
  let kept := decimate size step (all + 1) ph data
  let room := (786432 - backlog s) / size
  let keep := kept.take (room * size)
  let lost := kept.length / size - keep.length / size
  let skip := (step - ph % step) % step
  let c : GltChunk := { t3 := s.ttu.tb3 + at_ + skip * per, stamp := s.tb (s.r Reg.GLT_CFG.TB_SEL) (at_ + skip * per)
                        per := per * step, decim := decim, drop := (gltStream s k).drop, size := size, data := keep }
  let s := if keep = [] then s
    else
      let v := gltStream s k
      setGltStream s k { v with stage := v.stage ++ [c], drop := 0 }
  let v := gltStream s k
  let s := setGltStream s k { v with ph := (ph + all) % 256 }
  if lost = 0 then s else gltDrop s k lost

/-- The records of a list, each a chunk of its own; those beyond the 4,096 of a tick are dropped. -/
def recordsIn (k size : Nat) : Nat → List Byte → State → State
  | 0, b, s => if b.length < size then s else gltDrop s k (b.length / size)
  | fuel + 1, b, s =>
    if b.length < size then s
    else recordsIn k size fuel (b.drop size) (stageIn s k (cycU (field b 4 4)) 0 0 size 0 (b.take size))

/-- The samples of a stream. -/
def samplesIn (s : State) (x : GltIn) : State :=
  if !gltRuns s x.stream then s
  else
    let src := gltSrc s x.stream
    let size := srcSize src
    if src = 0x0E then s
    else if src = 0x0D then recordsIn x.stream size 4096 x.data s
    else stageIn s x.stream x.at_ (gltStream s x.stream).ph (s.r Reg.GLT_STREAM.DECIM_LOG2 x.stream) size (srcPeriod src) x.data

/-- The event records raised since the last window. -/
def eventsIn (k : Nat) (s : State) : State :=
  if gltRuns s k && gltSrc s k == 0x0E then s.glt.evts.foldl (fun s e => stageIn s k e.1 0 0 16 0 e.2) s else s

/-- Up to n bytes of a stream's staging go to LPDDR5. -/
def drainStream (k : Nat) : Nat → Nat → State → Nat × State
  | 0, n, s => (n, s)
  | fuel + 1, n, s =>
    let v := gltStream s k
    match v.stage with
    | [] => (n, s)
    | c :: cs =>
      let m := min (c.data.length / c.size) (n / c.size)
      if m = 0 then (n, s)
      else
        let take := { c with data := c.data.take (m * c.size) }
        let rest := { c with t3 := c.t3 + m * c.per, stamp := c.stamp + m * c.per, drop := 0, data := c.data.drop (m * c.size) }
        let s := setGltStream s k { v with stage := if rest.data = [] then cs else rest :: cs }
        drainStream k fuel (n - m * c.size) (gltWrite k (m + 2) take s)

/-- SHARE_KIB, clamped. -/
def shareBytes (s : State) : Nat := clampN 64 1024 (s.r Reg.GLT_CFG.SHARE_KIB) * 1024

/-- The halvings of F below an eighth of the region. -/
def halvings (n f : Nat) : Nat → Nat
  | 0 => 0
  | fuel + 1 => if f < n then 1 + halvings (n / 2) f fuel else 0

/-- The level that R430 requires of a protected stream. -/
def markLevel (s : State) (k : Nat) : State :=
  let v := gltStream s k
  let n := regionBlocks v
  if !s.rb Reg.GLT_STREAM.PROTECT k || !s.rb Reg.GLT_STREAM.MARK_VALID k || srcFixed (gltSrc s k) then
    if v.d2 = 0 then s else setGltStream s k { v with d2 := 0 }
  else
    let f := gltFree s k
    if f < n / 8 then setGltStream s k { v with d2 := max v.d2 (min 8 (halvings (n / 8) f 8)) }
    else if n / 4 < f then setGltStream s k { v with d2 := 0 }
    else s

/-- Glint in the background window: samples arrive in staging, and up to SHARE_KIB is drained. -/
def gltWindow (xs : List GltIn) (s : State) : State :=
  if s.mode == .boot || s.mode == .dead then { s with glt := { s.glt with evts := [] } }
  else
    let s := xs.foldl samplesIn s
    let s := iter eventsIn 8 s
    let s := { s with glt := { s.glt with evts := [] } }
    let (_, s) := iter (fun k (p : Nat × State) => drainStream k (p.1 + 1) p.1 p.2) 8 (shareBytes s, s)
    iter (fun k s => if gltRuns s k then markLevel s k else s) 8 s

/-- The 980 µs point: the backlog, and rows 1 and 2 of R422. -/
def gltBacklog (s : State) : State :=
  let b := backlog s
  let s := s.w Reg.GLT_STATE.BACKLOG_KIB (min (b / 1024) 1023)
  let s := if 65536 < b then { s with glt := { s.glt with calm := false } } else s
  if b ≤ 262144 then s
  else
    let ks := (List.range 8).filter fun k => gltRuns s k && s.rb Reg.GLT_STREAM.REDUCE_EN k && !srcFixed (gltSrc s k)
      && decide (s.r Reg.GLT_STREAM.DECIM_LOG2 k < 8)
    match ks.getLast? with
    | some k => setGltStream s k { gltStream s k with d1 := s.r Reg.GLT_STREAM.DECIM_LOG2 k + 1 }
    | none => s

/-- The watch boundary: row 3 of R422. -/
def gltWatch (s : State) : State :=
  let calm := s.glt.calm
  let s := { s with glt := { s.glt with calm := true } }
  if !calm then s
  else
    match (List.range 8).find? (fun k => (gltStream s k).d1 != 0) with
    | some k => gltDecim k (setGltStream s k { gltStream s k with d1 := (gltStream s k).d1 - 1 })
    | none => s

/-! ### The mark (R429) -/

/-- A mark at ring index i of a stream; `new`: the block there is the next one to be written, so that the whole region is free. -/
def setMark (s : State) (k i : Nat) (new : Bool) : State :=
  let s := setGltStream s k { gltStream s k with markNew := new }
  let s := ((s.wb Reg.GLT_STREAM.MARK_VALID true k).wb Reg.GLT_STREAM.MARK_LOST false k).wb Reg.GLT_STREAM.MARK_HELD false k
  s.w Reg.GLT_STREAM.MARK_POS (i * 4096) k

def markHere (k : Nat) (s : State) : State := setMark s k (gltStream s k).idx (gltStream s k).cur.isNone
def markClear (k : Nat) (s : State) : State :=
  (s.wb Reg.GLT_STREAM.MARK_VALID false k).wb Reg.GLT_STREAM.MARK_HELD false k

/-! ### Triggers (R423 to R428) -/

/-- The larger of two magnitudes. -/
def mag (p : Int × Int) : Nat := max p.1.natAbs p.2.natAbs

/-- The instants at which condition c is met in a trigger sample. -/
def condHits (s : State) (x : GltSample) (force : Bool) (c : Nat) : List Nat :=
  let ix := s.r Reg.GLT_COND.INDEX c
  let ed := s.r Reg.GLT_COND.EDGE c
  let th := s.r Reg.GLT_COND.THRESH c
  match s.r Reg.GLT_COND.TYPE c with
  | 1 => x.edges.filterMap fun e => if e.1 = ix ∧ ix < 28 ∧ bitAt ed (if e.2.1 then 0 else 1) = true then some e.2.2 else none
  | 2 => x.samples.filterMap fun v =>
      let a := mag v.2.1
      let b := mag v.2.2.1
      if v.1 = ix ∧ gltRuns s ix = true ∧ srcFixed (gltSrc s ix) = false
        ∧ ((bitAt ed 0 = true ∧ a < th ∧ th ≤ b) ∨ (bitAt ed 1 = true ∧ th ≤ a ∧ b < th)) then some v.2.2.2 else none
  | 3 => x.events.filterMap fun v => if v.1 = ix then some v.2 else none
  | 4 => if x.tick && tiw' s == th % 128 then [0] else []
  | 5 => if force then [cycU x.cyc] else []
  | _ => []
where
  tiw' (s : State) : Nat := s.r Reg.TTU_WATCH_POS.TICK_IN_WATCH

/-- The lowest of some instants. -/
def earliest (xs : List Nat) : Nat := xs.foldl min (xs.headD 0)

/-- The first block of a capture's window in stream k, of those written since its start: the last one that begins at or before it, else the oldest. -/
def firstBlock (v : GltStream) (from3 : Nat) : Option GltBlock :=
  let bs := (v.mem.filterMap (·.2)).filter (fun b => decide (b.seq < v.seq)) ++ v.cur.toList
  let before := bs.filter fun b => decide (b.t3 ≤ from3)
  match before.foldl (fun (m : Option GltBlock) b => match m with
      | some a => if a.t3 < b.t3 then some b else m
      | none => some b) none with
  | some b => some b
  | none => bs.foldl (fun (m : Option GltBlock) b => match m with
      | some a => if b.t3 < a.t3 then some b else m
      | none => some b) none

/-- A trigger in READY starts a capture. -/
def gltCapture (s : State) (mask at_ : Nat) (tdc : Bool) : State :=
  let base := s.r Reg.GLT_CFG.TB_SEL
  let t3 := s.ttu.tb3 + at_
  let num := s.glt.started % 65536
  let from3 := t3 - s.r Reg.GLT_WINDOW.PRE_US * 10000 * uNs
  let live := (List.range 8).filter (gltRuns s)
  let first := live.foldl (fun (m : List (Nat × (Nat × Nat))) k => match firstBlock (gltStream s k) from3 with
    | some b => mput (0, 0) m k (b.idx + 1, b.seq + 1)
    | none => mput (0, 0) m k ((gltStream s k).idx + 1, (gltStream s k).seq + 1)) []
  let toMark := if s.rb Reg.GLT_CFG.MARK_ON_TRIG then live.filter (fun k => !s.rb Reg.GLT_STREAM.MARK_VALID k) else []
  let reduced := live.any fun k => s.r Reg.GLT_STREAM.DECIM_LOG2 k != 0
  let c : GltCapture := { num := num, mask := mask, flags := b2n tdc + 2 * b2n reduced + 16 * b2n (toMark != []), base := base
                          stamp := s.tb base at_, tick := s.tick, from3 := from3, trig3 := t3
                          to3 := t3 + s.r Reg.GLT_WINDOW.POST_US * 10000 * uNs, need := live, first := first }
  let s := { s with glt := { s.glt with caps := (if 64 ≤ s.glt.caps.length then s.glt.caps.drop 1 else s.glt.caps) ++ [c]
                                        started := s.glt.started + 1 } }
  let s := toMark.foldl (fun s k => setMark s k ((mget (0, 0) first k).1 - 1) (firstBlock (gltStream s k) from3).isNone) s
  let src := ((List.range 8).find? (bitAt mask)).getD 0
  setGltState (((s.w Reg.GLT_LAST.CAPTURE num).w Reg.GLT_LAST.COND_MASK mask).w Reg.GLT_LAST.SOURCE src) 3

/-- The conditions of a trigger sample, and their outcome by state (R427). -/
def gltTrigger (x : GltSample) (force : Bool) (s : State) : State :=
  let hits := (List.range 8).map fun c => (c, condHits s x force c)
  let met := hits.filter fun h => !h.2.isEmpty
  let mask := met.foldl (fun n h => n + 2 ^ h.1) 0
  if mask = 0 then s
  else
    let edges := met.filter fun h => s.r Reg.GLT_COND.TYPE h.1 == 1
    let others := met.filter fun h => s.r Reg.GLT_COND.TYPE h.1 != 1 && s.r Reg.GLT_COND.TYPE h.1 != 5
    let at_ := if edges ≠ [] then earliest (edges.flatMap (·.2))
      else if others ≠ [] then earliest (others.flatMap (·.2)) else cycU x.cyc
    match gltState s with
    | 0 => s
    | 1 => raiseWatch (s.inc Reg.GLT_IGN.IGN_PRE) 496
    | 2 => gltCapture s mask at_ (edges != [])
    | n =>
      let s := raiseWatch (s.inc Reg.GLT_IGN.IGN_HOLD) 496
      if n = 4 ∧ s.rb Reg.GLT_CFG.HOLD_MODE = true then { s with glt := { s.glt with holds := s.glt.holds + 1 } } else s

/-- Whole blocks in region order from ring index i: at most n of them, as far as they are there. -/
def blocksFrom (v : GltStream) (i : Nat) : Nat → List GltBlock
  | 0 => []
  | n + 1 => match mget none v.mem (i % max 1 (regionBlocks v)) with
    | some b => b :: blocksFrom v (i + 1) n
    | none => []

/-- Blocks from ring index i up to the write position; the whole region where a mark at i holds the stream. -/
def gltSpan (v : GltStream) (i : Nat) : Nat :=
  let n := regionBlocks v
  if v.cur = none ∧ v.markNew = false ∧ v.seq ≠ 0 ∧ i = v.idx then n else (v.idx + n - i) % max 1 n

/-- The blocks of a capture's window in a stream, in order of their SEQ. -/
def windowBlocks (v : GltStream) (c : GltCapture) (k : Nat) : List GltBlock :=
  let f := mget (0, 0) c.first k
  if f.1 = 0 then []
  else
    let bs := blocksFrom v (f.1 - 1) (gltSpan v (f.1 - 1))
    bs.takeWhile fun b => decide (b.t3 ≤ c.to3)

/-- The capture in POST is completed (R426, R428). -/
def gltComplete (s : State) : State :=
  match s.glt.caps.getLast? with
  | none => s
  | some c =>
    let inWin (t : Option Nat) : Bool := t.any fun t => decide (c.from3 ≤ t + uTick) && decide (t ≤ c.to3)
    let stepIn : Bool := s.glt.step3.any fun t => decide (c.from3 ≤ t) && decide (t ≤ c.to3)
    let reduced : Bool := bitAt c.flags 1 || (List.range 8).any fun k => gltRuns s k && (s.r Reg.GLT_STREAM.DECIM_LOG2 k != 0
      || (windowBlocks (gltStream s k) c k ++ (gltStream s k).cur.toList).any (fun b => bitAt b.flags 1))
    let fl := c.flags + (if reduced && !bitAt c.flags 1 then 2 else 0) + 4 * b2n (inWin s.glt.drop3) + 32 * b2n stepIn + 64
    raise { s with glt := { s.glt with caps := s.glt.caps.dropLast ++ [{ c with flags := fl }] } } 495 c.num

/-- PRE_US has passed since FILL began. -/
def gltFillDone (cyc : Nat) (s : State) : State :=
  if gltState s = 1 ∧ s.glt.fill3 + s.r Reg.GLT_WINDOW.PRE_US * 10000 * uNs ≤ nowT3 s cyc then setGltState s 2 else s

/-- POST_US has passed since the trigger. -/
def gltPostDone (cyc : Nat) (s : State) : State :=
  match s.glt.caps.getLast? with
  | some c =>
    if gltState s = 3 ∧ c.to3 ≤ nowT3 s cyc then
      gltComplete (setGltState { s with glt := { s.glt with holds := 0 } } 4) else s
  | none => s

/-- The hold-off ends. -/
def gltHoldDone (cyc : Nat) (s : State) : State :=
  match s.glt.caps.getLast? with
  | some c =>
    let hold := s.r Reg.GLT_HOLD.HOLD
    let done := if s.rb Reg.GLT_CFG.HOLD_MODE then decide (hold ≤ s.glt.holds) else decide (c.trig3 + hold * 10000 * uNs ≤ nowT3 s cyc)
    if gltState s = 4 ∧ done = true then setGltState s 5 else s
  | none => s

/-- Glint at the tick boundary: STOP, ARM, REARM, and the streams. -/
def gltTick (s : State) : State :=
  if s.mode == .boot || s.mode == .dead then s
  else
    let arm := s.glt.arm
    let stop := s.glt.stop
    let s := { s with glt := { s.glt with arm := false, stop := false } }
    let st := gltState s
    let s := if stop then setGltState (if st = 3 then gltComplete s else s) 0
      else if st = 0 && arm then gltFill s
      else if st = 5 && (s.rb Reg.GLT_CFG.REARM_AUTO || arm) then gltFill s
      else s
    iter gltStreamTick 8 s

/-- A write of ARM counts in IDLE, and in REARM without REARM_AUTO. -/
def gltArm (s : State) : State := { s with glt := { s.glt with arm := true } }
def gltStop (s : State) : State := { s with glt := { s.glt with stop := true } }
def gltForce (cyc : Nat) (s : State) : State :=
  gltTrigger { edges := [], samples := [], events := [], tick := false, cyc := cyc } true s

/-! ### Reading (R431) -/

/-- The bytes of a capture record. -/
def gltRecord (c : GltCapture) : List Byte :=
  le 2 c.num ++ le 1 (((List.range 8).find? (bitAt c.mask)).getD 0) ++ le 1 c.mask ++ le 1 c.flags ++ le 1 c.base ++ le 2 0
    ++ stampBytes c.stamp ++ le 8 c.tick ++ le 4 0 ++ (List.range 8).flatMap fun k => le 4 (mget 0xFFFFFFFF c.pos k)

/-- Row 1 of R431. -/
def gltBad (kind stream module flags start addr len rsv : Nat) : Bool :=
  rsv != 0 || decide (1 < module) || (kind != 3 && decide (7 < stream)) || (if kind = 1 then decide (1 < flags) else flags != 0)
    || (decide (2 ≤ kind) && decide (65535 < start)) || addr % 8 != 0 || len % (if kind = 3 then 64 else 4096) != 0
    || decide (16777216 < len)

/-- The data of a read, and its completion. -/
def gltGive (s : State) (h : Handle) (addr : Nat) (parts : List (List Byte)) : State :=
  let s := if parts = [] then s else s.hostData h addr parts.flatten
  complete s h stOk parts.length

/-- Blocks of stream k, with GLT_DATA_LOST for a corrupt one. -/
def gltGiveBlocks (s : State) (h : Handle) (addr k : Nat) (bs : List GltBlock) : State :=
  let s := if bs.any (·.bad) then raiseWatch s 499 else s
  gltGive s h addr (bs.map (gltBlockBytes k))

/-- GLT_READ of this module, rows 3 to 7. -/
def gltReadOwn (kind : Nat) (h : Handle) (k flags start addr len : Nat) (s : State) : State :=
  let v := gltStream s k
  let n := regionBlocks v
  let room := len / 4096
  if kind = 0 then
    let i := start / 4096
    if n ≤ i then complete s h stCapture 0
    else gltGiveBlocks s h addr k (blocksFrom v i (min room ((v.idx + n - i) % n)))
  else if kind = 1 then
    if s.rb Reg.GLT_STREAM.MARK_LOST k then complete s h stMarkLost
    else if !s.rb Reg.GLT_STREAM.MARK_VALID k then complete s h stCapture 4
    else
      let i := s.r Reg.GLT_STREAM.MARK_POS k / 4096
      let bs := blocksFrom v i (min room (gltSpan v i))
      let next := (i + bs.length) % max 1 n
      let s := if flags = 1 ∧ bs ≠ [] ∧ hostReach s = true ∧ bs.length * 4096 ≤ cutLen h (bs.length * 4096) then setMark s k next (v.cur.isNone && next == v.idx) else s
      gltGiveBlocks s h addr k bs
  else if kind = 2 then
    match s.glt.caps.find? (fun c => c.num == start) with
    | none => complete s h stCapture 1
    | some c =>
      if bitAt c.flags 3 || !bitAt c.flags 6 then complete s h stCapture 2
      else gltGiveBlocks s h addr k ((windowBlocks v c k).take room)
  else
    match s.glt.caps.dropWhile (fun c => c.num != start) with
    | [] => complete s h stCapture 1
    | cs => gltGive s h addr ((cs.take (len / 64)).map gltRecord)

/-- The buffer's bytes as n-byte parts. -/
def chunks (n : Nat) : Nat → List Byte → List (List Byte)
  | 0, _ => []
  | k + 1, bs => if bs.length < n ∨ n = 0 then [] else bs.take n :: chunks n k (bs.drop n)

/-- What the peer's Glint answers a GLT_READ: status, DETAIL, then the blocks or records. -/
def gltPeer (kind : Nat) (buf : BufIn) : Option (Nat × Nat × List (List Byte)) :=
  some (field buf.data 0 1, field buf.data 1 4, chunks (if kind = 3 then 64 else 4096) buf.data.length (buf.data.drop 5))

/-- GLT_READ: `peer` is what the peer's Glint answers for MODULE 1: status, DETAIL and the blocks or records. The shadow
does not carry it out. -/
def gltRead (kind : Nat) (h : Handle) (stream module flags start addr len rsv : Nat)
    (peer : BufIn) (s : State) : State :=
  if s.mode == .shadow then peerWait s h stReplay 0
  else if !inWindow s addr len then complete s h stBuffer
  else if gltBad kind stream module flags start addr len rsv then complete s h stCapture 0
  else if module = 1 then
    if s.inSync then
      match gltPeer kind peer with
      | some (st, d, parts) => if st = stOk then gltGive s h addr parts else complete s h st d
      | none => gltGive s h addr []
    else complete s h stCapture 3
  else gltReadOwn kind h stream flags start addr len s

/-- An uncorrectable word in a stream's region (R27). -/
def gltMemErr (s : State) (k i : Nat) : State :=
  let v := gltStream s k
  match mget none v.mem i with
  | some b => setGltStream s k { v with mem := mput none v.mem i (some { b with bad := true }) }
  | none => s

/-! ### The commands -/

def execGltReadBlocks (h : Handle) (stream module flags start bufAddr bufLen rsv : Nat)
    (peer : BufIn) (s : State) : Host.Outcome State Fault Refusal :=
  withOut s (ringOp anyRunMode h (descOf (.gltReadBlocks h stream module flags start bufAddr bufLen rsv peer))
    (gltRead 0 h stream module flags start bufAddr bufLen rsv peer))
def execGltReadMark (h : Handle) (stream module flags start bufAddr bufLen rsv : Nat)
    (peer : BufIn) (s : State) : Host.Outcome State Fault Refusal :=
  withOut s (ringOp anyRunMode h (descOf (.gltReadMark h stream module flags start bufAddr bufLen rsv peer))
    (gltRead 1 h stream module flags start bufAddr bufLen rsv peer))
def execGltReadWindow (h : Handle) (stream module flags start bufAddr bufLen rsv : Nat)
    (peer : BufIn) (s : State) : Host.Outcome State Fault Refusal :=
  withOut s (ringOp anyRunMode h (descOf (.gltReadWindow h stream module flags start bufAddr bufLen rsv peer))
    (gltRead 2 h stream module flags start bufAddr bufLen rsv peer))
def execGltReadRecords (h : Handle) (stream module flags start bufAddr bufLen rsv : Nat)
    (peer : BufIn) (s : State) : Host.Outcome State Fault Refusal :=
  withOut s (ringOp anyRunMode h (descOf (.gltReadRecords h stream module flags start bufAddr bufLen rsv peer))
    (gltRead 3 h stream module flags start bufAddr bufLen rsv peer))
def execGltArm (s : State) : Host.Outcome State Fault Refusal := withOut s fun s => alive s gltArm
def execGltStop (s : State) : Host.Outcome State Fault Refusal := withOut s fun s => alive s gltStop
def execGltForce (cyc : Nat) (s : State) : Host.Outcome State Fault Refusal := withOutAt s (some (cycU cyc)) fun s => alive s (gltForce cyc)
def execMarkHere (k : Fin 8) (s : State) : Host.Outcome State Fault Refusal := withOut s fun s => alive s (markHere k)
def execMarkClear (k : Fin 8) (s : State) : Host.Outcome State Fault Refusal := withOut s fun s => alive s (markClear k)
def execGltBacklogCheck (s : State) : Host.Outcome State Fault Refusal := withOut s fun s => alive s gltBacklog
def execGltTrigger (x : GltSample) (s : State) : Host.Outcome State Fault Refusal :=
  withOutAt s (some (cycU x.cyc)) fun s => alive s (gltTrigger x false)
def execGltFillDone (cyc : Nat) (s : State) : Host.Outcome State Fault Refusal := withOutAt s (some (cycU cyc)) fun s => alive s (gltFillDone cyc)
def execGltPostDone (cyc : Nat) (s : State) : Host.Outcome State Fault Refusal := withOutAt s (some (cycU cyc)) fun s => alive s (gltPostDone cyc)
def execGltHoldoffDone (cyc : Nat) (s : State) : Host.Outcome State Fault Refusal := withOutAt s (some (cycU cyc)) fun s => alive s (gltHoldDone cyc)

end Sys2Proof.Machine
end

