-- ==== Sys2Proof/Machine/Sec.lean ====
section
/-! DEFINITION. Sys2Proof/Machine/Sec.lean: Link Security: receive windows and reception, sequence numbers, timing, lost
rovers, and the change of key epoch (R296 to R315). -/

namespace Sys2Proof.Machine

open Sys2Proof

/-! ### Receive windows (R301) -/

def secWin (s : State) (old : Bool) (r : Nat) : SecWin := mget ({} : SecWin) (if old then s.sec.winOld else s.sec.win) r

/-- RX_H_LO and RX_VALID show the window of the epoch in force. -/
def setSecWin (s : State) (old : Bool) (r : Nat) (w : SecWin) : State :=
  if old then { s with sec := { s.sec with winOld := mput ({} : SecWin) s.sec.winOld r w } }
  else
    let s := { s with sec := { s.sec with win := mput ({} : SecWin) s.sec.win r w } }
    (s.w Reg.SEC_ROVER.RX_H_LO (w.h.getD 0) r).wb Reg.SEC_ROVER.RX_VALID w.h.isSome r

/-- A read of RX_H_LO latches RX_H_HI and both map words (R314). -/
def rxHRead (r : Nat) (s : State) : State :=
  let w := secWin s false r
  let s := s.w Reg.SEC_ROVER.RX_H_HI (w.h.getD 0 / 2 ^ 32) r
  let s := (s.w Reg.SEC_ROVER.RX_MAP_LO w.map r).w Reg.SEC_ROVER.RX_MAP_HI (w.map / 2 ^ 32) r
  s.emit (.readData (s.r Reg.SEC_ROVER.RX_H_LO r))

/-! ### TX_SEQ (R300) -/

def txSeq (s : State) (r : Nat) : Nat := mget 0 s.sec.tx r
def setTxSeq (s : State) (r v : Nat) : State :=
  { s with sec := { s.sec with tx := mput 0 s.sec.tx r v } }.w Reg.SEC_ROVER.TX_LO v r

/-- A read of TX_LO latches TX_HI (R314). -/
def txLoRead (r : Nat) (s : State) : State :=
  (s.w Reg.SEC_ROVER.TX_HI (txSeq s r / 2 ^ 32) r).emit (.readData (txSeq s r % 2 ^ 32))

/-! ### Timing (R305 to R307) -/

def homeOf (s : State) (r : Nat) : Option Nat := ((mget ({} : LuvRover) s.luv.rovers r).cfg).map (·.home)

/-- The arrival error of a frame that passed its tag check. -/
def secTiming (s : State) (hb r : Nat) (e : Int) : State :=
  let s := s.wi Reg.SEC_ROVER.TIMING_ERR_NS (max (-32768) (min 32767 e)) r
  let s := if (homeOf s r).getD hb = hb then
      { s with sec := { s.sec with errs := mput [] s.sec.errs r (mget [] s.sec.errs r ++ [e]) } }
    else s
  if clampN 1 144 (s.r Reg.SEC_CFG.TIMING_WARN) * 100 < e.natAbs then raiseWatch s 357 r else s

/-- The negated mean of the errors to the nearest ns, limited to 16 bits; 0 where none was measured or TIMING_EN is 0. -/
def timingMean (s : State) (es : List Int) : Int :=
  if es.isEmpty || !s.rb Reg.SEC_CFG.TIMING_EN then 0
  else
    let n : Int := es.length
    let sum := es.foldl (· + ·) 0
    max (-32768) (min 32767 ((n - 2 * sum) / (2 * n)))

/-- TIMING_ADJ a has been taken into a downlink frame: the errors start anew. -/
def adjSent (s : State) (r : Nat) (a : Int) : State :=
  { s with sec := { s.sec with errs := mput [] s.sec.errs r [] } }.wi Reg.SEC_ROVER.TIMING_ADJ_NS a r

/-- TIMING_ADJ of a downlink frame now assembled. The shadow's errors follow the lead's frames (R306, R310). -/
def secAdj (s : State) (r : Nat) : Int × State :=
  let a := timingMean s (mget [] s.sec.errs r)
  (a, if s.mode == .shadow then s else adjSent s r a)

/-- A downlink or bulk frame of the lead has taken its TX_SEQ, and its TIMING_ADJ where it is a downlink frame (R310). -/
def txAdopt (s : State) (r v : Nat) (adj : Option Int) : State :=
  let s := setTxSeq s r v
  match adj with
  | some a => adjSent s r a
  | none => s

/-! ### Reception (R303) -/

/-- Row 1 of R303 but for the slot: kind, reserved header fields, FRAG. -/
def headerOk (f : UplinkRx) : Bool :=
  f.kind == 0x11 && f.rsv == 0 && decide (f.rstat < 8) && decide (1 ≤ f.frag / 16) && decide (f.frag / 16 ≤ 5)
    && decide (f.frag % 16 < f.frag / 16) && decide (f.rover < 128)

/-- The epoch a KEY_ID names: in force, or the previous one while it is accepted (row 2). -/
def secEpoch (s : State) (keyId : Nat) : Option Bool :=
  if keyId = keyEpoch s % 256 then some false
  else if s.sec.left ≠ 0 ∧ s.sec.old.any (fun e => e % 256 == keyId) = true then some true
  else none

/-- The header of an uplink frame as it stood on the air (R281). -/
def uplinkHeader (f : UplinkRx) : List Byte :=
  le 1 f.kind ++ le 1 f.rover ++ le 1 f.frag ++ le 1 f.keyId ++ le 6 f.seq ++ le 2 f.payload.length ++ le 1 f.rstat ++ le 3 f.rsv

/-- The key and the nonce of an uplink frame under the epoch in force or the previous one (R296, R298). -/
def uplinkKey (s : State) (f : UplinkRx) (old : Bool) : List Byte :=
  let e := if old then s.sec.old.getD 0 else keyEpoch s
  keySession (fleetKey s e) f.rover e
def uplinkNonce (f : UplinkRx) : Nat := nonceOf (le 1 1 ++ le 1 f.rover ++ le 4 0 ++ le 6 f.seq)

/-- The clear payload, and the tag it verifies with. -/
def uplinkPlain (s : State) (f : UplinkRx) (old : Bool) : List Byte :=
  gcmCipher (uplinkKey s f old) (uplinkNonce f) f.payload
def uplinkTag (s : State) (f : UplinkRx) (old : Bool) : Nat :=
  gcmTagOf (uplinkKey s f old) (uplinkNonce f) (uplinkHeader f) f.payload

/-- The tag of a frame verifies; with the volatile keys zeroised none does (row 3 of R303). -/
def uplinkOk (s : State) (f : UplinkRx) (old : Bool) : Bool := linkKeys s f.rover && f.tag == uplinkTag s f old

def heard (s : State) (r : Nat) : State :=
  if r ∈ s.sec.heard then s else { s with sec := { s.sec with heard := s.sec.heard ++ [r] } }

/-- An accepted frame of a LOST rover clears LOST at the next tick boundary (R309). -/
def secBack (s : State) (r : Nat) : State :=
  if s.rbit Reg.SEC_LOST.LOST r && !(s.sec.back.contains r) then { s with sec := { s.sec with back := s.sec.back ++ [r] } }
  else s

/-- Rows 4 to 7 of R303, a frame whose tag verifies: 1 accepted, 2 duplicate, 0 dropped. -/
def secSequence (s : State) (old : Bool) (r seq : Nat) : Nat × State :=
  let w := secWin s old r
  match w.h with
  | none => (1, secBack (heard (setSecWin s old r { h := some seq, map := 1 }) r) r)
  | some h =>
    if h < seq then
      (1, secBack (heard (setSecWin s old r { h := some seq, map := (w.map * 2 ^ min 64 (seq - h) + 1) % 2 ^ 64 }) r) r)
    else if h ≤ seq + 63 then
      if bitAt w.map (h - seq) then (2, heard ((s.inc Reg.SEC_COUNTS.DUP_COUNT).inc Reg.SEC_ROVER.DUP_R r) r)
      else (1, secBack (heard (setSecWin s old r { w with map := setBit w.map (h - seq) }) r) r)
    else (0, raiseWatch ((s.inc Reg.SEC_COUNTS.REPLAY_COUNT).inc Reg.SEC_ROVER.REPLAY_R r) 353 r)

/-- Rows 4 to 7 of R303: header, key epoch and tag of a frame hold. -/
def uplinkVerified (s : State) (f : UplinkRx) (slotOk : Bool) : Bool :=
  headerOk f && slotOk && (secEpoch s f.keyId).any (uplinkOk s f)

/-- SEC handles a received uplink frame (R303). -/
def secReceive (s : State) (f : UplinkRx) (slotOk : Bool) : Nat × State :=
  if !headerOk f || !slotOk then (0, s.inc Reg.SEC_COUNTS.HEADER_DROP)
  else
    match secEpoch s f.keyId with
    | none =>
      let expired := s.sec.expired.any (fun e => e % 256 == f.keyId)
        || (s.sec.left == 0 && s.sec.old.any (fun e => e % 256 == f.keyId))
      let s := s.inc (if expired then Reg.SEC_COUNTS.KEY_EXPIRED else Reg.SEC_COUNTS.KEY_UNKNOWN)
      (0, raiseWatch s 354 f.rover)
    | some old =>
      if !uplinkOk s f old then (0, raiseWatch (s.inc Reg.SEC_COUNTS.AUTH_FAIL) 352 f.rover)
      else secSequence (secTiming s f.hb f.rover f.err) old f.rover f.seq

/-! ### Lost rovers (R308, R309) -/

/-- LOST of a rover, in every register that shows it. -/
def setLost (s : State) (r : Nat) (on : Bool) : State :=
  let s := (s.wbit Reg.SEC_LOST.LOST r on).wb Reg.SEC_ROVER.LOST on r
  s.w Reg.SEC_STATUS.N_LOST ((List.range 128).filter (fun k => s.rbit Reg.SEC_LOST.LOST k)).length

/-- The watch boundary: MISS_WATCHES of every rover. -/
def secWatch (s : State) : State :=
  if !s.running then { s with sec := { s.sec with heard := [] } }
  else
    let got := s.sec.heard
    iter (fun r s =>
      let v := if !s.rb Reg.FIX_ROVER.ENABLED r || (homeOf s r).isNone || got.contains r then 0
        else min 3 (s.r Reg.SEC_ROVER.MISS_WATCHES r + 1)
      s.w Reg.SEC_ROVER.MISS_WATCHES v r) 128 { s with sec := { s.sec with heard := [] } }

/-- A rover unheard for 3 watches is declared LOST at the watch boundary. -/
def roverLost (r : Nat) (s : State) : State :=
  if s.running && s.ttu.pos == 0 && s.r Reg.SEC_ROVER.MISS_WATCHES r == 3 && !s.rbit Reg.SEC_LOST.LOST r then
    let s := raise (setLost s r true) 355 r
    requestStopAt (chtFreeze (fixLost s r) r) 7 (some r) 0
  else s

/-! ### Key epochs (R299, R311, R313) -/

/-- The previous epoch is discarded: its windows and keys are gone. -/
def oldKeyDrop (s : State) : State :=
  match s.sec.old with
  | none => s
  | some e =>
    let s := { s with sec := { s.sec with old := none, left := 0, expired := some e, winOld := [] }, kvt := { s.kvt with fkOld := [] } }
    raise ((s.wb Reg.SEC_STATUS.OLD_VALID false).w Reg.SEC_STATUS.OLD_LEFT 0) 359

/-- The end of the two watches of R311. -/
def oldKeyEnd (s : State) : State := if s.sec.left = 0 then oldKeyDrop s else s

/-- The key epoch in force, in KVT and SEC registers. -/
def showEpoch (s : State) (e : Nat) : State := (s.w Reg.KVT_KEYS.KEY_EPOCH e).w Reg.SEC_STATUS.KEY_ID e

/-- Windows, TX_SEQ and group SEQs start anew. -/
def secClear (s : State) : State :=
  let s := { s with sec := { s.sec with win := [], tx := [] } }
  let s := iter (fun r s => ((s.w Reg.SEC_ROVER.RX_H_LO 0 r).wb Reg.SEC_ROVER.RX_VALID false r).w Reg.SEC_ROVER.TX_LO 0 r) 128 s
  setGroupSeq (setGroupSeq s 0 0) 1 0

/-- Epoch e comes in force at a commit; the one before is accepted for 200 ticks more. -/
def secNewEpoch (s : State) (e : Nat) : State :=
  let s := oldKeyDrop s
  let s := { s with sec := { s.sec with old := some (keyEpoch s), left := 200, winOld := s.sec.win, switch := true },
                     kvt := { s.kvt with fkOld := s.kvt.fk } }
  let s := (s.wb Reg.SEC_STATUS.OLD_VALID true).w Reg.SEC_STATUS.OLD_LEFT 200
  secClear (showEpoch s e)

/-- Epoch e is used or adopted: the commit records hold the greater of it and the stored epoch (R299, R456). -/
def kvtStore (s : State) (e : Nat) : State :=
  let m := max s.kvt.stored e
  let rec_ : KvtRec := { epoch := m, fk := s.kvt.active }
  { s with kvt := { s.kvt with stored := m, copy0 := some rec_, copy1 := some rec_ } }

/-- A commit of epoch e takes effect (R455). -/
def kvtCommitted (s : State) (e : Nat) : State :=
  let s := kvtStore s e
  raise (secNewEpoch (s.inc Reg.KVT_COUNTS.COMMITS) e) 486 e

/-- A fresh start (R299, R452): epoch S + 1 is committed before the first frame; a module that cannot commit dies. -/
def secFreshStart (s : State) : State :=
  if 0xFFFFFFFF ≤ s.kvt.stored then enterDead s 0x06 486
  else
    let e := s.kvt.stored + 1
    let s := kvtCommitted s e
    let s := { s with luv := { s.luv with pre := s.luv.pre.map fun p => { p with key := e } } }
    raise s 360

/-- A failover: 1,024 is added to every TX_SEQ and both group SEQs (R299); the stream carries the new values (R310). -/
def secAdvance (s : State) : State :=
  let s := iter (fun r s => reflect (setTxSeq s r (txSeq s r + 1024)) (.txSeq r (txSeq s r + 1024) none)) 128 s
  iter (fun hb s => reflect (setGroupSeq s hb (groupSeq s hb + 1024)) (.groupSeq hb (groupSeq s hb + 1024))) 2 s

/-- The lead's key epoch and SEC state are adopted by a joining shadow (R459). -/
def secAdopt (s : State) (e : Nat) : State :=
  let s := kvtStore s e
  if keyEpoch s = e then s else showEpoch s e

/-! ### The tick boundary -/

/-- LOST clears for the rovers heard again; the previous epoch counts down; without the fleet state, nothing is LOST. -/
def secTick (s : State) : State :=
  let s := if s.running then s.sec.back.foldl (fun s r => raise (setLost s r false) 356 r) s
    else
      let s := iter (fun r s => (if s.rbit Reg.SEC_LOST.LOST r then setLost s r false else s).w Reg.SEC_ROVER.MISS_WATCHES 0 r) 128 s
      { s with sec := { s.sec with heard := [] } }
  let left := s.sec.left - 1
  let s := { s with sec := { s.sec with back := [], left := left } }
  s.w Reg.SEC_STATUS.OLD_LEFT left

/-! ### The commands -/

def execRoverLost (r : Fin 128) (s : State) : Host.Outcome State Fault Refusal := withBoundary s (roverLost r)
def execOldKeyEnd (s : State) : Host.Outcome State Fault Refusal := withBoundary s fun s => notDead s oldKeyEnd
def execRxHLoRead (r : Fin 128) (s : State) : Host.Outcome State Fault Refusal := withOut s (latchRead (rxHRead r))
def execTxLoRead (r : Fin 128) (s : State) : Host.Outcome State Fault Refusal := withOut s (latchRead (txLoRead r))

end Sys2Proof.Machine
end

