-- ==== Sys2Proof/Machine/Kvt.lean ====
section
/-! DEFINITION. Sys2Proof/Machine/Kvt.lean: the Key Vault: installing a fleet key, commits, the records at BOOT,
re-masking, tamper and the host window map (R448 to R467). -/

namespace Sys2Proof.Machine

open Sys2Proof

/-! ### What the registers show -/

/-- FLEET_PRESENT, FLEET_GEN and ACTIVE_KCV of the active key; PENDING, PENDING_GEN and PENDING_KCV of the pending one. -/
def kvtShow (s : State) : State :=
  let a := s.kvt.active.getD (0, 0)
  let p := s.kvt.next.getD (0, 0)
  let s := ((s.wb Reg.KVT_STATUS.FLEET_PRESENT s.kvt.active.isSome).w Reg.KVT_KEYS.FLEET_GEN a.1).w Reg.KVT_KEYS.ACTIVE_KCV a.2
  ((s.wb Reg.KVT_STATUS.PENDING s.kvt.next.isSome).w Reg.KVT_KEYS.PENDING_GEN p.1).w Reg.KVT_KEYS.PENDING_KCV p.2

/-- The pending slot becomes k: generation and KCV, and the key. -/
def kvtPend (s : State) (k : Option (Nat × Nat × List Byte)) : State :=
  kvtShow { s with kvt := { s.kvt with next := k.map fun x => (x.1, x.2.1), fkNext := (k.map fun x => x.2.2).getD [] } }

/-! ### Installing a fleet key (R454) -/

/-- A load is refused: LOAD_REFUSED, and its status. -/
def kvtRefuse (s : State) (h : Handle) (status detail : Nat) : State :=
  complete (s.inc Reg.KVT_COUNTS.LOAD_REFUSED) h status detail

/-- Row 1 of R454: VERSION, WRAP and the reserved fields of the key record; HOST_PUB is 0 under WRAP 1. -/
def keyRecordBad (b : List Byte) : Bool :=
  field b 0 1 != 1 || decide (1 < field b 1 1) || field b 2 2 != 0 || field b 12 4 != 0 || field b 152 8 != 0
    || (field b 1 1 == 1 && field b 16 96 != 0)

/-- The fleet key a key record brings: unwrapped under IW, or under RWK of the active key (R449, R454). -/
def keyUnwrap (s : State) (b : List Byte) : Option (List Byte) :=
  let kek := if field b 1 1 = 0 then keyInstall ((b.drop 16).take 96) else keyRenewal s.kvt.fk
  aesUnwrap kek ((b.drop 112).take 40)

/-- KVT_KEY_LOAD: row 5 of R465, then the rows of R454. -/
def kvtKeyLoad (h : Handle) (bufAddr rsv : Nat) (buf : BufIn) (s : State) : State :=
  let b := buf.data
  let wrap := field b 1 1
  let gen := field b 8 4
  if !bufOk s bufAddr 160 buf then complete s h stBuffer
  else if s.kvt.commit.isSome then kvtRefuse s h stKey 7
  else if rsv != 0 || bufAddr % 8 != 0 || keyRecordBad b then kvtRefuse s h stKey 0
  else if (wrap == 0 && s.mode != .maintenance) || (wrap == 1 && s.kvt.active.isNone) then kvtRefuse s h stKey 1
  else if wrap == 0 && !keyPubOk ((b.drop 16).take 96) then kvtRefuse s h stKey 2
  else
    match keyUnwrap s b with
    | none => kvtRefuse s h stKey 3
    | some key =>
      if kcvOf key != field b 4 4 then kvtRefuse s h stKcv 0
      else if gen == 0 || s.kvt.active.any (fun a => decide (gen ≤ a.1)) then kvtRefuse s h stKey 4
      else
        let s := kvtPend s none
        accept { s with kvt := { s.kvt with loads := s.kvt.loads ++ [{ h := h, gen := gen, kcv := field b 4 4, key := key }] } } h

/-- The pending slot has been written and read back, and in a pair the peer has reported (rows 7 to 9 of R454). Without a
spare flash block the write fails (R474). -/
def kvtLoadDone (readBack : Bool) (peer : Option (Nat × Nat)) (s : State) : State :=
  match s.kvt.loads with
  | [] => s
  | x :: rest =>
    let s := { s with kvt := { s.kvt with loads := rest } }
    if !readBack || !flashSpare s then kvtRefuse (raise (kvtPend s none) 489) x.h stKey 6
    else
      match peer with
      | some (st, d) =>
        if st = stOk then complete (kvtPend s (some (x.gen, x.kcv, x.key))) x.h stOk
        else kvtRefuse (kvtPend s none) x.h st (if st = stKey then 5 else d)
      | none => complete (kvtPend s (some (x.gen, x.kcv, x.key))) x.h stOk

/-! ### Commits (R455) -/

/-- KVT_COMMIT: row 4 of R465; an epoch that cannot advance (R452) and reserved bits refuse it as well. -/
def kvtCommit (h : Handle) (rsv : Nat) (s : State) : State :=
  if s.kvt.commit.isSome then complete s h stKey 7
  else if rsv != 0 || decide (0xFFFFFFFF ≤ keyEpoch s) then complete s h stKey 0
  else
    let c : KvtCommit := { h := h, tick := s.tick, lead := s.mode != .shadow }
    accept ({ s with kvt := { s.kvt with commit := some c } }.wb Reg.KVT_STATUS.COMMIT_BUSY true) h

/-- KVT_COMMIT with DISCARD erases the pending key (rows 4 and 6 of R465). -/
def kvtDiscard (h : Handle) (rsv : Nat) (s : State) : State :=
  if s.kvt.commit.isSome then complete s h stKey 7
  else if rsv != 0 then complete s h stKey 0
  else complete (kvtPend s none) h stOk

/-- Both copies of the commit record are written and read back: on this module, or, as it reports, on the peer. -/
def kvtRecordsDone (peer : Bool) (s : State) : State :=
  match s.kvt.commit with
  | none => s
  | some c =>
    if peer then { s with kvt := { s.kvt with commit := some { c with peer := c.peer.or (some s.tick) } } }
    else if s.kvt.loads ≠ [] ∨ c.written.isSome = true ∨ flashSpare s = false then s
    else
      let r : KvtRec := { epoch := keyEpoch s + 1, fk := s.kvt.next.or s.kvt.active }
      { s with kvt := { s.kvt with copy0 := some r, copy1 := some r, commit := some { c with written := some s.tick } } }

/-- The present boundary is that of the commit: the first one after the records in MAINTENANCE and solo operation; in a
pair, or under a new lead (row 2 of R465), a watch boundary at least 2 ticks after the records. -/
def kvtDue (s : State) (c : KvtCommit) : Bool :=
  match c.written with
  | none => false
  | some w =>
    if s.mode == .maintenance || (s.leading && s.solo && c.lead) then decide (w < s.tick)
    else if s.leading && s.solo then s.ttu.pos == 0 && decide (w + 2 ≤ s.tick)
    else
      match c.peer with
      | none => false
      | some p => s.ttu.pos == 0 && decide (max w p + 2 ≤ s.tick)

/-- The commit takes effect at its boundary: a pending key becomes the active one, and the epoch advances (R455). -/
def kvtCommitEffect (s : State) : State :=
  match s.kvt.commit with
  | none => s
  | some c =>
    if kvtDue s c then
      let a := s.kvt.next.or s.kvt.active
      let old := s.kvt.fk
      let s := { s with kvt := { s.kvt with
        fk := if s.kvt.next.isSome then s.kvt.fkNext else old, fkNext := []
        commit := none, active := a, next := none, volatile := a.isSome, gs := a.isSome } }
      let s := kvtCommitted (kvtShow (s.wb Reg.KVT_STATUS.COMMIT_BUSY false)) (keyEpoch s + 1)
      complete { s with kvt := { s.kvt with fkOld := old } } c.h stOk
    else s

/-! ### Re-masking (R460) -/

/-- Sixty seconds since the last re-masking began: a new one begins; REMASK_LATE counts one that had not finished. -/
def kvtRemask (finished : Bool) (s : State) : State :=
  if s.kvt.mask < 60000 then s
  else
    let s := { s with kvt := { s.kvt with mask := 0 } }
    if finished then s else s.inc Reg.KVT_COUNTS.REMASK_LATE

/-! ### Tamper (R462) -/

/-- TAMPER_N low for 100 ns. -/
def kvtTamper (cyc : Nat) (s : State) : State :=
  let s := s.wb Reg.KVT_TAMPER.TAMPER_IN false
  let s := requestStopAt { s with kvt := { s.kvt with volatile := false, gs := false } } 9 none cyc
  let s := { s with kvt := { s.kvt with
    copy0 := none, copy1 := none, active := none, next := none, fk := [], fkNext := [], fkOld := []
    loads := [], commit := none, dying := true } }
  let s := kvtShow (s.wb Reg.KVT_STATUS.COMMIT_BUSY false)
  raise s 488

/-! ### The host window map (R464) -/

/-- Fields of window n, of the staged map or of the one in force. -/
def hwinStage (s : State) (n : Nat) : Nat × Nat × Nat × Nat :=
  (s.r Reg.KVT_HWIN_STAGE.BASE_LO n, s.r Reg.KVT_HWIN_STAGE.BASE_HI n, s.r Reg.KVT_HWIN_STAGE.LIMIT_LO n,
    s.r Reg.KVT_HWIN_STAGE.LIMIT_HI n)

/-- SAVE stores the staged map at the next tick boundary. -/
def kvtStoreMap (s : State) : State :=
  if s.rb Reg.KVT_HWIN_SAVE.SAVE && flashSpare s then
    { s with kvt := { s.kvt with hwin := some ((List.range 8).map (hwinStage s)) } }.wb Reg.KVT_HWIN_SAVE.SAVE false
  else s

/-- A window whose limit lies below its base is empty. -/
def hwinEmpty (w : Nat × Nat × Nat × Nat) : Bool := decide (w.2.2.2 * 2 ^ 20 + w.2.2.1 < w.2.1 * 2 ^ 20 + w.1)

/-- The map is sealed at BOOT: the stored one, or window 0 over the whole space with the other windows empty (R464). -/
def kvtSealMap (s : State) : State :=
  let dflt := (0, 0, 0xFFFFF, 0xFFFFFFFF) :: List.replicate 7 (1, 0, 0, 0)
  let m := s.kvt.hwin.getD dflt
  let s := iter (fun n s =>
    let w := m.getD n (1, 0, 0, 0)
    (((s.w Reg.KVT_HWIN.BASE_LO w.1 n).w Reg.KVT_HWIN.BASE_HI w.2.1 n).w Reg.KVT_HWIN.LIMIT_LO w.2.2.1 n).w
      Reg.KVT_HWIN.LIMIT_HI w.2.2.2 n) 8 s
  (s.wb Reg.KVT_STATUS.MAP_DEFAULT s.kvt.hwin.isNone).w Reg.KVT_SEAL.HWIN_COUNT (m.filter (fun w => !hwinEmpty w)).length

/-! ### The records at BOOT (R457) -/

/-- A copy with the outcome of its check: 0 as written, 1 the fleet slot it names does not match, 2 its CHECK is wrong. -/
def kvtValid (c : Option KvtRec) (chk : Nat) : Option KvtRec :=
  if chk = 0 then c.filter (fun r => r.fk.isSome) else none

/-- The epoch of a copy whose CHECK is right. -/
def kvtCheckEpoch (c : Option KvtRec) (chk : Nat) : Nat := if chk < 2 then (c.map (·.epoch)).getD 0 else 0

/-- The winning copy by the rows of R457. -/
def kvtWinner (a b : Option KvtRec) : Option KvtRec :=
  match a, b with
  | some x, some y => some (if x.epoch < y.epoch then y else x)
  | some x, none => some x
  | none, b => b

/-- The commit records are resolved; any key in the slot the winner does not name is erased (R457). -/
def kvtResolve (c0 c1 : Nat) (s : State) : State :=
  let k := s.kvt
  match kvtWinner (kvtValid k.copy0 c0) (kvtValid k.copy1 c1) with
  | some r =>
    let other := if r.fk == k.active then k.next else k.active
    let s := { s with kvt := { k with
      copy0 := some r, copy1 := some r, stored := r.epoch, active := r.fk, next := none
      fk := if r.fk == k.active then k.fk else if r.fk == k.next then k.fkNext else [], fkNext := [], fkOld := [] } }
    let s := kvtShow (showEpoch s r.epoch)
    if other.isSome then
      logNow (raise (s.inc Reg.KVT_COUNTS.ROLLBACKS) 487) .note 486 []
    else s
  | none =>
    let e := max (kvtCheckEpoch k.copy0 c0) (kvtCheckEpoch k.copy1 c1)
    let had := k.next.isSome || k.active.isSome
    let s := { s with kvt := { k with stored := e, active := none, next := none, fk := [], fkNext := [] } }
    let s := raise (kvtShow (showEpoch s e)) 489
    if had then logNow (raise (s.inc Reg.KVT_COUNTS.ROLLBACKS) 487) .note 486 [] else s

/-- The keys are derived when the boot code has set SEAL (R449, R463). -/
def kvtDerive (s : State) : State :=
  { s with kvt := { s.kvt with volatile := s.kvt.active.isSome, gs := s.kvt.active.isSome } }

/-- A share of a key is uncorrectable: the key is derived again from its parent within the tick, and cannot be used until
then (R461). -/
def keyLost (k : KeyUse) (s : State) : State :=
  let s := raise s 489
  if s.kvt.volatile then
    { s with kvt := { s.kvt with redo := s.kvt.redo ++ [k], gs := s.kvt.gs && k != .group } }
  else s

/-- The keys derived again can be used. -/
def keysBack (s : State) : State :=
  if s.kvt.redo = [] then s
  else { s with kvt := { s.kvt with redo := [], gs := s.kvt.gs || (s.kvt.volatile && s.kvt.redo.contains .group) } }

/-! ### The tick boundary -/

/-- Tamper leads to DEAD (R462); a shadow whose records are not written in time dies (row 3 of R465); the staged map is
stored; the re-masking interval runs. -/
def kvtTick (s : State) : State :=
  if s.kvt.dying then
    enterDead { s with kvt := { s.kvt with dying := false } } 0x07 486
  else if s.mode == .shadow && s.kvt.commit.any (fun c => c.written.isNone && decide (c.tick + 10 < s.tick)) then
    enterDead s 0x08 486
  else
    let s := keysBack (kvtStoreMap s)
    if s.rb Reg.KVT_STATUS.SEALED && s.mode != .dead then { s with kvt := { s.kvt with mask := s.kvt.mask + 1 } } else s

/-! ### The commands -/

def execKvtKeyLoad (h : Handle) (bufAddr rsv : Nat) (buf : BufIn) (s : State) : Host.Outcome State Fault Refusal :=
  withOut s (ringOp anyRunMode h (descOf (.kvtKeyLoad h bufAddr rsv buf)) (kvtKeyLoad h bufAddr rsv buf))
def execKvtCommit (h : Handle) (rsv : Nat) (s : State) : Host.Outcome State Fault Refusal :=
  withOut s (ringOp anyRunMode h (descOf (.kvtCommit h rsv)) (kvtCommit h rsv))
def execKvtCommitDiscard (h : Handle) (rsv : Nat) (s : State) : Host.Outcome State Fault Refusal :=
  withOut s (ringOp anyRunMode h (descOf (.kvtCommitDiscard h rsv)) (kvtDiscard h rsv))
def execKvtLoadDone (readBack : Bool) (peer : Option (Nat × Nat)) (s : State) : Host.Outcome State Fault Refusal :=
  withOut s fun s => alive s (kvtLoadDone readBack peer)
def execKvtRecordsDone (peer : Bool) (s : State) : Host.Outcome State Fault Refusal :=
  withOut s fun s => alive s (kvtRecordsDone peer)
def execKvtCommitEffect (s : State) : Host.Outcome State Fault Refusal := withBoundary s fun s => alive s kvtCommitEffect
def execKvtRemask (finished : Bool) (s : State) : Host.Outcome State Fault Refusal :=
  withOut s fun s => alive s (kvtRemask finished)
def execTamper (cyc : Nat) (s : State) : Host.Outcome State Fault Refusal := withOutAt s (some (cycU cyc)) (kvtTamper cyc)

end Sys2Proof.Machine
end

