-- ==== Sys2Proof/Machine/Luv.lean ====
section
/-! DEFINITION. Sys2Proof/Machine/Luv.lean: the Luvon air interface: transceivers, the slot plan, slot assignment, beacon,
uplink reassembly, downlink and bulk frames, the lantern link (R268 to R295). -/

namespace Sys2Proof.Machine

open Sys2Proof

def luvRover (s : State) (r : Nat) : LuvRover := mget ({} : LuvRover) s.luv.rovers r
def luvHb (s : State) (hb : Nat) : LuvHb := mget ({} : LuvHb) s.luv.hbs hb
def setLuvHb (s : State) (hb : Nat) (v : LuvHb) : State :=
  { s with luv := { s.luv with hbs := mput ({} : LuvHb) s.luv.hbs hb v } }

/-! ### Slot assignment (R278 to R280) -/

def cfgBytes (c : SlotCfg) : List Byte :=
  le 1 c.home ++ le 1 c.ulMcs ++ le 1 c.dlMcs ++ le 1 c.ulN ++ le 1 c.ulStart ++ le 1 c.retry ++ le 1 c.dlSlot ++ le 1 0

def cfgOf (b : List Byte) : SlotCfg :=
  { home := field b 0 1, ulMcs := field b 1 1, dlMcs := field b 2 1, ulN := field b 3 1, ulStart := field b 4 1
    retry := field b 5 1, dlSlot := field b 6 1 }

/-- Replace what LUV holds of a rover, and show it. -/
def setLuvRover (s : State) (r : Nat) (v : LuvRover) : State :=
  let s := { s with luv := { s.luv with rovers := mput ({} : LuvRover) s.luv.rovers r v } }
  let b := match v.cfg with
    | some c => leNat (cfgBytes c)
    | none => 0x00FFFFFFFFFF0000
  let s := (s.w Reg.LUV_ROVER.CFG_LO b r).w Reg.LUV_ROVER.CFG_HI (b / 2 ^ 32) r
  s.wb Reg.LUV_ROVER.CHANGE_PENDING (v.pend != []) r

/-- The uplink slots of an assignment, its retry slot included. -/
def ulSlots (c : SlotCfg) : List Nat :=
  (List.range c.ulN).map (c.ulStart + ·) ++ (if c.retry = 255 then [] else [c.retry])

/-- The assignments another rover's must not meet: in force, awaiting effect, kept. -/
def heldCfgs (v : LuvRover) : List SlotCfg :=
  v.cfg.toList ++ v.pend.filterMap (·.1) ++ v.kept.map (·.1)

/-- Two assignments share a slot on one channel. -/
def cfgMeet (c d : SlotCfg) : Bool :=
  c.home == d.home && ((ulSlots c).any (fun k => (ulSlots d).contains k) || c.dlSlot == d.dlSlot)

/-- What R279 asks of an assignment of rover r. -/
def cfgOk (s : State) (r : Nat) (b : List Byte) : Bool :=
  let c := cfgOf b
  decide (c.home ≤ 1) && decide (4 ≤ c.ulMcs) && decide (c.ulMcs ≤ 8) && decide (4 ≤ c.dlMcs) && decide (c.dlMcs ≤ 8)
    && decide (1 ≤ c.ulN) && decide (c.ulN ≤ 5) && field b 7 1 == 0 && decide (c.ulStart + c.ulN - 1 ≤ 139)
    && decide (c.dlSlot ≤ 76)
    && (c.retry == 255 || (decide (c.retry ≤ 139) && decide ((c.ulStart + c.ulN - 1) / 7 < c.retry / 7)))
    && decide (1568 ≤ c.ulN * slotCap c.ulMcs)
    && s.luv.rovers.all fun p => p.1 == r || (heldCfgs p.2).all fun d => !cfgMeet c d

/-- LUV_SLOT_SET; UL_START 0xFF removes the assignment (R280). One accepted before and still awaiting effect takes effect at
its own boundary. -/
def luvSlotSet (h : Handle) (r : Nat) (b : List Byte) (rsv : Nat) (s : State) : State :=
  let remove := field b 4 1 == 255
  if rsv != 0 || decide (127 < r) || (!remove && !cfgOk s r b) then complete s h stSlot
  else
    let v := luvRover s r
    complete (setLuvRover s r { v with pend := v.pend ++ [(if remove then none else some (cfgOf b), b, 2)] }) h stOk

/-- The tick number of the next watch boundary. -/
def nextWatch (s : State) : Nat :=
  s.tick + (match s.ttu.closing with
    | some c => c.n
    | none => 100) - s.ttu.pos

/-- A change takes effect: without an assignment no frame of the rover counts as missed (R308). -/
def slotEffect (s : State) (r : Nat) (c : Option SlotCfg) : State :=
  let v := luvRover s r
  let kept := match v.cfg with
    | some old => v.kept ++ [(old, s.tick + 1000)]
    | none => v.kept
  let s := setLuvRover s r { v with cfg := c, kept := kept }
  let s := if c.isNone then s.w Reg.SEC_ROVER.MISS_WATCHES 0 r else s
  raise { s with luv := { s.luv with dirty := true } } 329 r

/-- A watch boundary for one rover: a change takes effect at the second one after its acceptance, and the old slots stay
kept for 1,000 ticks. -/
def slotBoundary (s : State) (r : Nat) : State :=
  let v := luvRover s r
  let due := v.pend.filter fun p => decide (p.2.2 ≤ 1)
  let rest := (v.pend.filter fun p => decide (1 < p.2.2)).map fun p => (p.1, p.2.1, p.2.2 - 1)
  let v := { v with pend := rest, kept := v.kept.filter fun k => decide (s.tick < k.2) }
  let s := if v = luvRover s r then s else setLuvRover s r v
  due.foldl (fun s p => slotEffect s r p.1) s

/-- The watch boundary for LUV. -/
def luvWatch (s : State) : State :=
  if s.mode == .boot || s.mode == .dead then s else s.luv.rovers.foldl (fun s p => slotBoundary s p.1) s

/-- The table in force goes to flash, in two copies, areas 6 and 7 (log entry 71), within a watch (R280). -/
def luvStore (s : State) : State :=
  if s.luv.dirty && flashSpare s then
    let t := s.luv.rovers.filterMap fun p => p.2.cfg.map fun c => (p.1, c)
    let f := s.svc.flash
    { s with
      luv := { s.luv with flash := t, dirty := false }
      svc := { s.svc with flash := { f with lost := f.lost.filter fun a => a != 6 && a != 7 } } }
  else s

/-- At BOOT the newest valid copy is loaded. -/
def luvLoad (s : State) : State :=
  s.luv.flash.foldl (fun s p => setLuvRover s p.1 { cfg := some p.2 }) s

/-! ### Transceivers (R272, R273, R291) -/

def euCentre (mhz : Nat) : Bool := decide (5500 ≤ mhz) && decide (mhz ≤ 5700) && (mhz - 5500) % 20 == 0
def naCentre (mhz : Nat) : Bool := [5745, 5765, 5785, 5805, 5825].contains mhz

/-- Ticks of the channel availability check. -/
def checkTicks (mhz : Nat) : Nat := if [5600, 5620, 5640].contains mhz then 600000 else 60000

def barredNow (s : State) (mhz : Nat) : Bool := decide (s.tick < mget 0 s.luv.barred mhz)

/-- A centre at least 40 MHz from the other transceiver's (R268). -/
def farEnough (s : State) (hb mhz : Nat) : Bool :=
  let o := s.r Reg.LUV_HB_STATUS.CUR_MHZ (1 - hb)
  decide (mhz + 40 ≤ o) || decide (o + 40 ≤ mhz)

/-- The next channel of CHAN_LIST, in ascending frequency, skipping barred channels and those too near the other
transceiver's. -/
def nextChannel (s : State) (hb cur : Nat) : Option Nat :=
  let ok := ((List.range 11).map fun i => 5500 + 20 * i).filter fun m =>
    bitAt (s.r Reg.LUV_HB.CHAN_LIST hb) ((m - 5500) / 20) && !barredNow s m && farEnough s hb m
  match ok.find? (fun m => decide (cur < m)) with
  | some m => some m
  | none => ok.head?

def setRole (s : State) (hb role cur : Nat) : State := (s.w Reg.LUV_HB_STATUS.ROLE role hb).w Reg.LUV_HB_STATUS.CUR_MHZ cur hb

/-- The role of a transceiver whose channel may be used: standby while it runs its stable period. -/
def hbRole (s : State) (hb : Nat) : Nat := if (unit s 2 hb).standby then 3 else 1

/-- A channel availability check begins, on a channel if there is one. -/
def checkStart (s : State) (hb : Nat) (mhz : Option Nat) : State :=
  match mhz with
  | none => setRole (setLuvHb s hb { luvHb s hb with passed := false }) hb 0 0
  | some m => setRole (setLuvHb s hb { luvHb s hb with passed := false, done := s.tick + checkTicks m }) hb 2 m

/-- A transceiver is started on its channel; a centre outside the profile disables it. Nearer than 40 MHz to the other's it is
not used: in profile EU the next channel is, in NA the transceiver stays disabled meanwhile (DESIGN CHOICE, log entry 84). -/
def hbStart (s : State) (hb : Nat) : State :=
  let m := s.r Reg.LUV_HB.CHAN_MHZ hb
  let s := setLuvHb s hb { luvHb s hb with seen := some (s.r Reg.LUV_CFG.PROFILE, m) }
  if profileEu s then
    if euCentre m then checkStart s hb (if barredNow s m || !farEnough s hb m then nextChannel s hb m else some m)
    else setRole s hb 0 0
  else if naCentre m && farEnough s hb m then setRole s hb (hbRole s hb) m else setRole s hb 0 0

/-- A transceiver goes out of service at a tick boundary (row 2 of R291). -/
def hbOut (s : State) (hb : Nat) (fault : Bool) : State :=
  let u := unit s 2 hb
  if u.out then s
  else
    let s := if fault && u.standby && !unitStable s 2 hb then unitStandbyFault s 2 hb else unitOut s 2 hb fault
    if (unit s 2 hb).out then
      let s := setLuvHb (s.w Reg.LUV_HB_STATUS.ROLE 0 hb) hb { luvHb s hb with passed := false }
      completeAll (raise s 320 hb) u.outPend stOk
    else s

/-- A transceiver at the tick boundary. One that found every channel barred takes the first that comes free. -/
def hbTick (hb : Nat) (s : State) : State :=
  let now := (s.r Reg.LUV_CFG.PROFILE, s.r Reg.LUV_HB.CHAN_MHZ hb)
  let v := luvHb s hb
  let s := if (unit s 2 hb).out then
      if (unit s 2 hb).passed && profileEu s && s.r Reg.LUV_HB_STATUS.ROLE hb == 0 && !v.passed then hbStart s hb else s
    else if v.seen ≠ some now then hbStart s hb
    else if s.r Reg.LUV_HB_STATUS.ROLE hb = 0 ∧ profileEu s = true ∧ euCentre now.2 = true then checkStart s hb (nextChannel s hb 0)
    else if s.r Reg.LUV_HB_STATUS.ROLE hb = 0 ∧ profileEu s = false ∧ naCentre now.2 = true then hbStart s hb
    else if s.r Reg.LUV_HB_STATUS.ROLE hb = 2 ∧ v.passed = true ∧ s.ttu.pos = 0 then
      setLuvHb (s.w Reg.LUV_HB_STATUS.ROLE (hbRole s hb) hb) hb { v with passed := false }
    else s
  let s := s.w Reg.LUV_HB_STATUS.CHECK_LEFT_S
    (if s.r Reg.LUV_HB_STATUS.ROLE hb = 2 then ceilDiv ((luvHb s hb).done - s.tick) 1000 else 0) hb
  if hbActive s hb && hbBlocked s hb then raiseWatch (s.inc Reg.LUV_HB_STATUS.CCA_BUSY hb) 325 hb else s

/-- Before STP at the tick boundary: the new tick's transceivers and channel assessment. -/
def luvPrep (s : State) : State :=
  let s := { s with luv := { s.luv with plan := [], bursts := [], busy := s.luv.busyNext, busyNext := [] } }
  if s.mode == .boot || s.mode == .dead then
    iter (fun hb s => setLuvHb (setRole s hb 0 0) hb {}) 2 s
  else
    let outs := s.luv.out
    let s := outs.foldl (fun s p => hbOut s p.1 p.2) { s with luv := { s.luv with out := [] } }
    hbTick 1 (hbTick 0 s)

/-- Radar on the channel of a transceiver (R272, row 1 of R291). -/
def radar (hb cyc : Nat) (s : State) : State :=
  let role := s.r Reg.LUV_HB_STATUS.ROLE hb
  if !profileEu s || role == 0 then s
  else
    let m := s.r Reg.LUV_HB_STATUS.CUR_MHZ hb
    let s := { s with luv := { s.luv with barred := mput 0 s.luv.barred m (s.tick + 1800000) } }
    let s := luvTo s hb cyc
    let t := ceilDiv cyc symCyc * symCyc
    let s := setPlan s hb ((hbPlan s hb).filter fun e => e.begun && decide (e.stop ≤ t))
    let p := hbPath s hb
    let s := setHbPath s hb { onAir := [], endCyc := min p.endCyc t, waiting := [] }
    let s := raise (raise s 323 hb) 320 hb
    checkStart s hb (nextChannel s hb m)

/-- The check of a transceiver has run its time and passes. -/
def cacDone (hb : Nat) (s : State) : State :=
  let v := luvHb s hb
  if s.r Reg.LUV_HB_STATUS.ROLE hb = 2 ∧ v.done ≤ s.tick ∧ v.passed = false then
    raise (setLuvHb s hb { v with passed := true }) 324 hb
  else s

/-- The bar of a channel has run its 30 min. -/
def barEnd (mhz : Nat) (s : State) : State :=
  if mget 0 s.luv.barred mhz ≤ s.tick then { s with luv := { s.luv with barred := mput 0 s.luv.barred mhz 0 } } else s

/-- A transceiver fails its self-check: it goes out at the next tick boundary. -/
def hbFault (hb : Nat) (s : State) : State :=
  if (unit s 2 hb).out then s else { s with luv := { s.luv with out := s.luv.out ++ [(hb, true)] } }

/-- Row 3 of R291, at a watch boundary, in profile EU after a channel availability check; a centre outside profile NA keeps it
disabled (R294). -/
def hbBack (hb : Nat) (s : State) : State :=
  if s.ttu.pos = 0 ∧ unitMayJoin s 2 hb = true ∧ (profileEu s = false ∨ (luvHb s hb).passed = true) then
    let cur := if profileEu s then s.r Reg.LUV_HB_STATUS.CUR_MHZ hb else s.r Reg.LUV_HB.CHAN_MHZ hb
    let fit := profileEu s || (naCentre cur && farEnough s hb cur)
    let s := setRole (unitJoin s 2 hb) hb (if fit then 3 else 0) (if fit then cur else 0)
    raise (setLuvHb s hb { luvHb s hb with passed := false
                                           seen := some (s.r Reg.LUV_CFG.PROFILE, s.r Reg.LUV_HB.CHAN_MHZ hb) }) 321 hb
  else s

/-- Row 4 of R291, at a watch boundary. -/
def hbRestored (hb : Nat) (s : State) : State :=
  if s.ttu.pos = 0 ∧ unitStable s 2 hb = true then
    let s := unitInService s 2 hb
    raise (if s.r Reg.LUV_HB_STATUS.ROLE hb = 3 then s.w Reg.LUV_HB_STATUS.ROLE 1 hb else s) 322 hb
  else s

/-! ### Beacon and head (R249, R275, R282 to R284, R332) -/

/-- The stop state byte (R249); HALT shows in the tick at whose boundary the lead enters it (R250). -/
def stopState (s : State) : Nat :=
  let pin := (List.range 2).any fun p => bitAt (s.r Reg.STP_CTRL.PAIR_EN) p && !bitAt (s.r Reg.STP_STATE.PAIR_RUN) p
  b2n (fleetLatch s) + 2 * b2n (s.mode == .halt || (s.mode == .lead && fleetLatch s)) + 4 * b2n pin

/-- The permits on the air, bit r for rover r. -/
def permitBits (s : State) : Nat :=
  (List.range 128).foldl (fun n r => if permitOnAir s r then n + 2 ^ r else n) 0

/-- LUV's slot: the beacon of the next tick. In MAINTENANCE it runs for stop bursts only and makes no beacon (R39). -/
def beaconAssemble (use : SlotUse) (s : State) : State :=
  if s.mode == .boot || s.mode == .dead || s.paused then s
  else
  let s := slotEnd s 8 use
  if !s.running then s
  else { s with luv := { s.luv with pre := some { tick := s.tick + 1, stop := stopState s, permit := permitBits s, key := keyEpoch s } } }

/-- SEC's slot, which runs in MAINTENANCE too (R39): its tag. -/
def beaconTag (use : SlotUse) (s : State) : State :=
  if s.mode == .boot || s.mode == .dead || s.paused then s
  else
  let s := slotEnd s 9 use
  { s with luv := { s.luv with pre := s.luv.pre.map fun p => if p.tick = s.tick + 1 then { p with tagged := s.kvt.gs } else p } }

/-- The beacon of this tick (R282, R298). -/
def beaconBytes (s : State) (p : BeaconPre) : List Byte :=
  let ep := s.r Reg.TWN_EPOCHS.LEAD_EPOCH
  let b := le 1 p.stop ++ le 1 p.key ++ le 1 (tiw s)
    ++ le 1 (b2n s.solo + 2 * s.r Reg.TWN_STATUS.SLOT + 4 * b2n s.ttu.closing.isSome)
    ++ le 4 ep ++ le 4 (s.r Reg.CHT_GRANT_GEN.GEN) ++ le 16 p.permit ++ le 2 s.tick
  b ++ le 12 (groupTag s p.key (nonceOf (le 1 5 ++ le 4 ep ++ le 7 s.tick)) b)

/-- A lead in PAIRED_SILENT that listens and copies (R332). -/
def silentLead (s : State) : Bool := s.leading && s.pair == 4 && s.rb Reg.TWN_CFG.ACK_LISTEN

/-- A listen tick: even for slot A, odd for slot B. -/
def listenTick (s : State) : Bool := silentLead s && s.tick % 2 == s.r Reg.TWN_STATUS.SLOT

/-- The head of the tick on a transceiver. -/
def headEls (s : State) (hb : Nat) : List LuvEl :=
  let beacon : List LuvEl := match s.luv.pre with
    | some p => if p.tick = s.tick ∧ p.tagged = true then
        [{ kind := .beacon, start := 0, stop := 0, mcs := 2, frame := beaconBytes s p }] else []
    | none => []
  let copy : List LuvEl := if silentLead s then beacon.map fun e => { e with kind := .copy } else []
  if listenTick s || !s.kvt.gs then beacon
  else if s.mode == .halt then beacon ++ copy
  else
    let other := s.r Reg.LUV_HB_STATUS.ROLE (1 - hb)
    beacon ++ [{ kind := .ack, start := 0, stop := 0 }]
      ++ (if other != 1 then [{ kind := .notice, start := 0, stop := 0 }] else [])
      ++ copy

/-- Where the head begins: after the repeat burst. -/
def headFrom (s : State) (hb : Nat) : Nat :=
  let p := hbPath s hb
  if p.onAir = [] then 0 else burstCyc p.onAir.length

/-- After every other unit at the tick boundary: the heads of the tick. -/
def luvTick (s : State) : State :=
  let s := { s with luv := { s.luv with acks := s.luv.acks.filter fun a => decide (s.tick ≤ a.1 + 1), halted := fleetLatch s } }
  if s.leading then
    let key := s.luv.pre.any fun p => p.tick == s.tick && p.tagged && p.key == keyEpoch s
    let s := iter (fun hb s => if hbActive s hb && !hbBlocked s hb then setPlan s hb (headLay (headEls s hb) (headFrom s hb)) else s) 2 s
    if key && ((hbPlan s 0).any (·.kind == .beacon) || (hbPlan s 1).any (·.kind == .beacon)) then secSent s else s
  else s

/-- The end of the tick: what is planned has gone out. -/
def luvEnd (s : State) : State := luvFlush (luvFlush s 0 250000) 1 250000

/-! ### Slots (R276) -/

inductive SlotRole where
  | uplink (base : Nat)
  | downlink (base : Nat)
  | bulk
  deriving DecidableEq, Repr

/-- A 20 Hz rover is enabled. -/
def any20Hz (s : State) : Bool := (List.range 128).any fun r => fixEnabled s r && s.rb Reg.FIX_ROVER.RATE r

/-- The role of the slots of this tick. -/
def slotRole (s : State) : SlotRole :=
  let t := tiw s
  if 2 ≤ t ∧ t ≤ 21 then .uplink 2
  else if 30 ≤ t ∧ t ≤ 40 then .downlink 30
  else if s.ttu.closing.isSome || !any20Hz s then .bulk
  else if 52 ≤ t ∧ t ≤ 71 then .uplink 52
  else if 80 ≤ t ∧ t ≤ 90 then .downlink 80
  else .bulk

/-! ### Uplink (R285, R293, R303) -/

/-- The slot is assigned to or kept for the rover, or its retry slot. -/
def slotOf (s : State) (f : UplinkRx) : Bool :=
  match slotRole s with
  | .uplink base =>
    let idx := 7 * (tiw s - base) + f.slot
    let v := luvRover s f.rover
    let fits (c : SlotCfg) : Bool := c.home == f.hb && (ulSlots c).contains idx
    v.cfg.any fits || v.kept.any (fun k => decide (s.tick < k.2) && fits k.1)
  | _ => false

/-- A stop burst on the transceiver overlapped the frame (row 5 of R288). -/
def rxLost (s : State) (f : UplinkRx) : Bool :=
  let a := (14 + 7 * f.slot.val) * symCyc
  (burstsTo s f.hb (a + 6 * symCyc)).luv.bursts.any fun b => b.1 == f.hb.val && decide (b.2.1 < a + 6 * symCyc) && decide (a < b.2.2)

def part (s : State) (r : Nat) : Option UpPart := mget none s.luv.parts r
def setPart (s : State) (r : Nat) (p : Option UpPart) : State :=
  { s with luv := { s.luv with parts := mput none s.luv.parts r p } }

/-- An incomplete record is abandoned (R370). -/
def partDrop (s : State) (r : Nat) : State :=
  match part s r with
  | some p => setPart (if p.ok then cplAbandon s r p.est else s) r none
  | none => s

/-- A complete record: the cells beyond its length return, and it enters the rover's queue (R369). -/
def partCommit (s : State) (r : Nat) (est : Nat) (data : List Byte) : State :=
  let v := cplQ s r
  let d := cellsOf est - cellsOf data.length
  let s := cplSetQ s r { v with writing := v.writing - d }
  cplCommit (cplSetCells s r (s.r Reg.CPL_Q.CELLS r - d)) r data

/-- The fragment of an accepted frame: it is placed at its offset; the last one completes the upload, in tick u. -/
def fragmentIn (s : State) (f : UplinkRx) (u : Nat) : State :=
  let r := f.rover
  let cnt := f.frag / 16
  let s := if (part s r).any (fun p => p.cnt != cnt) then partDrop s r else s
  let s := match part s r with
    | some _ => s
    | none =>
      let mcs := match (luvRover s r).cfg with
        | some c => c.ulMcs
        | none => 8
      let est := min 1568 (cnt * slotCap mcs)
      let (ok, s) := cplBegin s r est
      setPart s r (some { cnt := cnt, est := est, ok := ok, frags := [] })
  match part s r with
  | none => s
  | some p =>
    let frags := mput [] p.frags (f.frag % 16) (uplinkPlain s f ((secEpoch s f.keyId).getD false))
    if (List.range cnt).all (fun k => frags.any (fun x => x.1 == k)) then
      let data := (List.range cnt).flatMap fun k => mget [] frags k
      let s := setPart s r none
      if p.ok then fixUpload r u (partCommit s r p.est data) else s
    else setPart s r (some { p with frags := frags })

/-- The status flags of an accepted frame (R293). -/
def rstatIn (s : State) (f : UplinkRx) (tick : Nat) : State :=
  let r := f.rover
  let s := (s.wb Reg.LUV_ROVER.ALT (bitAt f.rstat 2) r).w Reg.LUV_ROVER.LAST_UL_TICK tick r
  let was := s.rb Reg.LUV_ROVER.SELF_STOP r
  let s := s.wb Reg.LUV_ROVER.SELF_STOP (bitAt f.rstat 0) r
  if bitAt f.rstat 0 && !was then raise s 328 r else s

/-- What follows SEC's verdict: the ACK entry, and the fragment of an accepted frame. -/
def uplinkTaken (s : State) (f : UplinkRx) (verdict tick : Nat) : State :=
  if verdict = 0 then s
  else
    let s := { s with luv := { s.luv with acks := s.luv.acks ++ [(tick, f.hb.val, f.slot.val, f.rover, verdict - 1, f.seq)] } }
    if verdict = 2 then s
    else fragmentIn (fixFragment f.rover (rstatIn s f tick)) f tick

/-- A frame received on a transceiver of this module (R30, R277). The shadow's own reception decides nothing while the stream
brings the lead's (R323 item 5). The stream carries every frame whose tag verifies (R306, R310). -/
def uplinkRx (f : UplinkRx) (s : State) : State :=
  if !s.running || (s.mode == .shadow && s.inSync) || !hbActive s f.hb || rxLost s f
    || decide (f.err < -2000) || decide (14400 < f.err) then s
  else
    let ok := uplinkVerified s f (slotOf s f)
    let (v, s) := secReceive s f (slotOf s f)
    let s := if ok then reflect s (.uplink f) else s
    uplinkTaken s f v s.tick

/-- A frame of the lead's stream of the last tick (R310). -/
def uplinkReflected (s : State) (f : UplinkRx) : State :=
  let (v, s) := secReceive s f true
  uplinkTaken s f v (s.tick - 1)

/-- Records still incomplete once their upload window has closed are abandoned. -/
def partsTick (s : State) : State :=
  match slotRole s with
  | .uplink _ => if s.running then s else s.luv.parts.foldl (fun s p => partDrop s p.1) s
  | _ => s.luv.parts.foldl (fun s p => partDrop s p.1) s

/-! ### Downlink and bulk (R286 to R288) -/

/-- A segment record (R186). -/
def segBytes (r : Nat) (g : ChtSeg) : List Byte :=
  le 1 r ++ le 3 0 ++ le 4 (ofSigned 32 g.e0) ++ le 4 (ofSigned 32 g.n0) ++ le 4 (ofSigned 32 g.e1) ++ le 4 (ofSigned 32 g.n1)
    ++ le 2 g.width ++ le 2 0 ++ le 8 g.tEnter ++ le 8 g.tExit ++ le 4 g.vMax ++ le 4 0

/-- The next TX_SEQ of a rover. The shadow, muted, numbers its frame and leaves TX_SEQ to the lead (R310). -/
def nextTx (s : State) (r : Nat) (adj : Option Int) : Nat × State :=
  let v := txSeq s r + 1
  if s.mode == .shadow then (v, s) else (v, secSent (reflect (setTxSeq s r v) (.txSeq r v adj)))

/-- The assignment a downlink frame carries, with its boundaries left: of those that take effect first, the last accepted
(DESIGN CHOICE, log entry 84). -/
def nextCfg (v : LuvRover) : Option (Option SlotCfg × List Byte × Nat) :=
  (v.pend.filter fun p => v.pend.all fun q => decide (p.2.2 ≤ q.2.2)).getLast?

/-- The payload of a downlink frame with n segments (R286). -/
def downPayload (s : State) (r n : Nat) (adj : Int) : List Byte :=
  let dl := (chtRover s r).dl
  let v := luvRover s r
  let next : Nat × List Byte × Nat := match nextCfg v with
    | some (_, b, k) => (1, b, nextWatch s + 100 * (k - 1))
    | none => (0, [], 0)
  padTo 80 (fixRover s r).sol ++ padTo 256 (setPointBlock s r s.tick) ++ le 2 (s.r Reg.ASG_ROVER.TASK r)
    ++ le 1 (next.1 + 2 * b2n (decide (n < dl.length))) ++ le 1 n ++ le 4 (s.r Reg.CHT_ROVER.GEN_GRANTED r)
    ++ le 2 (ofSigned 16 adj) ++ le 2 ((dl.head?.map (·.idx)).getD 0) ++ padTo 8 next.2.1 ++ le 8 next.2.2 ++ le 4 0
    ++ (dl.take n).flatMap (segBytes r)

/-- The frame of a slot: sent, or at once cut or blocked. -/
def slotFrame (s : State) (hb start : Nat) (e : LuvEl) (build : State → LuvEl × State) : State :=
  let p := hbPath s hb
  if hbBlocked s hb || (p.onAir != [] && decide (start < p.endCyc)) then preempted s hb e
  else
    let (e, s) := build s
    setPlan s hb (hbPlan s hb ++ [e])

/-- A downlink frame of rover r in a slot; without its keys SEC tags no frame, and none is sent (R31). -/
def downFrame (hb j r : Nat) (adj : Option Int) (s : State) : State :=
  match if linkKeys s r then (luvRover s r).cfg else none with
  | none => s
  | some c =>
    let start := (14 + 7 * j) * symCyc
    let e : LuvEl := { kind := .downlink, start := start, stop := start + 6 * symCyc, rover := r, adj := adj, mcs := c.dlMcs }
    slotFrame s hb start e fun s =>
      let (a, s) := match adj with
        | some a => (a, s)
        | none => secAdj s r
      let (q, s) := nextTx s r (if adj.isSome then none else some a)
      let n := min (chtRover s r).dl.length ((slotCap c.dlMcs - 368) / 48)
      ({ e with begun := true, adj := some a, take := n, frame := linkFrame s 2 0x21 r q (downPayload s r n a) }, s)

/-- The first frame waiting to be assembled again takes a free slot (row 3 of R288). -/
def redoFrame (hb j : Nat) (s : State) : Option State :=
  match mget ([] : List (Nat × Option Int)) s.luv.redo hb with
  | [] => none
  | (r, a) :: q =>
    some (downFrame hb j r a { s with luv := { s.luv with redo := mput ([] : List (Nat × Option Int)) s.luv.redo hb q } })

/-- Downlink and bulk slots run in LEAD; the shadow of a pair runs them muted while its lead does (R30), which is in HALT from
the boundary after a fleet latch on; in PAIRED_SILENT too (row 5 of R329). -/
def slotsRun (s : State) : Bool :=
  s.mode == .lead || (s.mode == .shadow && (s.inSync || s.pair == 4) && !s.luv.halted)

/-- A downlink slot: the frame of the rover that holds it, or one to be sent again. -/
def downSlot (hb j : Nat) (s : State) : State :=
  match slotRole s with
  | .downlink base =>
    if !slotsRun s || !hbActive s hb then s
    else
      let s := luvTo s hb ((14 + 7 * j) * symCyc)
      let idx := 7 * (tiw s - base) + j
      let own := s.luv.rovers.find? fun p => p.2.cfg.any (fun c => c.home == hb && c.dlSlot == idx)
        && (base == 30 || s.rb Reg.FIX_ROVER.RATE p.1)
      match own with
      | some p => downFrame hb j p.1 none s
      | none => (redoFrame hb j s).getD s
  | _ => s

/-- Rovers with segments pending on a home channel. -/
def bulkRovers (s : State) (hb : Nat) : List Nat :=
  (s.luv.rovers.filter fun p => p.2.cfg.any (fun c => c.home == hb) && !(chtRover s p.1).dl.isEmpty && !(chtRover s p.1).dlNew
    && linkKeys s p.1).map (·.1)

/-- A bulk slot: a downlink frame to be sent again, or the segments of the next rover in turn; none without keys (R31). -/
def bulkSlot (hb j : Nat) (s : State) : State :=
  if slotRole s ≠ .bulk || !slotsRun s || !hbActive s hb || !s.kvt.volatile then s
  else
    let s := luvTo s hb ((14 + 7 * j) * symCyc)
    match redoFrame hb j s with
    | some s => s
    | none =>
      let rs := bulkRovers s hb
      let last := mget 0 s.luv.turn hb
      match ((rs.filter fun r => decide (last ≤ r)) ++ rs).head? with
      | none => s
      | some r =>
        match (luvRover s r).cfg with
        | none => s
        | some c =>
          let start := (14 + 7 * j) * symCyc
          let e : LuvEl := { kind := .bulk, start := start, stop := start + 6 * symCyc, rover := r, mcs := c.dlMcs }
          let s := { s with luv := { s.luv with turn := mput 0 s.luv.turn hb (r + 1) } }
          slotFrame s hb start e fun s =>
            let dl := (chtRover s r).dl
            let n := min dl.length ((slotCap c.dlMcs - 8) / 48)
            let (q, s) := nextTx s r none
            let p := le 4 (s.r Reg.CHT_ROVER.GEN_GRANTED r) ++ le 2 ((dl.head?.map (·.idx)).getD 0) ++ le 1 n ++ le 1 0
              ++ (dl.take n).flatMap (segBytes r)
            ({ e with begun := true, take := n, frame := linkFrame s 3 0x22 r q p }, s)

/-! ### The lantern link (R257, R289, R290) -/

/-- The payload of a heartbeat. -/
def heartbeatPayload (s : State) : List Byte :=
  let k := s.tick / 10
  let g := k % 8
  let permits := (List.range 16).foldl (fun n i => if permitOnAir s (16 * g + i) then n + 2 ^ i else n) 0
  let b := le 1 (stopState s % 8 + 8 * g) ++ le 2 permits ++ le 1 k
  let n := nonceOf (le 1 7 ++ le 1 g ++ le 4 (s.r Reg.TWN_EPOCHS.LEAD_EPOCH) ++ le 6 k)
  b ++ le 4 (groupTag s (keyEpoch s) n b)

/-- The boundary of every tenth tick: a heartbeat of the lead, or a stop burst in its place. -/
def lanternBeat (s : State) : State :=
  if s.tick % 10 ≠ 0 then s
  else if fleetLatch s && s.rb Reg.STP_CTRL.LANTERN_EN then
    match armedEpoch s with
    | some e => lanternStop s 0 e 35640000
    | none => s
  else if s.leading && !s.paused && s.rb Reg.LUV_CFG.LANTERN_HB_EN && s.kvt.gs then
    if lanternFits s 35640000 then secSent (lanternAir s 0 0x2DD4 (heartbeatPayload s)) else lanternSkip s
  else s

/-! ### The commands -/

def execLuvSlotSet (h : Handle) (rover : Nat) (cfg : List Byte) (rsv : Nat) (s : State) : Host.Outcome State Fault Refusal :=
  withOut s (ringOp leadModes h (descOf (.luvSlotSet h rover cfg rsv)) (luvSlotSet h rover cfg rsv))
/-- The descriptor holds UL_START 0xFF, whatever the other bytes of SLOT_CFG. -/
def execLuvSlotRemove (h : Handle) (rover : Nat) (cfg : List Byte) (rsv : Nat) (s : State) : Host.Outcome State Fault Refusal :=
  withOut s (ringOp leadModes h (descOf (.luvSlotRemove h rover cfg rsv))
    (luvSlotSet h rover (padTo 4 (cfg.take 4) ++ le 1 255 ++ padTo 3 ((cfg.drop 5).take 3)) rsv))
def execBeaconAssembly (use : SlotUse) (s : State) : Host.Outcome State Fault Refusal :=
  withOut s (beaconAssemble use)
def execBeaconTag (use : SlotUse) (s : State) : Host.Outcome State Fault Refusal :=
  withOut s (beaconTag use)
def execUplinkFrameRx (f : UplinkRx) (s : State) : Host.Outcome State Fault Refusal := withOut s (uplinkRx f)
def execDownlinkSlot (hb : Fin 2) (j : Fin 7) (s : State) : Host.Outcome State Fault Refusal :=
  withOut s fun s => engines s (downSlot hb j)
def execBulkSlot (hb : Fin 2) (j : Fin 7) (s : State) : Host.Outcome State Fault Refusal :=
  withOut s fun s => engines s (bulkSlot hb j)
def execLanternHeartbeat (s : State) : Host.Outcome State Fault Refusal := withBoundary s fun s => alive s lanternBeat
/-- The assessment of symbols 63 to 67 holds for the next tick (R273). -/
def execCcaAssess (hb : Fin 2) (busy : Bool) (s : State) : Host.Outcome State Fault Refusal :=
  withOut s fun s =>
    if profileEu s then { s with luv := { s.luv with busyNext := mput false s.luv.busyNext hb busy } } else s
def execRadarDetect (hb : Fin 2) (cyc : Nat) (s : State) : Host.Outcome State Fault Refusal :=
  withOutAt s (some (cycU cyc)) fun s => alive s (radar hb cyc)
def execCacDone (hb : Fin 2) (s : State) : Host.Outcome State Fault Refusal := withOut s fun s => alive s (cacDone hb)
def execChannelBarEnd (mhz : Nat) (s : State) : Host.Outcome State Fault Refusal := withOut s (barEnd mhz)
def execHbFault (hb : Fin 2) (s : State) : Host.Outcome State Fault Refusal := withOut s fun s => alive s (hbFault hb)
def execHbBack (hb : Fin 2) (s : State) : Host.Outcome State Fault Refusal := withBoundary s fun s => alive s (hbBack hb)
def execHbRestored (hb : Fin 2) (s : State) : Host.Outcome State Fault Refusal := withBoundary s fun s => alive s (hbRestored hb)

end Sys2Proof.Machine
end

