-- ==== Sys2Proof/Machine/Svc.lean ====
section
/-! DEFINITION. Sys2Proof/Machine/Svc.lean: background service: the window, errors of memories, calibrations,
telemetry, and units taken out and brought back (R27, R468 to R481). -/

namespace Sys2Proof.Machine

open Sys2Proof

/-! ### LPDDR5 rows (R471) -/

/-- A row is retired to a spare row. -/
def rowRetire (s : State) (row : Nat) (fault : Bool) : State :=
  if (unit s 5 row).out then s
  else
    let n := s.r Reg.SVC_SPARES.ROW_SPARE
    if n = 0 then raise (s.wb Reg.SVC_STATUS.ROW_SPARE_EMPTY true) 482
    else raise (unitOut (s.w Reg.SVC_SPARES.ROW_SPARE (n - 1)) 5 row fault) 482 row

/-- A row that has passed its pattern test takes its data back (R477). -/
def rowBack (s : State) (row : Nat) : State :=
  let u := unit s 5 row
  if u.out && u.passed then
    let s := unitInService s 5 row
    let s := (s.w Reg.SVC_SPARES.ROW_SPARE (s.r Reg.SVC_SPARES.ROW_SPARE + 1)).wb Reg.SVC_STATUS.ROW_SPARE_EMPTY false
    completeAll s u.ret stOk
  else s

/-! ### Memory errors (R27) -/

/-- A scrub or a read corrects words; a row met in two passes in a row is retired. -/
def eccCorrected (s : State) (m n : Nat) (row : Option Nat) : State :=
  let s := s.add Reg.SVC_ECC.CORRECTED n m
  let s := { s with svc := { s.svc with corr := s.svc.corr + n } }
  match row with
  | none => s
  | some r =>
    let s := if s.svc.rowNow.contains r then s
      else { s with svc := { s.svc with rowNow := s.svc.rowNow ++ [r] } }
    if s.svc.rowHit.contains r then rowRetire s r true else s

/-- The CAN_SEND of a packet lost from a CAN_TX queue completes with CANCELLED (R352). -/
def canTxLost (s : State) (q k : Nat) : State :=
  if 140 ≤ q ∧ q ≤ 143 then
    let c := q - 140
    let v := canCh s c
    match v.handles[k]? with
    | some h => complete (setCanCh s c { v with handles := v.handles.eraseIdx k }) h stCancelled
    | none => s
  else s

/-- A cell of the packet being written to queue q: a rover record of several frames is abandoned and counts as lost. -/
def cellNewLost (s : State) (q : Nat) : State :=
  match part s q with
  | some p => if p.ok then raise (((partDrop s q).inc Reg.CPL_Q.LOST q).inc Reg.CPL_COUNTS.CELL_ERR) 451 else s
  | none => s

/-- What an uncorrectable word does, by the memory that holds it. -/
def memUseLost (s : State) : MemUse → State
  | .fatal chart => enterDead s 0x04 (if chart then 160 else 508)
  | .filter r => setFixRover s r { fixRover s r with bad := true }
  | .history r => setFixRover s r { fixRover s r with filt := { (fixRover s r).filt with ambs := [] } }
  | .baseSet => { s with obs := { s.obs with set := none } }
  | .ephemeris sat => { s with obs := { s.obs with eph := s.obs.eph.filter (fun p => p.1 != sat) } }
  | .flash a => flashLost a s
  | .cellNew q => cellNewLost s q
  | .cell q k => cplCellErr (canTxLost s q k) q k
  | .logBlock b => logBadBlock b s
  | .auction k => asgMemErr k s
  | .glint k i => gltMemErr s k i
  | .key k => keyLost k s
  | .bank b bad => engines s (bankFault b bad)
  | .cluster c => engines s (clusterFault c)
  | .iono y => { s with obs := { s.obs with iono := s.obs.iono.filter (fun p => p.1 != y) } }
  | .utcPar y => { s with obs := { s.obs with utcPar := s.obs.utcPar.filter (fun p => p.1 != y) } }
  | .gloK n => { s with obs := { s.obs with gloK := s.obs.gloK.filter (fun p => p.1 != n) } }
  | .other => s

/-- An uncorrectable word: its count, what it held, and its row. -/
def eccLost (s : State) (m : Nat) (row : Option Nat) (what : MemUse) : State :=
  let s := s.inc Reg.SVC_ECC.UNCORRECTABLE m
  let s := memUseLost { s with svc := { s.svc with uncorr := s.svc.uncorr + 1 } } what
  match row with
  | some r => if s.mode == .dead then s else rowRetire s r true
  | none => s

/-- Scrub interval of a memory in ticks (R26, R473): LPDDR5 60 min, flash 24 h, the SRAMs 60 s. -/
def scrubInterval (m : Nat) : Nat := if m = 0 then 3600000 else if m = 6 then 86400000 else 60000

/-- The tick at which the present pass of memory m began. -/
def scrubStart (s : State) (m : Nat) : Nat := mget s.svc.began s.svc.scrubAt m

/-- A scrub pass of memory m ends, and the next one begins (R470, R471). -/
def passDone (s : State) (m : Nat) : State :=
  let s := if s.tick ≤ scrubStart s m + scrubInterval m then s.wset Reg.SVC_STATUS.SCRUB_LATE m false else s
  let s := { s with svc := { s.svc with
    scrubAt := mput s.svc.began s.svc.scrubAt m s.tick, late := s.svc.late.filter (· != m) } }
  if m = 0 then { s with svc := { s.svc with rowHit := s.svc.rowNow, rowNow := [] } } else s

/-- The pass of memory m has not completed by 110 % of its interval, and this has not been reported (R470). -/
def scrubDue (s : State) (m : Nat) : Bool :=
  !s.svc.late.contains m && decide (10 * scrubStart s m + 11 * scrubInterval m ≤ 10 * s.tick)

/-- The pass goes on; SCRUB_LATE is set, once per late pass. -/
def scrubLate (m : Nat) (s : State) : State :=
  if scrubDue s m then
    raise ({ s with svc := { s.svc with late := s.svc.late ++ [m] } }.wset Reg.SVC_STATUS.SCRUB_LATE m true) 480 m
  else s

/-! ### Calibrations (R472) -/

/-- Interval of a calibration of unit u in ticks: TDC, GNSS RF, high-band RF, current sense (units 0 to 3 its offsets, 4
to 7 its gains). -/
def calInterval (k u : Nat) : Nat := if k = 0 then 100 else if k = 3 ∧ u < 4 then 1000 else 10000

/-- The units of a calibration that are in service. -/
def calUnits (s : State) (k : Nat) : List Nat :=
  match k with
  | 0 => [0]
  | 1 => [0, 1, 2]
  | 2 => [0, 1].filter fun hb => !(unit s 2 hb).out
  | _ => List.range 8

/-- A calibration of a unit has had no accepted result for 10 of its intervals. -/
def calOld (s : State) (k u : Nat) : Bool :=
  decide (mget s.svc.began s.svc.calTick (8 * k + u) + 10 * calInterval k u ≤ s.tick)

/-- A calibration gives an accepted result for unit u; its bit clears unless another unit of it is stale (log entry 72). -/
def calOk (s : State) (k u : Nat) : State :=
  let s := { s with svc := { s.svc with calTick := mput s.svc.began s.svc.calTick (8 * k + u) s.tick } }
  if (calUnits s k).any (calOld s k) then s else s.wset Reg.SVC_STATUS.CAL_STALE k false

/-- A gain change of a band's RF calibration is applied to P_ref as well (R123). -/
def calGain (s : State) (b num den : Nat) : State :=
  let j := jamRef s b
  setJamRef s b { j with refTen := j.refTen.map fun x => if den = 0 then x else x * num ^ 10 / den ^ 10 }

/-- A calibration has had no accepted result for 10 intervals: its bit is set. -/
def calStale (k : Nat) (s : State) : State :=
  if (calUnits s k).any (calOld s k) && !bitAt (s.r Reg.SVC_STATUS.CAL_STALE) k then
    raise (s.wset Reg.SVC_STATUS.CAL_STALE k true) 481
  else s

/-- The result of the RF calibration of a band: accepted with a gain step of at most 1 dB and an I/Q imbalance of at most
0.5 dB; the gain is a ratio of powers (1 dB: its tenth power is 10). -/
def calRf (s : State) (b num den : Nat) (iq : Int) : State :=
  if num ^ 10 ≤ 10 * den ^ 10 ∧ den ^ 10 ≤ 10 * num ^ 10 ∧ num ≠ 0 ∧ den ≠ 0 ∧ iq.natAbs ≤ 50 then calOk (calGain s b num den) 1 b
  else s

/-- The result for a transceiver, in 0.01 dB; none is taken during a channel availability check. -/
def calHb (s : State) (hb : Nat) (offset : Int) : State :=
  if s.r Reg.LUV_HB_STATUS.CHECK_LEFT_S hb ≠ 0 ∨ 100 < offset.natAbs then s
  else calOk { s with svc := { s.svc with hbOff := mput 0 s.svc.hbOff hb offset } } 2 hb

/-- The results for a POS channel, offset in mA and gain in 0.1 % of the factory value; none is taken in HOMING. -/
def calPos (s : State) (n : Nat) (offset : Int) (gain : Option Nat) : State :=
  if s.r Reg.POS_CH.STATE n = 3 then s
  else
    let s := if offset.natAbs ≤ 50 then calOk { s with svc := { s.svc with posOff := mput 0 s.svc.posOff n offset } } 3 n else s
    match gain with
    | some g =>
      if 950 ≤ g ∧ g ≤ 1050 then calOk { s with svc := { s.svc with posGain := mput 1000 s.svc.posGain n g } } 3 (4 + n) else s
    | none => s

/-! ### The background window (R44, R45, R468) -/

/-- One piece of background work. -/
def bgWork (s : State) : BgWork → State
  | .corrected m n row => eccCorrected s m n row
  | .uncorrectable m row what => eccLost s m row what
  | .passDone m => passDone s m
  | .flashWrite a => flashWrite a s
  | .flashRead ok => flashRead ok s
  | .flashLevel => flashLevel s
  | .flashScrub a n => flashScrub a n s
  | .calTdc b =>
    if s.r Reg.TTU_WATCH_POS.TICK_IN_WATCH = 50 then
      let s := ttuTdcCal s b
      if s.rb Reg.TTU_TDC_CAL.CAL_OK then calOk s 0 0 else s
    else s
  | .calRf b num den iq => calRf s b num den iq
  | .calHb hb o => calHb s hb o
  | .calPos n o g => calPos s n o g

/-- The time background work has used in a tick: MAX_USE, an overrun where work is pending at 980 µs, TTU_BG_USED, and the
ticks in a row that ended so (R45, R55 to R57). -/
def bgUsed (s : State) (w : BgIn) : State :=
  let s := slotUsed s 12 (10 * w.usedUs)
  let s := if w.pending then overrun s 12 else s
  let s := s.w Reg.TTU_BG_USED.USED_US (min w.usedUs 127)
  let n := if w.pending then min 65535 (s.r Reg.TTU_BG_USED.BACKLOG_TICKS + 1) else 0
  let s := s.w Reg.TTU_BG_USED.BACKLOG_TICKS n
  let s := { s with svc := { s.svc with bgMax := max s.svc.bgMax w.usedUs } }
  if n = 100 && bitAt (s.r Reg.TTU_BUDGET_MASK.EVT_EN) 12 then raise s 3 else s

/-- The window: its work in order, Glint's drain, and what goes to flash (R280, R321). -/
def bgWindow (w : BgIn) (s : State) : State :=
  if s.mode == .boot || s.mode == .dead || s.paused then s
  else
    let s := w.work.foldl (fun s x => if s.mode == .dead then s else bgWork s x) s
    if s.mode == .dead then s
    else
      let s := if flashSpare s then
          let s := luvStore (ephSecond s)
          { s with twn := { s.twn with flashEpoch := s.r Reg.TWN_EPOCHS.STORED_EPOCH } }
        else s
      bgUsed (gltWindow w.glt s) w

/-! ### Telemetry (R475) -/

/-- Units out of service or standby. -/
def unitsOut (s : State) : Nat := (s.svc.units.filter (fun p => p.2.out || p.2.standby)).length

/-- The 64 bytes of the record, PHASE clear. -/
def telBytes (s : State) (m : TelIn) : List Byte :=
  let flags := b2n (s.r Reg.SVC_STATUS.SCRUB_LATE != 0) + 2 * b2n (s.r Reg.SVC_STATUS.CAL_STALE != 0)
    + 4 * b2n (s.svc.units.any (fun p => p.2.out))
  le 1 1 ++ le 1 (modeNum s.mode) ++ le 1 (s.r Reg.TTU_TIME_STATE.STATE) ++ le 1 flags
    ++ le 4 (s.r Reg.TWN_EPOCHS.LEAD_EPOCH) ++ le 8 (s.tick - s.ttu.pos) ++ le 4 (s.r Reg.TTU_UNCERT.UNCERT_NS)
    ++ le 2 (ofSigned 16 m.temp) ++ le 2 m.vinA ++ le 2 m.vinB ++ le 2 m.vmot ++ le 2 m.power
    ++ le 1 (s.r Reg.FIX_STATUS.N_FIXED) ++ le 1 (s.r Reg.FIX_STATUS.N_FLOAT) ++ le 1 (min 255 s.fix.wLate)
    ++ le 1 (s.r Reg.SEC_STATUS.N_LOST) ++ le 2 (s.r Reg.SXT_STATUS.N_TRACK) ++ le 4 (s.r Reg.CHT_STATUS.LIVE_SEGS)
    ++ le 1 s.svc.bgMax ++ le 1 (s.r Reg.SXT_BAND.JAM_IND 0) ++ le 1 (s.r Reg.SXT_BAND.JAM_IND 1)
    ++ le 1 (s.r Reg.SXT_BAND.JAM_IND 2) ++ le 4 s.svc.corr ++ le 2 s.svc.uncorr
    ++ le 2 (s.r Reg.SVC_SPARES.FLASH_SPARE) ++ le 2 (s.r Reg.SVC_SPARES.ROW_SPARE) ++ le 1 s.pair
    ++ le 1 (unitsOut s) ++ le 4 (s.svc.ovr ||| s.r Reg.TTU_BUDGET_STATUS.OVR) ++ le 4 0

/-- At 860 µs of tick 99 the record is formed; HST writes it in its next window. -/
def telForm (m : TelIn) (s : State) : State :=
  if s.mode == .boot || s.mode == .dead || s.paused || !s.rb Reg.SVC_TEL.TEL_EN
      || s.r Reg.TTU_WATCH_POS.TICK_IN_WATCH != 99 then s
  else { s with svc := { s.svc with tel := some (telBytes s m) } }

/-! ### Stop paths (R478) -/

/-- Stop path p is the active one. -/
def pathActive (s : State) (p : Nat) : Bool := s.r Reg.SVC_STATUS.STOP_PATH == p

/-- Stop path p goes out of service: the other one becomes active where it is there. -/
def pathOut (s : State) (p : Nat) (fault : Bool) : State :=
  let u := unit s 6 p
  if u.out then s
  else
    let s := unitOut s 6 p fault
    let s := if pathActive s p && !(unit s 6 (1 - p)).out then setUnit (s.w Reg.SVC_STATUS.STOP_PATH (1 - p)) 6 (1 - p) {} else s
    completeAll (raise (s.wb Reg.SVC_STATUS.PATH_STANDBY false) 485) u.outPend stOk

/-- A path that has passed its self-test rejoins as standby at a watch boundary. -/
def pathBack (s : State) (p : Nat) : State :=
  if unitMayJoin s 6 p then raise ((unitJoin s 6 p).wb Reg.SVC_STATUS.PATH_STANDBY true) 485 else s

/-- An accepted RESTORE makes path A active at the watch boundary. -/
def pathRestore (s : State) : State :=
  let hs := s.svc.restore
  if hs = [] then s
  else
    let s := { s with svc := { s.svc with restore := [] } }
    if (unit s 6 0).out || pathActive s 0 then completeAll s hs stUnit
    else completeAll (raise (setUnit (s.w Reg.SVC_STATUS.STOP_PATH 0) 6 0 {}) 485) hs stOk

/-- The self-tests of tick 50: a path that fails goes out at the next tick boundary; one in a RETURN is tested. -/
def pathTest (pass : Bool) (s : State) (p : Nat) : State :=
  if (unit s 6 p).out then (if (unit s 6 p).ret ≠ [] then unitTested s 6 p pass else s)
  else if pass then s
  else { s with svc := { s.svc with outs := s.svc.outs ++ [(6, p, true)] } }

/-- STOP_PATH_SELF_TEST. -/
def pathTests (a b : Bool) (s : State) : State :=
  if s.mode == .boot || s.mode == .dead || s.r Reg.TTU_WATCH_POS.TICK_IN_WATCH != 50 then s
  else pathTest b (pathTest a s 0) 1

/-- The two paths' latch states differ: both take the union (R478). -/
def pathUnion (s : State) (ls : List (Option Nat)) : State :=
  if ls = [] then s
  else raise (ls.foldl (fun s l => match l with
    | none => outsRelease (s.wb Reg.STP_STATE.FLEET true)
    | some r => s.wbit Reg.STP_TSTOP.TSTOP r true) s) 485

/-! ### SVC_UNIT (R476) -/

/-- How many units a class has (rows: every address). -/
def classCount : Nat → Nat
  | 0 => 17 | 1 => 9 | 2 => 2 | 3 => 5 | 4 => 2 | 5 => 2 ^ 32 | 6 => 2 | _ => 0

/-- The unit is out of service; for an Ethernet port, as its register shows. -/
def unitIsOut (s : State) (c i : Nat) : Bool :=
  if c = 4 then !s.rb Reg.ETH_P_STATUS.IN_SERVICE i else (unit s c i).out

/-- Something stands in for unit i of class c: a free spare, or the other unit of classes 2, 4 and 6. -/
def unitCovered (s : State) (c i : Nat) : Bool :=
  match c with
  | 0 => s.r Reg.SXT_BANK_MAP.SPARE_BANK != 0x1F && s.r Reg.SXT_BANK_MAP.SPARE_FOR == 0x1F
  | 1 => s.r Reg.FIX_CLUSTER_MAP.SPARE != 0xF && s.r Reg.FIX_CLUSTER_MAP.SPARE_FOR == 0xF
  | 3 => bitAt (s.r Reg.CAN_CTRL_MAP.IN_SERVICE) 4 && s.r Reg.CAN_CTRL_MAP.SPARE_FOR == 7
  | 5 => s.r Reg.SVC_SPARES.ROW_SPARE != 0
  | 2 => unitIn s 2 (1 - i)
  | 4 => s.rb Reg.ETH_P_STATUS.IN_SERVICE (1 - i)
  | _ => !(unit s 6 (1 - i)).out

/-- A command for this module goes to its own units; one for the peer waits for the peer's result. In the shadow a
reflected command acts only where it is for the peer. -/
def svcUnit (h : Handle) (c i module rsv : Nat) (bad : State → Bool) (act : State → State) (s : State) : State :=
  if rsv != 0 || decide (6 < c) || decide (classCount c ≤ i) || decide (1 < module) || (module == 1 && !s.inSync) then
    complete s h stUnit
  else if (module == 1) != (s.mode == .shadow) then
    peerWait s h stUnit 0
  else if bad s then complete s h stUnit
  else act (accept s h)

/-- OUT acts at the next tick boundary. -/
def svcOut (h : Handle) (c i : Nat) (s : State) : State :=
  let s := setUnit s c i { unit s c i with outPend := (unit s c i).outPend ++ [h] }
  match c with
  | 0 => { s with sxt := { s.sxt with bankOut := s.sxt.bankOut ++ [(i, [], false)] } }
  | 1 => { s with fix := { s.fix with clOut := s.fix.clOut ++ [(i, false)] } }
  | 2 => { s with luv := { s.luv with out := s.luv.out ++ [(i, false)] } }
  | 3 => { s with can := { s.can with outs := s.can.outs ++ [(i, false, true)] } }
  | _ => { s with svc := { s.svc with outs := s.svc.outs ++ [(c, i, false)] } }

/-- RETURN starts the unit's self-test; a further one joins the self-test of the first. -/
def svcReturn (h : Handle) (c i : Nat) (s : State) : State :=
  let u := unit s c i
  setUnit s c i { u with out := true, ret := u.ret ++ [h], passed := u.passed && u.ret != [] }

/-- RESTORE. -/
def svcRestore (h : Handle) (s : State) : State := { s with svc := { s.svc with restore := s.svc.restore ++ [h] } }

/-! ### Boundaries -/

/-- An OUT or a fault of a row, a port or a stop path takes effect. -/
def svcOutNow (s : State) (o : Nat × Nat × Bool) : State :=
  if o.1 = 6 then pathOut s o.2.1 o.2.2
  else
    let u := unit s o.1 o.2.1
    let s := if o.1 = 5 then rowRetire s o.2.1 o.2.2 else ethBmca (ethOut s o.2.1 o.2.2)
    if u.outPend = [] then s
    else completeAll (setUnit s o.1 o.2.1 { unit s o.1 o.2.1 with outPend := [] }) u.outPend stOk

/-- SVC at a tick boundary. -/
def svcTick (s : State) : State :=
  let s := if s.mode == .boot then { s with svc := { s.svc with began := s.tick } } else s
  let os := s.svc.outs
  os.foldl svcOutNow { s with svc := { s.svc with outs := [] } }

/-- SVC at a watch boundary. -/
def svcWatch (s : State) : State :=
  let s := pathRestore (pathBack (pathBack s 0) 1)
  let rows := (s.svc.units.filter (fun p => p.1 / 2 ^ 32 == 5)).map (fun p => p.1 % 2 ^ 32)
  let s := rows.foldl rowBack s
  { s with svc := { s.svc with corr := 0, uncorr := 0, bgMax := 0, ovr := s.r Reg.TTU_BUDGET_STATUS.OVR } }

/-! ### The commands -/

/-- SVC_UNIT with ACTION OUT. -/
def svcUnitOut (h : Handle) (cls index module rsv : Nat) (s : State) : State :=
  svcUnit h cls index module rsv
    (fun s => unitIsOut s cls index || !unitCovered s cls index) (svcOut h cls index) s
/-- SVC_UNIT with ACTION RETURN. -/
def svcUnitReturn (h : Handle) (cls index module rsv : Nat) (s : State) : State :=
  svcUnit h cls index module rsv
    (fun s => !unitIsOut s cls index) (svcReturn h cls index) s
/-- SVC_UNIT with ACTION RESTORE. -/
def svcUnitRestore (h : Handle) (cls index module rsv : Nat) (s : State) : State :=
  svcUnit h cls index module rsv
    (fun s => cls != 6 || index != 0 || (unit s 6 0).out || pathActive s 0) (svcRestore h) s

def execSvcUnitOut (h : Handle) (cls index module rsv : Nat) (s : State) : Host.Outcome State Fault Refusal :=
  withOut s (ringOp anyRunMode h (descOf (.svcUnitOut h cls index module rsv)) (svcUnitOut h cls index module rsv))
def execSvcUnitReturn (h : Handle) (cls index module rsv : Nat) (s : State) : Host.Outcome State Fault Refusal :=
  withOut s (ringOp anyRunMode h (descOf (.svcUnitReturn h cls index module rsv)) (svcUnitReturn h cls index module rsv))
def execSvcUnitRestore (h : Handle) (cls index module rsv : Nat) (s : State) : Host.Outcome State Fault Refusal :=
  withOut s (ringOp anyRunMode h (descOf (.svcUnitRestore h cls index module rsv)) (svcUnitRestore h cls index module rsv))
def execBackgroundWindow (w : BgIn) (s : State) : Host.Outcome State Fault Refusal := withOut s (bgWindow w)
def execScrubLate (m : Fin 8) (s : State) : Host.Outcome State Fault Refusal := withOut s fun s => alive s (scrubLate m)
def execCalStale (k : Fin 4) (s : State) : Host.Outcome State Fault Refusal := withOut s fun s => alive s (calStale k)
def execUnitRetest (cls index : Nat) (pass : Bool) (s : State) : Host.Outcome State Fault Refusal :=
  withOut s fun s => alive s fun s => unitTested s cls index pass
def execStopPathSelfTest (passA passB : Bool) (s : State) : Host.Outcome State Fault Refusal := withOut s (pathTests passA passB)
def execTelemetry (m : TelIn) (s : State) : Host.Outcome State Fault Refusal := withOut s (telForm m)

end Sys2Proof.Machine
end

