-- ==== Sys2Proof/Machine/Twn.lean ====
section
/-! DEFINITION. Sys2Proof/Machine/Twn.lean: the pair: link frames and discrete signals, pair states, election, joining,
the lead's side of the reflection stream, claims, step-down, handover and solo operation (R316 to R341). -/

namespace Sys2Proof.Machine

open Sys2Proof

/-! ### Time follower (R322) -/

/-- The module continues from its own OCXO model: its state takes over from the master's values that it showed. Where it
showed LOCKED, SLEWING or DEAD_RECKONING the master is the selected source that was lost: rows 4 and 5 of R68, or row 1
while a step is pending. -/
def unfollow (s : State) : State :=
  if !s.twn.follows then s
  else
    let st := ttuState s
    let s := { s with twn := { s.twn with follows := false } }
    let s := { s with ttu := { s.ttu with resid := 0 } }.w Reg.TTU_TIME_STATE.SRC 3
    if st = 0 ∨ st = 4 then s
    else
      let s := raise (ttuDiscReset (ttuSetState (ttuLossNow s) 3)) 7
      match if s.ttu.stepAmt.isSome then none else srcBest s with
      | some b => ttuOffsetRule (raise s 8) false b
      | none => s

/-- The master's time as the status frame shows it: its state (a change of it is one of TIME_STATE, R83), uncertainty and
offset, and the phase to slew. -/
def followFrame (s : State) (f : StatusIn) : State :=
  let s := { s with
    twn := { s.twn with follows := true, mState := f.timeState, mSrc := f.timeSrc, mUncert := f.uncert }
    ttu := { s.ttu with resid := f.phaseNs * (uNs : Int) } }
  let s := ttuSetState ((ttuShowOffset s f.offset).w Reg.TTU_TIME_STATE.SRC 3) f.timeState
  s.w Reg.TTU_UNCERT.UNCERT_NS (ttuUncert s)

/-! ### Pair states (R319) -/

/-- The events of a new pair state (R341). -/
def pairEvent (s : State) (st : Nat) : State :=
  match st with
  | 2 => raise s 389
  | 3 => raise s 390
  | 4 => raise s 385
  | 5 => raise s 386
  | _ => s

/-- The handovers agreed are void: their commands complete with CANCELLED (row 2 of R339). -/
def handoverVoid (s : State) : State :=
  let xs := s.twn.handover.toList ++ s.twn.later
  xs.foldl (fun s x => complete s x.h stCancelled)
    { s with twn := { s.twn with handover := none, handoverNow := false, later := [] } }

/-- No acknowledgement stands: those of another lead or of another tick numbering say nothing of what is granted here (R4). -/
def acksClear (s : State) : State :=
  { s with twn := { s.twn with ack1 := 0, ack1Next := 0, ack1Late := 0, ack8 := 0, cover := 0 } }

/-- The shadow is lost to the lead: its commands for the peer complete with their refusals, but for an ACTIVATE, whose
result comes when the peer is back; no stream stands. -/
def syncLost (s : State) : State :=
  let cmds := s.twn.peerCmds.filter (fun p => p.2.1 != peerStays)
  let stay := s.twn.peerCmds.filter (fun p => p.2.1 == peerStays)
  let s := acksClear { s with twn := { s.twn with flight := [], items := [], carry := [], unackRun := 0, noFetch := false } }
  if s.mode == .shadow then s
  else cmds.foldl (fun s p => complete s p.1 p.2.1 p.2.2) { s with twn := { s.twn with peerCmds := stay } }

/-- The pair state becomes st. A lead enters solo operation with TWN_SOLO (R336); with PEER_GONE the time-master role
falls to this module (R322) and a handover is void. -/
def pairSet (st : Nat) (s : State) : State :=
  if s.pair = st then s
  else
    let wasSolo := s.solo
    let wasSync := s.inSync
    let s := pairEvent (s.w Reg.TWN_STATUS.PAIR_STATE st) st
    let s := if wasSync then syncLost s else s
    let s := if s.leading && !wasSolo && s.solo then raise s 394 else s
    if st = 5 && s.running then handoverVoid ((unfollow s).wb Reg.TWN_STATUS.TIME_MASTER true) else s

/-- A shadow marks its state STALE and receives the lead's anew (R337 step 4). How large the snapshot is, at most 64 MiB,
is a free value. -/
def resync (s : State) : State :=
  let (v, s) := s.fresh
  let s := { s with twn := { s.twn with rx := [], owed := [], unackRun := 0 } }.w Reg.TWN_RESYNC.DONE_MIB 0
  let s := s.w Reg.TWN_RESYNC.TOTAL_MIB (v % 65)
  pairSet 2 (if s.mode == .shadow then s.wb Reg.TWN_STATUS.STALE true else s)

/-! ### Lead epochs (R321) -/

/-- The lead epoch in force and the stored one. -/
def epochTake (s : State) (e : Nat) : State :=
  let s := (s.w Reg.TWN_EPOCHS.LEAD_EPOCH e).w Reg.TWN_EPOCHS.STORED_EPOCH e
  { s with twn := { s.twn with maxEpoch := max s.twn.maxEpoch e } }

/-- The smallest epoch above every one known, even for slot A and odd for slot B. -/
def epochNext (s : State) : Nat :=
  let m := max s.twn.maxEpoch (max (s.r Reg.TWN_EPOCHS.LEAD_EPOCH) (s.r Reg.TWN_EPOCHS.STORED_EPOCH))
  if (m + 1) % 2 = s.r Reg.TWN_STATUS.SLOT % 2 then m + 1 else m + 2

/-! ### Entering a mode of the fleet -/

/-- What the units whose work follows the mode do at a change of it. -/
def modeWork (s : State) : State := canTick (posTick (prfTick (asgTick (chtTick s))))

/-- The head of the tick is sent by a module that has just become lead (R330). -/
def headNow (s : State) : State := luvTick s

/-! ### Takeover (R333) -/

/-- Complete the descriptors of SQ q from index i on with FAILOVER_REPLAY; the TAGs are those the new lead reads in the
ring (free values where none is given). -/
def replayFrom (q : Nat) : Nat → Nat → List Nat → State → List Nat × State
  | 0, _, tags, s => (tags, s)
  | n + 1, i, tags, s =>
    let (tag, s) := match tags with
      | t :: _ => (t % 2 ^ 32, s)
      | [] => let (v, s) := s.fresh; (v % 2 ^ 32, s)
    let s := complete (s.inc Reg.TWN_COUNTS.REPLAY_DESC) { sq := q, idx := i % 65536, tag := tag, cyc := 0 } stReplay
    replayFrom q n (i + 1) (tags.drop 1) s

/-- Every submission ring whose pointers the streams carried: replay, then fetch from the fetch limit. -/
def replayAll (tags : List Nat) (s : State) : State :=
  let go (p : List Nat × State) (a : Nat × Nat) : List Nat × State :=
    let lim := p.2.r Reg.HST_SQ.FETCH_LIMIT a.1
    let n := (lim + 65536 - a.2) % 65536
    let (tags, s) := replayFrom a.1 (min n 4096) a.2 p.1 p.2
    (tags, s.w Reg.HST_SQ.FETCH_CI lim a.1)
  let ps := s.twn.accPtr
  { (ps.foldl go (tags, s)).2 with twn := { (ps.foldl go (tags, s)).2.twn with accPtr := [] } }

/-- Commands the old lead alone was carrying out are not repeated. -/
def peerReplay (s : State) : State :=
  let cmds := s.twn.peerCmds
  cmds.foldl (fun s p => complete s p.1 stReplay) { s with twn := { s.twn with peerCmds := [] } }

/-! ### Claims (R321, R330, R338) -/

/-- Every corridor a stale claimant holds is FROZEN and its permit clear (R338). -/
def freezeAll (s : State) : State :=
  s.cht.rovers.foldl (fun s p => if s.r Reg.CHT_ROVER.STATE p.1 = 0 then s else chtHoldAll s p.1 5) s

/-- The filters a repair of R327 still owes are reset to EMPTY (row 6 of R339). -/
def owedReset (s : State) : State :=
  let rs := s.twn.owed.map (·.1)
  fixReset { s with twn := { s.twn with owed := [] } } rs

/-- The module claims the lead, with its LAST_CLAIM code. -/
def claimLead (cause : Nat) (tags : List Nat) (s : State) : State :=
  let was := s.mode
  let wasPair := s.pair
  let s := acksClear (doubtClaim (epochTake s (epochNext s)))
  let s := raise ((s.inc Reg.TWN_COUNTS.CLAIM_COUNT).w Reg.TWN_STATUS.LAST_CLAIM cause) 387
  let s := { s with twn := { s.twn with
    claimLeft := 2, claim := none, electing := false, stepDown := false, rx := [], written := [], items := []
    flight := [], carry := [], handoverNow := false } }
  let s := enterMode (s.wb Reg.TWN_STATUS.STALE false) .lead
  let s := if was == .maintenance || was == .boot then requestStopAt s 0 none 0 else owedReset s
  let s := if cause = 5 then s else (unfollow s).wb Reg.TWN_STATUS.TIME_MASTER true
  let s := if cause = 3 ∨ cause = 5 then secAdvance s else secFreshStart s
  if s.mode == .dead then s
  else
    let s := if cause = 1 then pairSet 1 s else if cause = 2 then pairSet 0 s else s
    let s := if s.solo && (cause ≠ 1 && cause ≠ 2 || s.pair == wasPair || wasPair != 3) then raise s 394 else s
    let s := replayAll tags (peerReplay (asgClaim s))
    let s := if cause = 6 then freezeAll s else s
    let s := obsClaim (was == .shadow) s
    let s := if was == .shadow then haltEntry (canClaim (posClaim (cause == 5 || s.pair == 5) s)) else s
    headNow (modeWork s)

/-- At the boundary after its decision the shadow claims. -/
def twnClaim (tags : List Nat) (s : State) : State :=
  match s.twn.claim with
  | some c => if s.mode == .shadow then claimLead c tags s else { s with twn := { s.twn with claim := none } }
  | none => s

/-- Row 2 of R329: the peer PEER_GONE or silent for 2 s. -/
def staleDue (s : State) : Bool := decide (2000 ≤ s.twn.goneTicks)

/-- Row 4 of R329: silent, AIR_CLAIM_EN, and no lead beacon in this tick and the two before it. -/
def airDue (s : State) : Bool :=
  s.twn.silent && s.rb Reg.TWN_CFG.AIR_CLAIM_EN && !s.twn.beaconSeen && decide (2 ≤ s.twn.noBeacon)

/-- This tick is the last of its watch. -/
def lastOfWatch (s : State) : Bool :=
  match s.ttu.closing with
  | some k => s.ttu.pos + 1 == k.n
  | none => s.ttu.pos == 99

/-- The decision of 960 µs (R329). -/
def claimDecide (s : State) : State :=
  if s.mode != .shadow || s.paused then s
  else if lastOfWatch s && s.twn.handover.any (fun x => x.left == 1 && x.role == 0) then s
  else
    let gone := s.pair == 5
    let set (c : Nat) : State := { s with twn := { s.twn with claim := some c } }
    if s.rb Reg.TWN_STATUS.STALE && (gone || airDue s) then
      if staleDue s then raise (set 6) 397 else s
    else if gone then set 3
    else if airDue s then set 4
    else s

/-! ### Election and joining (R320, R337, R37) -/

/-- The module would claim: without a fleet key it enters MAINTENANCE instead (R458). -/
def electClaim (cause : Nat) (s : State) : State :=
  if s.kvt.active.isNone then
    let was := s.mode
    let s := enterMode { s with twn := { s.twn with electing := false } } .maintenance
    modeWork (if was == .boot then requestStopAt s 0 none 0 else s)
  else claimLead cause [] s

/-- LEAD_ELECTION: the rows of R320 at a tick boundary. -/
def election (s : State) : State :=
  if !s.twn.electing then s
  else
    let pm := s.r Reg.TWN_STATUS.PEER_MODE
    if pm = 3 ∨ pm = 4 then s
    else if pm = 0 ∧ s.twn.peerFinished = false then s
    else if pm = 0 ∨ pm = 1 ∨ pm = 2 then
      let mine := s.r Reg.TWN_EPOCHS.STORED_EPOCH
      let peer := s.r Reg.TWN_EPOCHS.PEER_EPOCH
      if peer < mine ∨ (peer = mine ∧ s.r Reg.TWN_STATUS.SLOT = 0) then electClaim 1 s else s
    else if 2000 ≤ s.twn.waitTicks then electClaim 2 s
    else s

/-- Tick n is the last reflected tick. -/
def setLastRefl (s : State) (n : Nat) : State :=
  { s with twn := { s.twn with lastRefl := n } }.w Reg.TWN_LAST_REFL.TICK_LO n

/-- A tick number moved by the adoption of R37. -/
def moveTick (d : Int) (n : Nat) : Nat := ((n : Int) + d).toNat

/-- Instants held as tick numbers move with the tick number: the frames armed, bars and checks of channels, airtime,
calibrations, ISOBUS claims. -/
def rebase (d : Int) (s : State) : State :=
  let m := moveTick d
  let luv := { s.luv with
    barred := s.luv.barred.map fun p => (p.1, m p.2)
    hbs := s.luv.hbs.map fun p => (p.1, { p.2 with done := m p.2.done })
    scs := s.luv.scs.map fun p => (p.1, p.2.map fun q => (m q.1, q.2))
    airTicks := s.luv.airTicks.map m }
  let can := { s.can with chans := s.can.chans.map fun p => (p.1, { p.2 with
    isoAt := m p.2.isoAt, stop := p.2.stop.map fun f => { f with tick := m f.tick } }) }
  let stp := { s.stp with
    armed := s.stp.armed.map fun p => (m p.1, p.2)
    canFleet := m s.stp.canFleet
    fleetRel := (m s.stp.fleetRel.1, s.stp.fleetRel.2)
    tgt := s.stp.tgt.map fun p => (p.1, { p.2 with canTick := m p.2.canTick }) }
  let kvt := { s.kvt with commit := s.kvt.commit.map fun c => { c with
    tick := m c.tick, written := c.written.map m, peer := c.peer.map m } }
  { s with
    luv := luv, can := can, stp := stp, kvt := kvt
    svc := { s.svc with began := m s.svc.began, calTick := s.svc.calTick.map fun p => (p.1, m p.2), scrubAt := s.svc.scrubAt.map fun p => (p.1, m p.2) }
    sxt := { s.sxt with shortAt := m s.sxt.shortAt, gnssAt := s.sxt.gnssAt.map fun g => (g.1, m g.2) }
    obs := { s.obs with ephAt := s.obs.ephAt.map fun p => (p.1, p.2 + d) }
    ttu := { s.ttu with ptpTick := s.ttu.ptpTick.map m }
    eth := { s.eth with stepTick := s.eth.stepTick.map m, ports := s.eth.ports.map fun p => (p.1, ethRebase m p.2) } }

/-- The joiner's fleet and targeted latches become the lead's (R250). -/
def latchesAdopt (fleet : Bool) (rs : List (Fin 128)) (s : State) : State :=
  let s := s.wb Reg.STP_STATE.FLEET fleet
  iter (fun r s => s.wbit Reg.STP_TSTOP.TSTOP r (rs.any (fun k => k.val == r))) 128 s

/-- An output goes on at its START + k × PERIOD on the base adopted (R37, R76; log entry 64). -/
def pulseAdopt (s : State) (n : Nat) : State :=
  if s.r Reg.TTU_PULSE.TB_SEL n = 3 then s
  else ttuSetPulse s n { ttuPulse s n with last := none, stepped := false, fromT := s.tb (s.r Reg.TTU_PULSE.TB_SEL n) 0 }

/-- Step 3 of R337: the tick number, TB1, TB2 and the phase of the lead are adopted, the module becomes time follower and
enters SHADOW. Tick 0 of the lead's watch begins anew, 1 ms long; a step of this module's own that was pending is dropped
without TTU_STEP_DONE (DESIGN CHOICE, log entry 80). -/
def tickAdopt (a : AdoptIn) (s : State) : State :=
  let pm := s.r Reg.TWN_STATUS.PEER_MODE
  if !s.twn.electing || !(pm == 3 || pm == 4) || !s.rb Reg.KVT_STATUS.PEER_MATCH then s
  else
    let old := s.tick
    let s := ttuOffsetsMove (rebase ((a.tick : Int) - s.tick) s) ((a.tb1 : Int) - s.ttu.tb1)
    let s := { s with
      tick := a.tick
      eth := { s.eth with stepTick := some a.tick }
      ttu := { s.ttu with
        tb1 := a.tb1, tb3 := ((s.ttu.tb3 : Int) + a.phaseNs * (uNs : Int)).toNat, pos := 0, watchDone := false
        len := uTick, adv := uTick, bend := none, closing := none, stepAmt := none, stepDue := false }
      twn := { s.twn with electing := false, follows := true } }
    let s := setLastRefl (acksClear s) (if s.twn.lastRefl = 0 then 0 else moveTick ((a.tick : Int) - old) s.twn.lastRefl)
    let s := (s.w Reg.TTU_TICK_LO.TICK_LO s.tick).wb Reg.TTU_WATCH_POS.STRETCHED false
    let s := (s.w Reg.TTU_WATCH_POS.TICK_IN_WATCH 0).wb Reg.TTU_CLOSING.STEP_PENDING false
    let s := s.w Reg.TTU_LAST_TICK_LEN.LEN_NS ((s.r Reg.TTU_LAST_TICK_LEN.LEN_NS : Int) + a.phaseNs).toNat
    let secs := a.tb2 / (uSec : Int)
    let s := (s.w Reg.TTU_TB2_OFFSET.OFFS_S_LO (ofSigned 48 secs)).w Reg.TTU_TB2_OFFSET.OFFS_S_HI (ofSigned 48 secs / 2 ^ 32)
    let s := s.w Reg.TTU_TB2_OFFSET.OFFS_NS ((a.tb2 - secs * (uSec : Int)).toNat / uNs)
    let s := iter (fun n s => pulseAdopt s n) 4 s
    let s := note s 0 (le 8 old ++ le 8 a.tick ++ le 8 (ofSigned 64 a.phaseNs))
    let s := raise s 5
    let s := obsJoin (secAdopt (epochTake s a.epoch) a.keyEpoch)
    let was := s.mode
    let s := enterMode (s.wb Reg.TWN_STATUS.TIME_MASTER false) .shadow
    let s := if was == .maintenance || was == .boot then requestStopAt s 0 none 0 else s
    resync (modeWork (latchesAdopt a.fleet a.targeted s))

/-- Read-only registers take the values of a snapshot. -/
def regsAdopt (rs : List (Nat × Nat)) (s : State) : State :=
  { s with regs := rs.foldl (fun m p => mput 0 m p.1 p.2) s.regs }

/-- The joiner holds the lead's engines' state (R337 steps 4 and 5); the lead's origin is judged against the one last in
force here (R185). -/
def snapAdopt (x : Snapshot) (s : State) : State :=
  let s := originFromLead s x.cht.origin
  let s := { s with
    cht := { x.cht with last := s.cht.last, mismatch := s.cht.mismatch, asLead := false, genTick := s.cht.genTick, differ := 0 }
    fix := x.fix, asg := x.asg, prf := x.prf, cpl := x.cpl
    obs := { x.obs with flash := s.obs.flash, flash2 := s.obs.flash2, half := s.obs.half, ephAt := s.obs.ephAt, judged := s.obs.judged, own := none, diffs := [], terms := [], first := false }
    sec := x.sec
    luv := { s.luv with rovers := x.slots, parts := x.parts, dirty := true }
    hst := { s.hst with started := x.started, compl := [], waiting := [], reading := [] }
    twn := { s.twn with rx := [], owed := [], written := [], peerCmds := [] } }
  let s := regsAdopt x.regs s
  let s := x.handles.foldl (fun s p => setCanCh s p.1 { canCh s p.1 with handles := p.2 }) s
  let s := x.iso.foldl (fun s p => isoAdopt s p.1 p.2.1 p.2.2) s
  let s := x.pos.foldl (fun s p => posAdopt s p.1 p.2) s
  let s := originShow (latchesAdopt x.fleet x.targeted s) x.cht.origin true
  (s.w Reg.TWN_RESYNC.DONE_MIB x.mib).w Reg.TWN_RESYNC.TOTAL_MIB x.mib

/-- The snapshot of R337 goes on by up to 2 MiB in a tick, how far is a free value. -/
def resyncStep (s : State) : State :=
  let (v, s) := s.fresh
  s.w Reg.TWN_RESYNC.DONE_MIB (min (s.r Reg.TWN_RESYNC.TOTAL_MIB) (s.r Reg.TWN_RESYNC.DONE_MIB + v % 3))

/-- Step 5 of R337, at a watch boundary: the shadow clears STALE; both modules read IN_SYNC. -/
def inSyncNow (x : Snapshot) (s : State) : State :=
  if s.pair ≠ 2 ∨ s.ttu.pos ≠ 0 ∨ s.paused = true then s
  else if s.mode == .shadow then pairSet 3 ((asgSynced (snapAdopt x s)).wb Reg.TWN_STATUS.STALE false)
  else if s.leading then
    let s := asgSynced (acksClear { s with twn := { s.twn with items := [], carry := [], flight := [] } })
    pairSet 3 ((s.w Reg.TWN_RESYNC.DONE_MIB x.mib).w Reg.TWN_RESYNC.TOTAL_MIB x.mib)
  else s

/-! ### Link frames and discrete signals (R317, R318) -/

/-- The fleet keys are compared on every status frame (R459). -/
def keyCompare (f : StatusIn) (s : State) : State :=
  let same := match s.kvt.active with
    | some k => k.1 == f.gen && k.2 == f.kcv
    | none => false
  let s := (s.wb Reg.KVT_STATUS.PEER_MATCH same).w Reg.KVT_KEYS.PEER_KCV f.kcv
  let had := s.twn.mismatch
  let s := { s with twn := { s.twn with mismatch := !same } }
  if same || had then s else raise s 490

/-- The peer is PEER_GONE (R319). -/
def peerGone (s : State) : State := if s.running || s.mode == .maintenance then pairSet 5 s else s

/-- What the peer's mode means for the pair state (R319, R337, R339). -/
def framePair (f : StatusIn) (s : State) : State :=
  let wave := s.rb Reg.TWN_STATUS.HEALTH_IN
  if s.mode == .maintenance then (if f.mode == .boot || f.mode == .maintenance then peerGone s else s)
  else if !s.running then s
  else
    match f.mode with
    | .boot | .maintenance => peerGone s
    | .shadow => if s.leading && s.pair != 2 && s.pair != 3 && wave then resync s else s
    | .lead | .halt =>
      if s.mode == .shadow && (s.pair == 4 || s.pair == 5) && wave then resync s else s
    | .dead => s

/-- A status frame of the peer (R318). -/
def statusFrame (f : StatusIn) (s : State) : State :=
  if s.mode == .dead || s.paused then s
  else if !f.crcOk then s.inc Reg.TWN_COUNTS.LANE_ERR
  else
    let s := { s with twn := { s.twn with
      silent := false, waitTicks := 0, peerFinished := f.finished, peerStopClear := f.stopClear
      maxEpoch := max s.twn.maxEpoch (max f.epoch f.stored) } }
    let s := (s.w Reg.TWN_STATUS.PEER_MODE (modeNum f.mode)).w Reg.TWN_EPOCHS.PEER_EPOCH f.stored
    let s := f.logs.foldl logPeerRec (keyCompare f s)
    let s := if s.running && !s.rb Reg.TWN_STATUS.TIME_MASTER && f.master then followFrame s f else s
    let lead := f.mode == .lead || f.mode == .halt
    let s := if s.mode == .shadow && lead && s.r Reg.TWN_EPOCHS.LEAD_EPOCH != f.epoch then epochTake s f.epoch else s
    let s := if s.leading && lead && decide (s.r Reg.TWN_EPOCHS.LEAD_EPOCH < f.epoch) then
        { s with twn := { s.twn with stepDown := true } }
      else s
    framePair f s

/-- A DEAD or POWER_FAIL frame (R318), with the Logbook records it carries (R443). -/
def deadFrameRx (crcOk powerFail : Bool) (tick : Nat) (logs : List PeerLog) (s : State) : State :=
  if s.mode == .dead || s.paused then s
  else if !crcOk then s.inc Reg.TWN_COUNTS.LANE_ERR
  else peerGone (logs.foldl logPeerRec (note s 384 (le 1 (if powerFail then 2 else 1) ++ le 8 tick)))

/-- HEALTH reads static energised (GONE). -/
def goneSignal (s : State) : State :=
  if s.mode == .dead then s else peerGone (s.wb Reg.TWN_STATUS.HEALTH_IN false)

/-- HEALTH shows no wave while lane frames arrive (row 6 of R329, a shadow's). -/
def healthFault (s : State) : State :=
  if s.mode == .dead then s
  else
    let s := s.wb Reg.TWN_STATUS.HEALTH_IN false
    let s := if s.mode == .shadow then raise s 393 else s
    if s.inSync then pairSet 4 s else s

/-- The wave is back. -/
def healthBack (s : State) : State :=
  if s.mode == .dead then s
  else { s.wb Reg.TWN_STATUS.HEALTH_IN true with twn := { s.twn with silent := false } }

/-- The peer's LEAD_CLAIM is energised: a lead that has not energised its own at the same boundary steps down (R332);
where both claim, the lead epochs settle it (row 1 of R339). -/
def claimSeen (s : State) : State :=
  if s.mode == .dead then s
  else
    let s := { s.wb Reg.TWN_STATUS.CLAIM_IN true with twn := { s.twn with claimIn := 2 } }
    if !s.leading then s
    else if s.twn.claimLeft = 2 then raise s 396
    else { s with twn := { s.twn with stepDown := true } }

/-- No valid frame for 1 tick; `health`: the wave continues (rows 5 and 7 of R329). The lanes stay trained (DESIGN CHOICE, log
entry 81). -/
def linkSilent (health : Bool) (s : State) : State :=
  if s.mode == .dead then s
  else
    let s := (s.w Reg.TWN_STATUS.PEER_MODE 7).wb Reg.TWN_STATUS.HEALTH_IN health
    let s := unfollow { s with twn := { s.twn with silent := !health } }
    if s.inSync then pairSet 4 s else s

/-- Both lanes are trained. -/
def linkTrained (s : State) : State :=
  if s.mode == .dead then s
  else
    let s := raise (s.w Reg.TWN_STATUS.LANES_UP 3) 384
    if s.pair = 0 then pairSet 1 s else s

/-! ### On the air (R329, R332) -/

/-- A valid beacon or beacon copy with its lead epoch. -/
def beaconRx (epoch : Nat) (s : State) : State :=
  let own := s.r Reg.TWN_EPOCHS.LEAD_EPOCH
  let s := { s with twn := { s.twn with maxEpoch := max s.twn.maxEpoch epoch } }
  if s.leading then if own < epoch then { s with twn := { s.twn with stepDown := true } } else s
  else if s.mode == .shadow ∧ epoch = own then { s with twn := { s.twn with beaconSeen := true } }
  else s

/-- A valid ACK frame in a listen tick was sent by another module. -/
def ackHeard (s : State) : State := if listenTick s then raise s 396 else s

/-! ### Stepping down and handing over (R332, R335, R361 row 4) -/

/-- The module stops driving the fleet and writes no further completion of its descriptors. -/
def leaveLead (s : State) : State :=
  let s := luvFlush (luvFlush s 0 0) 1 0
  let s := { s with
    luv := { s.luv with plan := [], redo := [] }
    hst := { s.hst with reading := [], waiting := [], compl := [] }
    twn := { s.twn with claimLeft := 0, stepDown := false, items := [], carry := [], flight := [], noFetch := false } }
  modeWork (enterMode (acksClear s) .shadow)

/-- A lead that has learnt of a higher epoch steps down at the boundary. -/
def stepDownNow (s : State) : State :=
  if !s.leading || !s.twn.stepDown then s
  else
    let s := leaveLead s
    let s := (s.wb Reg.TWN_STATUS.STALE true).wb Reg.TWN_STATUS.TIME_MASTER false
    let s := raise (raise s 396) 388
    let pm := s.r Reg.TWN_STATUS.PEER_MODE
    if pm = 3 ∨ pm = 4 then resync s else pairSet 4 s

/-- A handover is agreed for the second watch boundary; one that finds another pending waits behind it. -/
def handoverAgree (x : Handover) (s : State) : State :=
  if s.twn.handover.isNone then accept { s with twn := { s.twn with handover := some x } } x.h
  else accept { s with twn := { s.twn with later := s.twn.later ++ [x] } } x.h

/-- TWN_ROLE_SET: 0 hands over the lead, 1 the time-master role. A reflected command finds the role at the lead. -/
def roleSet (role : Nat) (h : Handle) (rsv : Nat) (s : State) : State :=
  let holds := role == 0 || (s.rb Reg.TWN_STATUS.TIME_MASTER != s.twn.reflecting)
  if rsv ≠ 0 ∨ s.inSync = false ∨ holds = false then complete s h stRole
  else handoverAgree { h := h, left := 2, role := role, maint := false } s

/-- Watch boundaries count an agreed handover down; the lead epoch reaches flash (R321). -/
def twnWatch (s : State) : State :=
  let s := if s.mode == .boot || s.mode == .dead then s
    else if !flashSpare s then s
    else { s with twn := { s.twn with flashEpoch := s.r Reg.TWN_EPOCHS.STORED_EPOCH } }
  let s := { s with twn := { s.twn with later := s.twn.later.map fun (x : Handover) => { x with left := x.left - 1 } } }
  match s.twn.handover with
  | none => s
  | some x =>
    if x.left ≤ 1 then { s with twn := { s.twn with handoverNow := true } }
    else { s with twn := { s.twn with handover := some { x with left := x.left - 1 } } }

/-! ### MAINTENANCE (R493) -/

/-- What a module keeps of the fleet on entry into MAINTENANCE: nothing but its slot table. -/
def maintEntry (s : State) : State :=
  let s := resumesCancel s
  let w := s.hst.waiting
  let s := w.foldl (fun s d => complete (startAt s d.h d.ftick) d.h stCancelled) { s with hst := { s.hst with waiting := [], reading := [] } }
  let s := { s with
    luv := { s.luv with plan := [], redo := [] }
    twn := { s.twn with claim := none, stepDown := false, items := [], carry := [], flight := [], rx := [], written := []
                        accPtr := [], handoverNow := false, claimLeft := 0 } }
  let s := enterMode (acksClear s) .maintenance
  let s := unfollow (chtDiscard s)
  let s := iter (fun r s => if (fixRover s r).filt.st = 0 then s else setFixRover s r { fixRover s r with filt := {} }) 128 s
  let s := if s.pair = 2 ∨ s.pair = 3 ∨ s.pair = 4 then pairSet 1 s else s
  let s := s.stp.tgt.foldl (fun s p => setTgtWin s p.1 {}) s
  let s := iter (fun k s => s.w Reg.STP_TSTOP.TSTOP 0 k) 4 s
  modeWork s

/-- The role has moved: the commands that moved it complete with OK, those of `keep` elsewhere. -/
def rolesDone (xs : List Handover) (keep : Handover → Bool) (s : State) : State :=
  xs.foldl (fun s x => if keep x then forget s x.h else complete s x.h stOk) s

/-- A handover takes effect (R335, row 2 of R493), and with it every other one agreed of its role. The one of the other
role follows at its own boundary, which may be the same. -/
def handoverOne (tags : List Nat) (s : State) : State :=
  match s.twn.handover with
  | none => s
  | some x =>
    if !s.twn.handoverNow then s
    else
      let xs := x :: s.twn.later.filter (fun y => y.role == x.role)
      let rest := s.twn.later.filter (fun y => y.role != x.role)
      let s := { s with twn := { s.twn with handover := rest.head?, later := rest.drop 1, handoverNow := (rest.head?.map (fun (y : Handover) => y.left == 0)).getD false } }
      if x.role = 1 then
        let had := s.rb Reg.TWN_STATUS.TIME_MASTER
        let s := (if had then s else unfollow s).wb Reg.TWN_STATUS.TIME_MASTER !had
        rolesDone xs (fun _ => false) (raise s 395)
      else if s.leading then
        let maint := xs.any (·.maint)
        let s := if maint then raise (maintEntry s) 395 else raise (raise (leaveLead s) 388) 395
        rolesDone xs (fun y => !y.maint) s
      else if s.mode == .shadow then
        rolesDone xs (fun y => y.maint) (raise (claimLead 5 tags s) 395)
      else s

/-- The handovers due at this boundary: of one role, then of the other. -/
def handoverDo (tags : List Nat) (s : State) : State := handoverOne tags (handoverOne tags s)

/-- A lead in PAIRED_SILENT goes on alone (R336). -/
def soloConfirm (value : Word) (s : State) : State :=
  if s.mode == .dead then s
  else if s.leading && s.pair == 4 && value.toNat % 65536 == 0x5010 then pairSet 0 s
  else s

/-- A read of TWN_LAST_REFL's low word latches the high word. -/
def lastReflRead (s : State) : State :=
  let s := s.w Reg.TWN_LAST_REFL.TICK_HI (s.twn.lastRefl / 2 ^ 32)
  s.emit (.readData (s.r Reg.TWN_LAST_REFL.TICK_LO))

/-! ### The reflection stream, the lead's side (R323 to R326) -/

/-- The accepted pointer and the fetch limit of each submission ring in service (item 4). -/
def ringItems (s : State) : List ReflItem :=
  (List.range 64).filterMap fun i =>
    if s.rb Reg.HST_SQ.ACTIVE i then
      let w := (s.hst.waiting.filter (fun d => d.h.sq == i)).length
      some (.ring i ((s.r Reg.HST_SQ.FETCH_CI i + 65536 - w) % 65536) (s.r Reg.HST_SQ.DB_PI i))
    else none

/-- The base position, the base set measured from it, and the origin (item 6). -/
def baseItems (s : State) : List ReflItem :=
  let o := s.obs
  let p : BasePos := {
    state := posState s, source := s.r Reg.OBS_POS_STATE.SOURCE, checked := s.rb Reg.OBS_POS_STATE.CHECK_DONE
    x := o.x, y := o.y, z := o.z, stored := o.stored
    elapsed := s.r Reg.OBS_POS_STATE.SURVEY_ELAPSED, sigma := s.r Reg.OBS_SURVEY_SIGMA.SIGMA_MM, checking := o.checking
    count := o.count, sums := o.sums, squares := o.squares, slow := o.slow, next := o.next }
  .basePos p :: (match o.set with
    | some x => [.baseSet x]
    | none => []) ++ [.origin s.cht.origin]

/-- The order of an item in the stream (R323); what other chapters add to the stream goes behind item 7 (DESIGN CHOICE, log
entry 81). -/
def itemOrder : ReflItem → Nat
  | .chart _ _ _ _ _ _ => 1
  | .grant _ _ _ _ _ => 1
  | .latch _ _ => 2
  | .resume _ _ => 2
  | .desc _ _ _ => 3
  | .matrix _ _ _ => 3
  | .matrixOut _ _ => 3
  | .step _ => 3
  | .ring _ _ _ => 4
  | .compl _ _ _ => 4
  | .uplink _ => 5
  | .txSeq _ _ _ => 5
  | .groupSeq _ _ => 5
  | .baseSet _ => 6
  | .basePos _ => 6
  | .origin _ => 6
  | .solution _ _ _ => 7
  | .drive _ _ => 8
  | .canOut _ _ _ _ => 8
  | .canRx _ _ => 8
  | .isoAddr _ _ _ => 8

/-- Entries in the order of R323's table. -/
def inOrder (es : List ReflEntry) : List ReflEntry := (List.range 9).flatMap fun k => es.filter fun e => itemOrder e.item == k

/-- An item of orders 1 and 2: a grant or a resume waits for its acknowledgement. -/
def isFirst (e : ReflEntry) : Bool := decide (itemOrder e.item ≤ 2)

/-- The code of a change of rover r's corridor or staging area in its 32-byte record. -/
def changeCode : ChtChange → Nat
  | .granted => 0 | .staged _ => 1 | .unstaged => 2 | .rested => 3 | .breached => 4 | .frozen => 5 | .released => 6 | .freed => 7

/-- The bytes of an item of orders 1, 2 and 7 in item 8 (R323; the layout is a DESIGN CHOICE, log entry 81). -/
def itemBytes : ReflItem → List Byte
  | .chart _ st t _ r crc => padTo 32 (le 1 r ++ le 1 st ++ le 2 0 ++ le 4 crc ++ le 8 t)
  | .grant r c t gen crc => padTo 32 (le 1 r ++ le 1 (changeCode c) ++ le 2 1 ++ le 4 crc ++ le 8 t ++ le 4 gen)
  | .latch r src => le 1 (r.getD 255) ++ le 1 src
  | .resume _ r => le 1 (r.getD 255) ++ le 1 255
  | .solution r d _ => le 1 r ++ d
  | _ => []

/-- Item 8: CRC-32C over items 1, 2 and 7 and the permit bitmap of the next tick (R323). -/
def streamDigest (es : List ReflEntry) (permits : Nat) : Nat :=
  crc32c (es.flatMap (fun e => itemBytes e.item) ++ le 16 permits)

/-- Step 4 of R337 in a tick of the lead: up to 2 MiB more of the snapshot, and the deltas since it. -/
def snapshotSend (s : State) : State :=
  let s := resyncStep s
  { s.emit (.byhelSnapshot s.tick (s.r Reg.TWN_RESYNC.DONE_MIB) (inOrder (s.twn.carry ++ s.twn.items))) with
    twn := { s.twn with items := [], carry := [] } }

/-- The TWN slot: the lead packs and sends the stream of the tick. `packed`: the items that fit in 96 KiB; the rest goes
first in the next tick (row 7 of R49). -/
def twnSlot (use : SlotUse) (packed : Nat) (s : State) : State :=
  let s := slotEnd s 10 { use with pending := false }
  if !s.leading || s.paused then s
  else if s.pair = 2 then snapshotSend s
  else if !s.inSync then s
  else
    let s := asgReflect (luvFlush (luvFlush s 0 232500) 1 232500)
    let base := if s.ttu.pos = 0 then baseItems s else []
    let drives : List ReflItem := (List.range 4).map fun n => .drive n (posShare s n)
    let s := (ringItems s ++ base ++ drives).foldl reflect s
    let all := s.twn.carry ++ inOrder s.twn.items
    let sent := all.take packed
    let rest := all.drop packed
    let s := asgSent sent s
    let cover := if rest.any isFirst then s.twn.cover else s.tick
    let s : State := if rest = [] then s else overrun (s.inc Reg.TWN_COUNTS.REFL_OVERRUN) 10
    let d := streamDigest sent (permitBits s)
    let s : State := { s with twn := { s.twn with
      items := [], carry := rest, cover := cover
      flight := s.twn.flight ++ [({ tick := s.tick, cover := cover, items := sent, digest := d } : Flight)] } }
    s.emit (.byhelStream s.tick sent d)

/-- The fetch limits of an acknowledged stream come into force. -/
def limitsTake (items : List ReflEntry) (s : State) : State :=
  items.foldl (fun s i => match i.item with
    | .ring q _ lim => s.w Reg.HST_SQ.FETCH_LIMIT lim q
    | _ => s) s

/-- Commands the peer has finished complete with its results (R352). -/
def peerDone (rs : List (Handle × Nat × Nat)) (s : State) : State :=
  rs.foldl (fun s r =>
    if s.twn.peerCmds.any (fun p => p.1 == r.1) then
      complete { s with twn := { s.twn with peerCmds := s.twn.peerCmds.filter (fun p => !(p.1 == r.1)) } } r.1 r.2.1 r.2.2
    else s) s

/-- An acknowledgement of item 1 or of item 8 of the stream of a tick; `late`: it came after 970 µs of that tick, and counts
as received in the tick after it. -/
def ackRx (tick : Nat) (a : AckIn) (late : Bool) (results : List (Handle × Nat × Nat)) (s : State) : State :=
  if s.mode == .dead || s.paused then s
  else if !a.crcOk then s.inc Reg.TWN_COUNTS.LANE_ERR
  else if !s.leading || !s.inSync then s
  else
    match s.twn.flight.find? (fun f => f.tick == tick) with
    | none => s
    | some f =>
      if a.digest then
        let s := { s with twn := { s.twn with
          flight := s.twn.flight.filter (fun g => decide (tick < g.tick)), unackRun := 0, ack8 := max s.twn.ack8 f.cover } }
        peerDone results (limitsTake f.items (setLastRefl s tick))
      else if late && tick == s.tick then { s with twn := { s.twn with ack1Late := max s.twn.ack1Late f.cover } }
      else { s with twn := { s.twn with ack1Next := max s.twn.ack1Next f.cover } }

/-- No acknowledgement of item 8 by the next boundary (rows 1 and 3 of R326); in the shadow, a tick without a stream. -/
def unacked (s : State) : State :=
  if s.mode == .shadow then
    if !s.inSync then s
    else if 9 ≤ s.twn.unackRun then resync s
    else { s with twn := { s.twn with unackRun := s.twn.unackRun + 1 } }
  else if !s.leading || !s.inSync || s.twn.flight.isEmpty then s
  else
    let fs := s.twn.flight
    let s := raiseWatch (s.inc Reg.TWN_COUNTS.REFL_UNACKED) 392
    let s : State := fs.foldl (fun (s : State) (f : Flight) => s.emit (.byhelStream f.tick f.items f.digest)) s
    let s : State := { s with twn := { s.twn with noFetch := true, unackRun := s.twn.unackRun + 1 } }
    if 10 ≤ s.twn.unackRun then resync s else s

/-! ### The tick boundary -/

/-- The status frame of this tick (R318): the time-transfer stamps are those of its tick boundary on TB1 and TB2. -/
def statusBytes (s : State) : List Byte :=
  le 1 (modeNum s.mode) ++ le 8 s.tick ++ le 4 (s.r Reg.TWN_EPOCHS.LEAD_EPOCH) ++ le 4 (s.r Reg.TWN_EPOCHS.STORED_EPOCH)
    ++ le 8 s.twn.lastRefl ++ stampBytes (s.tb 1 0) ++ stampBytes (s.tb 2 0) ++ s.log.toPeer.flatMap (fun r => logBytes r false)

/-- The module sends its status frame, with the Logbook records due to the peer (R443). -/
def statusSend (s : State) : State :=
  if s.mode == .dead || s.paused then s
  else { s.emit (.byhelFrame 0 (withCrc (statusBytes s))) with log := { s.log with toPeer := [] } }

/-- TWN at a tick boundary. -/
def twnTick (s : State) : State :=
  let t := s.twn
  let count := s.mode == .shadow && (s.pair == 5 || t.silent)
  let s := { s with twn := { t with
    claimLeft := t.claimLeft - 1
    claimIn := t.claimIn - 1
    ack1 := max t.ack1 t.ack1Next
    ack1Next := max t.ack1Next t.ack1Late
    noFetch := false
    items := if s.inSync || s.pair == 2 then t.items else []
    carry := if s.inSync then t.carry else []
    goneTicks := if count then t.goneTicks + 1 else 0
    noBeacon := if s.mode == .shadow && !t.beaconSeen then t.noBeacon + 1 else 0
    beaconSeen := false
    waitTicks := if t.electing then t.waitTicks + 1 else 0 } }
  let s := if s.twn.claimIn = 0 then s.wb Reg.TWN_STATUS.CLAIM_IN false else s
  let s := if s.mode == .shadow && s.pair == 2 then resyncStep s else s
  statusSend s

/-! ### The commands -/

def execTwnRoleSetLead (h : Handle) (rsv : Nat) (s : State) : Host.Outcome State Fault Refusal :=
  withOut s (ringOp leadModes h (descOf (.twnRoleSetLead h rsv)) (roleSet 0 h rsv))
def execTwnRoleSetTime (h : Handle) (rsv : Nat) (s : State) : Host.Outcome State Fault Refusal :=
  withOut s (ringOp leadModes h (descOf (.twnRoleSetTime h rsv)) (roleSet 1 h rsv))
def execLastReflRead (s : State) : Host.Outcome State Fault Refusal := withOut s (latchRead lastReflRead)
def execTwnSlot (use : SlotUse) (packed : Nat) (s : State) : Host.Outcome State Fault Refusal :=
  withOut s fun s => engines s (twnSlot use packed)
def execTwnClaimDecision (s : State) : Host.Outcome State Fault Refusal := withOut s claimDecide
def execBeaconRx (epoch : Nat) (s : State) : Host.Outcome State Fault Refusal := withOut s (beaconRx epoch)
def execAckRxListen (s : State) : Host.Outcome State Fault Refusal := withOut s ackHeard
def execLinkStatusFrame (f : StatusIn) (s : State) : Host.Outcome State Fault Refusal := withOut s (statusFrame f)
def execPeerDeadFrame (crcOk powerFail : Bool) (tick : Nat) (logs : List PeerLog) (s : State) :
    Host.Outcome State Fault Refusal := withOut s (deadFrameRx crcOk powerFail tick logs)
def execPeerGoneSignal (s : State) : Host.Outcome State Fault Refusal := withOut s goneSignal
def execHealthFault (s : State) : Host.Outcome State Fault Refusal := withOut s healthFault
def execLeadClaimSeen (s : State) : Host.Outcome State Fault Refusal := withOut s claimSeen
def execLinkSilent (health : Bool) (s : State) : Host.Outcome State Fault Refusal := withOut s (linkSilent health)
def execTwnLinkUp (s : State) : Host.Outcome State Fault Refusal := withOut s linkTrained
def execLeadElection (s : State) : Host.Outcome State Fault Refusal := withBoundary s fun s => notDead s election
def execTickAdopt (a : AdoptIn) (s : State) : Host.Outcome State Fault Refusal := withBoundary s fun s => notDead s (tickAdopt a)
def execTwnInSync (snap : Snapshot) (s : State) : Host.Outcome State Fault Refusal := withBoundary s (inSyncNow snap)
def execReflAckRx (tick : Nat) (a : AckIn) (late : Bool) (results : List (Handle × Nat × Nat)) (s : State) :
    Host.Outcome State Fault Refusal := withOut s (ackRx tick a late results)
def execReflUnacked (s : State) : Host.Outcome State Fault Refusal := withBoundary s unacked
def execTwnClaim (tags : List Nat) (s : State) : Host.Outcome State Fault Refusal := withBoundary s fun s => notDead s (twnClaim tags)
def execTwnStepDown (s : State) : Host.Outcome State Fault Refusal := withBoundary s stepDownNow
def execTwnHandover (tags : List Nat) (s : State) : Host.Outcome State Fault Refusal := withBoundary s fun s => notDead s (handoverDo tags)
def execHealthWaveRestored (s : State) : Host.Outcome State Fault Refusal := withOut s healthBack

end Sys2Proof.Machine
end

