-- ==== Sys2Proof/Machine/Boot.lean ====
section
/-! DEFINITION. Sys2Proof/Machine/Boot.lean: power-up, resets, images, the configuration record, MAINTENANCE, ACTIVATE,
supply failure and DEAD (R482 to R499). -/

namespace Sys2Proof.Machine

open Sys2Proof

/-! ### Register words and the configuration record (R491) -/

/-- The instance of a field whose word lies at byte address a, where it has one. -/
def Field.at? (f : Field) (a : Nat) : Option (Nat × Nat) :=
  (List.range f.c2).findSome? fun j =>
    if a < f.off + f.s2 * j then none
    else
      let d := a - (f.off + f.s2 * j)
      let i := if f.s1 = 0 then 0 else d / f.s1
      if f.s1 * i = d ∧ i < f.c1 then some (i, j) else none

/-- The fields of the word at byte address a, with their indexes. -/
def wordFields (a : Nat) : List (Field × Nat × Nat) :=
  (Reg.fieldsNear a).filterMap fun f => (f.at? a).map fun p => (f, p)

/-- The field of a register key. -/
def keyField (k : Nat) : Option Field := ((wordFields (k / 32)).find? (fun p => p.1.lsb == k % 32)).map (·.1)

/-- The key belongs to an RWS field of the configuration record: every one but those of the host window map. -/
def cfgKey (k : Nat) : Bool :=
  (keyField k).any (fun f => f.acc == .rws) && !(decide (0x100200 ≤ k / 32) && decide (k / 32 < 0x100400))

/-- The record of the RWS fields as they stand. -/
def cfgTake (s : State) : List (Nat × Nat) := s.regs.filter (fun p => cfgKey p.1)

/-- The record is loaded over the reset values. An EN of a once-mode output loaded by it arms nothing (DESIGN CHOICE, log
entry 80). -/
def cfgLoad (c : List (Nat × Nat)) (s : State) : State :=
  { s with regs := c.foldl (fun m p => mput 0 m p.1 p.2) (s.regs.filter (fun p => !cfgKey p.1)) }

/-! ### Images (R486, R488, R490) -/

/-- A used MPW entry: PAGES is not 0. -/
def mpwCount (b : List Byte) : Nat := ((List.range 32).filter fun k => field b (64 + 8 * k + 4) 3 != 0).length

def imageInfo (b : List Byte) : ImageInfo :=
  { version := field b 8 4, svn := field b 12 4, iso := bitAt (field b 24 4) 0, svnCommit := bitAt (field b 24 4) 1
    mpw := mpwCount b }

/-- BODY_LEN. -/
def bodyLen (b : List Byte) : Nat := field b 20 4

/-- Check 1: MAGIC, HDR_VERSION and reserved header fields (R486); the ranges of R488 belong to it. -/
def imageHeaderOk (b : List Byte) : Bool :=
  field b 0 4 == 0x3149424D && field b 4 2 == 1 && field b 6 2 == 0 && field b 28 4 == 0 && field b 60 4 == 0
    && field b 320 96 == 0 && decide (field b 24 4 < 4)
    && (List.range 32).all (fun k => decide (field b (64 + 8 * k + 7) 1 < 32))
    && decide (1 ≤ field b 12 4) && decide (field b 12 4 ≤ 65535)
    && bodyLen b % 16 == 0 && decide (16 ≤ bodyLen b) && decide (bodyLen b ≤ 67108864)

/-- Check 4 of R486: the signature over header bytes 0 to 415 and the body. -/
def imageSigOk (b : List Byte) : Bool :=
  ecdsaOk (pubPoint Config.imageSignKey) (sha384 (b.take 416 ++ b.drop 512)) (leNat ((b.drop 416).take 48).reverse)
    (leNat ((b.drop 464).take 48).reverse)

/-- Check 5: the tag of the body under the image key. -/
def imageTagOk (b : List Byte) : Bool := field b 44 16 == gcmTagOf Config.imageKey (field b 32 12) (b.take 44) (b.drop 512)

/-- The first check of R486 an image fails, 0 where it passes all. -/
def imageCheck (s : State) (b : List Byte) : Nat :=
  if !imageHeaderOk b then 1
  else if !bitAt (field b 16 4) Config.hwStep then 2
  else if field b 12 4 < s.r Reg.BOOT_SLOT.SVN_MIN then 3
  else if !imageSigOk b then 4
  else if !imageTagOk b then 5
  else 0

/-- An ACTIVATE is in progress. -/
def activating (s : State) : Bool := s.bt.check.isSome || s.bt.pause.isSome

/-- BOOT_IMAGE_LOAD for this module, by the rows of R490. -/
def imageLoad (h : Handle) (bufLen : Nat) (b : List Byte) (s : State) : State :=
  if s.bt.load.isSome || activating s then complete s h stImage 0
  else if bufLen ≠ 512 + bodyLen b then complete s h stImage 9
  else
    let n := imageCheck s b
    if n ≠ 0 then complete (raise s 510) h stImage n
    else
      let s := { s with bt := { s.bt with load := some (h, imageInfo b), slotBad := true } }
      accept ((s.w Reg.BOOT_STATUS.SLOT_STATE 4).w Reg.BOOT_LOAD.PROGRESS 0) h

/-- BOOT_IMAGE_LOAD. A shadow carries out only what is meant for the peer of the lead (R489). -/
def bootImageLoad (h : Handle) (module bufAddr bufLen rsv : Nat) (buf : BufIn) (s : State) : State :=
  let bad := rsv != 0 || decide (1 < module) || bufAddr % 8 != 0 || decide (bufLen < 528) || decide (67109376 < bufLen)
  if s.mode == .shadow then
    if module = 0 then peerWait s h stReplay 0
    else if !bufOk s bufAddr bufLen buf then complete s h stBuffer
    else if bad then complete s h stImage 0
    else imageLoad h bufLen buf.data s
  else if !inWindow s bufAddr bufLen then complete s h stBuffer
  else if bad then complete s h stImage 0
  else if module = 1 then if s.inSync then peerWait s h stImage 8 else complete s h stImage 8
  else if buf.err then complete s h stBuffer
  else imageLoad h bufLen buf.data s

/-- The slot has been programmed and read back (rows 5 and 7 of R490). -/
def imageWritten (ok : Bool) (s : State) : State :=
  match s.bt.load with
  | none => s
  | some (h, i) =>
    let s := { s with bt := { s.bt with load := none } }
    if ok then
      let s := { s with bt := { s.bt with slot := i, slotBad := false } }
      let s := (s.w Reg.BOOT_SLOT.SLOT_VERSION i.version).w Reg.BOOT_SLOT.SLOT_SVN i.svn
      complete (raise ((s.w Reg.BOOT_STATUS.SLOT_STATE 2).w Reg.BOOT_LOAD.PROGRESS 100) 509) h stOk
    else complete (raise (s.w Reg.BOOT_STATUS.SLOT_STATE 3) 510) h stImage 6

/-! ### BOOT_CONTROL (R489, R491 to R497) -/

/-- An ENTER_MAINT handover or an ACTIVATE is pending, here or on the peer (row 5 of R497). -/
def controlBusy (s : State) : Bool :=
  (s.twn.handover.toList ++ s.twn.later).any (·.maint) || activating s || s.twn.peerCmds.any (fun p => p.2.1 == peerStays)

/-- The checks all BOOT_CONTROL commands share; `lost` is the status of a command for the peer when the pair is lost
(status, DETAIL). A reflected command for the other module of the pair waits for its result. -/
def bootControl (h : Handle) (module rsv : Nat) (lost : Nat × Nat) (body : State → State) (s : State) : State :=
  if rsv ≠ 0 ∨ 1 < module then complete s h stActivate 0
  else if s.mode == .shadow && module == 0 then peerWait s h stReplay 0
  else if controlBusy s then complete s h stActivate 7
  else if s.mode != .shadow && module == 1 then
    if s.inSync then peerWait s h lost.1 lost.2 else complete s h stActivate 8
  else body s

/-- ENTER_MAINT of the lead of a pair in step: a handover agreed, for both modules (row 2 of R493). -/
def maintHandover (h : Handle) (s : State) : State :=
  handoverAgree { h := h, left := 2, role := 0, maint := true } s

/-- ENTER_MAINT by the rows of R493. -/
def enterMaint (h : Handle) (s : State) : State :=
  match s.mode with
  | .maintenance => complete s h stOk
  | .shadow => complete { s with modeNext := some .maintenance } h stOk
  | .lead => if s.inSync then maintHandover h s else complete s h stActivate 2
  | .halt => if s.inSync then maintHandover h s else complete { s with modeNext := some .maintenance } h stOk
  | .boot => s
  | .dead => s

/-- ENTER_MAINT. The shadow takes its part in the handover of a lead that leaves for MAINTENANCE. -/
def bootEnterMaint (h : Handle) (module rsv : Nat) (s : State) : State :=
  if s.mode == .shadow && module == 0 then
    if rsv ≠ 0 then complete s h stActivate 0
    else if controlBusy s then complete s h stActivate 7
    else maintHandover h s
  else bootControl h module rsv (stOk, 0) (enterMaint h) s

/-- LEAVE_MAINT (R492). -/
def leaveMaint (h : Handle) (s : State) : State :=
  if s.mode == .maintenance then complete { s with bt := { s.bt with leave := true } } h stOk
  else complete s h stActivate 2

/-- ACTIVATE (R494): accepted, and the slot is checked again in the background. -/
def activate (h : Handle) (s : State) : State :=
  if s.mode == .lead then complete s h stActivate 2
  else if s.mode == .halt && s.inSync then complete s h stActivate 6
  else if s.r Reg.BOOT_STATUS.SLOT_STATE ≠ 2 then complete s h stActivate 4
  else accept { s with bt := { s.bt with check := some h } } h

/-- SAVE_CONFIG (R491). -/
def saveConfig (h : Handle) (s : State) : State :=
  if s.mode == .maintenance then accept { s with bt := { s.bt with saves := s.bt.saves ++ [(h, cfgTake s)] } } h
  else complete s h stActivate 2

/-- Both copies of the record have been read back. -/
def configSaved (s : State) : State :=
  match s.bt.saves with
  | [] => s
  | (h, c) :: rest => complete (raise { s with bt := { s.bt with saves := rest, cfg := some c } } 511) h stOk

/-- RESET (R485, row 4 of R497). -/
def controlReset (h : Handle) (s : State) : State :=
  if s.mode == .maintenance then complete { s with bt := { s.bt with reset := true } } h stOk
  else complete s h stActivate 2

/-- The re-check of the slot ends (step 1 of R495). -/
def activateChecked (ok : Bool) (s : State) : State :=
  match s.bt.check with
  | none => s
  | some h =>
    let s := { s with bt := { s.bt with check := none } }
    if ok then { s with bt := { s.bt with pause := some (h, none) } }
    else
      let s := { s with bt := { s.bt with slotBad := true } }.w Reg.BOOT_STATUS.SLOT_STATE 3
      complete (raise s 510) h stActivate 5

/-- At the boundary after the restart the module returns to its mode (step 4 of R495); an image that has not started
leaves it DEAD. -/
def activateReturn (started : Bool) (s : State) : State :=
  match s.bt.pause with
  | some (h, some n) =>
    if !started then enterDead s 0x0A 508
    else
      let evs := s.bt.heldEvts
      let i := s.bt.slot
      let s := { s with bt := { s.bt with pause := none, running := i, heldEvts := [] } }
      let s := ((s.wb Reg.BOOT_STATUS.PAUSE false).w Reg.BOOT_TIMES.PAUSE_MS n).w Reg.HST_ID_FW.FW_VERSION i.version
      let s := ((s.w Reg.BOOT_STATUS.SLOT_STATE 1).w Reg.BOOT_STATUS.LAST_RESET 3).wb Reg.CAN_GLOBAL.ISO_AVAIL i.iso
      let s := evs.foldl (fun s e => stpRaise s e.1 e.2) s
      let s := complete s h stOk n
      let s := if s.running then svnRaise s else s
      if s.mode == .shadow then resync s else if s.mode == .halt then freezeAll s else s
  | _ => s

/-! ### Resets (R485) -/

/-- A Logbook register that a reset with supply keeps: all but its configuration (R437). -/
def logKept (k : Nat) : Bool :=
  decide (0x110000 ≤ k / 32) && decide (k / 32 < 0x120000) && (keyField k).any (fun f => f.acc != .rws)

/-- The module in reset: what flash and the fuses hold stays; with supply kept, the Logbook stays too (R437).
`cause`: LAST_RESET. -/
def moduleReset (cause : Nat) (supply : Bool) (s : State) : State :=
  let r := State.reset
  let t := { r with
    free := s.free, out := s.out, pending := s.pending
    regs := if supply then [] else s.regs.filter (fun p => logKept p.1)
    obs := { r.obs with stored := s.obs.stored, flash := s.obs.flash, flash2 := s.obs.flash2
                        ephAt := s.obs.ephAt.map fun (p : Nat × Int) => (p.1, p.2 - s.tick) }
    sxt := { r.sxt with jam := if supply then [] else s.sxt.jam.map fun (p : Nat × JamRef) => (p.1, { refTen := p.2.refTen }) }
    svc := { r.svc with flash := { s.svc.flash with move := none } }
    luv := { r.luv with flash := s.luv.flash }
    twn := { r.twn with flashEpoch := s.twn.flashEpoch, maxEpoch := s.twn.flashEpoch }
    kvt := { r.kvt with copy0 := s.kvt.copy0, copy1 := s.kvt.copy1, stored := s.kvt.stored, active := s.kvt.active
                        next := s.kvt.next, fk := s.kvt.fk, fkNext := s.kvt.fkNext, hwin := s.kvt.hwin }
    log := if supply then r.log else s.log
    bt := { r.bt with slot := s.bt.slot, slotBad := s.bt.slotBad || s.bt.load.isSome
                      cfg := s.bt.cfg, cause := s.bt.cause } }
  let t := (t.w Reg.BOOT_STATUS.LAST_RESET cause).w Reg.BOOT_STATUS.DEAD_CAUSE s.bt.cause
  let t := t.w Reg.SVC_SPARES.FLASH_SPARE (s.r Reg.SVC_SPARES.FLASH_SPARE)
  let t := t.wb Reg.SVC_STATUS.FLASH_LOW (s.rb Reg.SVC_STATUS.FLASH_LOW)
  let t := (t.w Reg.BOOT_SLOT.SLOT_VERSION (s.r Reg.BOOT_SLOT.SLOT_VERSION)).w Reg.BOOT_SLOT.SLOT_SVN (s.r Reg.BOOT_SLOT.SLOT_SVN)
  (t.w Reg.BOOT_SLOT.SVN_MIN (s.r Reg.BOOT_SLOT.SVN_MIN)).w Reg.TWN_EPOCHS.STORED_EPOCH s.twn.flashEpoch

/-- VIN_A and VIN_B have been below 5.5 V for 20 µs: GONE, the POWER_FAIL frame, every STOP_OUT released, every
transmitter silent; then the module holds itself in reset (R485). -/
def supplyFail (s : State) : State :=
  let s := deadFrame s 2 []
  { moduleReset 0 true s with held := true, twn := { (moduleReset 0 true s).twn with gone := true } }

/-- A PCIe hot reset: in DEAD the module resets; otherwise the endpoint alone, with its MSI-X table. -/
def hotReset (s : State) : State :=
  if s.mode == .dead then moduleReset 1 false s
  else { s with
    regs := s.regs.filter (fun p => !(decide (0x1F0000 ≤ p.1 / 32) && decide (p.1 / 32 < 0x200000)))
    hst := { s.hst with pcie := {} } }

/-! ### Power-up (R482, R486, R437, R463) -/

/-- The Logbook scans its ring: a block keeps its records up to the first whose check fails (R437). -/
def logScan (bad : List Nat) (s : State) : State :=
  let n := (logAll s).length
  let keep := s.log.blocks.map fun b => { b with recs := b.recs.takeWhile (fun r => !bad.contains r.seq) }
  let s := { s with log := { s.log with blocks := keep } }
  let last := (logAll s).foldl (fun m r => max m (r.seq + 1)) 0
  let s := s.add Reg.LOG_COUNTS.CRC_FAIL (n - (logAll s).length)
  if n = 0 then s else logSeqRegs s last

/-- The keys, the configuration and the seal: KVT resolves its records, the configuration record is loaded, the Logbook
scans, the stored tables are read, and the boot code seals its setup. -/
def bootSeal (b : BootIn) (s : State) : State :=
  let s := kvtResolve b.rec0 b.rec1 s
  let s := if b.cfgOk then
      match s.bt.cfg with
      | some c => cfgLoad c s
      | none => s.wb Reg.BOOT_STATUS.CFG_DEFAULT true
    else s.wb Reg.BOOT_STATUS.CFG_DEFAULT true
  let s := luvLoad (ephLoad (obsPowerUp (logScan b.logBad s)))
  let s := (s.wb Reg.KVT_TAMPER.TAMPER_IN b.tamperN).wb Reg.KVT_TAMPER.LAST_BOOT_TAMPER (s.bt.cause == 7)
  if !b.sealSet then s
  else
    let (crc, s) := s.fresh
    let s := kvtDerive (kvtSealMap s)
    let s := ((s.w Reg.KVT_SEAL.MPW_COUNT s.bt.running.mpw).wb Reg.KVT_SEAL.DEBUG_CLOSED true).w Reg.KVT_SEAL.POLICY_CRC crc
    let s := (s.wb Reg.KVT_STATUS.SEALED true).w Reg.BOOT_STATUS.STEP 3
    { s with bt := { s.bt with sealed := true } }

/-- The steps of R482 from reset release up to the seal. -/
def bootRun (b : BootIn) (s : State) : State :=
  if !b.selfTest then enterDead s 0x02 508
  else
    let s := s.w Reg.BOOT_STATUS.STEP 1
    let i := s.bt.slot
    if s.bt.slotBad || !b.slotOk || decide (i.svn < s.r Reg.BOOT_SLOT.SVN_MIN) then
      enterDead (s.w Reg.BOOT_STATUS.SLOT_STATE 3) 0x01 508
    else
      let s := { s with bt := { s.bt with running := i } }
      let s := ((s.w Reg.HST_ID_FW.FW_VERSION i.version).w Reg.BOOT_SLOT.SLOT_VERSION i.version).w Reg.BOOT_SLOT.SLOT_SVN i.svn
      bootSeal b ((s.wb Reg.CAN_GLOBAL.ISO_AVAIL i.iso).w Reg.BOOT_STATUS.STEP 2)

/-- A qualified supply, or a reset with supply, starts the sequence in BOOT; in any other state nothing. -/
def powerUp (b : BootIn) (s : State) : State :=
  if s.held then bootRun b { s with held := false, twn := { s.twn with gone := false } }
  else if s.mode == .boot && !s.bt.sealed && s.r Reg.BOOT_STATUS.STEP == 0 then bootRun b s
  else s

/-! ### The end of BOOT (R483, R251) -/

/-- The module applies R320 to choose its role, or goes to MAINTENANCE (R483). -/
def chooseRole (s : State) : State :=
  if s.rb Reg.BOOT_CTRL.STAY || s.rb Reg.BOOT_STATUS.CFG_DEFAULT then
    if s.mode == .maintenance then s else modeWork (requestStopAt (enterMode s .maintenance) 0 none 0)
  else { s with twn := { s.twn with electing := true, waitTicks := 0 } }

/-- BOOT ends at the first tick boundary at which the frames of eight ticks are armed; without a group session key it
ends at once. -/
def bootEnd (s : State) : State :=
  if s.mode != .boot || !s.bt.sealed || s.r Reg.BOOT_STATUS.STEP == 4 then s
  else if s.kvt.gs && decide (armedTicks s < 8) then s
  else
    let s := (s.w Reg.BOOT_STATUS.STEP 4).w Reg.BOOT_TIMES.BOOT_MS (min s.bt.ticks 65535)
    chooseRole (if s.kvt.gs then s else s.wb Reg.STP_ARM.ARM_OK false)

/-- A mismatch of a pilot pair's comparators: a fatal fault (R21). -/
def lockstep (s : State) : State := enterDead s 0x03 508

/-! ### The tick boundary -/

/-- BOOT's part of a tick boundary: the module's time in BOOT, LEAVE_MAINT, the progress of a load, and the pause of an
ACTIVATE, which lasts at most 150 ticks. A pause due in LEAD is refused as R494 refuses the command there. -/
def bootTick (s : State) : State :=
  let s := if s.mode == .boot then { s with bt := { s.bt with ticks := s.bt.ticks + 1 } } else s
  let s := if s.bt.leave then
      let s := { s with bt := { s.bt with leave := false } }
      if s.mode == .maintenance then chooseRole s else s
    else s
  let s := if s.bt.load.isSome then
      let (v, s) := s.fresh
      s.w Reg.BOOT_LOAD.PROGRESS (v % 101)
    else s
  match s.bt.pause with
  | none => s
  | some (h, none) =>
    if s.mode == .lead then complete { s with bt := { s.bt with pause := none } } h stActivate 2
    else sxtRun ({ s with bt := { s.bt with pause := some (h, some 0) } }.wb Reg.BOOT_STATUS.PAUSE true)
  | some (h, some n) =>
    if 150 ≤ n then enterDead s 0x0A 508 else { s with bt := { s.bt with pause := some (h, some (n + 1)) } }

/-! ### The commands -/

def execBootImageLoad (h : Handle) (module bufAddr bufLen rsv : Nat) (buf : BufIn) (s : State) :
    Host.Outcome State Fault Refusal :=
  withOut s (ringOp anyRunMode h (descOf (.bootImageLoad h module bufAddr bufLen rsv buf))
    (bootImageLoad h module bufAddr bufLen rsv buf))
def execEnterMaint (h : Handle) (module rsv : Nat) (s : State) : Host.Outcome State Fault Refusal :=
  withOut s (ringOp anyRunMode h (descOf (.enterMaint h module rsv)) (bootEnterMaint h module rsv))
def execLeaveMaint (h : Handle) (module rsv : Nat) (s : State) : Host.Outcome State Fault Refusal :=
  withOut s (ringOp anyRunMode h (descOf (.leaveMaint h module rsv))
    (bootControl h module rsv (stActivate, 8) (leaveMaint h)))
def execActivate (h : Handle) (module rsv : Nat) (s : State) : Host.Outcome State Fault Refusal :=
  withOut s (ringOp anyRunMode h (descOf (.activate h module rsv)) (bootControl h module rsv (peerStays, 0) (activate h)))
def execSaveConfig (h : Handle) (module rsv : Nat) (s : State) : Host.Outcome State Fault Refusal :=
  withOut s (ringOp anyRunMode h (descOf (.saveConfig h module rsv))
    (bootControl h module rsv (stActivate, 8) (saveConfig h)))
def execBootControlReset (h : Handle) (module rsv : Nat) (s : State) : Host.Outcome State Fault Refusal :=
  withOut s (ringOp anyRunMode h (descOf (.bootControlReset h module rsv))
    (bootControl h module rsv (stActivate, 8) (controlReset h)))
def execPowerUp (b : BootIn) (s : State) : Host.Outcome State Fault Refusal :=
  .next ((powerUp b s.start).requeue s.pending)
def execBootEnd (s : State) : Host.Outcome State Fault Refusal := withBoundary s bootEnd
def execSupplyFailure (s : State) : Host.Outcome State Fault Refusal := withOut s supplyFail
def execPcieHotReset (s : State) : Host.Outcome State Fault Refusal := withOut s hotReset
def execLockstepMismatch (s : State) : Host.Outcome State Fault Refusal := withOut s lockstep
def execImageWriteDone (ok : Bool) (s : State) : Host.Outcome State Fault Refusal := withOut s fun s => notDead s (imageWritten ok)
def execConfigSaveDone (s : State) : Host.Outcome State Fault Refusal := withOut s configSaved
def execActivateCheckDone (ok : Bool) (s : State) : Host.Outcome State Fault Refusal := withOut s fun s => notDead s (activateChecked ok)
def execActivateReturn (started : Bool) (s : State) : Host.Outcome State Fault Refusal := withBoundary s fun s => notDead s (activateReturn started)

end Sys2Proof.Machine
end

