-- ==== Sys2Proof/Machine/Ring.lean ====
section
/-! DEFINITION. Sys2Proof/Machine/Ring.lean: descriptors from the submission rings: their checks, the hand-over to the
subsystems with FENCE and LIFE, and what each opcode's bytes spell (R347 to R350). -/

namespace Sys2Proof.Machine

open Sys2Proof

/-! ### What each opcode asks for -/

/-- The modes an opcode is handed over in; none: unknown (R349). -/
def opcodeModes (op : Nat) : Option (List Mode) :=
  if op ∈ [0xD0, 0x01, 0x02, 0x91, 0x92, 0xE1, 0xE2, 0xF0, 0xF1, 0xF2, 0xF3, 0xF4, 0xF5, 0xF6, 0xF8, 0xF9] then some anyRunMode
  else if op ∈ [0x31, 0x41, 0x51, 0x52, 0x53, 0x61, 0x62, 0x71, 0x72, 0x81, 0x82, 0xA1, 0xC1] then some leadModes
  else none

/-- BOOT_CONTROL by its ACTION. -/
def runBootControl (b : List Byte) (h : Handle) (s : State) : State :=
  let rsv := resv b 10 18
  let m := field b 9 1
  match field b 8 1 with
  | 0 => bootEnterMaint h m rsv s
  | 1 => bootControl h m rsv (stActivate, 8) (leaveMaint h) s
  | 2 => bootControl h m rsv (peerStays, 0) (activate h) s
  | 3 => bootControl h m rsv (stActivate, 8) (saveConfig h) s
  | 4 => bootControl h m rsv (stActivate, 8) (controlReset h) s
  | _ => complete s h stActivate 0

/-- SVC_UNIT by its ACTION. -/
def runSvcUnit (b : List Byte) (h : Handle) (s : State) : State :=
  let rsv := resv b 11 1 + resv b 16 12
  let c := field b 8 1
  let m := field b 10 1
  let i := field b 12 4
  match field b 9 1 with
  | 0 => svcUnitOut h c i m rsv s
  | 1 => svcUnitReturn h c i m rsv s
  | 2 => svcUnitRestore h c i m rsv s
  | _ => complete s h stUnit

/-- A rover of a stop command: none for the fleet. -/
def scopeRover (b : List Byte) : Option Nat := if field b 8 1 = 0 then none else some (field b 9 1)

/-- A SCOPE, ROVER or reserved byte of STP_STOP or STP_RESUME is out of range. -/
def scopeBad (b : List Byte) : Bool :=
  resv b 10 18 != 0 || decide (1 < field b 8 1) || (field b 8 1 == 1 && decide (127 < field b 9 1))

/-- The command of a descriptor, in the groups of TTU, OBS, FIX and CHT. -/
def runFixChart (op : Nat) (b : List Byte) (buf : BufIn) (h : Handle) (s : State) : State :=
  let r := field b 8 1
  if op = 0x01 then ttuStep h (field b 8 1) (sfield b 16 8) (resv b 9 7 + resv b 24 4) s
  else if op = 0x02 then
    ttuPulseSet h (field b 8 1) (bitAt (field b 9 1) 0) (bitAt (field b 9 1) 1)
      { sub := field b 10 2, ns := field b 12 4, sec := field b 16 6 } (resvBits b 9 2 + resv b 22 6) s
  else if op = 0x31 then
    obsSetPos h (sfield b 8 6) (sfield b 14 6) (sfield b 20 6) (bitAt (field b 26 1) 0) (resvBits b 26 1 + resv b 27 1) s
  else if op = 0x41 then
    fixRoverSet (min (field b 9 1) 2) h r (field b 10 1) (resv b 11 17 + (if 2 < field b 9 1 then 1 else 0)) s
  else if op = 0x51 then
    chtReserve (min (field b 9 1) 2) h r (field b 10 2) (field b 16 8)
      (resv b 12 4 + resv b 24 4 + (if 2 < field b 9 1 then 1 else 0)) buf s
  else if op = 0x52 then chtRelease h r (bitAt (field b 9 1) 0) (resvBits b 9 1 + resv b 10 18) s
  else chtStaging h r (sfield b 12 4) (sfield b 16 4) (field b 20 4) (resv b 9 3 + resv b 24 4) s

/-- The command of a descriptor, in the groups of ASG, PRF, POS, STP, LUV and TWN. -/
def runFleet (op : Nat) (b : List Byte) (buf : BufIn) (h : Handle) (s : State) : State :=
  let a := field b 9 1
  if op = 0x61 then
    asgSubmit h (bitAt (field b 8 1) 0) (bitAt (field b 8 1) 1) (field b 12 4) (field b 16 8) (field b 24 4)
      (resvBits b 8 2 + resv b 9 3) s
  else if op = 0x62 then asgCancel (!bitAt (field b 8 1) 0) h (resvBits b 8 1 + resv b 9 19) s
  else if op = 0x71 then
    if field b 10 1 = 0 then prfUnbind h (field b 8 2) (field b 11 1) (resv b 12 16) s
    else prfBind h (field b 8 2) (field b 10 1) (field b 11 1) (resv b 12 16) s
  else if op = 0x72 then
    prfProfile (min (field b 12 1) 3) h (field b 8 2) (field b 10 2) (field b 16 8)
      (resv b 13 3 + resv b 24 4 + (if 3 < field b 12 1 then 1 else 0)) buf s
  else if op = 0x81 then
    posDrive (min a 4) h (field b 8 1) (field b 10 1) (sfield b 16 4) (resv b 11 5 + resv b 20 8 + (if 4 < a then 1 else 0)) s
  else if op = 0x82 then
    posHome h (field b 8 1) a (field b 12 4) (field b 16 4) (sfield b 20 4) (field b 24 4) (resv b 10 2) s
  else if op = 0x91 then stpStop h (scopeRover b) (scopeBad b) s
  else if op = 0x92 then stpResume h (scopeRover b) (scopeBad b) s
  else if op = 0xA1 then luvSlotSet h (field b 8 1) ((b.drop 16).take 8) (resv b 9 7 + resv b 24 4) s
  else roleSet (min (field b 8 1) 1) h (resv b 9 19 + (if 1 < field b 8 1 then 1 else 0)) s

/-- The command of a descriptor, in the groups of HST, CPL and the service and storage subsystems. -/
def runService (op : Nat) (b : List Byte) (buf : BufIn) (h : Handle) (s : State) : State :=
  let a := field b 9 1
  let addr := field b 16 8
  let len := field b 24 4
  if op = 0xD0 then complete s h stOk
  else if op = 0xE1 then
    let rsv := resvBits b 11 1 + resv b 22 6
    if field b 10 1 = 0 then cplQueueDelete h (field b 8 2) rsv s
    else cplQueueSet h (field b 8 2) (field b 11 1 % 2) (field b 12 4) (field b 16 4) (field b 20 2)
      (rsv + (if 1 < field b 10 1 then 1 else 0)) s
  else if op = 0xE2 then cplRead h (field b 8 2) (field b 10 2) (field b 12 4) addr (resv b 24 4) s
  else if op = 0xF0 then bootImageLoad h (field b 8 1) addr len (resv b 9 7) buf s
  else if op = 0xF1 then runBootControl b h s
  else if op = 0xF2 then logRead h (field b 8 1) (field b 12 4) addr len (resv b 9 3) buf s
  else if op = 0xF3 then kvtKeyLoad h addr (resv b 8 8 + resv b 24 4) buf s
  else if op = 0xF4 then
    if bitAt (field b 8 1) 0 then kvtDiscard h (resvBits b 8 1 + resv b 9 19) s
    else kvtCommit h (resvBits b 8 1 + resv b 9 19) s
  else if op = 0xF5 then
    if 3 < field b 8 1 then complete s h stCapture 0
    else gltRead (field b 8 1) h a (field b 10 1) (field b 11 1) (field b 12 4) addr len 0 buf s
  else if op = 0xF6 then runSvcUnit b h s
  else if op = 0xF8 then canSend h (field b 8 1) addr (resv b 9 7 + resv b 24 4) buf s
  else if 4 < a then complete s h stCan
  else canCtrl a h (field b 8 1) (resv b 10 18) s

/-- A descriptor that has passed the checks of R350 goes to its subsystem. -/
def descRun (b : List Byte) (buf : BufIn) (h : Handle) (s : State) : State :=
  let op := field b 0 1
  let body : State → State :=
    if op < 0x60 then runFixChart op b buf h
    else if op < 0xD0 then runFleet op b buf h
    else runService op b buf h
  match opcodeModes op with
  | some ms => ringOp ms h (b, buf) body s
  | none => complete s h stOpcode

/-! ### The checks of R350 and the hand-over of R347 -/

/-- FENCE of a descriptor. -/
def descFence (d : Desc) : Bool := bitAt (field d.bytes 1 1) 0

/-- Hand one descriptor over at a cycle of the tick: the instant, and with it the HST window, of its acceptance (R195). -/
def handOver (cyc : Nat) (d : Desc) (s : State) : State :=
  let h : Handle := { d.h with cyc := cyc }
  descRun d.bytes d.buf h (startAt s h d.ftick)

/-- Hand the waiting descriptors over in ring order; a FENCE waits for every earlier one of its SQ to complete, and later
ones wait behind it. `shut`: the SQs that wait. -/
def drainGo (cyc : Nat) : List Desc → List Nat → State → State
  | [], _, s => s
  | d :: ds, shut, s =>
    let wait := shut.contains d.h.sq || (descFence d && s.hst.started.any (fun p => p.1.sq == d.h.sq))
    if wait then drainGo cyc ds (d.h.sq :: shut) { s with hst := { s.hst with waiting := s.hst.waiting ++ [d] } }
    else drainGo cyc ds shut (handOver cyc d s)

/-- HST hands waiting descriptors over in the modes it fetches in. -/
def ringDrain (cyc : Nat) (s : State) : State :=
  if (s.mode == .maintenance || s.leading) && !s.paused then
    drainGo cyc s.hst.waiting [] { s with hst := { s.hst with waiting := [] } }
  else s

/-- Rows 1 to 4 of R350 for a descriptor just read; one that passes waits for its hand-over. -/
def descCheck (d : Desc) (s : State) : State :=
  let s := s.w Reg.HST_SQ.FETCH_CI (d.h.idx + 1) d.h.sq
  let crc := crc32c (d.bytes.take 28)
  let refuse (st detail : Nat) (s : State) : State := complete (startAt s d.h d.ftick) d.h st detail
  if crc ≠ field d.bytes 28 4 then raiseTick (refuse stCrc crc (s.inc Reg.HST_COUNTS.DESC_CRC_FAIL)) 420 d.h.sq
  else
    match opcodeModes (field d.bytes 0 1) with
    | none => refuse stOpcode 0 s
    | some ms =>
      if resvBits d.bytes 1 1 ≠ 0 then refuse stFormat 0 s
      else if s.mode ∈ ms then { s with hst := { s.hst with waiting := s.hst.waiting ++ [d] } }
      else refuse stMode 0 s

/-- The reads of descriptors end: the positions with their bytes, and what the reads of the buffers they name brought. -/
def descTake : List (Nat × Nat) → List (List Byte) → List BufIn → Nat → State → State
  | p :: ps, b :: bs, bufs, cyc, s =>
    let h : Handle := { sq := p.1, idx := p.2, tag := field b 4 4, cyc := cyc }
    let d : Desc := { h := h, ftick := s.tick, bytes := padTo 32 b, buf := bufs.headD { err := false, data := [] } }
    descTake ps bs (bufs.drop 1) cyc (descCheck d { s with hst := { s.hst with reading := s.hst.reading.drop 1 } })
  | _, _, _, _, s => s

/-- The read issued first ends in an error: its SQ fetches from its position again in the next window (R347), and what was
requested of that SQ behind it with it. -/
def descReadFail (s : State) : State :=
  match s.hst.reading with
  | [] => s
  | (q, _) :: rest =>
    { s with hst := { s.hst with reading := rest.filter (fun p => p.1 != q) } }.inc Reg.HST_COUNTS.DESC_READ_FAIL

/-- The outstanding reads of descriptors complete, as many as bytes are given; with an error the next of them fails (R347). -/
def descReadDone (ok : Bool) (descs : List (List Byte)) (bufs : List BufIn) (cyc : Nat) (s : State) : State :=
  if s.mode == .boot || s.mode == .dead || s.hst.reading = [] then s
  else
    let s := ringDrain cyc (descTake s.hst.reading descs bufs cyc s)
    if ok then s else descReadFail s

/-- Row 5 of R350 at a tick boundary: a descriptor still unstarted at the end of tick (fetch tick + LIFE) expires. -/
def lifeTick (s : State) : State :=
  let out (d : Desc) : Bool := field d.bytes 2 2 != 0 && decide (d.ftick + field d.bytes 2 2 < s.tick)
  let gone := s.hst.waiting.filter out
  gone.foldl (fun s d => complete (startAt s d.h d.ftick) d.h stExpired)
    { s with hst := { s.hst with waiting := s.hst.waiting.filter (fun d => !out d) } }

/-! ### The commands -/

def execDescReadDone (ok : Bool) (descs : List (List Byte)) (bufs : List BufIn) (cyc : Nat) (s : State) :
    Host.Outcome State Fault Refusal := withOutAt s (some (cycU cyc)) (descReadDone ok descs bufs cyc)
def execHstWindow (use : SlotUse) (s : State) : Host.Outcome State Fault Refusal :=
  withOut s fun s => ringDrain (31250 * s.hst.win) (hstWindow use { s with hst := { s.hst with win := s.hst.win + 1 } })

end Sys2Proof.Machine
end

