-- ==== Sys2Proof/Machine/Mirror.lean ====
section
/-! DEFINITION. Sys2Proof/Machine/Mirror.lean: the shadow's side of the reflection stream: reception, acknowledgement, and
what each item does at the next tick boundary (R135, R263, R264, R310, R323 to R328, R333). -/

namespace Sys2Proof.Machine

open Sys2Proof

/-! ### Reception (R323, R324) -/

/-- A stream arrives: the shadow acknowledges items 1 and 8, and keeps a stream it has not had for the next boundary. -/
def streamRx (tick : Nat) (items : List ReflEntry) (x : StreamIn) (s : State) : State :=
  if s.mode == .dead || s.paused then s
  else if !x.crcOk then s.inc Reg.TWN_COUNTS.LANE_ERR
  else if s.mode != .shadow || !s.inSync then s
  else
    let s := { s with twn := { s.twn with unackRun := 0 } }
    let s := (s.emit (.byhelAck tick 1)).emit (.byhelAck tick 8)
    if tick ≤ s.twn.lastRefl then s
    else setLastRefl { s with twn := { s.twn with rx := s.twn.rx ++ [(tick, items, x.digest)] } } tick

/-! ### Items -/

/-- A compared item differs (R327). -/
def mismatch (s : State) : State := raiseWatch (s.inc Reg.TWN_COUNTS.DIGEST_MISMATCH) 391

/-- The lead's base position, survey and check, and the position in flash (R135). -/
def basePosAdopt (p : BasePos) (s : State) : State :=
  let s := (s.w Reg.OBS_POS_STATE.STATE p.state).w Reg.OBS_POS_STATE.SOURCE p.source
  let s := (s.w Reg.OBS_POS_STATE.SURVEY_ELAPSED p.elapsed).w Reg.OBS_SURVEY_SIGMA.SIGMA_MM p.sigma
  let s := (posShow s p.x p.y p.z).wb Reg.OBS_POS_STATE.CHECK_DONE p.checked
  { s with obs := { s.obs with
    stored := p.stored, checking := p.checking, count := p.count, sums := p.sums, squares := p.squares, slow := p.slow
    next := p.next } }

/-- A latch of the lead; a fleet stop comes from the peer (R263). -/
def latchAdopt (rover : Option Nat) (src : Nat) (s : State) : State :=
  let set := match rover with
    | none => fleetLatch s
    | some r => tgtLatch s r
  if set then cancelResumes s rover
  else requestStopAt s (if rover = none then 8 else src) rover 0

/-- The lead has accepted a resume: the shadow waits for its boundary, whatever it found itself (R264, R323). -/
def resumeAdopt (h : Handle) (rover : Option Nat) (s : State) : State :=
  if s.stp.resumes.any (fun p => p.h == h) then
    { s with stp := { s.stp with resumes := s.stp.resumes.map fun p => if p.h = h then { p with sure := true } else p } }
  else if s.hst.compl.any (fun c => c.h == h) then
    let s := startAt { s with hst := { s.hst with compl := s.hst.compl.filter (fun c => !(c.h == h)) } } h s.now
    { s with stp := { s.stp with resumes := s.stp.resumes ++ [{ h := h, rover := rover, tick := s.now }] } }
  else s

/-- The pointers of a submission ring (R333). -/
def ringAdopt (q acc limit : Nat) (s : State) : State :=
  let s := (s.w Reg.HST_SQ.FETCH_LIMIT limit q).w Reg.HST_SQ.FETCH_CI acc q
  { s with twn := { s.twn with accPtr := s.twn.accPtr.filter (fun p => p.1 != q) ++ [(q, acc)] } }

/-- The lead has written the completion of handle h at position pos of CQ j: the shadow keeps none of it (R333). -/
def complAdopt (j pos : Nat) (h : Handle) (s : State) : State :=
  let s := doubtDone (s.w Reg.HST_CQ.PI (pos + 1) j) h
  if s.hst.compl.any (fun c => c.h == h) then
    { s with hst := { s.hst with compl := s.hst.compl.filter (fun c => !(c.h == h)) } }
  else if s.twn.peerCmds.any (fun p => p.1 == h) then
    forget { s with twn := { s.twn with peerCmds := s.twn.peerCmds.filter (fun p => !(p.1 == h)) } } h
  else if s.stp.resumes.any (fun p => p.h == h) then
    forget { s with stp := { s.stp with resumes := s.stp.resumes.filter (fun p => !(p.h == h)) } } h
  else if s.hst.started.any (fun p => p.1 == h) then { s with twn := { s.twn with written := s.twn.written ++ [h] } }
  else s

/-- A solution record of the lead; where the shadow's own differs, the filter follows at the next boundary (R327). -/
def solutionAdopt (r : Nat) (data : List Byte) (f : FixFilt) (s : State) : State :=
  match fixAdopt s r data with
  | (true, s) => mismatch { s with twn := { s.twn with owed := s.twn.owed.filter (fun p => p.1 != r) ++ [(r, f)] } }
  | (false, s) => s

/-- The filters owed from the last boundary arrive. -/
def owedTake (s : State) : State :=
  let fs := s.twn.owed
  fs.foldl (fun s p => setFilt s p.1 p.2) { s with twn := { s.twn with owed := [] } }

/-- A descriptor the lead accepted is executed as the lead executes it (R323 item 3). -/
def descReflected (h : Handle) (bytes : List Byte) (buf : BufIn) (s : State) : State :=
  let was := s.twn.reflecting
  let s := { s with twn := { s.twn with reflecting := true } }
  let s := descRun bytes buf h s
  { s with twn := { s.twn with reflecting := was } }

/-- What one item does in the shadow. -/
def itemApply (i : ReflItem) (s : State) : State :=
  match i with
  | .chart h st t c _ crc => chtApply s h st t c crc
  | .grant r c t g crc => chtMirror r c t g crc s
  | .latch r src => latchAdopt r src s
  | .resume h r => resumeAdopt h r s
  | .desc h b buf => descReflected h b buf s
  | .matrix h d last => asgMirror h d last s
  | .matrixOut h st => asgDrop h st s
  | .step _ => s
  | .ring q acc lim => ringAdopt q acc lim s
  | .compl j pos h => complAdopt j pos h s
  | .uplink f => uplinkReflected s f
  | .txSeq r v a => txAdopt s r v a
  | .groupSeq hb v => setGroupSeq s hb v
  | .baseSet x => obsLeadTake x s
  | .basePos p => basePosAdopt p s
  | .origin o => originFromLead s o
  | .solution r d f => solutionAdopt r d f s
  | .drive n p => posAdopt s n p
  | .canOut c h st d => canOutcome s c h st d
  | .canRx q d => cplPut s q d
  | .isoAddr c a cl => isoAdopt s c a cl

/-- The resumes accepted by the lead and carried up to tick n take effect in the shadow at the boundary of tick n + 1 (R264). -/
def resumesMirror (n : Nat) (s : State) : State :=
  let due := s.stp.resumes.filter (fun p => p.sure && decide (p.tick ≤ n))
  let s := { s with stp := { s.stp with resumes := s.stp.resumes.filter (fun p => !(p.sure && decide (p.tick ≤ n))) } }
  due.foldl resumeEffect s

/-- An entry of a stream is made; what it does is dated with the tick in which the lead noted it. -/
def entryApply (e : ReflEntry) (s : State) : State :=
  itemApply e.item { s with twn := { s.twn with reflTick := e.tick } }

/-- Entry e goes before the first one of the list that the lead noted later. -/
def entryInsert (e : ReflEntry) : List ReflEntry → List ReflEntry
  | [] => [e]
  | x :: xs => if e.seq < x.seq then e :: x :: xs else x :: entryInsert e xs

/-- The entries of a stream in the lead's order of work. -/
def inWorkOrder (es : List ReflEntry) : List ReflEntry := es.foldl (fun l e => entryInsert e l) []

/-- One stream at the boundary after its reception. The shadow forms item 8 over the items as it holds them and its own
permits, and compares it with the lead's (R323, R327). -/
def streamApply (x : Nat × List ReflEntry × Nat) (s : State) : State :=
  let s := { s with twn := { s.twn with reflTick := x.1, reflecting := true } }
  let s := (inWorkOrder x.2.1).foldl (fun s e => entryApply e s) s
  let s := resumesMirror x.1 s
  let s := { s with twn := { s.twn with reflecting := false } }
  if x.1 + 1 = s.tick ∧ streamDigest x.2.1 (permitBits s) ≠ x.2.2 then mismatch s else s

/-- Every stream received, in order of arrival. -/
def streamsApply (s : State) : State :=
  let xs := s.twn.rx
  let s := { s with twn := { s.twn with rx := [] } }
  let s := if s.mode == .shadow then owedTake s else s
  let s := if s.mode == .shadow then xs.foldl (fun s x => streamApply x s) s else s
  { s with twn := { s.twn with stepSeen := false } }

/-- A step of TB1 the lead has accepted is accepted here at the same tick (R52), before the boundary counts it. -/
def stepsMirror (s : State) : State :=
  let go (s : State) (i : ReflItem) : State := match i with
    | .step amt => { ttuAcceptStep s amt with twn := { (ttuAcceptStep s amt).twn with stepSeen := true } }
    | _ => s
  if s.mode == .shadow then s.twn.rx.foldl (fun s x => x.2.1.foldl (fun s e => go s e.item) s) s else s

/-! ### The command -/

def execReflStreamRx (tick : Nat) (items : List ReflEntry) (x : StreamIn) (s : State) : Host.Outcome State Fault Refusal :=
  withOut s (streamRx tick items x)

end Sys2Proof.Machine
end

