-- ==== Sys2Proof/Machine/RegWrite.lean ====
section
/-! DEFINITION. Sys2Proof/Machine/RegWrite.lean: writes to BAR0 and BAR2 field by field, what a write sets off beside the
fields, refused writes, and what a read of a word returns (R9, R10, R344, R345, R517). -/

namespace Sys2Proof.Machine

open Sys2Proof

/-! ### Words (R9, R10, R517) -/

/-- Nanosecond fields ignore a value above 999,999,999 (R12). -/
def nsField (a : Nat) : Bool := a == 0x210 || (decide (0x300 ≤ a) && decide (a < 0x400) && a % 0x40 == 8)

/-- The word at byte address a as a read returns it: WO fields and reserved bits read 0; the limit of a host window reads
its low 12 bits as 0xFFF (R466). -/
def wordRead (s : State) (a : Nat) : Nat :=
  let v := ((wordFields a).map fun p => if p.1.acc = .wo then 0 else s.r p.1 p.2.1 p.2.2 * 2 ^ p.1.lsb).sum
  if decide (0x100100 ≤ a) && decide (a < 0x100280) && a % 16 == 8 then v + 0xFFF else v

/-- The RECORD areas of channel c in BAR2, at offset o of its window: of a mailbox, a transmit buffer, and the frame at the
head of the stop-class buffer (R345, R398). -/
def recordRead (s : State) (c o : Nat) : Option Nat :=
  if o < 0x1000 then
    if 0x20 ≤ o % 0x80 then some (field (canBox s c (o / 0x80)).frame (o % 0x80 - 0x20) 4) else none
  else if o < 0x1180 then
    if 0x20 ≤ o % 0x80 then some (field (canBuf s c ((o - 0x1000) / 0x80)).frame (o % 0x80 - 0x20) 4) else none
  else if 0x1220 ≤ o ∧ o < 0x1260 then
    some (match (canCh s c).stop with
      | f :: _ => field (stopRecord s f) (o - 0x1220) 4
      | [] => 0)
  else none

/-- HELD of a CQ that is not in service counts the completions held for it (R361 row 6). -/
def heldRead (s : State) (j : Nat) : Nat :=
  if mget false s.hst.cqOn j then s.r Reg.HST_CQ.HELD j else min (heldCount s j) 65535

/-- In DEAD only the identity registers and the Logbook window can be read (R344). -/
def barRead (s : State) (a : Nat) : Nat :=
  if s.mode = .dead ∧ ¬ (0xD0000 ≤ a ∧ a < 0xD0040) ∧ ¬ (0x110000 ≤ a ∧ a < 0x120000) then 0
  else if 0x200000 ≤ a ∧ s.mode = .boot then 0
  else if 0x200000 ≤ a then (recordRead s ((a - 0x200000) / 0x4000) (a % 0x4000)).getD (wordRead s a)
  else if 0xD2000 ≤ a ∧ a < 0xD2800 then
    let j := (a - 0xD2000) / 0x20
    wordRead (s.w Reg.HST_CQ.HELD (heldRead s j) j) a
  else wordRead s a

/-- The bits of a word that no field covers, and which therefore are reserved; the low 12 bits of a host window limit are
not judged. -/
def reservedBits (a v : Nat) : Nat :=
  let v := if decide (0x100100 ≤ a) && decide (a < 0x100280) && a % 16 == 8 then v / 4096 * 4096 else v
  (wordFields a).foldl (fun v p => v - p.1.part v * 2 ^ p.1.lsb) v

/-- The fields that hold the nearest limit of their range in place of a value outside it (R87, R108, R181, R207, R225,
R266, R314, R364, R375, R417, R434, R480): whether the field is signed, and its limits. -/
def clampedFields : List (Field × Bool × Int × Int) :=
  [(Reg.ETH_P_CFG.LOG_ANNOUNCE, false, 0, 4), (Reg.ETH_P_CFG.LOG_SYNC, true, -4, 1),
   (Reg.ETH_P_CFG.LOG_MIN_DELAY_REQ, true, -4, 5), (Reg.ETH_P_CFG.ANNOUNCE_TIMEOUT, false, 2, 10),
   (Reg.SXT_ALLOC.ELEV_MASK, true, -5, 30), (Reg.SXT_SIG.PLL_BW, false, 10, 300), (Reg.SXT_SIG.FLL_BW, false, 5, 100),
   (Reg.SXT_SIG.DLL_BW, false, 5, 200)] ++
  [(Reg.FIX_AR_CFG.RATIO_MIN, false, 150, 1000), (Reg.FIX_PAR.PAR_MIN, false, 4, 64),
   (Reg.FIX_PAR.PAR_MIN_SV, false, 4, 15), (Reg.FIX_LIMITS.BASELINE_MAX_KM, false, 1, 20),
   (Reg.FIX_LIMITS.ELEV_MASK, true, 0, 30), (Reg.CHT_TIME_CFG.TIME_MARGIN, false, 0, 60000),
   (Reg.CHT_TIME_CFG.HORIZON_S, false, 10, 65535), (Reg.ASG_CFG.EPS_START_LOG2, false, 0, 40)] ++
  [(Reg.STP_IN_CFG.FILTER_US, false, 0, 1000), (Reg.STP_IN_CFG.REARM_MS, false, 10, 255),
   (Reg.STP_IN_CFG.DISC_MS, false, 1, 100), (Reg.STP_REPEAT.CAN_REPEAT, false, 1, 100),
   (Reg.SEC_CFG.TIMING_WARN, false, 1, 144), (Reg.HST_SQ.SIZE_LOG2, false, 4, 12), (Reg.HST_CQ.SIZE_LOG2, false, 4, 12),
   (Reg.HST_EQ.SIZE_LOG2, false, 4, 12)] ++
  [(Reg.CPL_CFG.LOW_PCT, false, 1, 50), (Reg.POS_CH.RUN_MA, false, 100, 5600), (Reg.POS_CH.OFF_TIME, false, 10, 255),
   (Reg.POS_CH.HOME_ACC, false, 1, 50000000), (Reg.GLT_CFG.SHARE_KIB, false, 64, 1024),
   (Reg.SVC_TEL.SIZE_LOG2, false, 4, 12)]

/-- What field f holds once word v is written to it: a field the spec calls clamped holds the nearest limit (HOLD_MA at
most the RUN_MA of the same word); a field whose value is only "taken as" another holds what was written. -/
def heldValue (f : Field) (v : Nat) : Nat :=
  let x := f.part v
  if f.off = Reg.POS_CH.HOLD_MA.off ∧ f.lsb = Reg.POS_CH.HOLD_MA.lsb then min x (clampN 100 5600 (Reg.POS_CH.RUN_MA.part v))
  else
    match clampedFields.find? (fun c => c.1.off == f.off && c.1.lsb == f.lsb) with
    | none => x
    | some (_, sgn, lo, hi) =>
      let i : Int := if sgn then toSigned f.width x else x
      ofSigned f.width (if i < lo then lo else if hi < i then hi else i)

/-- One field of a word takes its part of the value where its code opens it. -/
def fieldWrite (a v : Nat) (s : State) (p : Field × Nat × Nat) : State :=
  let x := p.1.part v
  if !p.1.acc.opens s.mode then s
  else
    match p.1.acc with
    | .w1c => s.w p.1 (s.r p.1 p.2.1 p.2.2 - (s.r p.1 p.2.1 p.2.2 &&& x)) p.2.1 p.2.2
    | .wo => s
    | _ => if nsField a && decide (999999999 < x) then s else s.w p.1 (heldValue p.1 v) p.2.1 p.2.2

/-- The write counts as refused: a reserved bit is 1, or a closed field would change (R517). -/
def writeRefused (a v : Nat) (s : State) : Bool :=
  reservedBits a v != 0 || (wordFields a).any fun p => !p.1.acc.opens s.mode && p.1.part v != s.r p.1 p.2.1 p.2.2

/-- HST records a refused write. -/
def refusedMark (a : Nat) (s : State) : State :=
  raiseTick ((s.w Reg.HST_REFUSED_WR.OFFSET a).wb Reg.HST_REFUSED_WR.VALID true) 416

/-! ### What a write sets off -/

/-- A ring's words: a write of EN that changes it, and of BASE or SIZE_LOG2 in MAINTENANCE (R346, R361). -/
def ringHook (k : RingKind) (i o : Nat) (was s : State) : State :=
  if o = 12 then
    let old := was.rb (ringEn k) i
    let new := s.rb (ringEn k) i
    if old = new then s else if new then ringEnSet k i (s.wb (ringEn k) false i) else ringEnClear k i s
  else if o < 12 ∧ s.mode = .maintenance then
    if (k, i) ∈ s.hst.idxZero then s else { s with hst := { s.hst with idxZero := s.hst.idxZero ++ [(k, i)] } }
  else s

/-- An MSI-X entry unmasked while its pending bit is set sends its message. -/
def msixHook (i : Nat) (s : State) : State :=
  if !s.rb Reg.MSIX.MASK i && bitAt (s.r Reg.MSIX_PBA.PENDING) i && s.hst.pcie.msixEn && !s.hst.pcie.funcMask then
    (s.wset Reg.MSIX_PBA.PENDING i false).emit (.msix i)
  else s

/-- The hooks of the TTU block: the latch, the budget registers, outputs and capture inputs. -/
def ttuHook (a v cyc : Nat) (was s : State) : State :=
  if a = 0x240 then ttuLatch v cyc s
  else if a = 0x88 then ttuBudgetClr v s
  else if 0x300 ≤ a ∧ a < 0x400 ∧ a % 0x40 = 0 then
    let n := (a - 0x300) / 0x40
    let on := s.rb Reg.TTU_PULSE.EN n
    let changed := was.rb Reg.TTU_PULSE.EN n != on
    let s := if changed then pulseEnable s n (cycU cyc) on
      else if on && was.r Reg.TTU_PULSE.TB_SEL n != s.r Reg.TTU_PULSE.TB_SEL n then pulseBase s n (cycU cyc) else s
    if was.rb Reg.TTU_PULSE.POL n != s.rb Reg.TTU_PULSE.POL n || (changed && !on) then pulseIdle s n else s
  else if 0x400 ≤ a ∧ a < 0x480 ∧ a % 0x20 = 0 then
    let n := (a - 0x400) / 0x20
    if was.rb Reg.TTU_CAPT.EN n = s.rb Reg.TTU_CAPT.EN n then s else captEnable s n (s.rb Reg.TTU_CAPT.EN n)
  else s

/-- The hooks of HST: doorbell sampling enabled takes its reference anew (R359); the rings. -/
def hstHook (a : Nat) (was s : State) : State :=
  if a = 0xD0048 then
    if !was.rb Reg.HST_DB_CFG.DB_EN && s.rb Reg.HST_DB_CFG.DB_EN then dbRefDrop s else s
  else if 0xD1000 ≤ a ∧ a < 0xD1800 then ringHook .sq ((a - 0xD1000) / 0x20) (a % 0x20) was s
  else if 0xD2000 ≤ a ∧ a < 0xD2800 then ringHook .cq ((a - 0xD2000) / 0x20) (a % 0x20) was s
  else if 0xD3000 ≤ a ∧ a < 0xD3200 then ringHook .eq ((a - 0xD3000) / 0x20) (a % 0x20) was s
  else s

/-- The hooks of Glint: the controls of the trigger machine and of a stream's mark. -/
def gltHook (a v cyc : Nat) (s : State) : State :=
  if s.mode = .boot then s
  else if a = 0x12000C then
    let s := if bitAt v 0 then gltArm s else s
    let s := if bitAt v 1 then gltStop s else s
    if bitAt v 2 then gltForce cyc s else s
  else if 0x120100 ≤ a ∧ a < 0x120200 ∧ a % 0x20 = 0x14 then
    let k := (a - 0x120100) / 0x20
    let s := if bitAt v 0 then markHere k s else s
    if bitAt v 1 then markClear k s else s
  else s

/-- A switch input at rest becomes active, or inactive, when its polarity is changed (R406); one that becomes active trips. -/
def posHook (n : Nat) (was s : State) : State :=
  let flip (pol : Field) (sw : Nat) (s : State) : State :=
    if was.rb pol n = s.rb pol n then s
    else if bitAt (posCh s n).act sw then setPosCh s n { posCh s n with act := clrBit (posCh s n).act sw }
    else switchTrip n sw s
  flip Reg.POS_CH.HOME_POL 2 (flip Reg.POS_CH.LIM_POL 1 (flip Reg.POS_CH.LIM_POL 0 s))

/-- What a write of word a sets off beside its fields; `was` is the state before it. -/
def writeHook (a v cyc : Nat) (was s : State) : State :=
  if a < 0x10000 then ttuHook a v cyc was s
  else if 0x10100 ≤ a ∧ a < 0x10200 then
    if s.mode = .maintenance then ethCfgWritten was s ((a - 0x10100) / 0x80) else s
  else if 0x50010 ≤ a ∧ a ≤ 0x50028 then originOwn s
  else if a = 0xC0020 then soloConfirm (BitVec.ofNat 32 v) s
  else if 0xD0000 ≤ a ∧ a < 0xE0000 then hstHook a was s
  else if 0x80100 ≤ a ∧ a < 0x80300 ∧ a % 0x80 = 0 then posHook ((a - 0x80100) / 0x80) was s
  else if 0x120000 ≤ a ∧ a < 0x130000 then gltHook a v cyc s
  else s

/-! ### BAR0 and BAR2 -/

/-- A write to BAR0. The MSI-X table follows the PCIe specification: no write to it or to the pending bits is refused. -/
def bar0Write (a v cyc : Nat) (s : State) : State :=
  let fs := wordFields a
  if 0x1F0000 ≤ a then
    let t := fs.foldl (fieldWrite a v) s
    if a < 0x1F0200 ∧ a % 16 = 12 then msixHook ((a - 0x1F0000) / 16) t
    else if a < 0x1F0200 ∨ a = 0x1F8000 then t
    else refusedMark a t
  else
    let r := writeRefused a v s
    let t := fs.foldl (fieldWrite a v) s
    let open_ := fs.any fun p => p.1.acc.opens s.mode
    let t := if open_ then writeHook a v cyc s t else t
    if r || fs.isEmpty then refusedMark a t else t

/-- The control word of a transmit buffer: ABORT and RELEASE act before REQ. -/
def txbControl (c b v : Nat) (s : State) : State :=
  let s := if bitAt v 1 then txAbort c b s else s
  let s := if bitAt v 2 then txRelease c b s else s
  if bitAt v 0 then txReq c b s else s

/-- A write to the window of channel c in BAR2, at offset o. -/
def bar2Write (c o : Nat) (value : Word) (s : State) : State :=
  if s.mode = .boot then s
  else if o < 0x1000 then
    if o % 0x80 = 0 then
      (if bitAt value.toNat 0 then boxLock c (o / 0x80) value.toNat s else boxUnlock c (o / 0x80) value.toNat s)
    else s
  else if o < 0x1180 then
    let b := (o - 0x1000) / 0x80
    let w := o % 0x80
    if w = 0 then txbControl c b value.toNat s
    else if 0x20 ≤ w then txRecord c b ((w - 0x20) / 4) value s
    else s
  else s

/-- A write of the host: BAR0 at its offset, BAR2 counted on from 0x20_0000. In DEAD every write is ignored. -/
def hostWriteReg (addr : Nat) (value : Word) (cyc : Nat) (s : State) : State :=
  let a := addr / 4 * 4
  if s.mode = .dead then s
  else if a < 0x200000 then bar0Write a value.toNat cyc s
  else if a < 0x210000 then bar2Write ((a - 0x200000) / 0x4000) (a % 0x4000) value s
  else s

/-! ### The commands -/

/-- A write of any register without a row of its own (and, given the address of one that has, what its row does). -/
def execRegisterWrite (addr : Nat) (value : Word) (cyc : Nat) (s : State) : Host.Outcome State Fault Refusal :=
  withOutAt s (some (cycU cyc)) (hostWriteReg addr value cyc)

/-- A write of KVT_HWIN_SAVE: SAVE is RWS, and the map is stored at the next tick boundary (R464). -/
def execKvtHwinSave (value : Word) (cyc : Nat) (s : State) : Host.Outcome State Fault Refusal :=
  withOutAt s (some (cycU cyc)) (hostWriteReg 0x100280 value cyc)

/-- A write of TTU_LATCH (R60). -/
def execTtuLatch (value : Word) (cyc : Nat) (s : State) : Host.Outcome State Fault Refusal :=
  withOutAt s (some (cycU cyc)) (hostWriteReg 0x240 value cyc)

/-- A write of TTU_BUDGET_CLR (R56). -/
def execTtuBudgetClr (value : Word) (s : State) : Host.Outcome State Fault Refusal :=
  withOut s (hostWriteReg 0x88 value 0)

/-- A write of TWN_CTRL with its confirmation of solo operation (R336). -/
def execSoloConfirm (value : Word) (s : State) : Host.Outcome State Fault Refusal :=
  withOut s (hostWriteReg 0xC0020 value 0)

end Sys2Proof.Machine
end

