-- ==== Sys2Proof/Machine/Tick.lean ====
section
/-! DEFINITION. Sys2Proof/Machine/Tick.lean: the tick boundary and the watch boundary, as what every unit does at them in
order (R35, R38, R39, R40, R495). -/

namespace Sys2Proof.Machine

open Sys2Proof

/-! ### The tick boundary -/

/-- The end of the old tick: frames waiting or planned have gone out. -/
def tickEnd (s : State) : State := luvEnd (burstsEnd s)

/-- The strobe: the tick number and the time bases advance, and what is limited to once per tick starts anew. -/
def tickStrobe (s : State) : State :=
  let s := ttuTick (stepsMirror s)
  { s with onceTick := [], hst := { s.hst with win := 0 } }

/-- A change of mode due at this boundary (R492, R493). -/
def modeDue (s : State) : State :=
  match s.modeNext with
  | some .maintenance => maintEntry { s with modeNext := none }
  | _ => { s with modeNext := none }

/-- What runs on in an ACTIVATE pause (step 2 of R495). -/
def pausedTick (s : State) : State := stpTick (kvtTick (bootTick s))

/-- The fleet's and the host's side of a boundary: modes, the lead's stream, the pair, the rings and the pool. -/
def controlTick (s : State) : State := cplTick (ringsTick (twnTick (streamsApply (modeDue (bootTick s)))))

/-- The radio, the stop path and the receivers. -/
def radioTick (w : TickIn) (s : State) : State :=
  let s := secTick (stpTick (luvPrep s))
  let s := if s.mode == .boot then s else ethTick s
  obsRun (sxtTick w.biasMa w.bands s)

/-- The engines that drive the fleet. -/
def fleetTick (w : TickIn) (s : State) : State :=
  let s := prfTick (asgTick (fixTick (chtTick s)))
  let s := posTick (if s.mode == .boot then s else posMeasure w.vmotMv w.drvTemp w.coilMa s)
  canTick s

/-- The service subsystems, and what a boundary ends. -/
def serviceTick (w : TickIn) (s : State) : State :=
  let s := svcTick (kvtTick (gltTick s))
  let s := if s.mode == .boot || s.mode == .dead then s else pathUnion s w.paths
  lifeTick (partsTick s)

/-- The boundary after entry into DEAD: auctions are abandoned (R224), every channel is HALTED (R241) and the drives and
every CAN channel are OFF (R378, R402). -/
def deadTick (s : State) : State := canTick (posTick (prfTick (asgTick s)))

/-- A tick boundary: the strobe, and the end of TTU's slot (R40). In DEAD the tick and the time bases alone go on; a RESET
accepted in MAINTENANCE acts here. -/
def tickBoundary (w : TickIn) (s : State) : State :=
  if s.bt.reset then moduleReset 2 false s
  else
    let s := (tickStrobe (if s.mode == .dead then s else tickEnd s)).atInst (some 0)
    let s := if s.mode == .dead then slotUsed s 0 w.ttuUse.held else slotEnd s 0 w.ttuUse
    if s.mode == .dead then deadTick s
    else if s.paused then pausedTick s
    else
      let s := controlTick s
      if s.mode == .dead then s
      else if s.paused then stpTick (kvtTick s)
      else
        let s := serviceTick w (fleetTick w (radioTick w s))
        if s.mode == .dead then s else luvTick s

/-! ### The watch boundary -/

/-- The watch work of every unit but those an ACTIVATE pause stops. -/
def watchUnits (w : WatchIn) (s : State) : State :=
  let s := asgWatch (fixWatch (obsWatch (sxtWatch w.sats (ethWatch (unitsWatch s)))))
  let s := luvWatch (luvStore (secWatch s))
  svcWatch (gltWatch s)

/-- A watch boundary: once, with tick 0 of the watch. In DEAD nothing of it runs but the watch itself. -/
def watchBoundary (w : WatchIn) (s : State) : State :=
  if s.r Reg.TTU_WATCH_POS.TICK_IN_WATCH ≠ 0 ∨ s.ttu.watchDone = true then s
  else
    let s : State := { s with ttu := { s.ttu with watchDone := true }, onceWatch := [] }
    if s.mode == .dead then s
    else
      let s := ttuWatch w s
      let s := if s.paused || s.mode == .boot then s else watchUnits w s
      twnWatch s

/-! ### The commands -/

def execTickBoundary (w : TickIn) (s : State) : Host.Outcome State Fault Refusal := withOut s (tickBoundary w)
def execWatchBoundary (w : WatchIn) (s : State) : Host.Outcome State Fault Refusal := withBoundary s (watchBoundary w)

end Sys2Proof.Machine
end

