-- ==== Sys2Proof/Machine/Dispatch.lean ====
section
/-! DEFINITION. Sys2Proof/Machine/Dispatch.lean: one arm per command. -/

namespace Sys2Proof.Machine

open Sys2Proof

/-- The effect of a command on everything but the queue. -/
def exec (i : Instr) (s : State) : Host.Outcome State Fault Refusal :=
  match i with
  | .hstNop h => Sys2Proof.Machine.execHstNop h s
  | .ttuStepMeasured h rsv => Sys2Proof.Machine.execTtuStepMeasured h rsv s
  | .ttuStepAmount h amountNs rsv => Sys2Proof.Machine.execTtuStepAmount h amountNs rsv s
  | .ttuPulseArm h index start rsv => Sys2Proof.Machine.execTtuPulseArm h index start rsv s
  | .ttuPulseCancel h index start rsv => Sys2Proof.Machine.execTtuPulseCancel h index start rsv s
  | .obsSetPos h x y z store rsv => Sys2Proof.Machine.execObsSetPos h x y z store rsv s
  | .fixRoverDisable h rover rate rsv => Sys2Proof.Machine.execFixRoverDisable h rover rate rsv s
  | .fixRoverEnable h rover rate rsv => Sys2Proof.Machine.execFixRoverEnable h rover rate rsv s
  | .fixRoverReset h rover rate rsv => Sys2Proof.Machine.execFixRoverReset h rover rate rsv s
  | .chtReserveNew h rover nSeg bufAddr rsv buf => Sys2Proof.Machine.execChtReserveNew h rover nSeg bufAddr rsv buf s
  | .chtReserveAppend h rover nSeg bufAddr rsv buf => Sys2Proof.Machine.execChtReserveAppend h rover nSeg bufAddr rsv buf s
  | .chtReserveReplace h rover nSeg bufAddr rsv buf => Sys2Proof.Machine.execChtReserveReplace h rover nSeg bufAddr rsv buf s
  | .chtRelease h rover force rsv => Sys2Proof.Machine.execChtRelease h rover force rsv s
  | .chtStaging h rover e n radius rsv => Sys2Proof.Machine.execChtStaging h rover e n radius rsv s
  | .chtStagingRemove h rover e n rsv => Sys2Proof.Machine.execChtStagingRemove h rover e n rsv s
  | .asgSubmit h warm preempt tag bufAddr bufLen rsv => Sys2Proof.Machine.execAsgSubmit h warm preempt tag bufAddr bufLen rsv s
  | .asgCancel h rsv => Sys2Proof.Machine.execAsgCancel h rsv s
  | .asgCancelPending h rsv => Sys2Proof.Machine.execAsgCancelPending h rsv s
  | .prfBind h channel kind sink rsv => Sys2Proof.Machine.execPrfBind h channel kind sink rsv s
  | .prfUnbind h channel sink rsv => Sys2Proof.Machine.execPrfUnbind h channel sink rsv s
  | .prfProfileUpdate h channel fields bufAddr rsv buf => Sys2Proof.Machine.execPrfProfileUpdate h channel fields bufAddr rsv buf s
  | .prfProfileStart h channel fields bufAddr rsv buf => Sys2Proof.Machine.execPrfProfileStart h channel fields bufAddr rsv buf s
  | .prfProfileStop h channel fields bufAddr rsv buf => Sys2Proof.Machine.execPrfProfileStop h channel fields bufAddr rsv buf s
  | .prfProfileHalt h channel fields bufAddr rsv buf => Sys2Proof.Machine.execPrfProfileHalt h channel fields bufAddr rsv buf s
  | .stpStopFleet h rsv => Sys2Proof.Machine.execStpStopFleet h rsv s
  | .stpStopRover h rover rsv => Sys2Proof.Machine.execStpStopRover h rover rsv s
  | .stpResumeFleet h rsv => Sys2Proof.Machine.execStpResumeFleet h rsv s
  | .stpResumeRover h rover rsv => Sys2Proof.Machine.execStpResumeRover h rover rsv s
  | .luvSlotSet h rover cfg rsv => Sys2Proof.Machine.execLuvSlotSet h rover cfg rsv s
  | .luvSlotRemove h rover cfg rsv => Sys2Proof.Machine.execLuvSlotRemove h rover cfg rsv s
  | .twnRoleSetLead h rsv => Sys2Proof.Machine.execTwnRoleSetLead h rsv s
  | .twnRoleSetTime h rsv => Sys2Proof.Machine.execTwnRoleSetTime h rsv s
  | .cplQueueSet h queue notice maxCells minCells maxPkts rsv => Sys2Proof.Machine.execCplQueueSet h queue notice maxCells minCells maxPkts rsv s
  | .cplQueueDelete h queue rsv => Sys2Proof.Machine.execCplQueueDelete h queue rsv s
  | .cplRead h queue maxPkts bufLen bufAddr rsv => Sys2Proof.Machine.execCplRead h queue maxPkts bufLen bufAddr rsv s
  | .canSend h channel bufAddr rsv buf => Sys2Proof.Machine.execCanSend h channel bufAddr rsv buf s
  | .canCtrlOff h channel rsv => Sys2Proof.Machine.execCanCtrlOff h channel rsv s
  | .canCtrlOn h channel rsv => Sys2Proof.Machine.execCanCtrlOn h channel rsv s
  | .canCtrlSleep h channel rsv => Sys2Proof.Machine.execCanCtrlSleep h channel rsv s
  | .canCtrlRecover h channel rsv => Sys2Proof.Machine.execCanCtrlRecover h channel rsv s
  | .canCtrlFlush h channel rsv => Sys2Proof.Machine.execCanCtrlFlush h channel rsv s
  | .posDriveDisable h channel flags rsv => Sys2Proof.Machine.execPosDriveDisable h channel flags rsv s
  | .posDriveEnable h channel flags rsv => Sys2Proof.Machine.execPosDriveEnable h channel flags rsv s
  | .posDriveSetPos h channel flags position rsv => Sys2Proof.Machine.execPosDriveSetPos h channel flags position rsv s
  | .posDriveSyncEnc h channel flags rsv => Sys2Proof.Machine.execPosDriveSyncEnc h channel flags rsv s
  | .posDriveClear h channel flags rsv => Sys2Proof.Machine.execPosDriveClear h channel flags rsv s
  | .posHome h channel flags fast slow offset maxTravel rsv => Sys2Proof.Machine.execPosHome h channel flags fast slow offset maxTravel rsv s
  | .gltReadBlocks h stream module flags start bufAddr bufLen rsv peer => Sys2Proof.Machine.execGltReadBlocks h stream module flags start bufAddr bufLen rsv peer s
  | .gltReadMark h stream module flags start bufAddr bufLen rsv peer => Sys2Proof.Machine.execGltReadMark h stream module flags start bufAddr bufLen rsv peer s
  | .gltReadWindow h stream module flags start bufAddr bufLen rsv peer => Sys2Proof.Machine.execGltReadWindow h stream module flags start bufAddr bufLen rsv peer s
  | .gltReadRecords h stream module flags start bufAddr bufLen rsv peer => Sys2Proof.Machine.execGltReadRecords h stream module flags start bufAddr bufLen rsv peer s
  | .logRead h module start bufAddr bufLen rsv peer => Sys2Proof.Machine.execLogRead h module start bufAddr bufLen rsv peer s
  | .kvtKeyLoad h bufAddr rsv buf => Sys2Proof.Machine.execKvtKeyLoad h bufAddr rsv buf s
  | .kvtCommit h rsv => Sys2Proof.Machine.execKvtCommit h rsv s
  | .kvtCommitDiscard h rsv => Sys2Proof.Machine.execKvtCommitDiscard h rsv s
  | .svcUnitOut h cls index module rsv => Sys2Proof.Machine.execSvcUnitOut h cls index module rsv s
  | .svcUnitReturn h cls index module rsv => Sys2Proof.Machine.execSvcUnitReturn h cls index module rsv s
  | .svcUnitRestore h cls index module rsv => Sys2Proof.Machine.execSvcUnitRestore h cls index module rsv s
  | .bootImageLoad h module bufAddr bufLen rsv buf => Sys2Proof.Machine.execBootImageLoad h module bufAddr bufLen rsv buf s
  | .enterMaint h module rsv => Sys2Proof.Machine.execEnterMaint h module rsv s
  | .leaveMaint h module rsv => Sys2Proof.Machine.execLeaveMaint h module rsv s
  | .activate h module rsv => Sys2Proof.Machine.execActivate h module rsv s
  | .saveConfig h module rsv => Sys2Proof.Machine.execSaveConfig h module rsv s
  | .bootControlReset h module rsv => Sys2Proof.Machine.execBootControlReset h module rsv s
  | .tickLoRead => Sys2Proof.Machine.execTickLoRead s
  | .offsetLoRead => Sys2Proof.Machine.execOffsetLoRead s
  | .obsPosLoRead axis => Sys2Proof.Machine.execObsPosLoRead axis s
  | .lastReflRead => Sys2Proof.Machine.execLastReflRead s
  | .rxHLoRead r => Sys2Proof.Machine.execRxHLoRead r s
  | .txLoRead r => Sys2Proof.Machine.execTxLoRead r s
  | .logPortRewind => Sys2Proof.Machine.execLogPortRewind s
  | .logPortData => Sys2Proof.Machine.execLogPortData s
  | .ttuLatch value cyc => Sys2Proof.Machine.execTtuLatch value cyc s
  | .ttuBudgetClr value => Sys2Proof.Machine.execTtuBudgetClr value s
  | .soloConfirm value => Sys2Proof.Machine.execSoloConfirm value s
  | .gltArm => Sys2Proof.Machine.execGltArm s
  | .gltStop => Sys2Proof.Machine.execGltStop s
  | .gltForce cyc => Sys2Proof.Machine.execGltForce cyc s
  | .markHere k => Sys2Proof.Machine.execMarkHere k s
  | .markClear k => Sys2Proof.Machine.execMarkClear k s
  | .canTxbReq c b => Sys2Proof.Machine.execCanTxbReq c b s
  | .canTxbAbort c b => Sys2Proof.Machine.execCanTxbAbort c b s
  | .canTxbRelease c b => Sys2Proof.Machine.execCanTxbRelease c b s
  | .mailboxLock c m w1c => Sys2Proof.Machine.execMailboxLock c m w1c s
  | .mailboxUnlock c m w1c => Sys2Proof.Machine.execMailboxUnlock c m w1c s
  | .kvtHwinSave value cyc => Sys2Proof.Machine.execKvtHwinSave value cyc s
  | .sqEnClear q => Sys2Proof.Machine.execSqEnClear q s
  | .cqEnClear j => Sys2Proof.Machine.execCqEnClear j s
  | .eqEnClear k => Sys2Proof.Machine.execEqEnClear k s
  | .ringEnSet kind idx => Sys2Proof.Machine.execRingEnSet kind idx s
  | .registerWrite addr value cyc => Sys2Proof.Machine.execRegisterWrite addr value cyc s
  | .powerUp b => Sys2Proof.Machine.execPowerUp b s
  | .bootEnd => Sys2Proof.Machine.execBootEnd s
  | .supplyFailure => Sys2Proof.Machine.execSupplyFailure s
  | .pcieHotReset => Sys2Proof.Machine.execPcieHotReset s
  | .pcieLinkDown => Sys2Proof.Machine.execPcieLinkDown s
  | .pcieLinkUp => Sys2Proof.Machine.execPcieLinkUp s
  | .tamper cyc => Sys2Proof.Machine.execTamper cyc s
  | .lockstepMismatch => Sys2Proof.Machine.execLockstepMismatch s
  | .stopInEdge chan rel => Sys2Proof.Machine.execStopInEdge chan rel s
  | .pairRun p => Sys2Proof.Machine.execPairRun p s
  | .pairFault p rel => Sys2Proof.Machine.execPairFault p rel s
  | .pairFaultClear p => Sys2Proof.Machine.execPairFaultClear p s
  | .peerStop rel => Sys2Proof.Machine.execPeerStop rel s
  | .outReadbackFault n rel => Sys2Proof.Machine.execOutReadbackFault n rel s
  | .outFaultClear n => Sys2Proof.Machine.execOutFaultClear n s
  | .doorbellSample => Sys2Proof.Machine.execDoorbellSample s
  | .doorbellReadDone block cyc => Sys2Proof.Machine.execDoorbellReadDone block cyc s
  | .doorbellReadFail cyc => Sys2Proof.Machine.execDoorbellReadFail cyc s
  | .hstWindow use => Sys2Proof.Machine.execHstWindow use s
  | .descReadDone ok descs bufs cyc => Sys2Proof.Machine.execDescReadDone ok descs bufs cyc s
  | .evtOverflowRecord k => Sys2Proof.Machine.execEvtOverflowRecord k s
  | .tickBoundary w => Sys2Proof.Machine.execTickBoundary w s
  | .watchBoundary w => Sys2Proof.Machine.execWatchBoundary w s
  | .stpArmSlot ok use => Sys2Proof.Machine.execStpArmSlot ok use s
  | .sxtSlot use x => Sys2Proof.Machine.execSxtSlot use x s
  | .fixSlot use stores loads => Sys2Proof.Machine.execFixSlot use stores loads s
  | .obsSlot use o => Sys2Proof.Machine.execObsSlot use o s
  | .obsPosCheck => Sys2Proof.Machine.execObsPosCheck s
  | .chtSlot use limit => Sys2Proof.Machine.execChtSlot use limit s
  | .asgSlot use bids => Sys2Proof.Machine.execAsgSlot use bids s
  | .prfSlot use => Sys2Proof.Machine.execPrfSlot use s
  | .backgroundWindow w => Sys2Proof.Machine.execBackgroundWindow w s
  | .twnSlot use packed => Sys2Proof.Machine.execTwnSlot use packed s
  | .twnClaimDecision => Sys2Proof.Machine.execTwnClaimDecision s
  | .beaconAssembly use => Sys2Proof.Machine.execBeaconAssembly use s
  | .beaconTag use => Sys2Proof.Machine.execBeaconTag use s
  | .gltBacklogCheck => Sys2Proof.Machine.execGltBacklogCheck s
  | .fixSolutionDone r x => Sys2Proof.Machine.execFixSolutionDone r x s
  | .fixDeadline => Sys2Proof.Machine.execFixDeadline s
  | .uploadWindowClose => Sys2Proof.Machine.execUploadWindowClose s
  | .filterExpired r => Sys2Proof.Machine.execFilterExpired r s
  | .fixKat results => Sys2Proof.Machine.execFixKat results s
  | .clusterFault c => Sys2Proof.Machine.execClusterFault c s
  | .clusterBack c => Sys2Proof.Machine.execClusterBack c s
  | .clusterRestored c => Sys2Proof.Machine.execClusterRestored c s
  | .chtGrant r => Sys2Proof.Machine.execChtGrant r s
  | .corridorRest r => Sys2Proof.Machine.execCorridorRest r s
  | .segmentFreed r => Sys2Proof.Machine.execSegmentFreed r s
  | .roverLost r => Sys2Proof.Machine.execRoverLost r s
  | .uplinkFrameRx f => Sys2Proof.Machine.execUplinkFrameRx f s
  | .downlinkSlot hb j => Sys2Proof.Machine.execDownlinkSlot hb j s
  | .bulkSlot hb j => Sys2Proof.Machine.execBulkSlot hb j s
  | .lanternHeartbeat => Sys2Proof.Machine.execLanternHeartbeat s
  | .ccaAssess hb busy => Sys2Proof.Machine.execCcaAssess hb busy s
  | .radarDetect hb cyc => Sys2Proof.Machine.execRadarDetect hb cyc s
  | .cacDone hb => Sys2Proof.Machine.execCacDone hb s
  | .channelBarEnd mhz => Sys2Proof.Machine.execChannelBarEnd mhz s
  | .hbFault hb => Sys2Proof.Machine.execHbFault hb s
  | .hbBack hb => Sys2Proof.Machine.execHbBack hb s
  | .hbRestored hb => Sys2Proof.Machine.execHbRestored hb s
  | .beaconRx epoch => Sys2Proof.Machine.execBeaconRx epoch s
  | .ackRxListen => Sys2Proof.Machine.execAckRxListen s
  | .oldKeyEnd => Sys2Proof.Machine.execOldKeyEnd s
  | .linkStatusFrame f => Sys2Proof.Machine.execLinkStatusFrame f s
  | .peerDeadFrame crcOk powerFail tick logs => Sys2Proof.Machine.execPeerDeadFrame crcOk powerFail tick logs s
  | .peerGoneSignal => Sys2Proof.Machine.execPeerGoneSignal s
  | .healthFault => Sys2Proof.Machine.execHealthFault s
  | .leadClaimSeen => Sys2Proof.Machine.execLeadClaimSeen s
  | .linkSilent health => Sys2Proof.Machine.execLinkSilent health s
  | .twnLinkUp => Sys2Proof.Machine.execTwnLinkUp s
  | .leadElection => Sys2Proof.Machine.execLeadElection s
  | .tickAdopt a => Sys2Proof.Machine.execTickAdopt a s
  | .twnInSync snap => Sys2Proof.Machine.execTwnInSync snap s
  | .reflStreamRx tick items x => Sys2Proof.Machine.execReflStreamRx tick items x s
  | .reflAckRx tick a late results => Sys2Proof.Machine.execReflAckRx tick a late results s
  | .reflUnacked => Sys2Proof.Machine.execReflUnacked s
  | .twnClaim tags => Sys2Proof.Machine.execTwnClaim tags s
  | .twnStepDown => Sys2Proof.Machine.execTwnStepDown s
  | .twnHandover tags => Sys2Proof.Machine.execTwnHandover tags s
  | .captEdge n falling at_ => Sys2Proof.Machine.execCaptEdge n falling at_ s
  | .ppsEdge falling at_ => Sys2Proof.Machine.execPpsEdge falling at_ s
  | .refFreqFault => Sys2Proof.Machine.execRefFreqFault s
  | .timeSourceLost src => Sys2Proof.Machine.execTimeSourceLost src s
  | .timeStepApply => Sys2Proof.Machine.execTimeStepApply s
  | .pulseEdge n => Sys2Proof.Machine.execPulseEdge n s
  | .ptpMessageRx p m => Sys2Proof.Machine.execPtpMessageRx p m s
  | .ptpSyncTx p x => Sys2Proof.Machine.execPtpSyncTx p x s
  | .ptpAnnounceTx p => Sys2Proof.Machine.execPtpAnnounceTx p s
  | .ptpDelayReqTx p x => Sys2Proof.Machine.execPtpDelayReqTx p x s
  | .ptpAnnounceTimeout p cyc => Sys2Proof.Machine.execPtpAnnounceTimeout p cyc s
  | .ethLinkChange p up cyc => Sys2Proof.Machine.execEthLinkChange p up cyc s
  | .ethPortBack => Sys2Proof.Machine.execEthPortBack s
  | .antShort => Sys2Proof.Machine.execAntShort s
  | .antRetry => Sys2Proof.Machine.execAntRetry s
  | .antOpen => Sys2Proof.Machine.execAntOpen s
  | .antOk => Sys2Proof.Machine.execAntOk s
  | .acqFound ch sig sv x => Sys2Proof.Machine.execAcqFound ch sig sv x s
  | .chTrack ch => Sys2Proof.Machine.execChTrack ch s
  | .chLockLoss ch => Sys2Proof.Machine.execChLockLoss ch s
  | .reacqExpire ch => Sys2Proof.Machine.execReacqExpire ch s
  | .navUnitDone ch u => Sys2Proof.Machine.execNavUnitDone ch u s
  | .notchEngage b bin cyc => Sys2Proof.Machine.execNotchEngage b bin cyc s
  | .notchRelease b n => Sys2Proof.Machine.execNotchRelease b n s
  | .jamCalDone b => Sys2Proof.Machine.execJamCalDone b s
  | .bankFault b bad => Sys2Proof.Machine.execBankFault b bad s
  | .bankBack b => Sys2Proof.Machine.execBankBack b s
  | .bankRestored b => Sys2Proof.Machine.execBankRestored b s
  | .ephStore sat => Sys2Proof.Machine.execEphStore sat s
  | .asgMatrixReadDone h buf => Sys2Proof.Machine.execAsgMatrixReadDone h buf s
  | .asgAuctionStart => Sys2Proof.Machine.execAsgAuctionStart s
  | .asgPublish => Sys2Proof.Machine.execAsgPublish s
  | .asgNoResult => Sys2Proof.Machine.execAsgNoResult s
  | .asgAbandonLimit => Sys2Proof.Machine.execAsgAbandonLimit s
  | .prfPosUpdate n la => Sys2Proof.Machine.execPrfPosUpdate n la s
  | .switchTrip n sw => Sys2Proof.Machine.execSwitchTrip n sw s
  | .switchRelease n sw => Sys2Proof.Machine.execSwitchRelease n sw s
  | .switchChatter n sw => Sys2Proof.Machine.execSwitchChatter n sw s
  | .encIndex n => Sys2Proof.Machine.execEncIndex n s
  | .homeTravelLimit n => Sys2Proof.Machine.execHomeTravelLimit n s
  | .encStall n => Sys2Proof.Machine.execEncStall n s
  | .laStall n => Sys2Proof.Machine.execLaStall n s
  | .phaseShort n => Sys2Proof.Machine.execPhaseShort n s
  | .drvOvertemp celsius => Sys2Proof.Machine.execDrvOvertemp celsius s
  | .drvTempWarn celsius => Sys2Proof.Machine.execDrvTempWarn celsius s
  | .vmotLow mv => Sys2Proof.Machine.execVmotLow mv s
  | .vmotOk mv => Sys2Proof.Machine.execVmotOk mv s
  | .posHoldCurrent n => Sys2Proof.Machine.execPosHoldCurrent n s
  | .canFrameRx c f => Sys2Proof.Machine.execCanFrameRx c f s
  | .canTxDone c sofAt => Sys2Proof.Machine.execCanTxDone c sofAt s
  | .canBitError c => Sys2Proof.Machine.execCanBitError c s
  | .canBusOff c => Sys2Proof.Machine.execCanBusOff c s
  | .canErrPassive c errs rx => Sys2Proof.Machine.execCanErrPassive c errs rx s
  | .canRecovered c => Sys2Proof.Machine.execCanRecovered c s
  | .canFrameExpired c frame => Sys2Proof.Machine.execCanFrameExpired c frame s
  | .canStopRepeat => Sys2Proof.Machine.execCanStopRepeat s
  | .canWake c by_ => Sys2Proof.Machine.execCanWake c by_ s
  | .isoAddrClaimed c => Sys2Proof.Machine.execIsoAddrClaimed c s
  | .canCtrlFault k readable => Sys2Proof.Machine.execCanCtrlFault k readable s
  | .canCtrlBack k => Sys2Proof.Machine.execCanCtrlBack k s
  | .canCtrlRestored k => Sys2Proof.Machine.execCanCtrlRestored k s
  | .gltTrigger x => Sys2Proof.Machine.execGltTrigger x s
  | .gltFillDone cyc => Sys2Proof.Machine.execGltFillDone cyc s
  | .gltPostDone cyc => Sys2Proof.Machine.execGltPostDone cyc s
  | .gltHoldoffDone cyc => Sys2Proof.Machine.execGltHoldoffDone cyc s
  | .logRecordStore portFault badBlock => Sys2Proof.Machine.execLogRecordStore portFault badBlock s
  | .kvtLoadDone readBack peer => Sys2Proof.Machine.execKvtLoadDone readBack peer s
  | .kvtRecordsDone peer => Sys2Proof.Machine.execKvtRecordsDone peer s
  | .kvtCommitEffect => Sys2Proof.Machine.execKvtCommitEffect s
  | .kvtRemask finished => Sys2Proof.Machine.execKvtRemask finished s
  | .scrubLate m => Sys2Proof.Machine.execScrubLate m s
  | .calStale k => Sys2Proof.Machine.execCalStale k s
  | .unitRetest cls index pass => Sys2Proof.Machine.execUnitRetest cls index pass s
  | .stopPathSelfTest passA passB => Sys2Proof.Machine.execStopPathSelfTest passA passB s
  | .telemetry m => Sys2Proof.Machine.execTelemetry m s
  | .imageWriteDone ok => Sys2Proof.Machine.execImageWriteDone ok s
  | .configSaveDone => Sys2Proof.Machine.execConfigSaveDone s
  | .activateCheckDone ok => Sys2Proof.Machine.execActivateCheckDone ok s
  | .activateReturn started => Sys2Proof.Machine.execActivateReturn started s
  | .bitSync ch d2 => Sys2Proof.Machine.execBitSync ch d2 s
  | .secondaryCodeSync ch => Sys2Proof.Machine.execSecondaryCodeSync ch s
  | .canIntegrated c => Sys2Proof.Machine.execCanIntegrated c s
  | .encoderEdge n a b => Sys2Proof.Machine.execEncoderEdge n a b s
  | .posAutoTuneDone n kp ki => Sys2Proof.Machine.execPosAutoTuneDone n kp ki s
  | .healthWaveRestored => Sys2Proof.Machine.execHealthWaveRestored s
  | .busMasterEnable c => Sys2Proof.Machine.execBusMasterEnable c s

end Sys2Proof.Machine
end

