-- ==== Sys2Proof/WellFormed.lean ====
section
/-! DEFINITION. Sys2Proof/WellFormed.lean: which commands can occur at all: every operand of a ring command fits the
field of its descriptor that holds it, and the operands of an event lie in the ranges of what they name. -/

namespace Sys2Proof

/-! ### The checks -/

/-- v fits in n bytes. -/
def fits (n v : Nat) : Bool := decide (v < 2 ^ (8 * n))

/-- i fits in n bytes of two's complement. -/
def fitsI (n : Nat) (i : Int) : Bool :=
  decide (-((2 ^ (8 * n - 1) : Nat) : Int) ≤ i) && decide (i < ((2 ^ (8 * n - 1) : Nat) : Int))

/-- A cycle of the 250 MHz time counter within a tick (R35). -/
def cycOk (cyc : Nat) : Bool := decide (cyc < 250000)

/-- An instant in 2⁻¹⁶ ns after a tick boundary: a tick is 1 ms of the time counter, whatever the rate of TB3. -/
def atOk (t : Nat) : Bool := decide (t < 2 * 1000000 * 65536)

/-- The SOF of a frame that ends in this tick lies in it or up to 100 ms before it. -/
def sofOk (t : Int) : Bool := decide (-(100 * 1000000 * 65536) ≤ t) && decide (t < 2 * 1000000 * 65536)

/-- A handle names an SQ, a 16-bit index, a TAG and a cycle (R346, R348). -/
def Handle.ok (h : Handle) : Bool := decide (h.sq < 64) && fits 2 h.idx && fits 4 h.tag && cycOk h.cyc

/-- A stamp field (R11). -/
def StampIn.ok (t : StampIn) : Bool := fits 2 t.sub && fits 4 t.ns && fits 6 t.sec

/-- The use of a slot, in 0.1 µs of a tick (R55). -/
def SlotUse.ok (u : SlotUse) : Bool := decide (u.held ≤ 10000)

/-- A stop release: a cycle, and a latency that STP_LAST can hold (R253). -/
def RelIn.ok (r : RelIn) : Bool := cycOk r.cyc && fits 4 r.latNs

/-- A received CAN frame: identifier of its format, DLC of 4 bits, at most 64 data bytes (R381). -/
def CanRx.ok (f : CanRx) : Bool :=
  decide (f.id < if f.ide then 2 ^ 29 else 2 ^ 11) && decide (f.dlc < 16) && decide (f.data.length ≤ 64) && sofOk f.sofAt

/-- A portIdentity: a clockIdentity of 8 bytes and a portNumber of 2. -/
def PortId.ok (p : PortId) : Bool := fits 8 p.clock && fits 2 p.port

/-- A grandmaster dataset: fields of the widths Announce gives them (R93). -/
def GmData.ok (g : GmData) : Bool :=
  fits 8 g.id && fits 1 g.prio1 && fits 1 g.clockClass && fits 1 g.accuracy && fits 2 g.variance && fits 1 g.prio2
    && fits 1 g.timeSource && fits 2 g.utc

/-- The header of a PTP message: domain of 1 byte, sdoId of 12 bits, sequenceId of 2 bytes, correctionField of 8. -/
def PtpHdr.ok (h : PtpHdr) : Bool :=
  fits 1 h.domain && decide (h.sdoId < 4096) && h.src.ok && fits 2 h.seq && fitsI 8 h.corr

/-- A PTP message: stamps within a tick, identities and datasets of their widths. -/
def PtpMsg.ok : PtpMsg → Bool
  | .sync _ _ t => atOk t
  | .followUp _ => true
  | .delayReq t => atOk t
  | .delayResp _ req => req.ok
  | .pdelayReq t tx taken => atOk t && atOk tx && decide (taken ≤ 8)
  | .pdelayResp _ _ req t => req.ok && atOk t
  | .pdelayFollowUp _ req => req.ok
  | .announce gm steps => gm.ok && fits 2 steps

/-- What a port receives (R86). -/
def PtpRx.ok : PtpRx → Bool
  | .other => true
  | .msg hd m => hd.ok && m.ok

/-- The correlators a channel reports name one of the 1,024 channels (R106). -/
def corrOk (cs : List CorrIn) : Bool := cs.all fun c => decide (c.ch < 1024)

/-- The measurements name channels (R116). -/
def measOk (ms : List MeasIn) : Bool := ms.all fun m => decide (m.ch < 1024)

/-- A navigation unit: masks of the words of a unit, at most 112 bytes of bits (R119). -/
def NavIn.ok (u : NavIn) : Bool := fits 4 u.failMask && fits 4 u.corrMask && decide (u.data.length ≤ 112)

/-- An uplink frame: header fields of their widths (R281), a tag of 16 bytes (R296), payload of at most the air interface's
longest frame. -/
def UplinkRx.ok (f : UplinkRx) : Bool :=
  fits 1 f.kind && fits 1 f.rover && fits 1 f.frag && fits 1 f.keyId && fits 6 f.seq && fits 1 f.rstat && fits 16 f.tag
    && decide (f.payload.length ≤ 2048)

/-- A ring index: 64 SQs, 64 CQs, 16 EQs (R346). -/
def RingKind.idxOk (k : RingKind) (i : Nat) : Bool := decide (i < if k = .eq then 16 else 64)

/-- A descriptor read from a ring has 32 bytes (R348). -/
def descLenOk (ds : List (List Byte)) : Bool := ds.all fun d => d.length == 32

/-- SLOT_CFG has 8 bytes (R278). -/
def cfgOk (cfg : List Byte) : Bool := cfg.length == 8

/-! ### Commands -/

/-- The command can occur. -/
def Instr.wf : Instr → Bool
  | .hstNop h => h.ok
  | .ttuStepMeasured h rsv => h.ok && fits 7 rsv
  | .ttuStepAmount h amountNs rsv => h.ok && fitsI 8 amountNs && fits 7 rsv
  | .ttuPulseArm h index start rsv
  | .ttuPulseCancel h index start rsv => h.ok && fits 1 index && start.ok && fits 6 rsv
  | .obsSetPos h x y z _ rsv => h.ok && fitsI 6 x && fitsI 6 y && fitsI 6 z && fits 1 rsv
  | .fixRoverDisable h rover rate rsv
  | .fixRoverEnable h rover rate rsv
  | .fixRoverReset h rover rate rsv => h.ok && fits 1 rover && fits 1 rate && fits 17 rsv
  | .chtReserveNew h rover nSeg bufAddr rsv _
  | .chtReserveAppend h rover nSeg bufAddr rsv _
  | .chtReserveReplace h rover nSeg bufAddr rsv _ => h.ok && fits 1 rover && fits 2 nSeg && fits 8 bufAddr && fits 4 rsv
  | .chtRelease h rover _ rsv => h.ok && fits 1 rover && fits 18 rsv
  | .chtStaging h rover e n radius rsv =>
    h.ok && fits 1 rover && fitsI 4 e && fitsI 4 n && fits 4 radius && decide (radius ≠ 0) && fits 3 rsv
  | .chtStagingRemove h rover e n rsv => h.ok && fits 1 rover && fitsI 4 e && fitsI 4 n && fits 3 rsv
  | .asgSubmit h _ _ tag bufAddr bufLen rsv => h.ok && fits 4 tag && fits 8 bufAddr && fits 4 bufLen && fits 3 rsv
  | .asgCancel h rsv
  | .asgCancelPending h rsv => h.ok && fits 19 rsv
  | .prfBind h channel kind sink rsv =>
    h.ok && fits 2 channel && fits 1 kind && decide (kind ≠ 0) && fits 1 sink && fits 16 rsv
  | .prfUnbind h channel sink rsv => h.ok && fits 2 channel && fits 1 sink && fits 16 rsv
  | .prfProfileUpdate h channel fields bufAddr rsv _
  | .prfProfileStart h channel fields bufAddr rsv _
  | .prfProfileStop h channel fields bufAddr rsv _
  | .prfProfileHalt h channel fields bufAddr rsv _ =>
    h.ok && fits 2 channel && fits 2 fields && fits 8 bufAddr && fits 3 rsv
  | .stpStopFleet h rsv
  | .stpResumeFleet h rsv => h.ok && fits 18 rsv
  | .stpStopRover h rover rsv
  | .stpResumeRover h rover rsv => h.ok && fits 1 rover && fits 18 rsv
  | .luvSlotSet h rover cfg rsv => h.ok && fits 1 rover && cfgOk cfg && decide (cfg.getD 4 0 ≠ 255) && fits 7 rsv
  | .luvSlotRemove h rover cfg rsv => h.ok && fits 1 rover && cfgOk cfg && decide (cfg.getD 4 0 = 255) && fits 7 rsv
  | .twnRoleSetLead h rsv
  | .twnRoleSetTime h rsv => h.ok && fits 19 rsv
  | .cplQueueSet h queue notice maxCells minCells maxPkts rsv =>
    h.ok && fits 2 queue && decide (notice < 2) && fits 4 maxCells && fits 4 minCells && fits 2 maxPkts && fits 6 rsv
  | .cplQueueDelete h queue rsv => h.ok && fits 2 queue && fits 6 rsv
  | .cplRead h queue maxPkts bufLen bufAddr rsv =>
    h.ok && fits 2 queue && fits 2 maxPkts && fits 4 bufLen && fits 8 bufAddr && fits 4 rsv
  | .canSend h channel bufAddr rsv _ => h.ok && fits 1 channel && fits 8 bufAddr && fits 7 rsv
  | .canCtrlOff h channel rsv
  | .canCtrlOn h channel rsv
  | .canCtrlSleep h channel rsv
  | .canCtrlRecover h channel rsv
  | .canCtrlFlush h channel rsv => h.ok && fits 1 channel && fits 18 rsv
  | .posDriveDisable h channel flags rsv
  | .posDriveEnable h channel flags rsv
  | .posDriveSyncEnc h channel flags rsv
  | .posDriveClear h channel flags rsv => h.ok && fits 1 channel && fits 1 flags && fits 5 rsv
  | .posDriveSetPos h channel flags position rsv => h.ok && fits 1 channel && fits 1 flags && fitsI 4 position && fits 5 rsv
  | .posHome h channel flags fast slow offset maxTravel rsv =>
    h.ok && fits 1 channel && fits 1 flags && fits 4 fast && fits 4 slow && fitsI 4 offset && fits 4 maxTravel && fits 2 rsv
  | .gltReadBlocks h stream module flags start bufAddr bufLen rsv _
  | .gltReadMark h stream module flags start bufAddr bufLen rsv _
  | .gltReadWindow h stream module flags start bufAddr bufLen rsv _
  | .gltReadRecords h stream module flags start bufAddr bufLen rsv _ =>
    h.ok && fits 1 stream && fits 1 module && fits 1 flags && fits 4 start && fits 8 bufAddr && fits 4 bufLen
      && decide (rsv = 0)
  | .logRead h module start bufAddr bufLen rsv _ =>
    h.ok && fits 1 module && fits 4 start && fits 8 bufAddr && fits 4 bufLen && fits 3 rsv
  | .kvtKeyLoad h bufAddr rsv _ => h.ok && fits 8 bufAddr && fits 8 rsv
  | .kvtCommit h rsv
  | .kvtCommitDiscard h rsv => h.ok && fits 19 rsv
  | .svcUnitOut h cls index module rsv
  | .svcUnitReturn h cls index module rsv
  | .svcUnitRestore h cls index module rsv => h.ok && fits 1 cls && fits 4 index && fits 1 module && fits 1 rsv
  | .bootImageLoad h module bufAddr bufLen rsv _ => h.ok && fits 1 module && fits 8 bufAddr && fits 4 bufLen && fits 7 rsv
  | .enterMaint h module rsv
  | .leaveMaint h module rsv
  | .activate h module rsv
  | .saveConfig h module rsv
  | .bootControlReset h module rsv => h.ok && fits 1 module && fits 18 rsv
  | .tickLoRead | .offsetLoRead | .obsPosLoRead _ | .lastReflRead | .rxHLoRead _ | .txLoRead _
  | .logPortRewind | .logPortData => true
  | .ttuLatch _ cyc => cycOk cyc
  | .ttuBudgetClr _ | .soloConfirm _ | .gltArm | .gltStop => true
  | .gltForce cyc => cycOk cyc
  | .markHere _ | .markClear _ | .canTxbReq _ _ | .canTxbAbort _ _ | .canTxbRelease _ _ => true
  | .mailboxLock _ _ w1c
  | .mailboxUnlock _ _ w1c => fits 4 w1c
  | .kvtHwinSave _ cyc => cycOk cyc
  | .sqEnClear _ | .cqEnClear _ | .eqEnClear _ => true
  | .ringEnSet kind i => kind.idxOk i
  | .registerWrite addr _ cyc => decide (addr < 0x210000) && cycOk cyc
  | .powerUp _ | .bootEnd | .supplyFailure | .pcieHotReset | .pcieLinkDown | .pcieLinkUp => true
  | .tamper cyc => cycOk cyc
  | .lockstepMismatch => true
  | .stopInEdge _ rel => rel.ok
  | .pairRun _ | .pairFaultClear _ | .outFaultClear _ => true
  | .pairFault _ rel => rel.ok
  | .peerStop rel => rel.ok
  | .outReadbackFault _ rel => rel.ok
  | .doorbellSample => true
  | .doorbellReadDone _ cyc => cycOk cyc
  | .doorbellReadFail cyc => cycOk cyc
  | .hstWindow use => use.ok
  | .descReadDone _ descs _ cyc => descLenOk descs && cycOk cyc
  | .evtOverflowRecord _ => true
  | .tickBoundary w => w.ttuUse.ok && decide (w.bands.length ≤ 3) && decide (w.coilMa.length ≤ 4) && fitsI 2 w.drvTemp
  | .watchBoundary w => decide (w.sats.length ≤ 1024)
  | .stpArmSlot _ use => use.ok
  | .sxtSlot use x => use.ok && corrOk x.corr && measOk x.meas
  | .fixSlot use _ _ => use.ok
  | .obsSlot use _ => use.ok
  | .obsPosCheck => true
  | .chtSlot use _ => use.ok
  | .asgSlot use _ => use.ok
  | .prfSlot use => use.ok
  | .backgroundWindow w => decide (w.usedUs ≤ 120)
  | .twnSlot use _ => use.ok
  | .twnClaimDecision => true
  | .beaconAssembly use => use.ok
  | .beaconTag use => use.ok
  | .gltBacklogCheck => true
  | .fixSolutionDone _ x => cycOk x.cyc
  | .fixDeadline | .uploadWindowClose | .filterExpired _ => true
  | .fixKat results => results.all fun p => decide (p.1 < 9)
  | .clusterFault _ | .clusterBack _ | .clusterRestored _ | .chtGrant _ | .corridorRest _ | .segmentFreed _
  | .roverLost _ => true
  | .uplinkFrameRx f => f.ok
  | .downlinkSlot _ _ | .bulkSlot _ _ | .lanternHeartbeat | .ccaAssess _ _ => true
  | .radarDetect _ cyc => cycOk cyc
  | .cacDone _ => true
  | .channelBarEnd mhz => fits 2 mhz
  | .hbFault _ | .hbBack _ | .hbRestored _ => true
  | .beaconRx epoch => fits 4 epoch
  | .ackRxListen | .oldKeyEnd => true
  | .linkStatusFrame f => fits 8 f.tick && fits 4 f.epoch
  | .peerDeadFrame _ _ tick _ => fits 8 tick
  | .peerGoneSignal | .healthFault | .leadClaimSeen | .linkSilent _ | .twnLinkUp | .leadElection => true
  | .tickAdopt a => fits 8 a.tick && fits 4 a.epoch
  | .twnInSync snap => snap.slots.all fun p => decide (p.1 < 128)
  | .reflStreamRx tick _ _ => fits 8 tick
  | .reflAckRx tick _ _ _ => fits 8 tick
  | .reflUnacked => true
  | .twnClaim tags => tags.all (fits 4)
  | .twnStepDown => true
  | .twnHandover tags => tags.all (fits 4)
  | .captEdge _ _ t
  | .ppsEdge _ t => atOk t
  | .refFreqFault | .timeSourceLost _ | .timeStepApply | .pulseEdge _ => true
  | .ptpMessageRx _ m => m.ok
  | .ptpSyncTx _ x
  | .ptpDelayReqTx _ x => atOk x.at_ && decide (x.taken ≤ 8)
  | .ptpAnnounceTx _ => true
  | .ptpAnnounceTimeout _ cyc | .ethLinkChange _ _ cyc => cycOk cyc
  | .ethPortBack | .antShort | .antRetry | .antOpen | .antOk => true
  | .acqFound _ sig sv _ => decide (sig < 18) && fits 1 sv
  | .chTrack _ | .chLockLoss _ | .reacqExpire _ => true
  | .navUnitDone _ u => u.ok
  | .notchEngage _ bin cyc => fitsI 4 bin && cycOk cyc
  | .notchRelease _ _ | .jamCalDone _ => true
  | .bankFault _ bad => bad.all fun c => decide (c < 1024)
  | .bankBack _ | .bankRestored _ => true
  | .ephStore sat => fits 2 sat
  | .asgMatrixReadDone h _ => h.ok
  | .asgAuctionStart | .asgPublish | .asgNoResult | .asgAbandonLimit => true
  | .prfPosUpdate _ la => fits 2 la
  | .switchTrip _ _ | .switchRelease _ _ | .switchChatter _ _ | .encIndex _ | .homeTravelLimit _ | .encStall _
  | .laStall _ | .phaseShort _ => true
  | .drvOvertemp celsius
  | .drvTempWarn celsius => fitsI 2 celsius
  | .vmotLow mv
  | .vmotOk mv => fits 2 mv
  | .posHoldCurrent _ => true
  | .canFrameRx _ f => f.ok
  | .canTxDone _ sofAt => sofOk sofAt
  | .canBitError _ | .canBusOff _ => true
  | .canErrPassive _ e rx => fits 2 e.tec && fits 4 e.frames && fits 4 e.retries && fits 2 rx
  | .canRecovered _ | .canFrameExpired _ _ | .canStopRepeat => true
  | .canWake _ _ | .isoAddrClaimed _ | .canCtrlFault _ _ | .canCtrlBack _ | .canCtrlRestored _ => true
  | .gltTrigger x => cycOk x.cyc
  | .gltFillDone cyc
  | .gltPostDone cyc
  | .gltHoldoffDone cyc => cycOk cyc
  | .logRecordStore _ badBlock => badBlock.all (fits 4)
  | .kvtLoadDone _ _ | .kvtRecordsDone _ | .kvtCommitEffect | .kvtRemask _ => true
  | .scrubLate _ | .calStale _ => true
  | .unitRetest cls _ _ => fits 1 cls
  | .stopPathSelfTest _ _ => true
  | .telemetry m => fits 4 m.vinA && fits 4 m.vinB && fits 4 m.vmot && fits 4 m.power
  | .imageWriteDone _ | .configSaveDone | .activateCheckDone _ | .activateReturn _ => true
  | .bitSync _ _ | .secondaryCodeSync _ | .canIntegrated _ | .encoderEdge _ _ _ => true
  | .posAutoTuneDone _ kp ki => fits 2 kp && fits 2 ki
  | .healthWaveRestored | .busMasterEnable _ => true

end Sys2Proof
end

