-- ==== Sys2Proof/Safety.lean ====
section
/-! DEFINITION. Sys2Proof/Safety.lean: the terms statements are written in: what a step leaves alone, when a module takes a
command, and what a completion brings. -/

namespace Sys2Proof.Machine

open Sys2Proof

/-! ### What a step leaves alone -/

/-- Every register field whose key is not listed reads as before. -/
def RegsKept (keys : List Nat) (s t : State) : Prop := ∀ k, k ∉ keys → mget 0 t.regs k = mget 0 s.regs k

/-- From s to t nothing changes but the registers listed and what was put out. -/
def RegsOnly (keys : List Nat) (s t : State) : Prop :=
  t = { s with regs := t.regs, out := t.out } ∧ RegsKept keys s t

/-- The registers a raising writes: the pending bits, the count of records lost and the count of Logbook records dropped
(R354, R439). -/
def evtKeys : List Nat :=
  (List.range 16).map (fun n => Reg.HST_EVT_PEND.PEND.key n 0)
    ++ [Reg.HST_COUNTS.EVT_LOST.key 0 0, Reg.LOG_COUNTS.OVF_DROP.key 0 0]

/-- From s to t nothing changes but the registers listed, what was put out, and what raisings change: event records that
wait, pending Logbook records, Glint's event samples, the raisings made in this tick and watch, free values drawn. -/
def EventsOnly (keys : List Nat) (s t : State) : Prop :=
  t = { s with
    regs := t.regs, out := t.out, free := t.free, onceTick := t.onceTick, onceWatch := t.onceWatch
    log := { s.log with queue := t.log.queue }
    hst := { s.hst with evq := t.hst.evq, evOvf := t.hst.evOvf }
    glt := { s.glt with evts := t.glt.evts } } ∧ RegsKept (keys ++ evtKeys) s t

/-- Event e is pending in HST_EVT_PEND (R354). -/
def pending (s : State) (e : Nat) : Bool := s.rbit Reg.HST_EVT_PEND.PEND e

/-! ### When a command is taken -/

/-- Not held in reset, and in neither BOOT nor DEAD. -/
def Awake (s : State) : Prop := s.held = false ∧ s.mode ≠ .boot ∧ s.mode ≠ .dead

/-- The engines have their slots: SHADOW, LEAD or HALT, no ACTIVATE pause, not held in reset (R39, R495). -/
def Engines (s : State) : Prop := s.held = false ∧ s.slots = true

/-- HST hands ring commands of these modes over (R349): one of the modes, no ACTIVATE pause, not held in reset. -/
def Taken (modes : List Mode) (s : State) : Prop :=
  s.held = false ∧ s.mode ∈ modes ∧ s.paused = false ∧ s.twn.reflecting = false

/-- The completion of handle h with its status and DETAIL is due, after those due before (R352). -/
def Posted (s t : State) (h : Handle) (status detail : Nat) : Prop :=
  t.hst.compl = s.hst.compl ++ [{ h := h, ftick := fetchTick s h, status := status, detail := detail }]

/-- The completion due last is that of handle h, with its status and DETAIL. -/
def Done (t : State) (h : Handle) (status detail : Nat) : Prop :=
  ∃ ft, t.hst.compl.getLast? = some { h := h, ftick := ft, status := status, detail := detail }

/-- The command of handle h is outstanding and no completion of it is due yet (R347). -/
def Outstanding (s t : State) (h : Handle) : Prop :=
  t.hst.compl = s.hst.compl ∧ t.hst.started.any (fun p => p.1 == h) = true

/-- The register map is in its canonical form: addresses strictly rising, no field listed at its reset value. -/
def State.canonical (s : State) : Bool := mwf 0 s.regs

end Sys2Proof.Machine
end

