-- ==== Sys2Proof/Certificates/Slice0/Obligations.lean ====
section
/-! DEFINITION. Sys2Proof/Certificates/Slice0/Obligations.lean: the statements for the provers. Each docstring says what the
statement claims and the rules of spec/ it rests on. -/

open Sys2Proof Sys2Proof.Machine

/-- A step carries out the command at the front of the queue. With command c at the front of the queue, a step is what c
does on the state with the rest of the queue; with an empty queue the module idles (log entry 1). (Rests on: R3) -/
def Obligations.a_step_carries_out_the_first_waiting_command : Prop :=
  (∀ (c : Instr) (q : List Instr) (s : State), step { s with pending := c :: q } = exec c { s with pending := q })
  ∧ (∀ s : State, s.pending = [] → step s = .next s)

/-- Commands are taken one by one in their order, and none stops the module. A step on a queue c :: q answers a next
state whose queue is q, for every command and every state: no command drops, adds or reorders waiting commands, and
none ends in a fault or a refusal. (Rests on: R3) -/
def Obligations.every_step_takes_one_command_and_keeps_the_rest_in_order : Prop :=
  ∀ (s : State) (c : Instr) (q : List Instr), s.pending = c :: q → ∃ t, step s = .next t ∧ t.pending = q

/-- Held in reset after a supply failure, the module does nothing until supply returns. A module held in reset answers
every command but POWER_UP with its state as it was and no output; POWER_UP ends the hold. SUPPLY_FAILURE puts a
module into that hold, in BOOT with tick number 0, GONE shown, every STOP_OUT off and an empty Logbook; the
POWER_FAIL frame with the tick number goes out, and the key records, the stored position and the configuration
record stay. (Rests on: R485, R482) -/
def Obligations.a_module_held_in_reset_takes_only_the_return_of_supply : Prop :=
  (∀ (c : Instr) (s : State), s.held = true → (∀ b, c ≠ .powerUp b) → exec c s = .next s.start)
  ∧ (∀ (b : BootIn) (s : State), ∃ t, exec (.powerUp b) s = .next t ∧ t.held = false)
  ∧ (∀ s : State, s.held = false → ∃ t, exec .supplyFailure s = .next t ∧ t.held = true ∧ t.mode = .boot ∧ t.tick = 0
      ∧ t.out = [.byhelFrame 2 (withCrc (le 8 s.tick))] ∧ t.twn.gone = true ∧ t.r Reg.STP_STATE.OUT_ON = 0
      ∧ t.kvt.copy0 = s.kvt.copy0 ∧ t.kvt.copy1 = s.kvt.copy1 ∧ t.obs.stored = s.obs.stored ∧ t.bt.cfg = s.bt.cfg
      ∧ t.log.queue = [] ∧ t.log.blocks = [])

/-- The state after reset release. At reset the module is in BOOT with tick number 0 and TIME_STATE FREE_RUN, no
STOP_OUT is energised, no ring is enabled, no event is pending, and every register field reads its reset value
(those the spec states none for as log entry 10 names them). Its register map and its maps by key are in their
canonical form. (Rests on: R482, R36, R37, R65, R245, R251, R265, R346, R354, R9) -/
def Obligations.reset_leaves_the_module_in_BOOT_with_every_register_at_reset : Prop :=
  State.reset.mode = .boot ∧ State.reset.tick = 0 ∧ State.reset.held = false ∧ ttuState State.reset = 0
  ∧ State.reset.r Reg.STP_STATE.OUT_ON = 0 ∧ State.reset.pending = [] ∧ State.reset.out = []
  ∧ (∀ i, State.reset.rb Reg.HST_SQ.EN i = false ∧ State.reset.rb Reg.HST_CQ.EN i = false ∧ State.reset.rb Reg.HST_EQ.EN i = false)
  ∧ (∀ e, pending State.reset e = false)
  ∧ (∀ (f : Field) (i j : Nat), State.reset.r f i j = f.reset i j % 2 ^ f.width)
  ∧ State.reset.canonical = true

/-- Setting fields keeps the register map canonical, and a field reads what it was set to. Setting a field keeps the
register map canonical; the field then reads the value in its width, and every field of another key reads as before.
A raising of an event and a completion keep the map canonical too. (Rests on: R9, R10) -/
def Obligations.register_writes_inside_the_module_keep_the_canonical_form : Prop :=
  ∀ (s : State) (f : Field) (v i j : Nat), s.canonical = true →
    (s.w f v i j).canonical = true ∧ (s.w f v i j).r f i j = v % 2 ^ f.width
    ∧ (∀ (g : Field) (k l : Nat), g.key k l ≠ f.key i j → (s.w f v i j).r g k l = s.r g k l)
    ∧ (∀ e d, (raise s e d).canonical = true) ∧ (∀ h st d, (complete s h st d).canonical = true)

/-- A module in DEAD stays in DEAD whatever it is commanded, until it is reset. In DEAD, every command but
SUPPLY_FAILURE and PCIE_HOT_RESET answers a next state that is still in DEAD, not held in reset and with no reset
pending; PCIE_HOT_RESET resets the module into BOOT, with LAST_RESET 1 and DEAD_CAUSE kept. (Rests on: R496, R485,
R6) -/
def Obligations.dead_is_left_only_by_a_reset : Prop :=
  let inv : State → Prop := fun s => s.mode = .dead ∧ s.held = false ∧ s.bt.reset = false
  (∀ (c : Instr) (s : State), inv s → c ≠ .supplyFailure → c ≠ .pcieHotReset → ∃ t, exec c s = .next t ∧ inv t)
  ∧ (∀ s : State, inv s → ∃ t, exec .pcieHotReset s = .next t ∧ t.mode = .boot ∧ t.tick = 0
      ∧ t.r Reg.BOOT_STATUS.LAST_RESET = 1 ∧ t.r Reg.BOOT_STATUS.DEAD_CAUSE = s.bt.cause % 2 ^ Reg.BOOT_STATUS.DEAD_CAUSE.width)

/-- A descriptor that spells a ring command runs exactly that command. For every ring command and every value its fields
can hold, the bytes of its descriptor, read back by OPCODE and field, do exactly what the command does: no operand,
reserved byte, mode or option is dropped. (Rests on: R348, R349) -/
def Obligations.ring_commands_are_what_their_descriptors_spell : Prop :=
  ∀ (c : Instr) (h : Handle) (op : Nat) (f : List Byte) (buf : BufIn) (s : State),
    descParts c = some (h, op, f, buf) → c.wf = true → exec c s = withOut s (descRun (descOf c).1 (descOf c).2 h)

/-- A read that latches returns the low part and holds the high part; TTU_LATCH latches the four bases; TTU_BUDGET_CLR
clears the budget counters. Outside DEAD, a read of TTU_TICK_LO, of the low word of TTU_OFFSET, of OBS_POS_X, Y or
Z, of TWN_LAST_REFL, of RX_H_LO or of TX_LO returns the low 32 bits of what it names, sets the registers of its high
part (for RX_H_LO the two map words too) to the value at that moment, and changes nothing else. A write of TTU_LATCH
with LATCH = 1 puts the values of TB0, TB1 and TB2 at that cycle into their stamp registers, TB3 to whole 4 ns; a
write of TTU_BUDGET_CLR with CLEAR = 1 sets MAX_USE and OVR_COUNT of all 13 engines to 0. Neither changes another
register, and with the bit 0 neither changes any; a reserved bit written as 1 makes the write count as refused
besides. (Rests on: R10, R56, R60, R82, R143, R340, R314, R517) -/
def Obligations.latching_reads_and_latch_writes_hold_one_moment : Prop :=
  (∀ s : State, s.held = false → s.mode ≠ .dead →
    (∃ t, exec .tickLoRead s = .next t ∧ t.out = [.readData (s.tick % 2 ^ 32)]
      ∧ t.r Reg.TTU_TICK_HI.TICK_HI = s.tick / 2 ^ 32 % 2 ^ 32 ∧ RegsOnly [Reg.TTU_TICK_HI.TICK_HI.key 0 0] s t)
    ∧ (∃ t, exec .offsetLoRead s = .next t ∧ t.out = [.readData (ofSigned 64 s.ttu.offset % 2 ^ 32)]
      ∧ t.r Reg.TTU_OFFSET.OFFSET_HI = ofSigned 64 s.ttu.offset / 2 ^ 32 % 2 ^ 32
      ∧ RegsOnly [Reg.TTU_OFFSET.OFFSET_HI.key 0 0] s t)
    ∧ (∀ (axis : Fin 3) (v : Int) (f : Field),
      (axis, v, f) ∈ [((0 : Fin 3), s.obs.x, Reg.OBS_POS_X.HI), (1, s.obs.y, Reg.OBS_POS_Y.HI), (2, s.obs.z, Reg.OBS_POS_Z.HI)] →
      ∃ t, exec (.obsPosLoRead axis) s = .next t ∧ t.out = [.readData (ofSigned 64 v % 2 ^ 32)]
        ∧ t.r f = ofSigned 64 v / 2 ^ 32 % 2 ^ f.width ∧ RegsOnly [f.key 0 0] s t)
    ∧ (∃ t, exec .lastReflRead s = .next t ∧ t.out = [.readData (s.r Reg.TWN_LAST_REFL.TICK_LO)]
      ∧ t.r Reg.TWN_LAST_REFL.TICK_HI = s.twn.lastRefl / 2 ^ 32 % 2 ^ 32
      ∧ RegsOnly [Reg.TWN_LAST_REFL.TICK_HI.key 0 0] s t)
    ∧ (∀ r : Fin 128, ∃ t, exec (.rxHLoRead r) s = .next t ∧ t.out = [.readData (s.r Reg.SEC_ROVER.RX_H_LO r)]
      ∧ t.r Reg.SEC_ROVER.RX_H_HI r = (secWin s false r).h.getD 0 / 2 ^ 32 % 2 ^ Reg.SEC_ROVER.RX_H_HI.width
      ∧ t.r Reg.SEC_ROVER.RX_MAP_LO r = (secWin s false r).map % 2 ^ 32
      ∧ t.r Reg.SEC_ROVER.RX_MAP_HI r = (secWin s false r).map / 2 ^ 32 % 2 ^ 32
      ∧ RegsOnly [Reg.SEC_ROVER.RX_H_HI.key r 0, Reg.SEC_ROVER.RX_MAP_LO.key r 0, Reg.SEC_ROVER.RX_MAP_HI.key r 0] s t)
    ∧ (∀ r : Fin 128, ∃ t, exec (.txLoRead r) s = .next t ∧ t.out = [.readData (txSeq s r % 2 ^ 32)]
      ∧ t.r Reg.SEC_ROVER.TX_HI r = txSeq s r / 2 ^ 32 % 2 ^ Reg.SEC_ROVER.TX_HI.width
      ∧ RegsOnly [Reg.SEC_ROVER.TX_HI.key r 0] s t))
  ∧ (∀ (s : State) (v : Word) (cyc : Nat), s.held = false → s.mode ≠ .dead →
    let stamp : Nat → State → Nat := fun n t => stampOf (t.r Reg.TTU_TB_LATCH.SUB n) (t.r Reg.TTU_TB_LATCH.NS n)
      (t.r Reg.TTU_TB_LATCH.S_LO n + 2 ^ 32 * t.r Reg.TTU_TB_LATCH.S_HI n)
    let lkeys := (List.range 4).flatMap fun n => [Reg.TTU_TB_LATCH.SUB.key n 0, Reg.TTU_TB_LATCH.NS.key n 0,
      Reg.TTU_TB_LATCH.S_LO.key n 0, Reg.TTU_TB_LATCH.S_HI.key n 0]
    let bkeys := (List.range 13).flatMap fun e => [Reg.TTU_SLOT_USE.MAX_USE.key e 0, Reg.TTU_SLOT_OVR.OVR_COUNT.key e 0]
    let rkeys := [Reg.HST_REFUSED_WR.OFFSET.key 0 0, Reg.HST_REFUSED_WR.VALID.key 0 0]
    let refused (a : Nat) (t : State) : Prop := t.r Reg.HST_REFUSED_WR.OFFSET = a ∧ t.rb Reg.HST_REFUSED_WR.VALID = true
      ∧ (416 ∉ s.onceTick → pending t 416 = true)
    (v.toNat % 2 = 1 → ∃ t, exec (.ttuLatch v cyc) s = .next t
      ∧ (∀ n, n < 3 → s.tb n (cycU cyc) < 2 ^ 48 * uSec → stamp n t = s.tb n (cycU cyc))
      ∧ (s.tb 3 (cycU cyc) < 2 ^ 48 * uSec → stamp 3 t = s.tb 3 (cycU cyc) / (4 * uNs) * (4 * uNs))
      ∧ (v = 1 → RegsOnly lkeys s t) ∧ (v ≠ 1 → EventsOnly (lkeys ++ rkeys) s t ∧ refused 0x240 t))
    ∧ (v.toNat % 2 = 1 → ∃ t, exec (.ttuBudgetClr v) s = .next t
      ∧ (∀ e, e < 13 → t.r Reg.TTU_SLOT_USE.MAX_USE e = 0 ∧ t.r Reg.TTU_SLOT_OVR.OVR_COUNT e = 0)
      ∧ (v = 1 → RegsOnly bkeys s t) ∧ (v ≠ 1 → EventsOnly (bkeys ++ rkeys) s t ∧ refused 0x88 t))
    ∧ (∀ p ∈ [(0x240, Instr.ttuLatch v cyc), (0x88, .ttuBudgetClr v)], v.toNat % 2 = 0 →
      (v = 0 → exec p.2 s = .next s.start)
      ∧ (v ≠ 0 → ∃ t, exec p.2 s = .next t ∧ EventsOnly rkeys s t ∧ refused p.1 t)))

/-- The Logbook read port rewinds and advances word by word. A read of LOG_PORT_REWIND returns OLDEST_SEQ and puts the
port at the first word of that record, in every mode. A read of LOG_PORT_DATA returns the word of the first record
at or after the port that the ring still holds and advances the port by one word, to the next record after the last
word; past the newest record it returns 0 without advancing. Nothing else changes. (Rests on: R445, R344) -/
def Obligations.logbook_port_reads_records_in_order : Prop :=
  ∀ s : State, s.held = false →
    (∃ t, exec .logPortRewind s = .next t ∧ t.out = [.readData (s.r Reg.LOG_SEQ.OLDEST_SEQ)]
      ∧ t.log.portSeq = s.r Reg.LOG_SEQ.OLDEST_SEQ ∧ t.log.portWord = 0
      ∧ t = { s with out := t.out, log := { s.log with portSeq := t.log.portSeq, portWord := t.log.portWord } })
    ∧ (logFrom s s.log.portSeq = [] →
      exec .logPortData s = .next { s with out := [.readData 0] })
    ∧ (∀ (r : LogRec) (rest : List LogRec), logFrom s s.log.portSeq = r :: rest →
      let w := if r.seq = s.log.portSeq then s.log.portWord else 0
      ∃ t, exec .logPortData s = .next t
        ∧ t.out = [.readData (field (logBytes r (logOpen s r)) (4 * w) 4)]
        ∧ t = { s with out := t.out, log := { s.log with portSeq := t.log.portSeq, portWord := t.log.portWord } }
        ∧ (4 * (w + 1) < logLen r.data.length → t.log.portSeq = r.seq ∧ t.log.portWord = w + 1)
        ∧ (logLen r.data.length ≤ 4 * (w + 1) → t.log.portWord = 0
          ∧ t.log.portSeq = match rest with | n :: _ => n.seq | [] => s.r Reg.LOG_SEQ.NEXT_SEQ))

/-- An accepted step places the end of its watch, and is applied there. When TTU accepts a step of TB1 in a tick of a
watch, E = CLOSING_TICKS whole ticks plus the stretch, counted from the start of the watch, is the first instant at
which TB1 corrected by the step reads a whole 100 ms, at least 42 ms after the start of the watch and at least 2 ms
after the start of tick a; it lies below 201 ms. When the closing watch has ended, TIME_STEP_APPLY moves TB1 by the
step. (Premises: a position of 0 to 99 in the watch, and TB1 not before the start of the watch.) (States: R52) -/
def Obligations.an_accepted_step_ends_its_watch_at_the_first_instant_R52_allows : Prop :=
  (∀ (s : State) (amt : Int), s.ttu.pos < 100 → s.ttu.pos * uTick ≤ s.ttu.tb1 →
    ∃ c, (ttuAcceptStep s amt).ttu.closing = some c ∧ (ttuAcceptStep s amt).ttu.stepAmt = some amt
      ∧ (let t0 : Int := (s.ttu.tb1 - s.ttu.pos * uTick : Nat)
         let ok : Nat → Prop := fun e => (t0 + e + amt) % ((100 * uTick : Nat) : Int) = 0
           ∧ 42 * uTick ≤ e ∧ (s.ttu.pos + 2) * uTick ≤ e
         let e := c.n * uTick + c.extra
         ok e ∧ c.extra < uTick ∧ (∀ e', ok e' → e ≤ e') ∧ e < 201 * uTick))
  ∧ (∀ (s : State) (amt : Int), s.held = false → s.ttu.stepAmt = some amt → s.ttu.stepDue = true → 0 ≤ (s.ttu.tb1 : Int) + amt →
    ∃ t, exec .timeStepApply s = .next t ∧ (t.ttu.tb1 : Int) = s.ttu.tb1 + amt ∧ t.ttu.stepAmt = none)

/-- TTU_STEP is accepted in DIVERGED with no step pending, and refused otherwise. With MODE 0 the step is the offset of
the selected source as measured now and a source must be qualified; with MODE 1 it is AMOUNT_NS, which must not be
0. An accepted step completes with OK, sets STEP_PENDING and is the step pending; a command outside these conditions
completes with STEP_REFUSED and changes nothing but its completion and its reflection. (The offset taken where no
source is selected, the last one measured, is log entry 27.) (Rests on: R73, R52) -/
def Obligations.ttu_steps_are_taken_in_DIVERGED_and_refused_elsewhere : Prop :=
  ∀ (s : State) (h : Handle) (a : Int) (rsv : Nat), Taken anyRunMode s →
    let free := ttuState s = 4 ∧ s.ttu.stepAmt = none ∧ rsv = 0
    let known := srcQ s 0 = true ∨ srcQ s 1 = true ∨ srcQ s 2 = true
    (free ∧ known → ∃ t, exec (.ttuStepMeasured h rsv) s = .next t ∧ Posted s t h stOk 0
      ∧ t.ttu.stepAmt = some (offsetNow s) ∧ t.rb Reg.TTU_CLOSING.STEP_PENDING = true)
    ∧ (free ∧ a ≠ 0 → ∃ t, exec (.ttuStepAmount h a rsv) s = .next t ∧ Posted s t h stOk 0
      ∧ t.ttu.stepAmt = some (a * (uNs : Int)) ∧ t.rb Reg.TTU_CLOSING.STEP_PENDING = true)
    ∧ (¬ (free ∧ known) → ∃ t, exec (.ttuStepMeasured h rsv) s = .next t ∧ Posted s t h stStep 0
      ∧ t.ttu = s.ttu ∧ t.regs = s.regs)
    ∧ (¬ (free ∧ a ≠ 0) → ∃ t, exec (.ttuStepAmount h a rsv) s = .next t ∧ Posted s t h stStep 0
      ∧ t.ttu = s.ttu ∧ t.regs = s.regs)

/-- TTU_PULSE_SET arms an edge at START or cancels it; PULSE_EDGE places it. For an output in once mode and a valid
stamp: with ARM and a START at least 2 µs ahead on the base of the output, START is stored and ARMED is 1; with
CANCEL, ARMED is 0; both complete with OK. When the START of an armed output with a PERIOD of at least 100 ns falls
in the tick, PULSE_EDGE puts out a pulse at START, taken to the grid of 62.5 ps, at the level that is not POL, adds
1 to COUNT and clears ARMED. (The grid is log entry 66.) (Rests on: R73, R76, R78) -/
def Obligations.once_mode_pulses_arm_cancel_and_fire : Prop :=
  (∀ (s : State) (h : Handle) (n : Nat) (start : StampIn),
    Taken anyRunMode s → n < 4 → s.rb Reg.TTU_PULSE.MODE n = true → start.ns ≤ 999999999 → start.sub < 65536 → start.sec < 2 ^ 48 →
    (s.tb (s.r Reg.TTU_PULSE.TB_SEL n) (cycU h.cyc) + 2000 * uNs ≤ stampOf start.sub start.ns start.sec →
      ∃ t, exec (.ttuPulseArm h n start 0) s = .next t ∧ Posted s t h stOk 0 ∧ t.rb Reg.TTU_PULSE.ARMED n = true
        ∧ pulseStart t n = stampOf start.sub start.ns start.sec)
    ∧ ∃ t, exec (.ttuPulseCancel h n start 0) s = .next t ∧ Posted s t h stOk 0 ∧ t.rb Reg.TTU_PULSE.ARMED n = false)
  ∧ (∀ (s : State) (n : Fin 4), Awake s → s.rb Reg.TTU_PULSE.EN n = true → s.rb Reg.TTU_PULSE.MODE n = true →
    s.rb Reg.TTU_PULSE.ARMED n = true → (ttuPulse s n).atStep = none →
    100 * uNs ≤ pulsePeriod s n → s.tb (s.r Reg.TTU_PULSE.TB_SEL n) 0 ≤ pulseStart s n →
    pulseStart s n < s.tb (s.r Reg.TTU_PULSE.TB_SEL n) 0 + baseAdv s (s.r Reg.TTU_PULSE.TB_SEL n) →
    ∃ t, exec (.pulseEdge n) s = .next t ∧ .pulse n (pulseGrid (pulseStart s n)) (pulseWidth s n) (!s.rb Reg.TTU_PULSE.POL n) ∈ t.out
      ∧ pulseCount t n = (pulseCount s n + 1) % 2 ^ 64 ∧ t.rb Reg.TTU_PULSE.ARMED n = false)

/-- Capture edges, PPS edges and the loss of a time source. An edge that a capture input waits for, at least 100 ns
after the last recorded one and with room in its FIFO, adds one record with the stamp of its base; a PPS edge of the
selected polarity gives REF an offset of the nearest whole second less the edge and PPS_DELAY; REF10M_IN out of
range ends the qualification of REF and leaves the run of PPS edges; a lost source is no longer qualified, and where
it was selected, none other is usable and the state is LOCKED or SLEWING, TIME_STATE becomes DEAD_RECKONING with SRC
3. (The sign of PPS_DELAY is the literal wording of the spec, log entry 28.) (Rests on: R61, R63, R68, R79, R81) -/
def Obligations.time_inputs_are_measured_and_lost_sources_leave : Prop :=
  (∀ (s : State) (n : Fin 4) (falling : Bool) (a : Nat), s.held = false → s.mode ≠ .dead →
    s.rb Reg.TTU_CAPT.EN n = true → bitAt (s.r Reg.TTU_CAPT.EDGE n) (b2n falling) = true →
    (∀ u, (ttuCapt s n).lastTb3 = some u → u + 100 * uNs ≤ s.ttu.tb3 + a) → (ttuCapt s n).fifo.length < 16 →
    ∃ t rec, exec (.captEdge n falling a) s = .next t ∧ (ttuCapt t n).fifo = (ttuCapt s n).fifo ++ [rec]
      ∧ rec.take 12 = stampBytes (s.tb (s.r Reg.TTU_CAPT.TB_SEL n) a) ∧ (ttuCapt t n).lastTb3 = some (s.ttu.tb3 + a)
      ∧ t.r Reg.TTU_CAPT.FIFO_LEVEL n = (ttuCapt s n).fifo.length + 1
      ∧ RegsKept [Reg.TTU_CAPT.FIFO_LEVEL.key n 0] s t)
  ∧ (∀ (s : State) (falling : Bool) (a : Nat), s.held = false → s.mode ≠ .dead → falling = s.rb Reg.TTU_TIME_CFG.PPS_EDGE →
    ∃ t, exec (.ppsEdge falling a) s = .next t ∧ t.ttu.ppsLast = some (s.ttu.tb3 + a)
      ∧ t.ttu.ppsOff = (((s.tb1 a + uSec / 2) / uSec * uSec : Nat) : Int) - s.tb1 a - (s.r Reg.TTU_PPS_DELAY.DELAY * uNs / 10 : Nat)
      ∧ t = { s with out := [], ttu := t.ttu })
  ∧ (∀ (s : State), s.held = false → s.mode ≠ .dead →
    ∃ t, exec .refFreqFault s = .next t ∧ t.rb Reg.TTU_TIME_STATE.Q_REF = false ∧ t.ttu.refOk = false ∧ t.ttu.ppsRun = s.ttu.ppsRun)
  ∧ (∀ (s : State) (src : Fin 3), s.held = false → s.mode ≠ .dead →
    ∃ t, exec (.timeSourceLost src) s = .next t ∧ srcQ t src = false
      ∧ (s.r Reg.TTU_TIME_STATE.SRC ≠ src → RegsOnly [Reg.TTU_TIME_STATE.Q_GNSS.key 0 0, Reg.TTU_TIME_STATE.Q_REF.key 0 0,
          Reg.TTU_TIME_STATE.Q_PTP.key 0 0] s t)
      ∧ (s.r Reg.TTU_TIME_STATE.SRC = src → s.ttu.stepAmt = none → s.twn.follows = false →
        (∀ i : Fin 3, i ≠ src → srcUsable s i = false) → ttuState s = 1 ∨ ttuState s = 2 →
        ttuState t = 3 ∧ t.r Reg.TTU_TIME_STATE.SRC = 3))

/-- STP_STOP latches the stop of its scope and completes with OK. In MAINTENANCE, LEAD and HALT, STP_STOP with SCOPE 0
leaves the fleet latch set, and with SCOPE 1 the targeted latch of its rover, with the source HOST_RING seen; the
completion with OK is due. Where the fleet latch was clear, its SOURCE is HOST_RING, every STOP_OUT driver is
released and a pulse goes out on the Byhel STOP pair. With a reserved byte not 0 or a rover above 127 it completes
with STOP_REFUSED, and both latches stay as they were. (Rests on: R264, R248, R261, R263) -/
def Obligations.host_stop_commands_latch_and_complete : Prop :=
  ∀ (s : State) (h : Handle), Taken anyRunMode s →
    (∃ t, exec (.stpStopFleet h 0) s = .next t ∧ fleetLatch t = true ∧ Done t h stOk 0
      ∧ bitAt (t.r Reg.STP_SRC_SEEN.SEEN) 5 = true
      ∧ (fleetLatch s = false → t.r Reg.STP_STATE.SOURCE = 5 ∧ t.r Reg.STP_STATE.OUT_ON = 0 ∧ .byhelStop ∈ t.out))
    ∧ (∀ r, r < 128 → ∃ t, exec (.stpStopRover h r 0) s = .next t ∧ tgtLatch t r = true ∧ Done t h stOk 0)
    ∧ (∀ rsv, rsv ≠ 0 → ∃ t, exec (.stpStopFleet h rsv) s = .next t ∧ Posted s t h stStop 0
      ∧ fleetLatch t = fleetLatch s ∧ ∀ r < 128, tgtLatch t r = tgtLatch s r)
    ∧ (∀ r rsv, rsv ≠ 0 ∨ 127 < r → ∃ t, exec (.stpStopRover h r rsv) s = .next t ∧ Posted s t h stStop 0
      ∧ fleetLatch t = fleetLatch s ∧ ∀ q < 128, tgtLatch t q = tgtLatch s q)

/-- Every stop input, pair fault, driver fault, arming fault and the peer leave the fleet latch set and the drivers
released. In every mode but BOOT and DEAD: a de-energising edge of an enabled STOP_IN pair, a new pair fault, a new
driver fault, a failed arming and a pulse of the peer each leave the fleet latch set; where it was clear, every
STOP_OUT driver is released and SOURCE tells which of them it was. Edge, pair fault and driver fault also leave
their own bit (PAIR_RUN cleared; PAIR_FAULT, OUT_FAULT set), a failed arming ARM_OK 0. An edge of a pair that is not
enabled, a pair in RUN and the clearing of a pair or driver fault change no latch; a fault already shown, and one of
a pair that is not enabled, changes nothing. (Rests on: R245, R247, R251, R262, R263, R248, R261) -/
def Obligations.every_stop_input_and_fault_latches_the_fleet_stop : Prop :=
  ∀ (s : State) (rel : RelIn), Awake s →
    let stops : Nat → State → Prop := fun src t => fleetLatch t = true
      ∧ (fleetLatch s = false → t.r Reg.STP_STATE.OUT_ON = 0 ∧ t.r Reg.STP_STATE.SOURCE = src)
    let kept : State → Prop := fun t => fleetLatch t = fleetLatch s ∧ ∀ r < 128, tgtLatch t r = tgtLatch s r
    (∀ chan : Fin 4, bitAt (s.r Reg.STP_CTRL.PAIR_EN) (chan.val / 2) = true →
      ∃ t, exec (.stopInEdge chan rel) s = .next t ∧ stops (1 + chan.val / 2) t
        ∧ bitAt (t.r Reg.STP_STATE.PAIR_RUN) (chan.val / 2) = false ∧ bitAt (t.r Reg.STP_STATE.IN_LEVEL) chan = false)
    ∧ (∀ p : Fin 2, bitAt (s.r Reg.STP_CTRL.PAIR_EN) p = true → bitAt (s.r Reg.STP_STATE.PAIR_FAULT) p = false →
      ∃ t, exec (.pairFault p rel) s = .next t ∧ stops 3 t ∧ bitAt (t.r Reg.STP_STATE.PAIR_FAULT) p = true)
    ∧ (∀ n : Fin 4, bitAt (s.r Reg.STP_STATE.OUT_FAULT) n = false →
      ∃ t, exec (.outReadbackFault n rel) s = .next t ∧ stops 10 t ∧ bitAt (t.r Reg.STP_STATE.OUT_FAULT) n = true)
    ∧ (∀ use : SlotUse, use.pending = false →
      ∃ t, exec (.stpArmSlot false use) s = .next t ∧ stops 9 t ∧ t.rb Reg.STP_ARM.ARM_OK = false)
    ∧ (∃ t, exec (.peerStop rel) s = .next t ∧ stops 8 t)
    ∧ (∀ chan : Fin 4, bitAt (s.r Reg.STP_CTRL.PAIR_EN) (chan.val / 2) = false → ∃ t, exec (.stopInEdge chan rel) s = .next t ∧ kept t
      ∧ bitAt (t.r Reg.STP_STATE.PAIR_RUN) (chan.val / 2) = false ∧ bitAt (t.r Reg.STP_STATE.IN_LEVEL) chan = false)
    ∧ (∀ p : Fin 2, bitAt (s.r Reg.STP_CTRL.PAIR_EN) p = false ∨ bitAt (s.r Reg.STP_STATE.PAIR_FAULT) p = true →
      exec (.pairFault p rel) s = .next s.start)
    ∧ (∀ p : Fin 2, (∃ t, exec (.pairRun p) s = .next t ∧ kept t ∧ bitAt (t.r Reg.STP_STATE.PAIR_RUN) p = true)
      ∧ ∃ t, exec (.pairFaultClear p) s = .next t ∧ kept t ∧ bitAt (t.r Reg.STP_STATE.PAIR_FAULT) p = false)
    ∧ (∀ n : Fin 4, (bitAt (s.r Reg.STP_STATE.OUT_FAULT) n = true → exec (.outReadbackFault n rel) s = .next s.start)
      ∧ ∃ t, exec (.outFaultClear n) s = .next t ∧ kept t ∧ bitAt (t.r Reg.STP_STATE.OUT_FAULT) n = false)

/-- STP_RESUME is accepted for a set latch with nothing blocking it, and refused otherwise. In LEAD and HALT, a fleet
resume of a set fleet latch with every stop chain clear, and a rover resume of a set targeted latch of a rover that
is neither LOST nor BREACHED or FROZEN, is accepted: it waits among the resumes, its command outstanding. Every
other one, and in MAINTENANCE every one, completes with RESUME_REFUSED, and no resume is added. In neither case does
a latch change at once. (Rests on: R264, R265) -/
def Obligations.resumes_are_accepted_only_with_a_clear_stop_chain : Prop :=
  ∀ (s : State) (h : Handle) (r rsv : Nat), Taken anyRunMode s →
    let fleetOk := s.leading = true ∧ rsv = 0 ∧ fleetLatch s = true ∧ stopChainClear s = true
    let roverOk := s.leading = true ∧ rsv = 0 ∧ r < 128 ∧ tgtLatch s r = true ∧ s.rbit Reg.SEC_LOST.LOST r = false ∧ corridorHeld s r = false
    let same : State → Prop := fun t => fleetLatch t = fleetLatch s ∧ ∀ q < 128, tgtLatch t q = tgtLatch s q
    (fleetOk → ∃ t, exec (.stpResumeFleet h rsv) s = .next t ∧ Outstanding s t h ∧ same t
      ∧ t.stp.resumes = s.stp.resumes ++ [{ h := h, rover := none, tick := s.now, sure := true }])
    ∧ (¬ fleetOk → ∃ t, exec (.stpResumeFleet h rsv) s = .next t ∧ Posted s t h stResume 0 ∧ same t
      ∧ t.stp.resumes = s.stp.resumes)
    ∧ (roverOk → ∃ t, exec (.stpResumeRover h r rsv) s = .next t ∧ Outstanding s t h ∧ same t
      ∧ t.stp.resumes = s.stp.resumes ++ [{ h := h, rover := some r, tick := s.now, sure := true }])
    ∧ (¬ roverOk → ∃ t, exec (.stpResumeRover h r rsv) s = .next t ∧ Posted s t h stResume 0 ∧ same t
      ∧ t.stp.resumes = s.stp.resumes)

/-- Pairs enter RUN, faults clear, frames are armed for tick n + 8 and repeats go to the stop channels. Both channels of
a pair energised for REARM_MS put the pair in RUN with both levels 1; a joint de-energise followed by REARM_MS
energised clears PAIR_FAULT and puts the pair in RUN; a matching readback clears OUT_FAULT. None of them changes a
latch, and none touches the bits of another pair or driver. A successful STP slot holds frames of tick n + 8 under
the key epoch in force with ARM_OK 1. Outside BOOT and DEAD, with frames armed for this tick, a due CAN repeat of
the fleet latch is taken in this tick, and with no targeted window open its frame lies in the stop-class buffer of
every designated channel; with the fleet latch clear and one targeted window open, its due repeat counts down and
lies in those buffers; where nothing is due, and in BOOT and DEAD, nothing changes. (Rests on: R244, R246, R247,
R262, R251, R259, R265) -/
def Obligations.stop_inputs_rearm_and_frames_are_armed : Prop :=
  ∀ s : State, s.held = false →
    let latches : State → Prop := fun t => fleetLatch t = fleetLatch s ∧ ∀ r < 128, tgtLatch t r = tgtLatch s r
    let stopped (t : State) (f : StopFrame) : Prop :=
      ∀ c, c < 4 → bitAt (s.r Reg.STP_REPEAT.CAN_STOP_CH) c = true → f ∈ (canCh t c).stop
    (∀ p : Fin 2, ∃ t, exec (.pairRun p) s = .next t ∧ latches t
      ∧ bitAt (t.r Reg.STP_STATE.PAIR_RUN) p = true ∧ bitAt (t.r Reg.STP_STATE.IN_LEVEL) (2 * p.val) = true
      ∧ bitAt (t.r Reg.STP_STATE.IN_LEVEL) (2 * p.val + 1) = true
      ∧ bitAt (t.r Reg.STP_STATE.PAIR_RUN) (1 - p.val) = bitAt (s.r Reg.STP_STATE.PAIR_RUN) (1 - p.val)
      ∧ t.r Reg.STP_STATE.PAIR_FAULT = s.r Reg.STP_STATE.PAIR_FAULT)
    ∧ (∀ p : Fin 2, ∃ t, exec (.pairFaultClear p) s = .next t ∧ latches t
      ∧ bitAt (t.r Reg.STP_STATE.PAIR_FAULT) p = false ∧ bitAt (t.r Reg.STP_STATE.PAIR_RUN) p = true
      ∧ bitAt (t.r Reg.STP_STATE.PAIR_FAULT) (1 - p.val) = bitAt (s.r Reg.STP_STATE.PAIR_FAULT) (1 - p.val))
    ∧ (∀ n : Fin 4, ∃ t, exec (.outFaultClear n) s = .next t ∧ latches t
      ∧ (∀ k, k < 4 → bitAt (t.r Reg.STP_STATE.OUT_FAULT) k = (bitAt (s.r Reg.STP_STATE.OUT_FAULT) k && k != n.val))
      ∧ RegsOnly [Reg.STP_STATE.OUT_FAULT.key 0 0] s t)
    ∧ (∀ use : SlotUse, use.pending = false → s.mode ≠ .dead → (s.mode = .boot → s.bt.sealed = true) → s.kvt.gs = true →
      ∃ t, exec (.stpArmSlot true use) s = .next t
        ∧ (s.tick + 8, s.r Reg.KVT_KEYS.KEY_EPOCH) ∈ t.stp.armed ∧ t.rb Reg.STP_ARM.ARM_OK = true)
    ∧ (∀ e, s.mode ≠ .boot → s.mode ≠ .dead → armedEpoch s = some e → fleetLatch s = true → s.stp.canFleet + canRepeat s ≤ s.tick →
      ∃ t, exec .canStopRepeat s = .next t ∧ latches t ∧ t.stp.canFleet = s.tick
        ∧ (s.stp.tgt = [] → stopped t { rover := none, epoch := e, tick := s.tick }))
    ∧ (∀ e r w, s.mode ≠ .boot → s.mode ≠ .dead → armedEpoch s = some e → fleetLatch s = false → s.stp.tgt = [(r, w)] →
      0 < w.canLeft → w.canTick + canRepeat s ≤ s.tick →
      ∃ t, exec .canStopRepeat s = .next t ∧ latches t ∧ t.stp.canFleet = s.stp.canFleet
        ∧ tgtWin t r = { w with canLeft := w.canLeft - 1, canTick := s.tick }
        ∧ stopped t { rover := some r, epoch := e, tick := s.tick })
    ∧ (s.mode = .boot ∨ s.mode = .dead ∨ armedEpoch s = none ∨ (s.stp.tgt = [] ∧ (fleetLatch s = true → s.tick < s.stp.canFleet + canRepeat s)) →
      exec .canStopRepeat s = .next s.start)

/-- Ring commands act in the modes of their table row alone. In BOOT, SHADOW and DEAD and in an ACTIVATE pause no ring
command is taken; in MAINTENANCE a command for LEAD and HALT alone completes with MODE_REFUSED and writes no
register. HST_NOP completes with OK in MAINTENANCE, LEAD and HALT and writes no register. (Rests on: R349, R350,
R361, R495) -/
def Obligations.ring_commands_wait_for_a_mode_that_takes_them : Prop :=
  (∀ (c : Instr) (h : Handle) (op : Nat) (f : List Byte) (buf : BufIn) (s : State),
    descParts c = some (h, op, f, buf) → s.held = false → s.twn.reflecting = false →
    (s.mode = .boot ∨ s.mode = .dead ∨ s.mode = .shadow ∨ s.paused = true → exec c s = .next s.start)
    ∧ (s.mode = .maintenance → s.paused = false → opcodeModes op = some leadModes →
      ∃ t, exec c s = .next t ∧ Posted s t h stMode 0 ∧ t.regs = s.regs))
  ∧ (∀ (s : State) (h : Handle), Taken anyRunMode s →
    ∃ t, exec (.hstNop h) s = .next t ∧ Posted s t h stOk 0 ∧ t.regs = s.regs)

/-- EN of a ring is set inside the host window map, sets FAULT outside it, and is cleared at once. Outside DEAD:
clearing EN of a submission, completion or event ring writes that bit alone. Setting EN of a ring whose extent lies
in a window of the map sets EN and clears FAULT and writes nothing else; outside every window it sets FAULT, leaves
EN as it was, and raises HST_RING_FAULT where FAULT was 0. (Rests on: R346, R361, R464) -/
def Obligations.ring_enable_bits_follow_the_host_window_map : Prop :=
  ∀ s : State, s.held = false → s.mode ≠ .dead →
    (∀ i : Fin 64, ∃ t, exec (.sqEnClear i) s = .next t ∧ t.rb Reg.HST_SQ.EN i = false ∧ RegsOnly [Reg.HST_SQ.EN.key i 0] s t)
    ∧ (∀ i : Fin 64, ∃ t, exec (.cqEnClear i) s = .next t ∧ t.rb Reg.HST_CQ.EN i = false ∧ RegsOnly [Reg.HST_CQ.EN.key i 0] s t)
    ∧ (∀ i : Fin 16, ∃ t, exec (.eqEnClear i) s = .next t ∧ t.rb Reg.HST_EQ.EN i = false ∧ RegsOnly [Reg.HST_EQ.EN.key i 0] s t)
    ∧ (∀ (k : RingKind) (i : Nat), k.idxOk i = true →
      let inMap := inWindow s (ringBase s k i) (ringLen s k i * ringEntry k) = true
      (inMap → ∃ t, exec (.ringEnSet k i) s = .next t ∧ t.rb (ringEn k) i = true ∧ t.rb (ringFault k) i = false
        ∧ RegsOnly [(ringEn k).key i 0, (ringFault k).key i 0] s t)
      ∧ (¬ inMap → ∃ t, exec (.ringEnSet k i) s = .next t ∧ t.rb (ringFault k) i = true ∧ t.rb (ringEn k) i = s.rb (ringEn k) i
        ∧ (s.rb (ringFault k) i = false → pending t 421 = true) ∧ EventsOnly [(ringFault k).key i 0] s t))

/-- Doorbell reads: issued at a sample point, counted when they fail, taken when an entry passes its check. Where the
module samples, a sample point with link, Bus Master Enable and the block inside the host window map issues a read
of the 512-byte block and nothing else; with the link down it counts as a failed read. A failed read adds 1 to
FAIL_RUN and to DB_READ_FAIL; the eighth in a row raises HST_DB_LOST and with LOSS_STOP leaves the fleet latch set.
A completed read clears FAIL_RUN; for every active SQ whose entry passes its CRC-16 and whose index does not run
further ahead than the ring is long, DB_PI takes the index; where the CRC fails, DB_PI keeps its value. (Rests on:
R46, R357, R358, R360) -/
def Obligations.doorbell_reads_are_issued_counted_and_taken : Prop :=
  ∀ (s : State) (cyc : Nat), s.held = false → sampling s = true →
    (s.hst.linkUp = true → s.hst.pcie.bme = true → inWindow s (dbAddr s) 512 = true → ∃ t, exec .doorbellSample s = .next t
      ∧ t = { s with out := [.hostRead (dbAddr s) 512], hst := { s.hst with dbReads := s.hst.dbReads + 1 } })
    ∧ (s.hst.linkUp = false → ∃ t, exec .doorbellSample s = .next t ∧ t.hst.dbReads = s.hst.dbReads
      ∧ t.r Reg.HST_COUNTS.DB_READ_FAIL = satInc Reg.HST_COUNTS.DB_READ_FAIL.width (s.r Reg.HST_COUNTS.DB_READ_FAIL)
      ∧ t.r Reg.HST_DB_STATUS.FAIL_RUN = min (s.r Reg.HST_DB_STATUS.FAIL_RUN + 1) 8)
    ∧ (s.hst.dbReads ≠ 0 → ∃ t, exec (.doorbellReadFail cyc) s = .next t ∧ t.hst.dbReads = s.hst.dbReads - 1
      ∧ t.r Reg.HST_COUNTS.DB_READ_FAIL = satInc Reg.HST_COUNTS.DB_READ_FAIL.width (s.r Reg.HST_COUNTS.DB_READ_FAIL)
      ∧ t.r Reg.HST_DB_STATUS.FAIL_RUN = min (s.r Reg.HST_DB_STATUS.FAIL_RUN + 1) 8
      ∧ (s.r Reg.HST_DB_STATUS.FAIL_RUN = 7 → pending t 419 = true
        ∧ (s.rb Reg.HST_DB_CFG.LOSS_STOP = true → fleetLatch t = true)))
    ∧ (∀ block : List Byte, s.hst.dbReads ≠ 0 → block.length = 512 →
      let b : Nat → List Byte := fun e => (block.drop (8 * e)).take 8
      let ok : Nat → Prop := fun e => crc16 (le 1 e ++ (b e).take 6) = field (b e) 6 2
      ∃ t, exec (.doorbellReadDone block cyc) s = .next t ∧ t.hst.dbReads = s.hst.dbReads - 1
        ∧ t.r Reg.HST_DB_STATUS.FAIL_RUN = 0
        ∧ ∀ i, i < 64 →
          (ok i → s.rb Reg.HST_SQ.ACTIVE i = true → (field (b i) 0 2 + 65536 - s.r Reg.HST_SQ.FETCH_CI i) % 65536 ≤ ringLen s .sq i →
            t.r Reg.HST_SQ.DB_PI i = field (b i) 0 2)
          ∧ (¬ ok i → t.r Reg.HST_SQ.DB_PI i = s.r Reg.HST_SQ.DB_PI i))

/-- A doorbell entry whose CHECK is wrong is not used at all, wherever it was written. Of two 512-byte blocks whose
entries are the same but for entries that fail their check in both (the CRC-16 over the entry number and bytes 0 to
5, held little-endian in bytes 6 and 7), a completed read leaves the same state. Six bytes never have the same check
at two entry numbers, so that an entry written to the wrong place fails its check. (States: R358) -/
def Obligations.a_doorbell_entry_with_a_wrong_check_is_not_used : Prop :=
  (∀ (s : State) (cyc : Nat) (b c : List Byte), s.held = false → b.length = 512 → c.length = 512 →
    let entry : List Byte → Nat → List Byte := fun x e => (x.drop (8 * e)).take 8
    let good : List Byte → Nat → Prop := fun x e => crc16 (le 1 e ++ (entry x e).take 6) = field (entry x e) 6 2
    (∀ e, e < 64 → entry b e = entry c e ∨ (¬ good b e ∧ ¬ good c e)) →
    ∃ t, exec (.doorbellReadDone b cyc) s = .next t ∧ exec (.doorbellReadDone c cyc) s = .next t)
  ∧ (∀ (e e' : Nat) (x : List Byte), e < 64 → e' < 64 → e ≠ e' → crc16 (le 1 e ++ x) ≠ crc16 (le 1 e' ++ x))

/-- A completion and an event record that wait are written to their rings, and an emptied event ring gets its overflow
record. In MAINTENANCE with the host in reach and no descriptor waiting, an HST window writes the one completion
that waits for an enabled completion ring with space at the address of its producer index, advances that index by 1
and keeps no completion; the one event record that waits is written likewise. An event ring that lost records and
has space again is owed one record of HST_EVT_OVERFLOW. (Rests on: R347, R351, R352, R353, R354) -/
def Obligations.an_HST_window_writes_a_ready_completion_and_an_event_record : Prop :=
  (∀ (s : State) (use : SlotUse), s.held = false → s.mode = .maintenance → s.paused = false → hostReach s = true →
    s.svc.tel = none → use.pending = false → s.hst.waiting = [] →
    (∀ c : Compl, s.hst.compl = [c] → s.hst.evq = [] →
      let j := s.r Reg.HST_SQ.CQ c.h.sq
      let k := s.r Reg.HST_CQ.PI j
      mget false s.hst.cqOn j = true → (k + 65536 - s.r Reg.HST_CQ.DB_CI j) % 65536 < ringLen s .cq j →
      ∃ t, exec (.hstWindow use) s = .next t ∧ .hostWrite (ringAddr s .cq j k) (complBytes s j k c) ∈ t.out
        ∧ t.r Reg.HST_CQ.PI j = (k + 1) % 65536 ∧ t.hst.compl = [])
    ∧ (∀ e : EvtRec, e.eq < 16 → s.hst.compl = [] → s.hst.evq = [e] →
      let k := s.r Reg.HST_EQ.PI e.eq
      ∃ t, exec (.hstWindow use) s = .next t ∧ .hostWrite (ringAddr s .eq e.eq k) (evtBytes s e.eq k e) ∈ t.out
        ∧ t.r Reg.HST_EQ.PI e.eq = (k + 1) % 65536))
  ∧ (∀ (s : State) (k : Fin 16), s.held = false → s.mode ≠ .boot → s.mode ≠ .dead → k.val ∈ s.hst.evOvf →
    mget false s.hst.eqOn k = true → eqUsed s k < ringLen s .eq k →
    ∃ t, exec (.evtOverflowRecord k) s = .next t ∧ t.hst.evOvf = s.hst.evOvf.erase k
      ∧ t.hst.evq = s.hst.evq ++ [{ source := 423, mode := modeNum s.mode, detail := k, tick := s.tick, eq := k }])

/-- A descriptor read from a ring is checked, counted as fetched and handed over. Outside BOOT, SHADOW and DEAD, when
the read of one descriptor ends with nothing else waiting: an error leaves it unfetched and counts in
DESC_READ_FAIL. Read without error, FETCH_CI moves past it; with a wrong CRC-32C it completes with DESC_CRC and the
computed value as DETAIL; with a known OPCODE, no reserved FLAGS bit, a mode of that OPCODE, and no FENCE behind
outstanding commands, it is carried out as its bytes spell it. (Rests on: R347, R348, R350) -/
def Obligations.a_descriptor_read_is_checked_and_handed_over : Prop :=
  ∀ (s : State) (q x : Nat) (b : List Byte) (buf : BufIn) (cyc : Nat), s.held = false → s.mode ≠ .boot → s.mode ≠ .dead → s.mode ≠ .shadow →
    q < 64 → s.hst.reading = [(q, x)] → s.hst.waiting = [] → b.length = 32 →
    let h : Handle := { sq := q, idx := x, tag := field b 4 4, cyc := cyc }
    (∃ t, exec (.descReadDone false [] [] cyc) s = .next t ∧ t.hst = { s.hst with reading := [] }
      ∧ t.r Reg.HST_COUNTS.DESC_READ_FAIL = satInc Reg.HST_COUNTS.DESC_READ_FAIL.width (s.r Reg.HST_COUNTS.DESC_READ_FAIL)
      ∧ RegsKept [Reg.HST_COUNTS.DESC_READ_FAIL.key 0 0] s t)
    ∧ (crc32c (b.take 28) ≠ field b 28 4 → ∃ t, exec (.descReadDone true [b] [buf] cyc) s = .next t
      ∧ Done t h stCrc (crc32c (b.take 28)) ∧ t.r Reg.HST_SQ.FETCH_CI q = (x + 1) % 65536)
    ∧ (∀ ms, crc32c (b.take 28) = field b 28 4 → opcodeModes (field b 0 1) = some ms → field b 1 1 < 2 → s.mode ∈ ms →
      s.paused = false → (field b 1 1 = 1 → ∀ p ∈ s.hst.started, p.1.sq ≠ q) →
      exec (.descReadDone true [b] [buf] cyc) s = withOutAt s (some (cycU cyc)) fun s =>
        descRun b buf h (startAt ({ s with hst := { s.hst with reading := [] } }.w Reg.HST_SQ.FETCH_CI (x + 1) q) h s.tick))

/-- Loss of the host link takes every ring out of service at the next tick boundary; its return and Bus Master Enable
are reported. Outside DEAD: when a link that was up goes down, HST_LINK_DOWN is pending and all else waits for the
tick boundary; there EN of all 64 SQs, 64 CQs and 16 EQs is cleared, no SQ is active, no descriptor read is
outstanding, and but for a shadow no completion due is kept, with every FETCH_CI as it was. When it trains with Bus
Master Enable set, or the host sets Bus Master Enable on a link that is up, HST_LINK_UP is pending and no ring
register changes. A write of configuration space is kept with the payload limits at most 256 and 512 bytes; with
MSI-X enabled and the function not masked, a vector that was pending and is not masked is sent. (Rests on: R361,
R360, R342, R355) -/
def Obligations.the_host_link_goes_down_and_up : Prop :=
  ∀ s : State, s.held = false → s.mode ≠ .dead →
    (s.hst.linkUp = true → ∃ t, exec .pcieLinkDown s = .next t ∧ t.hst.linkUp = false
      ∧ t.hst.downPend = true ∧ t.hst.reading = s.hst.reading ∧ t.hst.dbReads = s.hst.dbReads ∧ t.hst.compl = s.hst.compl
      ∧ pending t 425 = true
      ∧ (∀ k i, i < ringCount k → t.rb (ringEn k) i = s.rb (ringEn k) i)
      ∧ (s.hst.idxZero = [] → let u := ringsTick t
        u.hst.reading = [] ∧ (s.mode ≠ .shadow → s.hst.waiting = [] → u.hst.compl = [])
        ∧ (∀ i, i < 64 → u.rb Reg.HST_SQ.EN i = false ∧ u.rb Reg.HST_CQ.EN i = false ∧ u.rb Reg.HST_SQ.ACTIVE i = false
          ∧ u.r Reg.HST_SQ.FETCH_CI i = s.r Reg.HST_SQ.FETCH_CI i)
        ∧ (∀ k, k < 16 → u.rb Reg.HST_EQ.EN k = false)))
    ∧ (s.hst.pcie.bme = true → ∃ t, exec .pcieLinkUp s = .next t ∧ t.hst.linkUp = true ∧ pending t 426 = true ∧ RegsKept evtKeys s t)
    ∧ (∀ c : PcieCfg, (∃ t, exec (.busMasterEnable c) s = .next t ∧ t.hst.pcie = { c with mps := min c.mps 256, mrrs := min c.mrrs 512 }
        ∧ RegsKept (Reg.MSIX_PBA.PENDING.key 0 0 :: evtKeys) s t
        ∧ (c.bme = true → s.hst.pcie.bme = false → s.hst.linkUp = true → pending t 426 = true)
        ∧ (∀ v, v < 32 → c.msixEn = true → c.funcMask = false → s.rb Reg.MSIX.MASK v = false →
          bitAt (s.r Reg.MSIX_PBA.PENDING) v = true → .msix v ∈ t.out ∧ bitAt (t.r Reg.MSIX_PBA.PENDING) v = false))
      ∧ (c.msixEn = false → c.bme = false →
        exec (.busMasterEnable c) s = .next { s with out := [], hst := { s.hst with pcie := pcieClamp c } }))

/-- A host write takes each field by its access code and counts as refused where a closed field would change. Outside
DEAD, a write to a word of BAR0 between 0x02_0000 and 0x0B_FFFF, whose fields are distinct, gives an open RW, RWS or
RWB field its part of the value (the nearest limit, where the field is clamped: log entry 16), clears the bits of an
open W1C field written as 1, and leaves every other field as it was. Where no reserved bit is 1 and no closed field
would change, nothing else changes, but for the words 0x08_0100 + 0x80 n, where a change of LIM_POL or HOME_POL
changes which switches are active (R406); otherwise HST_REFUSED_WR holds the offset of the word with VALID, and
HST_WRITE_REFUSED is raised unless it was already raised in this tick. The words of the origin (0x05_0010 to
0x05_0028) are told apart: in MAINTENANCE their open fields take their part alike, and the origin in force follows
them. In DEAD a write changes nothing. (Rests on: R9, R10, R517, R185) -/
def Obligations.register_writes_act_field_by_field : Prop :=
  ∀ (s : State) (addr cyc : Nat) (v : Word), s.held = false →
    let a := addr / 4 * 4
    let origin : Prop := 0x50010 ≤ a ∧ a ≤ 0x50028
    let polarity : Prop := 0x80100 ≤ a ∧ a < 0x80300 ∧ a % 0x80 = 0
    (s.mode = .dead → exec (.registerWrite addr v cyc) s = .next s.start)
    ∧ (s.mode ≠ .dead → 0x20000 ≤ a → a < 0xC0000 → ¬ origin → ((wordFields a).map fun p => p.1.key p.2.1 p.2.2).Nodup →
      (∀ p ∈ wordFields a, p.1.key p.2.1 p.2.2 < 32 * a + 32) →
      ∃ t, exec (.registerWrite addr v cyc) s = .next t
        ∧ (∀ p ∈ wordFields a, let old := s.r p.1 p.2.1 p.2.2
          t.r p.1 p.2.1 p.2.2 = if p.1.acc.opens s.mode = false ∨ p.1.acc = .wo then old
            else if p.1.acc = .w1c then old - (old &&& p.1.part v.toNat) else heldValue p.1 v.toNat)
        ∧ (writeRefused a v.toNat s = false → wordFields a ≠ [] → ¬ polarity →
          RegsOnly ((wordFields a).map fun p => p.1.key p.2.1 p.2.2) s t)
        ∧ (writeRefused a v.toNat s = true ∨ wordFields a = [] →
          t.r Reg.HST_REFUSED_WR.OFFSET = a ∧ t.rb Reg.HST_REFUSED_WR.VALID = true
          ∧ (416 ∉ s.onceTick → pending t 416 = true)))
    ∧ (s.mode = .maintenance → origin → ∃ t, exec (.registerWrite addr v cyc) s = .next t
        ∧ (∀ p ∈ wordFields a, p.1.acc.opens s.mode = true → t.r p.1 p.2.1 p.2.2 = heldValue p.1 v.toNat)
        ∧ t.cht.origin = ownOrigin t ∧ t.rb Reg.CHT_ORIGIN_CTRL.IN_FORCE = t.rb Reg.CHT_ORIGIN_CTRL.ORIGIN_VALID
        ∧ t.rb Reg.CHT_ORIGIN_CTRL.FROM_LEAD = false)

/-- What a port measures of the exchanges it completes, and what it answers. With its link up outside BOOT and DEAD, a
port counts any other frame, and a PTP message on the transport it does not use, in RX_OTHER and does nothing else.
In service, a one-step Sync of the master that its SLAVE port follows puts OFFSET_NS at ingress stamp less origin,
corrections, asymmetry and mean path delay, and gives TTU the negated offset; a two-step Sync waits for its
Follow_Up and is then measured alike, unless TB2 has stepped since: then it is discarded and counted. The first
delay sample, end to end or peer to peer, is MPD_PS; an end-to-end exchange whose local stamps lie on both sides of
a step of TB2 is discarded and counted. A MASTER port answers a Delay_Req with Delay_Resp, a P2P port a Pdelay_Req
with Pdelay_Resp and, in two-step, its Follow_Up. An Announce of another clock makes its dataset that of the master
heard. (Stamps are TB2 at the GMII less ING_LAT_PS; the formats are those of the standard, log entry 67; the
roundings are log entry 65.) (Rests on: R85, R86, R88, R90, R91, R92, R96) -/
def Obligations.ptp_messages_received_are_measured_and_answered : Prop :=
  ∀ (s : State) (p : Fin 2), Awake s → s.rb Reg.ETH_P_STATUS.LINK p = true →
    (∃ t, exec (.ptpMessageRx p .other) s = .next t
      ∧ t.r Reg.ETH_P_CNT.RX_OTHER p = satInc 32 (s.r Reg.ETH_P_CNT.RX_OTHER p) ∧ RegsOnly [Reg.ETH_P_CNT.RX_OTHER.key p 0] s t)
    ∧ (∀ (hd : PtpHdr) (m : PtpMsg), hd.udp ≠ ethRb s Reg.ETH_P_CFG.TRANSPORT p → ∃ t, exec (.ptpMessageRx p (.msg hd m)) s = .next t
      ∧ t.r Reg.ETH_P_CNT.RX_OTHER p = satInc 32 (s.r Reg.ETH_P_CNT.RX_OTHER p) ∧ RegsOnly [Reg.ETH_P_CNT.RX_OTHER.key p 0] s t)
    ∧ (∀ (hd : PtpHdr) (g : Foreign), ethOn s p = true → hd.udp = ethRb s Reg.ETH_P_CFG.TRANSPORT p →
      hd.domain = s.r Reg.ETH_PTP_CFG.DOMAIN → hd.sdoId = 0 →
      let e := ethPort s p
      let u := ethRb s Reg.ETH_P_CFG.TRANSPORT p
      let p2p := ethRb s Reg.ETH_P_CFG.DELAY_MECH p
      let one := ethRb s Reg.ETH_P_CFG.ONE_STEP p
      let sent : List Out → State → Prop := fun o t => t.out = o ∧ t.regs = s.regs
      let follows : Prop := ethState s p = psSlave ∧ e.parent = some g ∧ g.src = hd.src
      let taken : Int → Int → State → Prop := fun diff t1 t =>
        let off := diff - t1 - ethAsym s p - psUnits (e.mpd.getD 0)
        t.ri Reg.ETH_P_MEAS.OFFSET_NS p = clamp32 (off / uNs) ∧ t.ttu.ptpOffs.head? = some (-off)
          ∧ t.ttu.ptpTick = some s.tick ∧ RegsKept [Reg.ETH_P_MEAS.OFFSET_NS.key p 0] s t
      let first : Int → State → Prop := fun twice t =>
        (ethPort t p).mpd = some (twice * 1000 / (2 * 65536))
          ∧ t.r Reg.ETH_P_MEAS.MPD_PS p = min (twice * 1000 / (2 * 65536)).toNat 0xFFFFFFFF
          ∧ RegsKept [Reg.ETH_P_MEAS.MPD_PS.key p 0] s t
      (∀ (t1 : Int) (a : Nat), follows →
        (∃ t, exec (.ptpMessageRx p (.msg hd (.sync t1 false a))) s = .next t
          ∧ taken (ethIngress s p (gmiiStamp s a) - hd.corr) t1 t)
        ∧ (∃ t x, exec (.ptpMessageRx p (.msg hd (.sync t1 true a))) s = .next t ∧ (ethPort t p).sync = some x
          ∧ x.src = hd.src ∧ x.seq = hd.seq ∧ x.stamp = ethIngress s p (gmiiStamp s a) ∧ x.corr = hd.corr ∧ x.tick = s.tick
          ∧ RegsKept [] s t))
      ∧ (∀ (t1 : Int) (x : Exchange), ethState s p = psSlave → e.sync = some x → x.src = hd.src → x.seq = hd.seq →
        (crossesStep s x.tick s.tick = true → ∃ t, exec (.ptpMessageRx p (.msg hd (.followUp t1))) s = .next t
          ∧ t.r Reg.ETH_P_CNT.DISCARD_STEP p = satInc 32 (s.r Reg.ETH_P_CNT.DISCARD_STEP p) ∧ (ethPort t p).sync = none
          ∧ RegsKept [Reg.ETH_P_CNT.DISCARD_STEP.key p 0] s t)
        ∧ (crossesStep s x.tick s.tick = false → ∃ t, exec (.ptpMessageRx p (.msg hd (.followUp t1))) s = .next t
          ∧ taken (x.stamp - x.corr - hd.corr) t1 t ∧ (ethPort t p).sync = none))
      ∧ (∀ (t4 d : Int) (t0 : Nat) (x : Exchange), follows → ethRb s Reg.ETH_P_CFG.DELAY_MECH p = false → e.req = some x →
        x.seq = hd.seq → e.msDiff = some (d, t0) →
        (crossesStep s (min t0 x.tick) (max t0 x.tick) = false → e.mpd = none →
          ∃ t, exec (.ptpMessageRx p (.msg hd (.delayResp t4 (ethPortId s p)))) s = .next t
            ∧ first (d + (t4 - x.stamp - hd.corr)) t)
        ∧ (crossesStep s (min t0 x.tick) (max t0 x.tick) = true →
          ∃ t, exec (.ptpMessageRx p (.msg hd (.delayResp t4 (ethPortId s p)))) s = .next t ∧ (ethPort t p).mpd = e.mpd
            ∧ (ethPort t p).req = none ∧ t.r Reg.ETH_P_CNT.DISCARD_STEP p = satInc 32 (s.r Reg.ETH_P_CNT.DISCARD_STEP p)
            ∧ RegsKept [Reg.ETH_P_CNT.DISCARD_STEP.key p 0] s t))
      ∧ (∀ (t2 : Int) (a : Nat) (x : Exchange), ethRb s Reg.ETH_P_CFG.DELAY_MECH p = true → e.req = some x → x.seq = hd.seq →
        crossesStep s x.tick s.tick = false → e.mpd = none →
        ∃ t, exec (.ptpMessageRx p (.msg hd (.pdelayResp t2 false (ethPortId s p) a))) s = .next t
          ∧ first (ethIngress s p (gmiiStamp s a) - x.stamp - hd.corr - ethAsym s p) t)
      ∧ (∀ a : Nat, p2p = false → ethState s p = psMaster →
        let x := ethIngress s p (gmiiStamp s a)
        ∃ t, exec (.ptpMessageRx p (.msg hd (.delayReq a))) s = .next t ∧ sent
          [.ptp p u (ptpTo u 9) 9 (ptpBytes s p 9 0 (hd.corr - x % uNs) hd.seq 3 (ethRi s Reg.ETH_P_CFG.LOG_MIN_DELAY_REQ p)
            (ptpTime x ++ portIdBytes hd.src))] t)
      ∧ (∀ a x n : Nat, p2p = true → e.fifo - n < 8 →
        let t2 := ethIngress s p (gmiiStamp s a)
        let t3 := ethEgress s p (gmiiStamp s x)
        ∃ t, exec (.ptpMessageRx p (.msg hd (.pdelayReq a x n))) s = .next t ∧ sent
          (if one then [.ptp p u (ptpTo u 3) 3 (ptpBytes s p 3 0 (hd.corr + t3 - t2) hd.seq 5 127 (ptpTime 0 ++ portIdBytes hd.src))]
           else [.ptp p u (ptpTo u 3) 3 (ptpBytes s p 3 0x0200 (-(t2 % uNs)) hd.seq 5 127 (ptpTime t2 ++ portIdBytes hd.src)),
             .ptp p u (ptpTo u 10) 10 (ptpBytes s p 10 0 (hd.corr + t3 % uNs) hd.seq 5 127 (ptpTime t3 ++ portIdBytes hd.src))]) t)
      ∧ (∀ (gm : GmData) (steps : Nat), hd.src.clock ≠ ethClockId s → steps < 255 →
        ∃ t, exec (.ptpMessageRx p (.msg hd (.announce gm steps))) s = .next t
          ∧ (∃ f ∈ (ethPort t p).foreign, f.src = hd.src ∧ f.gm = gm ∧ f.steps = steps ∧ f.ticks.head? = some s.tick)
          ∧ t.eth.gm = (ethSlavePort t).bind fun q => (ethPort t q).parent.map (·.gm.id)))

/-- What a port sends, and how it leaves and takes the SLAVE role. A MASTER port sends Sync with its egress stamp at the
MDI, in one message or two, and Announce with the quality of R93; with 8 stamps in the FIFO it adds 1 to STAMP_MISS
and raises ETH_STAMP_MISS. A P2P port or a SLAVE port sends its delay request, the asymmetry taken from its
correctionField. An Announce timeout of the SLAVE port raises ETH_ANNOUNCE_TIMEOUT and forgets the master. When the
link of a port in service goes down, it is out of service and FAULTY, and both events are pending; a preferred port
that hears the same grandmaster, better than the module itself, and has been back for STABLE_WATCHES takes SLAVE
from the other. (The formats and decisions are those of the standard, log entry 67.) (Rests on: R87, R88, R90, R92,
R93, R95, R96) -/
def Obligations.ports_send_and_change_state : Prop :=
  ∀ (s : State) (p : Fin 2), Awake s →
    let u := ethRb s Reg.ETH_P_CFG.TRANSPORT p
    let p2p := ethRb s Reg.ETH_P_CFG.DELAY_MECH p
    let one := ethRb s Reg.ETH_P_CFG.ONE_STEP p
    let e := ethPort s p
    let sent : List Out → State → Prop := fun o t => t.out = o ∧ t.regs = s.regs
    (ethOn s p = true → ethState s p = psMaster →
      (∀ a n : Nat, e.fifo - n < 8 →
        let x := ethEgress s p (gmiiStamp s a)
        let log := ethRi s Reg.ETH_P_CFG.LOG_SYNC p
        ∃ t, exec (.ptpSyncTx p ⟨a, n⟩) s = .next t ∧ sent
          (if one then [.ptp p u (ptpTo u 0) 0 (ptpBytes s p 0 0 (x % uNs) e.syncSeq 0 log (ptpTime x))]
           else [.ptp p u (ptpTo u 0) 0 (ptpBytes s p 0 0x0200 0 e.syncSeq 0 log (ptpTime 0)),
             .ptp p u (ptpTo u 8) 8 (ptpBytes s p 8 0 (x % uNs) e.syncSeq 2 log (ptpTime x))]) t)
      ∧ (∀ a n : Nat, 8 ≤ e.fifo - n → ∃ t, exec (.ptpSyncTx p ⟨a, n⟩) s = .next t ∧ pending t 36 = true
        ∧ t.r Reg.ETH_P_CNT.STAMP_MISS p = satInc 32 (s.r Reg.ETH_P_CNT.STAMP_MISS p)
        ∧ RegsKept (Reg.ETH_P_CNT.STAMP_MISS.key p 0 :: evtKeys) s t)
      ∧ (let g := (ethQuality s p).1
        ∃ t, exec (.ptpAnnounceTx p) s = .next t ∧ sent
          [.ptp p u (ptpTo u 11) 11 (ptpBytes s p 11 (8 + 4 * b2n g.utcValid) 0 e.annSeq 5
          (ethR s Reg.ETH_P_CFG.LOG_ANNOUNCE p)
          (ptpTime 0 ++ be 2 g.utc ++ le 1 0 ++ le 1 g.prio1 ++ le 1 g.clockClass ++ le 1 g.accuracy ++ be 2 g.variance
            ++ le 1 g.prio2 ++ be 8 g.id ++ be 2 (ethQuality s p).2 ++ le 1 g.timeSource))] t))
    ∧ (∀ a n : Nat, ethOn s p = true → p2p = true ∨ ethState s p = psSlave → e.fifo - n < 8 →
      ∃ t, exec (.ptpDelayReqTx p ⟨a, n⟩) s = .next t ∧ sent
          [.ptp p u (ptpTo u (if p2p then 2 else 1)) (if p2p then 2 else 1) (ptpBytes s p (if p2p then 2 else 1) 0 (-ethAsym s p) e.reqSeq (if p2p then 5 else 1) 127
          (ptpTime 0 ++ (if p2p then List.replicate 10 0 else [])))] t)
    ∧ (ethOn s p = true → ethState s p = psSlave → ∀ cyc, ∃ t, exec (.ptpAnnounceTimeout p cyc) s = .next t ∧ pending t 35 = true
      ∧ ∀ g, e.parent = some g → ∀ f ∈ (ethPort t p).foreign, f.src ≠ g.src)
    ∧ (s.rb Reg.ETH_P_STATUS.LINK p = true → s.rb Reg.ETH_P_STATUS.IN_SERVICE p = true →
      ∀ cyc, ∃ t, exec (.ethLinkChange p false cyc) s = .next t ∧ t.rb Reg.ETH_P_STATUS.LINK p = false
        ∧ t.rb Reg.ETH_P_STATUS.IN_SERVICE p = false ∧ ethState t p = psFaulty ∧ pending t 32 = true ∧ pending t 38 = true)
    ∧ (∀ b : Cand, s.r Reg.ETH_PTP_CFG.PREF_SLAVE = p → ethOn s p = true → ethState s (1 - p.val) = psSlave → sameGm s = true →
      ethBest s p = some b → ¬ (1 ≤ (ethOwnQuality s p).clockClass ∧ (ethOwnQuality s p).clockClass ≤ 127) →
      dsCompare (ethClockId s)
        { gm := ethOwnQuality s p, steps := 0, src := { clock := ethClockId s, port := 0 }, rx := 0 } b ≤ 0 →
      stableWatches s ≤ e.watches →
      ∃ t, exec .ethPortBack s = .next t ∧ ethState t p = psSlave ∧ ethState t (1 - p.val) ≠ psSlave)

/-- What finds, holds and loses a satellite does to a receiver channel. With the engines running: a channel in REACQ
that finds its signal within its window, and a channel of the search pool that finds an enabled signal in an enabled
band that no other channel holds and that the search looks for, enter PULL_IN, the free one with the signal,
satellite and frequency channel; a PULL_IN channel whose lock indicator has been 0.8 or more for 100 ticks enters
TRACK with the lock time at 0; a TRACK channel with the indicator below 0.6 for 50 ticks, or C/N0 below LOSS_CN0 for
100, enters REACQ with its window full; one whose window has ended joins the search pool and counts. Bit and
secondary-code synchronisation set the channel's integration time and its synchronisation and write no register.
(Rests on: R109, R111, R113, R114) -/
def Obligations.receiver_channels_move_through_their_states : Prop :=
  ∀ (s : State) (c : Fin 1024), Engines s →
    (∀ g sv (k dop : Int), chState s c = 4 → (sxtCh s c).left ≠ 0 → bandOn s (sigBand (s.r Reg.SXT_CH.SIG c)) = true →
      ∃ t, exec (.acqFound c g sv ⟨k, dop⟩) s = .next t ∧ chState t c = 2 ∧ (sxtCh t c).carRate = dop
        ∧ RegsKept [Reg.SXT_CH.STATE.key c 0, Reg.SXT_CH.LOCK_MS.key c 0] s t)
    ∧ (∀ g sv (k dop : Int), chState s c = 1 → (sxtCh s c).held = false → g < 18 → sv < 256 → pairTaken s c g sv = false →
      bitAt (s.r Reg.SXT_SIG_EN.SIG_EN) g = true → bandOn s (sigBand g) = true → searchFinds s g sv dop = true →
      ∃ t, exec (.acqFound c g sv ⟨k, dop⟩) s = .next t ∧ chState t c = 2 ∧ t.r Reg.SXT_CH.SIG c = g ∧ t.r Reg.SXT_CH.SV c = sv
        ∧ t.r Reg.SXT_CH.FREQ_K c = sigK g k ∧ (sxtCh t c).held = true)
    ∧ (chState s c = 2 → forTicks s 100 (sxtCh s c).hiAt = true → ∃ t, exec (.chTrack c) s = .next t ∧ chState t c = 3
      ∧ t.r Reg.SXT_CH.LOCK_MS c = 0 ∧ (sxtCh t c).since = s.tick)
    ∧ (chState s c = 3 → forTicks s 50 (sxtCh s c).loAt = true ∨ forTicks s 100 (sxtCh s c).weakAt = true →
      ∃ t, exec (.chLockLoss c) s = .next t ∧ chState t c = 4 ∧ (sxtCh t c).left = reacqWatches s
      ∧ (sxtCh t c).restart = true ∧ RegsKept [Reg.SXT_CH.STATE.key c 0] s t)
    ∧ (chState s c = 4 → (sxtCh s c).left = 0 → ∃ t, exec (.reacqExpire c) s = .next t ∧ chState t c = 1
      ∧ (sxtCh t c).held = false ∧ t.r Reg.SXT_COUNTS.LOCK_LOSS_COUNT = satInc 32 (s.r Reg.SXT_COUNTS.LOCK_LOSS_COUNT))
    ∧ (chState s c = 2 ∨ chState s c = 3 → sigData (s.r Reg.SXT_CH.SIG c) = true →
      ∃ t, exec (.bitSync c false) s = .next t ∧ (sxtCh t c).sync = true
        ∧ (sxtCh t c).tcoh = sxtTCohEff s (s.r Reg.SXT_CH.SIG c) ∧ t = { s with out := [], sxt := t.sxt })
    ∧ (chState s c = 3 → sigData (s.r Reg.SXT_CH.SIG c) = false →
      ∃ t, exec (.secondaryCodeSync c) s = .next t ∧ (sxtCh t c).sync = true ∧ t = { s with out := [], sxt := t.sxt })

/-- Antenna bias faults, notch requests and the noise reference. With BIAS_EN: with the bias on and more than 110 mA, a
short switches it off, shows SHORTED and makes the three bands UNCALIBRATED, once until it ends; 1,000 ticks after
the bias went off or was last tried the retry switches it on and notes its own tick; less than 3 mA for 100 ticks
shows OPEN, and 3 to 110 mA normal, with the bias on; each raises its event. A spectral line that has qualified and
has no notch, and a line gone from its notch, wait for the next boundary and change nothing else. After 10,000 ticks
the band takes its reference, held to the factory value plus 3 dB, and is CLEAR. (Rests on: R101, R120, R121, R123) -/
def Obligations.antenna_notches_and_noise_reference : Prop :=
  (∀ s : State, s.held = false → s.mode ≠ .dead → s.rb Reg.SXT_ANT_CFG.BIAS_EN = true →
    let ma := s.r Reg.SXT_ANT_STATUS.CURRENT_MA
    (s.sxt.bias = true → 110 < ma → antState s ≠ 3 → ∃ t, exec .antShort s = .next t ∧ antState t = 3 ∧ t.sxt.bias = false
      ∧ pending t 65 = true ∧ ∀ b, b < 3 → t.r Reg.SXT_BAND.JAM_STATE b = 0)
    ∧ (s.sxt.bias = false → antState s = 3 → s.sxt.shortAt + 1000 ≤ s.tick →
      exec .antRetry s = .next { s with out := [], sxt := { s.sxt with bias := true, shortAt := s.tick } })
    ∧ (s.sxt.bias = true → 100 ≤ s.sxt.antLow → antState s ≠ 2 → ∃ t, exec .antOpen s = .next t ∧ antState t = 2
      ∧ t.sxt = s.sxt ∧ pending t 64 = true ∧ RegsKept (Reg.SXT_ANT_STATUS.ANT_STATE.key 0 0 :: evtKeys) s t)
    ∧ (s.sxt.bias = true → 3 ≤ ma → ma ≤ 110 → antState s = 2 ∨ antState s = 3 → ∃ t, exec .antOk s = .next t ∧ antState t = 1
      ∧ t.sxt = s.sxt ∧ pending t 66 = true ∧ RegsKept (Reg.SXT_ANT_STATUS.ANT_STATE.key 0 0 :: evtKeys) s t))
  ∧ (∀ (s : State) (b : Fin 3), Engines s →
    (∀ (bin : Int) (cyc : Nat), lineDue s b bin = true → lineHeld s b bin = false → exec (.notchEngage b bin cyc) s
      = .next { s with out := [], sxt := { s.sxt with engage := s.sxt.engage ++ [(b.val, bin)] } })
    ∧ (∀ n : Fin 8, lineGone s b n = true → exec (.notchRelease b n) s
      = .next { s with out := [], sxt := { s.sxt with release := s.sxt.release ++ [(b.val, n.val)] } })
    ∧ ((jamRef s b).refTen = none → 10000 ≤ (jamRef s b).ticks →
      let f := 1000 * (Config.factoryNoise b * 10000) ^ 10
      ∃ t, exec (.jamCalDone b) s = .next t ∧ (jamRef t b).refTen = some (min f ((jamRef s b).sum ^ 10))
        ∧ t.rb Reg.SXT_BAND.CAL_CLAMPED b = decide (f < (jamRef s b).sum ^ 10) ∧ t.r Reg.SXT_BAND.JAM_STATE b = 1
        ∧ pending t 67 = true))

/-- Banks go out and come back, the slot updates the loops and delivers measurements, a decoded unit is taken by its
check. With the engines running: a fault of a bank that is neither out nor standby takes it out as failed at the
next boundary, also where an OUT awaits that boundary; at a watch boundary one that may join is standby and
reported, and one past its stable period is in service with its 64 channels on it. The SXT slot with no work left
takes the correlators of a channel whose integration period has ended, and shows the C/N0 and Doppler its loops
give; it delivers the record of a channel that the epoch latched. A unit of a TRACK channel with CHECK PASS queues
its ephemeris and takes its UTC offset; one with CHECK FAIL is counted and gives neither. (The loop filters and
estimators are uninterpreted, log entry 69.) (Rests on: R106, R110, R116, R117, R118, R125, R137) -/
def Obligations.correlator_banks_measurements_and_navigation_units : Prop :=
  (∀ (s : State) (b : Fin 17), Engines s →
    (∀ bad, (unit s 0 b).out = false → (unit s 0 b).standby = false → (∀ o ∈ s.sxt.bankOut, o.1 ≠ b.val) →
      exec (.bankFault b bad) s
        = .next { s with out := [], sxt := { s.sxt with bankOut := s.sxt.bankOut ++ [(b.val, bad, true)] } })
    ∧ (∀ bad was fault, (unit s 0 b).out = false → (unit s 0 b).standby = false → s.sxt.bankOut = [(b.val, was, fault)] →
      exec (.bankFault b bad) s = .next { s with out := [], sxt := { s.sxt with bankOut := [(b.val, was ++ bad, true)] } })
    ∧ (s.ttu.pos = 0 → unitMayJoin s 0 b = true → ∃ t, exec (.bankBack b) s = .next t ∧ (unit t 0 b).standby = true
      ∧ t.r Reg.SXT_BANK_MAP.STANDBY = b ∧ pending t 75 = true)
    ∧ (s.ttu.pos = 0 → unitStable s 0 b = true → ∃ t, exec (.bankRestored b) s = .next t ∧ unitIn t 0 b = true
      ∧ bitAt (t.r Reg.SXT_BANK_MAP.IN_SERVICE) b = true ∧ t.r Reg.SXT_BANK_MAP.STANDBY = 0x1F ∧ pending t 76 = true
      ∧ (b.val < 16 → ∀ k, k < 64 → t.r Reg.SXT_CH.PHYS_BANK (64 * b + k) = b)))
  ∧ (∀ (s : State) (use : SlotUse), Engines s → use.pending = false →
    (∀ (k : CorrIn) (ms : List MeasIn), k.ch < 1024 → chState s k.ch = 2 ∨ chState s k.ch = 3 →
      (sxtCh s k.ch).last + (sxtCh s k.ch).tcoh ≤ s.tick + 1 →
      let v := loopUpdate s (s.r Reg.SXT_CH.SIG k.ch) (chState s k.ch == 2) k
      ∃ t, exec (.sxtSlot use ⟨[k], ms⟩) s = .next t ∧ t.r Reg.SXT_CH.CN0 k.ch = v.2 % 65536
        ∧ t.r Reg.SXT_CH.DOPPLER k.ch = ofSigned 32 v.1.carRate
        ∧ (sxtCh t k.ch).prompt = k.prompt ∧ (sxtCh t k.ch).noise = k.noise ∧ (sxtCh t k.ch).carRate = v.1.carRate)
    ∧ (∀ (l : LatchCh) (m : MeasIn) (epoch t0 : Nat), s.sxt.latch = some ([l], epoch, t0) → m.ch = l.ch →
      ∃ t, exec (.sxtSlot use ⟨[], [m]⟩) s = .next t ∧ t.sxt.latch = none
        ∧ t.sxt.recs = if l.deliver then [measRec epoch l m] else []))
  ∧ (∀ (s : State) (c : Fin 1024) (u : NavIn), Engines s → chState s c = 3 →
    let g := s.r Reg.SXT_CH.SIG c
    let key := 256 * sigConst g + s.r Reg.SXT_CH.SV c
    (navCheck g u = 0 → ∃ t, exec (.navUnitDone c u) s = .next t
      ∧ (∀ ps, u.eph = some ps → (key, ({ stamp := u.stamp, params := ps } : EphSet)) ∈ t.obs.ephNext)
      ∧ (∀ v, v < 65536 → u.utc = some v → t.r Reg.ETH_UTC.UTC_OFFSET = v ∧ t.rb Reg.ETH_UTC.FROM_NAV = true))
    ∧ (navCheck g u = 2 → ∃ t, exec (.navUnitDone c u) s = .next t ∧ t.obs = s.obs ∧ t.eth = s.eth
      ∧ t.r Reg.SXT_COUNTS.NAV_FAIL_COUNT = satInc 32 (s.r Reg.SXT_COUNTS.NAV_FAIL_COUNT)))

/-- OBS_SET_POS is refused outside 6,300,000 to 6,400,000 m or with a reserved field not 0. In LEAD and HALT,
OBS_SET_POS of a position in 0.1 mm whose squared distance from the centre lies below 63,000,000,000² or above
64,000,000,000², or with a reserved field not 0, completes with POS_REFUSED and leaves OBS as it was; every other
one completes with OK and is the position that comes into use next. (States: R136) -/
def Obligations.a_position_outside_the_limits_or_with_reserved_bytes_is_refused : Prop :=
  ∀ (s : State) (h : Handle) (x y z : Int) (store : Bool) (rsv : Nat), Taken leadModes s →
    let d := x * x + y * y + z * z
    let bad := d < 63000000000 ^ 2 ∨ 64000000000 ^ 2 < d ∨ rsv ≠ 0
    (bad → ∃ t, exec (.obsSetPos h x y z store rsv) s = .next t ∧ Posted s t h stPos 0 ∧ t.obs = s.obs ∧ t.regs = s.regs)
    ∧ (¬ bad → ∃ t, exec (.obsSetPos h x y z store rsv) s = .next t ∧ Posted s t h stOk 0
      ∧ t.obs = { s.obs with next := some (.set 2 x y z store) } ∧ t.regs = s.regs)

/-- The OBS slot forms the set of the epoch; the check of a stored position; an ephemeris goes to flash. In tick 0 of a
lead, the OBS slot with no work left consumes the records of the epoch, shows how many observables the set holds and
whether the clock offset was removed, and with no difference held the set is the observables of the records; with no
record at all OBS_EMPTY_EPOCH is pending. After 100 counted epochs the check is done where the average lies within
CHECK_M of the stored position, and the position becomes invalid at the next watch boundary otherwise, unless a
position of the host waits for it. A set not stored in the last 10 min goes to flash. (Rests on: R128, R129, R130,
R133, R138) -/
def Obligations.the_base_epoch_the_position_check_and_stored_ephemerides : Prop :=
  (∀ (s : State) (use : SlotUse) (o : ObsIn), Engines s → s.mode ≠ .shadow → s.ttu.pos = 0 → use.pending = false →
    let recs := s.sxt.recs.filter fun m => !m.towUnk
    let sol := baseSol s ((s.sxt.recs.head?.map (·.epoch)).getD 0) (recs.map (observable s false 0))
    let off := (sol.map fun f => f.2.2).getD 0
    ∃ t, exec (.obsSlot use o) s = .next t ∧ t.sxt.recs = [] ∧ t.obs.epochs = s.obs.epochs + 1
      ∧ t.r Reg.OBS_EPOCH_STATUS.N_OBS = recs.length % 2048 ∧ t.rb Reg.OBS_EPOCH_STATUS.CLK_CORR = sol.isSome
      ∧ (s.obs.diffs = [] → s.obs.first = false → ∃ st, t.obs.set = some st ∧ st.tick = s.tick
        ∧ st.corr = sol.isSome ∧ st.obs = recs.map (observable s sol.isSome off))
      ∧ (s.sxt.recs = [] → pending t 102 = true))
  ∧ (∀ s : State, Engines s → s.mode ≠ .shadow → s.obs.checking = true → 100 ≤ s.obs.count → s.r Reg.OBS_POS_CHECK.CHECK_M ≠ 0 →
    let d : Int → Int → Int := fun sum v => (sum - 100 * v) * (sum - 100 * v)
    let near := d s.obs.sums.1 s.obs.x + d s.obs.sums.2.1 s.obs.y + d s.obs.sums.2.2 s.obs.z
      ≤ (((s.r Reg.OBS_POS_CHECK.CHECK_M * 10000 * 100) ^ 2 : Nat) : Int)
    (near → ∃ t, exec .obsPosCheck s = .next t ∧ t.rb Reg.OBS_POS_STATE.CHECK_DONE = true ∧ t.obs = { s.obs with checking := false }
      ∧ RegsKept [Reg.OBS_POS_STATE.CHECK_DONE.key 0 0] s t)
    ∧ (¬ near → (∀ x y z b, s.obs.next ≠ some (.set 2 x y z b)) → exec .obsPosCheck s
      = .next { s with out := [], obs := { s.obs with checking := false, next := some .invalid } })
    ∧ (¬ near → ∀ x y z b, s.obs.next = some (.set 2 x y z b) → exec .obsPosCheck s
      = .next { s with out := [], obs := { s.obs with checking := false } }))
  ∧ (∀ (s : State) (sat : Nat) (e : EphSet), Awake s → s.obs.eph.find? (fun p => p.1 == sat) = some (sat, e) →
    (∀ p ∈ s.obs.ephAt, p.1 = sat → p.2 + 600000 ≤ (s.tick : Int)) →
    ∃ t, exec (.ephStore sat) s = .next t ∧ (sat, e) ∈ t.obs.flash ∧ (sat, (s.tick : Int)) ∈ t.obs.ephAt ∧ t = { s with out := [], obs := t.obs })

/-- FIX_ROVER_SET is accepted for rovers 0 to 127 within the rate load of 128, and refused otherwise. In LEAD and HALT,
disabling, enabling at 10 or 20 Hz within the load, and resetting a rover complete with OK and wait for the next
boundary. A reserved byte not 0, a rover above 127, or enabling at another rate completes with ROVER_REFUSED,
enabling beyond the load with RATE_REFUSED; a refused command leaves FIX as it was. No register changes at once.
(Rests on: R146, R147, R177) -/
def Obligations.rover_settings_are_judged_against_the_rate_load : Prop :=
  ∀ (s : State) (h : Handle) (r rate rsv : Nat), Taken leadModes s →
    let load := ((List.range 128).map fun q => if q = r then 0 else loadAfter s q).sum + 1 + rate
    let waits : Nat → State → Prop := fun act t => Posted s t h stOk 0 ∧ t.regs = s.regs
      ∧ t.fix = { s.fix with cmds := s.fix.cmds ++ [(r, act, rate)] }
    let refused : Nat → State → Prop := fun st t => Posted s t h st 0 ∧ t.regs = s.regs ∧ t.fix = s.fix
    (rsv = 0 → r < 128 →
      (∃ t, exec (.fixRoverDisable h r rate rsv) s = .next t ∧ waits 0 t)
      ∧ (∃ t, exec (.fixRoverReset h r rate rsv) s = .next t ∧ waits 2 t)
      ∧ (rate < 2 → load ≤ 128 → ∃ t, exec (.fixRoverEnable h r rate rsv) s = .next t ∧ waits 1 t)
      ∧ (rate < 2 → 128 < load → ∃ t, exec (.fixRoverEnable h r rate rsv) s = .next t ∧ refused stRate t))
    ∧ (rsv ≠ 0 ∨ 127 < r → (∃ t, exec (.fixRoverDisable h r rate rsv) s = .next t ∧ refused stRover t)
      ∧ (∃ t, exec (.fixRoverReset h r rate rsv) s = .next t ∧ refused stRover t))
    ∧ (rsv ≠ 0 ∨ 127 < r ∨ 1 < rate → ∃ t, exec (.fixRoverEnable h r rate rsv) s = .next t ∧ refused stRover t)

/-- A solution a cluster completes takes an output buffer and is delivered; what it reads is decided by its observations
and tests. With the engines running and a VALID base position, the solution its cluster is running, completed before
980 µs and before the boundary of tick u + 20 with an output buffer free: the registers of the rover read the
quality and reason computed, CONSEC_FIXED counts on a FIXED one and is 0 otherwise, and the buffer holds the filter.
With a base set, fewer than 5 satellites read NONE with reason 7 and give no filter; more on an EMPTY filter read
NONE with the reason of a new filter, by code alone, and the filter holds a state. On a filter that holds one the
record is FIXED, with a set that passed every test unless every ambiguity is held, or FLOAT with a reason; a
baseline over its limit is FLOAT with reason 0x0B. The pseudorange taken is the one nearest to that expected whose
remainder by light-milliseconds is PR_MOD. (Estimator and geometry are uninterpreted, log entry 69.) (Rests on: R41,
R152, R161, R163, R166, R167, R168, R169, R173, R519) -/
def Obligations.a_completed_solution_is_delivered_with_its_quality : Prop :=
  (∀ (s : State) (r : Fin 128) (us cyc : Nat) (j : FixJob) (c : Nat), Engines s → posState s = 2 → cyc < 245000 →
    s.fix.jobs.find? (fun x => x.rover == r.val && x.cl.isSome) = some j → j.cl = some c → (clJobs s c).head? = some j →
    s.tick < j.u + 20 → (s.fix.outs.filter fun o => o.cl == c).length < 3 →
    let o := solveJob s j (fixRover s r).filt (filtStale s r)
    ∃ t, exec (.fixSolutionDone r ⟨us, cyc⟩) s = .next t ∧ t.r Reg.FIX_ROVER.QUALITY r = o.q.quality
      ∧ t.r Reg.FIX_ROVER.REASON r = o.q.reason ∧ t.r Reg.FIX_ROVER.RATIO r = o.q.ratio % 65536
      ∧ t.r Reg.FIX_ROVER.CONSEC_FIXED r = (if o.q.quality = 2 then satInc 16 (s.r Reg.FIX_ROVER.CONSEC_FIXED r) else 0)
      ∧ t.fix.outs = s.fix.outs ++ [{ cl := c, rover := r, filt := o.filt }])
  ∧ (∀ (s : State) (j : FixJob) (fl : FixFilt) (st : ObsSet), baseSetFor s j.te j.half = some st →
    let us := (entriesUsed (s.r Reg.SXT_SIG_EN.SIG_EN) j.data).filterMap
      (usedObs s st j.half fl (toSigned 32 (field j.data 8 4)))
    let o := solveJob s j fl false
    ((satsOf us).length < 5 → o.q.quality = 0 ∧ o.q.reason = 7 ∧ o.filt = none)
    ∧ (5 ≤ (satsOf us).length → fl.st = 0 → o.q.quality = 0 ∧ o.q.reason = 8 ∧ o.flags.codeOnly = true
      ∧ ∃ f, o.filt = some f ∧ f.st = 1 ∧ f.te = j.te))
  ∧ (∀ (s : State) (fl : FixFilt) (te : Nat) (clk : Bool) (vec : List Int) (us : List UsedObs) (ds : List (UsedObs × UsedObs))
      (flags : SolFlags),
    let o := solveHeld s fl te clk vec us ds flags
    ∃ f, o.filt = some f ∧ f.te = te ∧ f.after = fl.after + 1
      ∧ ((o.q.quality = 2 ∧ o.q.reason = 0 ∧ f.st = 3) ∨ (o.q.quality = 1 ∧ o.q.reason ∈ [7, 8, 9, 10, 11] ∧ f.st = 2))
      ∧ (baselineLong s (filtPos vec) = true → o.q.quality = 1 ∧ o.q.reason = 11 ∧ o.flags.long = true)
      ∧ (o.q.quality = 2 → flags.held = false → o.flags.held = false →
        ∃ set, setPasses s set = true ∧ o.q.ratio = setRatio set))
  ∧ (∀ x pm : Int, let w := wholeRange x pm
    (w - pm) % lightMs = 0 ∧ 2 * (w - x) ≤ lightMs ∧ -lightMs ≤ 2 * (w - x))

/-- Loads of the FIX slot, unfinished solutions, the close of an upload window, an expired filter. With the engines
running: the FIX slot with no work left loads the ready rover of the earliest deadline into the cluster picked, with
the cluster time its entries take. At a deadline no solution older than 20 ticks is left, and a lone one reads
FIX_LATE and is counted. At the close of a window that is not void, an enabled rover without a complete record reads
LOST where it is LOST, otherwise, with a VALID base and a base set, NONE with the reason that tells fragments from
none. A filter PAUSED for more than 1,000 ticks is EMPTY again. (Rests on: R153, R154, R163, R172, R174, R176) -/
def Obligations.the_fix_slot_and_its_deadlines : Prop :=
  (∀ (s : State) (use : SlotUse) (stores c : Nat) (j : FixJob) (p : Pkt), Engines s → use.pending = false →
    nextReady s = some j → (∀ x ∈ s.fix.jobs, x.rover = j.rover → x.te = j.te → x = j) → clPick s = some c → j.cost = 0 → (fixTake s j.rover).1 = some p → recordRefusal s j p.data = none →
    posState s = 2 → noBaseSet s j.te j.half = false →
    ∃ t j', exec (.fixSlot use stores 1) s = .next t ∧ t.fix.jobs.getLast? = some j' ∧ j'.rover = j.rover ∧ j'.te = j.te
      ∧ j'.cl = some c
      ∧ j'.cost = clusterCost (entriesUsed (s.r Reg.SXT_SIG_EN.SIG_EN) p.data).length)
  ∧ (∀ s : State, Engines s → ∃ t, exec .fixDeadline s = .next t ∧ (∀ j ∈ t.fix.jobs, s.tick < j.u + 20)
      ∧ ∀ j : FixJob, s.fix.jobs = [j] → j.rover < 128 → j.u + 20 ≤ s.tick → t.r Reg.FIX_ROVER.QUALITY j.rover = 3
        ∧ t.r Reg.FIX_ROVER.REASON j.rover = 0x0C
        ∧ t.r Reg.FIX_ROVER.LATE_COUNT j.rover
          = satInc Reg.FIX_ROVER.LATE_COUNT.width (s.r Reg.FIX_ROVER.LATE_COUNT j.rover))
  ∧ (∀ (s : State) (w : FixWin), Engines s → s.fix.win = some w → w.last < tiw s ∨ s.ttu.pos = 0 → w.void = false →
    ∃ t, exec .uploadWindowClose s = .next t ∧ t.fix.win = none
      ∧ ∀ r, r < 128 → fixEnabled s r = true → r ∉ w.done → (w.half = true → s.rb Reg.FIX_ROVER.RATE r = true) →
        ((fixRover s r).lost = true → t.r Reg.FIX_ROVER.QUALITY r = 4 ∧ t.r Reg.FIX_ROVER.REASON r = 0x0D)
        ∧ ((fixRover s r).lost = false → posState s = 2 → noBaseSet s w.te w.half = false →
          t.r Reg.FIX_ROVER.QUALITY r = 0 ∧ t.r Reg.FIX_ROVER.REASON r = if r ∈ w.frags then 4 else 1))
  ∧ (∀ (s : State) (r : Fin 128) (u : Nat), Engines s → (fixRover s r).paused = some u → u + 1000 < s.tick →
    ∃ t, exec (.filterExpired r) s = .next t ∧ (fixRover t r).filt = {} ∧ (fixRover t r).paused = none ∧ pending t 133 = true
      ∧ RegsKept (Reg.FIX_ROVER.FSTATE.key r 0 :: evtKeys) s t)

/-- A failed cluster, the known-answer test, and the return of a cluster. With the engines running: a fault of a cluster
neither out nor standby takes it out at the next boundary; in tick 45 a cluster that fails its known-answer test is
treated as failed, and one in service that passes changes nothing. At a watch boundary a cluster that may join is
standby; at tick 45, past its stable period, it is in service again; both are reported. (Rests on: R178, R179, R477) -/
def Obligations.clusters_go_out_and_come_back : Prop :=
  ∀ (s : State) (c : Fin 9), Engines s →
    let failed : State := { s with out := [], fix := { s.fix with clOut := s.fix.clOut ++ [(c.val, true)] } }
    ((unit s 1 c).out = false → (unit s 1 c).standby = false → exec (.clusterFault c) s = .next failed
      ∧ (tiw s = 45 → exec (.fixKat [(c.val, false)]) s = .next failed ∧ exec (.fixKat [(c.val, true)]) s = .next s.start))
    ∧ (s.ttu.pos = 0 → unitMayJoin s 1 c = true → ∃ t, exec (.clusterBack c) s = .next t ∧ (unit t 1 c).standby = true
      ∧ t.r Reg.FIX_CLUSTER_MAP.STANDBY = c ∧ pending t 138 = true)
    ∧ (tiw s = 45 → unitStable s 1 c = true → ∃ t, exec (.clusterRestored c) s = .next t ∧ unitIn t 1 c = true
      ∧ bitAt (t.r Reg.FIX_CLUSTER_MAP.IN_SERVICE) c = true ∧ t.r Reg.FIX_CLUSTER_MAP.STANDBY = 0xF ∧ pending t 139 = true)

/-- CHT_RESERVE, CHT_RELEASE and CHT_STAGING: what is accepted, and the first refusals. In LEAD and HALT: a reserve of
any MODE whose buffer lies in the host window map and was read, with room in the queue, valid fields and segments
that R189 accepts, is outstanding and stands in the queue in its order; a bad buffer completes with BUFFER_REFUSED,
a full queue with CAPACITY_REFUSED, bad fields with SEG_REFUSED. A release of a corridor that exists, with FORCE
where it is BREACHED or FROZEN, waits for the next boundary; without a corridor it completes with STATE_REFUSED.
With an origin in force, a staging area of valid radius joins the queue, and its removal waits for the next
boundary. None of them moves a corridor at once. (Rests on: R188, R189, R190, R195, R198, R201) -/
def Obligations.chart_requests_join_the_queue_or_are_refused : Prop :=
  ∀ (s : State) (h : Handle) (r rsv : Nat), Taken leadModes s →
    let kept : State → Prop := fun t => ∀ q, q < 128 → chtSt t q = chtSt s q
    let req : Nat → List ChtSeg → Option Stage → ChtReq := fun mode gs area =>
      { h := h, rover := r, mode := mode, segs := gs, area := area, acc := s.tick, win := h.cyc / 31250, done := 0 }
    let joined : ChtReq → State → Prop := fun q t => Outstanding s t h ∧ kept t ∧ t.cht.queue = reqInsert q s.cht.queue
    let refused : Nat → State → Prop := fun st t => Posted s t h st 0 ∧ t.cht = s.cht
    (∀ (n a : Nat) (buf : BufIn) (gs : List ChtSeg), bufOk s a (48 * n) buf = true → s.cht.queue.length < 256 → rsv = 0 → r < 128 →
      0 < n → n ≤ 4096 → a % 8 = 0 → segArray s r n buf.data = some gs →
      (∃ t, exec (.chtReserveNew h r n a rsv buf) s = .next t ∧ joined (req 0 gs none) t)
      ∧ (∃ t, exec (.chtReserveAppend h r n a rsv buf) s = .next t ∧ joined (req 1 gs none) t)
      ∧ (∃ t, exec (.chtReserveReplace h r n a rsv buf) s = .next t ∧ joined (req 2 gs none) t))
    ∧ (∀ (n a : Nat) (buf : BufIn),
      (bufOk s a (48 * n) buf = false → (∃ t, exec (.chtReserveNew h r n a rsv buf) s = .next t ∧ refused stBuffer t)
        ∧ (∃ t, exec (.chtReserveAppend h r n a rsv buf) s = .next t ∧ refused stBuffer t)
        ∧ (∃ t, exec (.chtReserveReplace h r n a rsv buf) s = .next t ∧ refused stBuffer t))
      ∧ (bufOk s a (48 * n) buf = true → s.cht.queue.length < 256 → rsv ≠ 0 ∨ 127 < r ∨ n = 0 ∨ 4096 < n ∨ a % 8 ≠ 0 →
        (∃ t, exec (.chtReserveNew h r n a rsv buf) s = .next t ∧ refused stSeg t)
        ∧ (∃ t, exec (.chtReserveAppend h r n a rsv buf) s = .next t ∧ refused stSeg t)
        ∧ (∃ t, exec (.chtReserveReplace h r n a rsv buf) s = .next t ∧ refused stSeg t)))
    ∧ (∀ (n a : Nat) (buf : BufIn), bufOk s a (48 * n) buf = true → 256 ≤ s.cht.queue.length →
      (∃ t, exec (.chtReserveNew h r n a rsv buf) s = .next t ∧ refused stCapacity t)
      ∧ (∃ t, exec (.chtReserveAppend h r n a rsv buf) s = .next t ∧ refused stCapacity t)
      ∧ (∃ t, exec (.chtReserveReplace h r n a rsv buf) s = .next t ∧ refused stCapacity t))
    ∧ (∀ force, rsv = 0 → r < 128 →
      (chtSt s r ≠ 0 → (chtHeld s r = true → force = true) → ∃ t, exec (.chtRelease h r force rsv) s = .next t
        ∧ Outstanding s t h ∧ kept t ∧ (chtRover t r).release = (chtRover s r).release ++ [h])
      ∧ (chtSt s r = 0 → ∃ t, exec (.chtRelease h r force rsv) s = .next t ∧ refused stState t))
    ∧ (∀ e n : Int, rsv = 0 → r < 128 → s.cht.origin.isSome = true →
      (∀ rad, 1000 ≤ rad → rad ≤ 200000 → s.cht.queue.length < 256 →
        ∃ t, exec (.chtStaging h r e n rad rsv) s = .next t ∧ joined (req 0 [] (some { e := e, n := n, rad := rad })) t)
      ∧ ∃ t, exec (.chtStagingRemove h r e n rsv) s = .next t ∧ Outstanding s t h ∧ kept t
        ∧ (chtRover t r).unstage = (chtRover s r).unstage ++ [h])

/-- The CHT slot decides the request at the head of its queue, or carries its test on. With the engines running the slot
always completes: a shadow counts the decisions that differ from its own and holds its comparison at none, a lead's
queue does not grow, and an empty one changes nothing in CHT. In a lead, with one request in the queue and no work
left over: where its pair tests fit the slot the queue is empty afterwards; a passed corridor request is reserved
with its segments in this tick (a NEW one shows RESERVED), a passed staging area is reserved, a conflicting one adds
1 to CONFLICT_COUNT, raises CHT_REFUSED_CONFLICT and completes with CONFLICT_REFUSED, any other refused one
completes with its status. Where they do not fit, it stays with the tests done, and CARRY_COUNT counts. (Rests on:
R192, R194, R195, R196, R198, R522) -/
def Obligations.the_chart_slot_decides_requests_in_order : Prop :=
  (∀ (s : State) (use : SlotUse) (limit : Nat), Engines s → ∃ t, exec (.chtSlot use limit) s = .next t
      ∧ (s.mode = .shadow → t.cht = { s.cht with differ := 0 })
      ∧ (s.mode ≠ .shadow → t.cht.queue.length ≤ s.cht.queue.length ∧ (s.cht.queue = [] → t.cht = s.cht)))
  ∧ ∀ (s : State) (use : SlotUse) (limit : Nat) (q : ChtReq), Engines s → s.mode ≠ .shadow → use.pending = false →
    s.cht.queue = [q] → q.rover < 128 →
    let s1 := slotEnd s.start 4 use
    let j := chtJudge s1 q s.tick
    let budget := min limit 4194304
    (budget < j.2.2 - q.done → ∃ t, exec (.chtSlot use limit) s = .next t ∧ t.cht.queue = [{ q with done := q.done + budget }]
      ∧ t.r Reg.CHT_COUNTS.CARRY_COUNT = satInc Reg.CHT_COUNTS.CARRY_COUNT.width (s.r Reg.CHT_COUNTS.CARRY_COUNT))
    ∧ (j.2.2 - q.done ≤ budget → ∃ t, exec (.chtSlot use limit) s = .next t ∧ t.cht.queue = []
      ∧ (j.1 = stOk → q.area = none → (∃ p, (chtRover t q.rover).pend = some p ∧ p.mode = q.mode ∧ p.tick = s.tick ∧ p.h = q.h
          ∧ p.segs = storedSegs s1 q s.tick) ∧ (q.mode = 0 → chtSt t q.rover = 1))
      ∧ (j.1 = stOk → ∀ g, q.area = some g → (chtRover t q.rover).stages = (chtRover s q.rover).stages ++ [(g, s.tick, q.h)])
      ∧ (j.1 = stConflict → Done t q.h stConflict 0 ∧ pending t 161 = true
        ∧ t.r Reg.CHT_COUNTS.CONFLICT_COUNT = satInc Reg.CHT_COUNTS.CONFLICT_COUNT.width (s.r Reg.CHT_COUNTS.CONFLICT_COUNT))
      ∧ (j.1 ≠ stOk → j.1 ≠ stConflict → Done t q.h j.1 0 ∧ t.cht.rovers = s.cht.rovers))

/-- A reserved corridor is granted exactly when its reflection is acknowledged or the module is alone. In LEAD and HALT,
with a reserved corridor and no staging area reserved: reserved in this tick, or not acknowledged by items 1 and 8
while not in solo operation or at the boundary of a claim, CHT_GRANT leaves the module as it was. In a later tick,
in solo operation or acknowledged by an IN_SYNC shadow, the corridor is GRANTED with its permit, the reservation is
gone, the command completes with OK, and GEN_GRANTED reads the grant generation. A GRANTED corridor whose last
containment window has ended enters REST, unless an APPEND may come in force there. (Rests on: R4, R197, R198, R199,
R200) -/
def Obligations.no_corridor_is_granted_before_it_is_acknowledged : Prop :=
  ∀ (s : State) (r : Fin 128), s.held = false → s.leading = true →
    (∀ p : ChtPend, (chtRover s r).pend = some p → (chtRover s r).stages = [] →
      (s.tick ≤ p.tick ∨ ((s.solo = false ∨ s.twn.claimLeft = 2)
          ∧ (s.inSync = false ∨ s.twn.ack1 < p.tick ∨ s.twn.ack8 < p.tick)) → exec (.chtGrant r) s = .next s.start)
      ∧ (p.tick < s.tick → (s.solo = true ∧ s.twn.claimLeft ≠ 2) ∨ (s.inSync = true ∧ p.tick ≤ s.twn.ack1 ∧ p.tick ≤ s.twn.ack8) →
        ∃ t, exec (.chtGrant r) s = .next t ∧ chtSt t r = 2 ∧ t.rbit Reg.CHT_PERMIT.PERMIT r = true
          ∧ (chtRover t r).pend = none ∧ Done t p.h stOk 0
          ∧ t.r Reg.CHT_ROVER.GEN_GRANTED r = t.r Reg.CHT_GRANT_GEN.GEN % 2 ^ Reg.CHT_ROVER.GEN_GRANTED.width
          ∧ (p.mode ≠ 1 → (chtRover t r).segs.length = p.segs.length)))
    ∧ (∀ g : ChtSeg, (chtRover s r).cap = some g → chtSt s r = 2 → g.tExit + timeMargin s < s.tick →
      (chtRover s r).pend = none ∨ (chtRover s r).release ≠ [] →
      ∃ t, exec (.corridorRest r) s = .next t ∧ chtSt t r = 3 ∧ t.rbit Reg.CHT_PERMIT.PERMIT r = false)
    ∧ (s.ttu.pos = 0 → chtHeld s r = false → ∃ t, exec (.segmentFreed r) s = .next t
      ∧ (chtRover t r).segs = (chtRover s r).segs.filter fun g => decide (s.tick ≤ g.tExit + 2 * timeMargin s + 1))

/-- ASG_SUBMIT, ASG_CANCEL and the check of the matrix. In LEAD and HALT: a submission in the host window map with valid
fields is outstanding; with no auction it is the running one (RUN_STATE 1 and its TAG), otherwise the pending one,
the one it replaces completing with SUPERSEDED, and with PREEMPT it takes the running one's place at the next
boundary. ASG_CANCEL completes with OK; it drops the running auction at the next boundary, or withdraws the pending
one alone with CANCELLED. A reserved bit not 0 completes with MATRIX_REFUSED. A matrix that R211 accepts belongs to
its auction; one it does not ends the auction with MATRIX_REFUSED. (Rests on: R210, R211, R212, R224) -/
def Obligations.auction_commands_queue_replace_and_withdraw : Prop :=
  (∀ (s : State) (h : Handle) (rsv : Nat), Taken leadModes s →
    (∀ (warm pre : Bool) (tag a len : Nat), inWindow s a len = true → tag < 2 ^ 32 →
      let auc : Auction := { h := h, tag := tag, warm := warm, addr := a, len := len }
      (rsv = 0 → a % 8 = 0 → s.asg.run = none → s.asg.next = none → ∃ t, exec (.asgSubmit h warm pre tag a len rsv) s = .next t
        ∧ Outstanding s t h ∧ t.asg.run = some auc ∧ t.r Reg.ASG_STATUS.RUN_STATE = 1 ∧ t.r Reg.ASG_CUR_TAG.TAG = tag)
      ∧ (rsv = 0 → a % 8 = 0 → s.asg.run.isSome = true → s.asg.next = none →
        ∃ t, exec (.asgSubmit h warm pre tag a len rsv) s = .next t
        ∧ t.asg.run = s.asg.run ∧ (pre = false → t.asg.pend = some auc) ∧ (pre = true → t.asg.next = some auc ∧ t.asg.drop = s.asg.drop ++ handleOf s.asg.run)
        ∧ (∀ p, s.asg.pend = some p → Done t p.h stSuperseded 0))
      ∧ (rsv ≠ 0 ∨ a % 8 ≠ 0 → ∃ t, exec (.asgSubmit h warm pre tag a len rsv) s = .next t ∧ Posted s t h stMatrix 0
        ∧ t.asg = s.asg ∧ pending t 195 = true))
    ∧ (rsv = 0 → ∃ t, exec (.asgCancel h rsv) s = .next t ∧ Posted s t h stOk 0
      ∧ t.asg = { s.asg with drop := s.asg.drop ++ handleOf s.asg.run
                             cancel := s.asg.cancel ++ handleOf s.asg.next ++ handleOf s.asg.pend } ∧ t.regs = s.regs)
    ∧ (rsv = 0 → ∃ t, exec (.asgCancelPending h rsv) s = .next t ∧ t.asg.pend = none ∧ t.asg.run = s.asg.run
      ∧ (s.asg.pend = none → Posted s t h stOk 0) ∧ (∀ p, s.asg.pend = some p → Done t p.h stCancelled 0))
    ∧ (rsv ≠ 0 → (∃ t, exec (.asgCancel h rsv) s = .next t ∧ Posted s t h stMatrix 0 ∧ t.asg = s.asg)
      ∧ (∃ t, exec (.asgCancelPending h rsv) s = .next t ∧ Posted s t h stMatrix 0 ∧ t.asg = s.asg)))
  ∧ (∀ (s : State) (a : Auction) (buf : BufIn), s.held = false → s.leading = true → s.asg.run = some a → a.read = false →
    buf.err = false →
    (∀ v, matrixOf a buf.data = some v → ∃ t, exec (.asgMatrixReadDone a.h buf) s = .next t
      ∧ t.asg.run = some { v with data := if s.solo = true then [] else buf.data } ∧ t.hst = s.hst)
    ∧ (matrixOf a buf.data = none → s.asg.next = none → s.asg.cancel = [] → ∃ t, exec (.asgMatrixReadDone a.h buf) s = .next t ∧ t.asg.run = s.asg.pend
      ∧ t.asg.pend = none ∧ Done t a.h stMatrix 0 ∧ pending t 195 = true))

/-- An auction starts, bids, is published at tick 99, or goes on or is abandoned. With the engines running: an auction
whose matrix is read and acknowledged, or that has no shadow, starts bidding (RUN_STATE 2). Its slot makes the bids
it has time for. In tick 99 an auction that has ended is published: every rover shows its task, ASG_LAST its TAG,
its command completes with OK, and the pending one runs; one that has not ended raises ASG_NO_RESULT and changes
nothing else, and at MAX_WATCHES it is abandoned with its command. (Rests on: R213, R217, R218, R220, R221, R222) -/
def Obligations.auctions_bid_end_and_are_published : Prop :=
  ∀ (s : State) (a : Auction), Engines s → s.mode ≠ .shadow → s.asg.run = some a → s.asg.drop = [] →
    s.asg.next = none → s.asg.cancel = [] →
    (a.bidding = false → a.ended = false → a.read = true →
      s.solo = true ∨ (s.inSync = true ∧ a.data = [] ∧ s.twn.items = [] ∧ s.twn.carry = [] ∧ ∀ u, a.sentAt = some u → u ≤ s.twn.lastRefl) →
      ∃ t b, exec .asgAuctionStart s = .next t ∧ t.asg.run = some b ∧ b.bidding = true ∧ b.tag = a.tag ∧ b.rows = a.rows
        ∧ t.r Reg.ASG_STATUS.RUN_STATE = 2)
    ∧ (∀ (use : SlotUse) (bids : Nat), use.pending = false → a.bidding = true →
      ∃ t, exec (.asgSlot use bids) s = .next t
        ∧ t.asg.run = some (bidRun (bids + 64) bids (if a.bidNow then a else { a with watches := a.watches + 1, bidNow := true })))
    ∧ (tiw s = 99 → a.ended = true → ∃ t, exec .asgPublish s = .next t ∧ t.asg.run = s.asg.pend ∧ t.asg.pend = none
      ∧ t.asg.prices = a.prices ∧ Done t a.h stOk 0 ∧ pending t 192 = true ∧ t.r Reg.ASG_LAST.TAG = a.tag % 2 ^ 32
      ∧ ∀ r, r < 128 → t.r Reg.ASG_ROVER.TASK r = taskOf a r % 2 ^ Reg.ASG_ROVER.TASK.width)
    ∧ (tiw s = 99 → a.ended = false → ∃ t, exec .asgNoResult s = .next t ∧ pending t 193 = true
      ∧ t.r Reg.ASG_COUNTS.NO_RESULT_COUNT = satInc 32 (s.r Reg.ASG_COUNTS.NO_RESULT_COUNT)
      ∧ EventsOnly [Reg.ASG_COUNTS.NO_RESULT_COUNT.key 0 0] s t)
    ∧ (tiw s = 99 → a.ended = false → maxWatches s ≤ a.watches →
      ∃ t, exec .asgAbandonLimit s = .next t ∧ t.asg.run = s.asg.pend ∧ t.asg.pend = none ∧ Done t a.h stAbandoned 0
        ∧ pending t 194 = true)

/-- PRF_BIND puts a free channel at the end of a sink, takes a channel off at the next tick boundary, and refuses the
rest. In LEAD and HALT a valid PRF_BIND of an unbound channel to a rover or positioner sink with room puts it behind
the sink's channels, with its parameters kept, IDLE where it is the first and WAITING otherwise; a valid PRF_BIND
with KIND 0 queues the channel for the next tick boundary. Both complete with OK and write no register. Any other
completes with BIND_REFUSED, counts in REFUSE_COUNT and raises PRF_REFUSED; no channel changes. (Rests on: R227,
R229, R349) -/
def Obligations.profile_channels_are_bound_and_unbound : Prop :=
  ∀ (s : State) (h : Handle) (c kind k rsv : Nat), Taken leadModes s →
    let v := prfCh s c
    let bindOk := rsv = 0 ∧ c ≤ 511 ∧ ((kind = 1 ∧ k ≤ 127) ∨ (kind = 2 ∧ k ≤ 3)) ∧ v.kind = 0 ∧ (sinkChans s kind k).length < 8
    let offOk := rsv = 0 ∧ k ≤ 127 ∧ c ≤ 511 ∧ v.kind ≠ 0 ∧ ((sinkChans s v.kind v.sink).head? = some c → v.state = 0 ∧ v.start = false)
    let refused (t : State) := Posted s t h stBind 0 ∧ t.prf = s.prf ∧ pending t 229 = true
      ∧ t.r Reg.PRF_COUNTS.REFUSE_COUNT = satInc 32 (s.r Reg.PRF_COUNTS.REFUSE_COUNT)
      ∧ RegsKept (Reg.PRF_COUNTS.REFUSE_COUNT.key 0 0 :: evtKeys) s t
    (bindOk → c ∉ sinkChans s kind k → ∃ t, exec (.prfBind h c kind k rsv) s = .next t ∧ Posted s t h stOk 0 ∧ t.regs = s.regs
      ∧ sinkChans t kind k = sinkChans s kind k ++ [c] ∧ (prfCh t c).kind = kind ∧ (prfCh t c).sink = k
      ∧ (prfCh t c).par = v.par ∧ (prfCh t c).state = if sinkChans s kind k = [] then 0 else 1)
    ∧ (¬ bindOk → ∃ t, exec (.prfBind h c kind k rsv) s = .next t ∧ refused t)
    ∧ (offOk → ∃ t, exec (.prfUnbind h c k rsv) s = .next t ∧ Posted s t h stOk 0 ∧ t.regs = s.regs
      ∧ t.prf = { s.prf with unbinds := s.prf.unbinds ++ [c] })
    ∧ (¬ offOk → ∃ t, exec (.prfUnbind h c k rsv) s = .next t ∧ refused t)

/-- The four actions of PRF_PROFILE. In LEAD and HALT, PRF_PROFILE merges the fields taken into the set in force. Where
the merged set keeps to R230, a rover's TARGET among it not behind s, and no other refusal of R231 applies, it is
staged for the next profile update, and START starts the active channel or arms a waiting one, STOP takes the
nearest TARGET the channel can reach, and HALT halts the active channel of a positioner and takes back a START; the
command completes with OK, and no register and no other channel changes. A buffer outside the host window map or not
read completes with BUFFER_REFUSED; any other command with PROFILE_REFUSED, with REFUSE_COUNT and PRF_REFUSED, and
no channel changes. (Rests on: R228, R230, R231, R350) -/
def Obligations.profile_commands_stage_their_parameters : Prop :=
  ∀ (s : State) (h : Handle) (c fields addr rsv : Nat) (buf : BufIn), Taken leadModes s →
    let v := prfCh s c
    let active := (sinkChans s v.kind v.sink).head? == some c
    let moving := chMoving v || v.start
    let m := parMerge (v.staged.getD v.par) fields buf.data
    let stop := { m with target := stopTarget s v m (moving && active) }
    let read := fields ≠ 0 → bufOk s addr 40 buf = true
    let fits : PrfPar → Prop := fun n => rsv = 0 ∧ c ≤ 511 ∧ fields < 512 ∧ (fields ≠ 0 → addr % 8 = 0 ∧ field buf.data 36 4 = 0)
      ∧ v.kind ≠ 0 ∧ parOk v.kind n = true ∧ (v.kind = 1 → (prfSink s v.sink).s ≤ n.target * mmS)
    let unread : State → Prop := fun t => Posted s t h stBuffer 0 ∧ t.prf = s.prf ∧ t.regs = s.regs
    let turned : State → Prop := fun t => Posted s t h stProfile 0 ∧ t.prf = s.prf ∧ pending t 229 = true
      ∧ t.r Reg.PRF_COUNTS.REFUSE_COUNT = satInc 32 (s.r Reg.PRF_COUNTS.REFUSE_COUNT)
    let takes : PrfCh → State → Prop := fun w t => Posted s t h stOk 0 ∧ t.regs = s.regs ∧ prfCh t c = w
      ∧ ∀ d, d ≠ c → prfCh t d = prfCh s d
    (¬ read → (∃ t, exec (.prfProfileUpdate h c fields addr rsv buf) s = .next t ∧ unread t)
      ∧ (∃ t, exec (.prfProfileStart h c fields addr rsv buf) s = .next t ∧ unread t)
      ∧ (∃ t, exec (.prfProfileStop h c fields addr rsv buf) s = .next t ∧ unread t)
      ∧ (∃ t, exec (.prfProfileHalt h c fields addr rsv buf) s = .next t ∧ unread t))
    ∧ (read → (¬ fits m → ∃ t, exec (.prfProfileUpdate h c fields addr rsv buf) s = .next t ∧ turned t)
      ∧ (¬ (fits m ∧ moving = false ∧ v.armed = false) → ∃ t, exec (.prfProfileStart h c fields addr rsv buf) s = .next t ∧ turned t)
      ∧ (¬ fits stop → ∃ t, exec (.prfProfileStop h c fields addr rsv buf) s = .next t ∧ turned t)
      ∧ (¬ (fits m ∧ v.kind ≠ 1) → ∃ t, exec (.prfProfileHalt h c fields addr rsv buf) s = .next t ∧ turned t)
      ∧ (fits m → ∃ t, exec (.prfProfileUpdate h c fields addr rsv buf) s = .next t ∧ takes { v with staged := some m } t)
      ∧ (fits m → moving = false → v.armed = false → ∃ t, exec (.prfProfileStart h c fields addr rsv buf) s = .next t
        ∧ takes { v with staged := some m, start := active, armed := !active } t)
      ∧ (fits stop → ∃ t, exec (.prfProfileStop h c fields addr rsv buf) s = .next t ∧ takes { v with staged := some stop } t)
      ∧ (fits m → v.kind ≠ 1 → ∃ t, exec (.prfProfileHalt h c fields addr rsv buf) s = .next t
        ∧ takes { v with staged := some m, start := false, halt := v.halt || active } t))

/-- The profile slot keeps each plan 120 ticks ahead, and a rover whose permit is off the air is planned at rest. With
the engines running and the slot ending in time, each rover sink whose plan does not already reach past tick n + 120
has, after the slot of tick n, a plan that begins at tick n and ends at tick n + 120; where the rover's permit bit
on the air is clear, its channel is held and the new last point has speed 0. Work still pending at the end of the
slot, which is of fixed cost, sends the module to DEAD with cause 0x05. (Rests on: R49, R237, R239) -/
def Obligations.the_profile_slot_plans_and_holds : Prop :=
  ∀ (s : State) (use : SlotUse), Engines s → (∀ p ∈ s.prf.rovers, ∀ c ∈ p.2.chans, c < 512) →
    (use.pending = true → ∃ t, exec (.prfSlot use) s = .next t ∧ t.mode = .dead ∧ t.bt.cause = 0x05)
    ∧ (use.pending = false → ∃ t, exec (.prfSlot use) s = .next t ∧ t.mode = s.mode
      ∧ ∀ r ∈ s.prf.rovers.map (·.1), r < 128 → let k := prfSink s r
        (k.plan = [] ∨ k.planAt ≤ s.tick ∧ k.planAt + k.plan.length ≤ s.tick + 120) →
        (prfSink t r).planAt = s.tick ∧ (prfSink t r).plan.length = 121
        ∧ (permitOnAir s r = false → (prfSink t r).held = true ∧ ((prfSink t r).plan.getLast?).map (·.2) = some 0))

/-- One profile update of a positioner. With the engines running and no homing, an update of a positioner without a
channel or encoder changes nothing. For one with a single channel and nothing staged: HALT makes a channel not
started HALTED with V = 0 and raises PRF_HALTED; a START on the target ends at once, IDLE with DONE; a START
elsewhere begins to move towards TARGET at V_START, from HALTED too, and where that is less than a microstep the
accumulator keeps the sum. (Rests on: R232, R235, R236, R242) -/
def Obligations.a_positioner_update_starts_ends_and_halts_its_channel : Prop :=
  ∀ (s : State) (n : Fin 4) (la : Nat), Engines s → (posCh s n).homing = none →
    ((posSink s n).chans = [] → s.rb Reg.POS_CH.ENC_EN n = false → exec (.prfPosUpdate n la) s = .next s.start)
    ∧ (∀ c < 512, (posSink s n).chans = [c] → (prfCh s c).staged = none →
      let v := prfCh s c
      let k := posSink s n
      (v.halt = true → v.start = false → v.state ≠ 7 → ∃ t, exec (.prfPosUpdate n la) s = .next t
        ∧ (prfCh t c).state = 7 ∧ (prfCh t c).halt = false ∧ (posSink t n).vel = 0 ∧ pending t 227 = true)
      ∧ (v.start = true → v.par.target = posHere s n → ∃ t, exec (.prfPosUpdate n la) s = .next t
        ∧ (prfCh t c).state = 0 ∧ (prfCh t c).start = false ∧ (posSink t n).vel = 0 ∧ t.rb Reg.PRF_CH.DONE c = true)
      ∧ (v.start = true → v.par.target ≠ posHere s n → k.acc + 100 * vWord v.par.vStart < 2 ^ 48 →
        ∃ t, exec (.prfPosUpdate n la) s = .next t ∧ (prfCh t c).state = 2 ∧ (prfCh t c).start = false
          ∧ (posSink t n).vel = vOf v.par.vStart ∧ (posSink t n).pos = decide (posHere s n < v.par.target)
          ∧ (posSink t n).acc = k.acc + 100 * vWord v.par.vStart))

/-- POS_DRIVE and POS_HOME are accepted for their boundary or update, or refused with DRIVE_REFUSED. In LEAD and HALT,
POS_DRIVE on an equipped channel is accepted and takes effect at the next tick boundary: SET_POS and SYNC_ENC not
while the channel moves or homes, SYNC_ENC only with an encoder, ENABLE not with SHORT or hot drivers. POS_HOME on
an enabled, equipped channel at rest with a home switch, with its speeds and travel in range, starts homing in phase
1, or 2 where the switch is already tripped, and clears HOMED. Otherwise both complete with DRIVE_REFUSED and change
nothing. (Rests on: R349, R413, R414, R417) -/
def Obligations.positioner_drive_and_homing_commands : Prop :=
  ∀ (s : State) (h : Handle) (n flags rsv : Nat), Taken leadModes s →
    (∀ x : Int,
      let good := rsv = 0 ∧ n ≤ 3 ∧ flags ≤ 1 ∧ s.rb Reg.POS_CH.EN n = true
      let rest := posBusy s n = false
      let cool := s.rb Reg.POS_CH.SHORT n = false ∧ posHot s = false
      let enc := s.rb Reg.POS_CH.ENC_EN n = true
      let waits : Nat → Int → State → Prop := fun act x t => Outstanding s t h ∧ t.regs = s.regs
        ∧ t.pos = { s.pos with cmds := s.pos.cmds ++ [{ h := h, n := n, action := act, homed := flags == 1, position := x }] }
      let turned : State → Prop := fun t => Posted s t h stDrive 0 ∧ t.regs = s.regs ∧ t.pos = s.pos
      (good → (∃ t, exec (.posDriveDisable h n flags rsv) s = .next t ∧ waits 0 0 t)
        ∧ (cool → ∃ t, exec (.posDriveEnable h n flags rsv) s = .next t ∧ waits 1 0 t)
        ∧ (rest → ∃ t, exec (.posDriveSetPos h n flags x rsv) s = .next t ∧ waits 2 x t)
        ∧ (rest → enc → ∃ t, exec (.posDriveSyncEnc h n flags rsv) s = .next t ∧ waits 3 0 t)
        ∧ (∃ t, exec (.posDriveClear h n flags rsv) s = .next t ∧ waits 4 0 t))
      ∧ (¬ good → (∃ t, exec (.posDriveDisable h n flags rsv) s = .next t ∧ turned t)
        ∧ (∃ t, exec (.posDriveClear h n flags rsv) s = .next t ∧ turned t))
      ∧ (¬ (good ∧ cool) → ∃ t, exec (.posDriveEnable h n flags rsv) s = .next t ∧ turned t)
      ∧ (¬ (good ∧ rest) → ∃ t, exec (.posDriveSetPos h n flags x rsv) s = .next t ∧ turned t)
      ∧ (¬ (good ∧ rest ∧ enc) → ∃ t, exec (.posDriveSyncEnc h n flags rsv) s = .next t ∧ turned t))
    ∧ (∀ (fast slow travel : Nat) (x : Int),
      let ok := rsv = 0 ∧ n ≤ 3 ∧ flags ≤ 3 ∧ 100 ≤ fast ∧ fast ≤ 5000000 ∧ 100 ≤ slow ∧ slow ≤ 200000 ∧ 1 ≤ travel
        ∧ travel ≤ 2147483647 ∧ s.rb Reg.POS_CH.EN n = true ∧ posBusy s n = false ∧ (posCh s n).en = true
        ∧ s.rb Reg.POS_CH.HOME_EN n = true ∧ (bitAt flags 1 = true → s.rb Reg.POS_CH.ENC_EN n = true)
      (ok → ∃ t g, exec (.posHome h n flags fast slow x travel rsv) s = .next t ∧ Outstanding s t h
        ∧ t.rb Reg.POS_CH.HOMED n = false ∧ (posCh t n).homing = some g ∧ g.h = h ∧ g.offset = x ∧ g.fast = fast ∧ g.slow = slow
        ∧ g.maxTravel = travel ∧ g.dir = bitAt flags 0 ∧ g.useIndex = bitAt flags 1
        ∧ g.phase = (if bitAt (s.r Reg.POS_CH.TRIPPED n) 2 then 2 else 1)
        ∧ RegsKept [Reg.POS_CH.HOMED.key n 0, Reg.POS_CH.STATE.key n 0, Reg.POS_CH.HOME_PHASE.key n 0, Reg.POS_CH.ENC_COVER.key n 0] s t)
      ∧ (¬ ok → ∃ t, exec (.posHome h n flags fast slow x travel rsv) s = .next t ∧ Posted s t h stDrive 0
        ∧ t.regs = s.regs ∧ t.pos = s.pos))

/-- What the switches, the encoder and its index do. Outside BOOT and DEAD: an edge of a switch that is not enabled
changes its input and nothing more of the registers than the state shown. The first active edge of an enabled switch
makes it tripped; where it is the limit switch ahead of a moving channel of a leading module, the channel halts with
reason 1, LIMIT_COUNT and POS_LIMIT_HIT. A release frees it unless it chatters; the ninth edge within 64 ms makes it
chatter, tripped, with CHATTER_COUNT and POS_SWITCH_CHATTER. A single quadrature edge counts one up where A leads B
(the model's choice, log entry 31) and one down otherwise; both inputs at once count in ENC_ERR. In phase 4 the
index edge ends homing: HOMED, COUNTER at the offset, POS_HOME_DONE, and OK with the COUNTER of the home edge.
(Rests on: R407, R408, R409, R412, R414) -/
def Obligations.positioner_switches_and_encoder : Prop :=
  ∀ (s : State) (n : Fin 4), Awake s →
    let shown := [Reg.POS_CH.STATE.key n 0, Reg.POS_CH.HOME_PHASE.key n 0, Reg.POS_CH.ENC_COVER.key n 0]
    (∀ sw : Fin 3, (switchEn s n sw = false →
        (∃ t, exec (.switchTrip n sw) s = .next t ∧ bitAt (posCh t n).act sw = true ∧ RegsKept shown s t)
        ∧ (∃ t, exec (.switchRelease n sw) s = .next t ∧ bitAt (posCh t n).act sw = false ∧ RegsKept shown s t)
        ∧ exec (.switchChatter n sw) s = .next s.start)
      ∧ (switchEn s n sw = true → bitAt (s.r Reg.POS_CH.TRIPPED n) sw = false →
        ∃ t, exec (.switchTrip n sw) s = .next t ∧ bitAt (t.r Reg.POS_CH.TRIPPED n) sw = true
          ∧ ((posCh s n).homing = none → posMoving s n = some (sw == 0) → sw ≠ 2 → s.leading = true →
            t.r Reg.POS_CH.HALT_REASON n = 1 ∧ pending t 256 = true ∧ posMoving t n = none
            ∧ t.r Reg.POS_CH.LIMIT_COUNT n = satInc 32 (s.r Reg.POS_CH.LIMIT_COUNT n)))
      ∧ (switchEn s n sw = true → bitAt (s.r Reg.POS_CH.SWITCH_CHATTER n) sw = false →
        (∃ t, exec (.switchRelease n sw) s = .next t ∧ bitAt (t.r Reg.POS_CH.TRIPPED n) sw = false)
        ∧ (∃ t, exec (.switchChatter n sw) s = .next t ∧ bitAt (t.r Reg.POS_CH.SWITCH_CHATTER n) sw = true
          ∧ bitAt (t.r Reg.POS_CH.TRIPPED n) sw = true ∧ pending t 261 = true
          ∧ t.r Reg.POS_CH.CHATTER_COUNT n = satInc 32 (s.r Reg.POS_CH.CHATTER_COUNT n))))
    ∧ (∀ a b : Bool, s.rb Reg.POS_CH.ENC_EN n = true → let v := posCh s n
      ((v.encA = a ↔ v.encB ≠ b) → ∃ t, exec (.encoderEdge n a b) s = .next t
        ∧ (posCh t n).count = v.count + (if (if v.encA ≠ a then a ≠ b else a = b) then 1 else -1) ∧ (posCh t n).encA = a ∧ (posCh t n).encB = b)
      ∧ (v.encA ≠ a → v.encB ≠ b → ∃ t, exec (.encoderEdge n a b) s = .next t ∧ (posCh t n).count = v.count
        ∧ t.r Reg.POS_CH.ENC_ERR n = satInc 32 (s.r Reg.POS_CH.ENC_ERR n)))
    ∧ (∀ g : Homing, (posCh s n).homing = some g → s.leading = true → g.phase = 4 → -2147483648 ≤ g.offset → g.offset < 2147483648 →
      ∃ t, exec (.encIndex n) s = .next t ∧ (posCh t n).homing = none ∧ t.rb Reg.POS_CH.HOMED n = true
        ∧ t.ri Reg.POS_CH.COUNTER n = g.offset ∧ pending t 259 = true ∧ Posted s t g.h stOk (ofSigned 32 g.was))

/-- The fault rows of the positioner drives, and what ends by itself. On the leading module: exceeding the travel limit
of a phase ends homing with HOME_FAULT 2 and POS_HOME_FAULT; a stall seen by the encoder, or by the load angle,
halts the channel with reason 2, or 3, counts it and raises POS_STALL; a phase current above 7,500 mA disables the
channel with reason 7, SHORT and POS_SHORT; 145 °C disables all four with POS_OVERTEMP each; VMOT below 5.5 V halts
all four with reason 6 and raises POS_VMOT_LOW. The temperature warning from 135 °C on, the return of VMOT at 6 V,
the fall to holding current after HOLD_DELAY, and the end of AUTO_TUNE act in every mode but BOOT and DEAD. (Rests
on: R404, R405, R411, R412, R415) -/
def Obligations.positioner_faults_halt_the_drives : Prop :=
  ∀ (s : State) (n : Fin 4), Awake s →
    (s.leading = true →
      (∀ g : Homing, (posCh s n).homing = some g → (if g.phase = 1 then g.maxTravel else s.r Reg.POS_CH.HOME_WINDOW n) < g.travel →
        ∃ t, exec (.homeTravelLimit n) s = .next t ∧ (posCh t n).homing = none ∧ t.r Reg.POS_CH.HALT_REASON n = 4
          ∧ pending t 260 = true ∧ Posted s t g.h stHomeFault 2)
      ∧ ((posCh s n).homing = none → posDriven s (posCh s n) = true →
        (s.rb Reg.POS_CH.ENC_EN n = true → bitAt (s.r Reg.POS_CH.STALL_SRC n) 0 = true →
          max (s.r Reg.POS_CH.ENC_STALL n) (s.r Reg.POS_CH.ENC_WARN n) < (posDev s n).natAbs →
          ∃ t, exec (.encStall n) s = .next t ∧ t.r Reg.POS_CH.HALT_REASON n = 2 ∧ pending t 257 = true
            ∧ t.r Reg.POS_CH.STALL_COUNT n = satInc 32 (s.r Reg.POS_CH.STALL_COUNT n))
        ∧ (bitAt (s.r Reg.POS_CH.STALL_SRC n) 1 = true → s.r Reg.POS_CH.LA_STATE n = 2 →
          max 1 (s.r Reg.POS_CH.LA_COUNT n) ≤ (posCh s n).laLow →
          ∃ t, exec (.laStall n) s = .next t ∧ t.r Reg.POS_CH.HALT_REASON n = 3 ∧ pending t 257 = true
            ∧ t.r Reg.POS_CH.STALL_COUNT n = satInc 32 (s.r Reg.POS_CH.STALL_COUNT n)))
      ∧ (∃ t, exec (.phaseShort n) s = .next t ∧ t.rb Reg.POS_CH.SHORT n = true ∧ (posCh t n).en = false ∧ (posCh t n).fault = true
        ∧ pending t 262 = true ∧ ((posCh s n).homing = none → t.r Reg.POS_CH.HALT_REASON n = 7))
      ∧ (∀ x : Int, 145 ≤ x → ∃ t, exec (.drvOvertemp x) s = .next t ∧ t.rb Reg.POS_TEMP.TEMP_WARN = true ∧ t.pos.hot = true
        ∧ pending t 264 = true ∧ ∀ m : Fin 4, (posCh t m).en = false ∧ (posCh t m).fault = ((posCh s m).en || (posCh s m).fault))
      ∧ (∀ mv < 5500, s.rb Reg.POS_SUPPLY.VMOT_OK = true → ∃ t, exec (.vmotLow mv) s = .next t
        ∧ t.rb Reg.POS_SUPPLY.VMOT_OK = false ∧ t.r Reg.POS_SUPPLY.VMOT_MV = mv ∧ pending t 265 = true
        ∧ ∀ m : Fin 4, (posCh s m).homing = none → t.r Reg.POS_CH.HALT_REASON m = 6))
    ∧ (∀ mv < 65536, 6000 ≤ mv → s.rb Reg.POS_SUPPLY.VMOT_OK = false → ∃ t, exec (.vmotOk mv) s = .next t ∧ t.rb Reg.POS_SUPPLY.VMOT_OK = true
      ∧ t.r Reg.POS_SUPPLY.VMOT_MV = mv ∧ pending t 266 = true)
    ∧ (∀ x : Int, 135 ≤ x → s.rb Reg.POS_TEMP.TEMP_WARN = false → ∃ t, exec (.drvTempWarn x) s = .next t
      ∧ t.rb Reg.POS_TEMP.TEMP_WARN = true ∧ pending t 263 = true
      ∧ EventsOnly [Reg.POS_TEMP.DRV_TEMP.key 0 0, Reg.POS_TEMP.TEMP_WARN.key 0 0] s t)
    ∧ ((posCh s n).run = true → (posCh s n).last + s.r Reg.POS_CH.HOLD_DELAY n ≤ s.tick →
      ∃ t, exec (.posHoldCurrent n) s = .next t ∧ (posCh t n).run = false)
    ∧ (∀ kp < 4096, ∀ ki < 4096, (posCh s n).tuning = true → ∃ t, exec (.posAutoTuneDone n kp ki) s = .next t
      ∧ t.r Reg.POS_CH.KP n = kp ∧ t.r Reg.POS_CH.KI n = ki ∧ (posCh t n).tuning = false)

/-- Slot assignment, the beacon, and what a downlink and a bulk slot send. In LEAD and HALT a slot assignment that R279
admits, or a removal, is held for the second watch boundary and completes with OK; any other completes with
SLOT_REFUSED and changes nothing. With the engines running: at 970 µs the beacon of the next tick is assembled from
the latches, permits and key epoch of that moment, and its tag follows. In a downlink slot with the keys valid and
the transceiver free, the rover that holds the slot is sent one downlink frame of 6 symbols with the next TX_SEQ,
the TIMING_ADJ of R306 and as many segments as fit; blocked, the frame is counted, waits for a free slot and takes
no TX_SEQ. A bulk slot sends the next rover in turn its segments. In a shadow these frames are muted and leave
TX_SEQ to the lead. (Rests on: R249, R276, R278, R279, R280, R282, R286, R287, R288, R300) -/
def Obligations.air_slots_are_assigned_and_used : Prop :=
  (∀ (s : State) (h : Handle) (r rsv : Nat) (b : List Byte), Taken leadModes s →
    let removal := padTo 4 (b.take 4) ++ le 1 255 ++ padTo 3 ((b.drop 5).take 3)
    let held (t : State) (p : Option SlotCfg × List Byte × Nat) := Posted s t h stOk 0 ∧ luvRover t r = { luvRover s r with pend := (luvRover s r).pend ++ [p] }
      ∧ t.rb Reg.LUV_ROVER.CHANGE_PENDING r = true
      ∧ RegsKept [Reg.LUV_ROVER.CFG_LO.key r 0, Reg.LUV_ROVER.CFG_HI.key r 0, Reg.LUV_ROVER.CHANGE_PENDING.key r 0] s t
    let refused (t : State) := Posted s t h stSlot 0 ∧ t.luv = s.luv ∧ t.regs = s.regs
    (rsv = 0 → r ≤ 127 → (field b 4 1 ≠ 255 → Machine.cfgOk s r b = true) → ∃ t, exec (.luvSlotSet h r b rsv) s = .next t
      ∧ held t (if field b 4 1 = 255 then none else some (cfgOf b), b, 2))
    ∧ (rsv ≠ 0 ∨ 127 < r ∨ (field b 4 1 ≠ 255 ∧ Machine.cfgOk s r b = false) →
      ∃ t, exec (.luvSlotSet h r b rsv) s = .next t ∧ refused t)
    ∧ (rsv = 0 → r ≤ 127 → ∃ t, exec (.luvSlotRemove h r b rsv) s = .next t ∧ held t (none, removal, 2))
    ∧ (rsv ≠ 0 ∨ 127 < r → ∃ t, exec (.luvSlotRemove h r b rsv) s = .next t ∧ refused t))
  ∧ (∀ (s : State) (use : SlotUse), Engines s → use.pending = false →
    (∃ t, exec (.beaconAssembly use) s = .next t
      ∧ t.luv = { s.luv with pre := some { tick := s.tick + 1, stop := stopState s, permit := permitBits s, key := keyEpoch s } })
    ∧ (∀ p, s.luv.pre = some p → p.tick = s.tick + 1 → ∃ t, exec (.beaconTag use) s = .next t
      ∧ t.luv = { s.luv with pre := some { p with tagged := s.kvt.gs } }))
  ∧ (∀ (s : State) (hb : Fin 2) (j : Fin 7) (r : Nat) (v : LuvRover) (c : SlotCfg), Engines s → slotsRun s = true → hbActive s hb = true →
    linkKeys s r = true →
    hbPlan s hb = [] → (hbPath s hb).onAir = [] → nextBurst (hbPath s hb) = none → r < 128 → v.cfg = some c → luvRover s r = v →
    let sent (t : State) (kind : ElKind) (ty n : Nat) (a : Option Int) := ∃ e, hbPlan t hb = [e] ∧ e.kind = kind ∧ e.rover = r
      ∧ e.start = (14 + 7 * j) * symCyc ∧ e.stop = e.start + 6 * symCyc ∧ e.mcs = c.dlMcs ∧ e.adj = a ∧ e.begun = true
      ∧ e.take = min (chtRover s r).dl.length n ∧ e.frame.take 4 = le 1 ty ++ le 1 r ++ le 1 0x10 ++ le 1 (keyEpoch s)
      ∧ (if s.mode = .shadow then t.sec = s.sec else txSeq t r = txSeq s r + 1)
    (slotRole s = .downlink 30 → s.luv.rovers.find? (fun p => p.2.cfg.any fun c => c.home == hb.val && c.dlSlot == 7 * (tiw s - 30) + j.val)
        = some (r, v) →
      (hbBlocked s hb = false → ∃ t, exec (.downlinkSlot hb j) s = .next t
        ∧ sent t .downlink 0x21 ((slotCap c.dlMcs - 368) / 48) (some (timingMean s (mget [] s.sec.errs r))))
      ∧ (hbBlocked s hb = true → ∃ t, exec (.downlinkSlot hb j) s = .next t ∧ hbPlan t hb = [] ∧ t.sec = s.sec
        ∧ t.r Reg.LUV_COUNTS.PREEMPT_COUNT = satInc 32 (s.r Reg.LUV_COUNTS.PREEMPT_COUNT)
        ∧ mget [] t.luv.redo hb = mget [] s.luv.redo hb ++ [(r, none)]))
    ∧ (slotRole s = .bulk → mget [] s.luv.redo hb = [] → hbBlocked s hb = false →
      (((bulkRovers s hb).filter fun r => decide (mget 0 s.luv.turn hb ≤ r)) ++ bulkRovers s hb).head? = some r →
      ∃ t, exec (.bulkSlot hb j) s = .next t ∧ sent t .bulk 0x22 ((slotCap c.dlMcs - 8) / 48) none ∧ mget 0 t.luv.turn hb = r + 1))

/-- Channel assessment, radar, the availability check, and a transceiver out and back; the heartbeat. Outside BOOT and
DEAD: an assessment in profile EU holds for the next tick, and none is kept in NA. Radar in profile EU on a
transceiver with a role bars its channel for 1,800,000 ticks, raises LUV_RADAR and LUV_HB_OUT, and the transceiver
starts a check on another channel or has none. A check that has run its time passes and raises LUV_CHECK_DONE; a bar
that has run its time ends. A failed self-check takes an unfailed transceiver out at the next tick boundary; at a
watch boundary one that may join becomes standby where its channel may be used, and one that has been stable is in
service. At a tenth tick, with the fleet latch clear, the lead sends a heartbeat on the lantern link where the
airtime allows it, cutting a frame still in flight there, and otherwise counts a skip. (Rests on: R272, R273, R290,
R291) -/
def Obligations.transceivers_check_hop_and_fail_over : Prop :=
  ∀ (s : State) (hb : Fin 2), Awake s →
    (∀ busy : Bool, exec (.ccaAssess hb busy) s = .next (if profileEu s then
      { s with out := [], luv := { s.luv with busyNext := mput false s.luv.busyNext hb busy } } else s.start))
    ∧ (∀ cyc : Nat, profileEu s = true → s.r Reg.LUV_HB_STATUS.ROLE hb ≠ 0 → let m := s.r Reg.LUV_HB_STATUS.CUR_MHZ hb
      ∃ t, exec (.radarDetect hb cyc) s = .next t ∧ mget 0 t.luv.barred m = s.tick + 1800000 ∧ pending t 323 = true ∧ pending t 320 = true
        ∧ hbActive t hb = false ∧ (t.r Reg.LUV_HB_STATUS.ROLE hb = 0 ∨ (t.r Reg.LUV_HB_STATUS.ROLE hb = 2 ∧ t.r Reg.LUV_HB_STATUS.CUR_MHZ hb ≠ m)))
    ∧ (s.r Reg.LUV_HB_STATUS.ROLE hb = 2 → (luvHb s hb).done ≤ s.tick → (luvHb s hb).passed = false →
      ∃ t, exec (.cacDone hb) s = .next t ∧ (luvHb t hb).passed = true ∧ pending t 324 = true ∧ RegsKept evtKeys s t)
    ∧ (∀ mhz : Nat, exec (.channelBarEnd mhz) s = .next (if mget 0 s.luv.barred mhz ≤ s.tick then
      { s with out := [], luv := { s.luv with barred := mput 0 s.luv.barred mhz 0 } } else s.start))
    ∧ ((unit s 2 hb).out = false → exec (.hbFault hb) s
      = .next { s with out := [], luv := { s.luv with out := s.luv.out ++ [(hb.val, true)] } })
    ∧ (s.ttu.pos = 0 → unitMayJoin s 2 hb = true → (profileEu s = true → (luvHb s hb).passed = true) →
      let m := s.r Reg.LUV_HB.CHAN_MHZ hb
      ∃ t, exec (.hbBack hb) s = .next t ∧ (unit t 2 hb).standby = true ∧ pending t 321 = true
        ∧ t.r Reg.LUV_HB_STATUS.ROLE hb = if profileEu s || (naCentre m && farEnough s hb m) then 3 else 0)
    ∧ (s.ttu.pos = 0 → unitStable s 2 hb = true → ∃ t, exec (.hbRestored hb) s = .next t ∧ unitIn t 2 hb = true
      ∧ (s.r Reg.LUV_HB_STATUS.ROLE hb = 3 → t.r Reg.LUV_HB_STATUS.ROLE hb = 1) ∧ pending t 322 = true)
    ∧ (s.tick % 10 ≠ 0 → exec .lanternHeartbeat s = .next s.start)
    ∧ (s.tick % 10 = 0 → fleetLatch s = false → s.leading = true → s.paused = false → s.rb Reg.LUV_CFG.LANTERN_HB_EN = true → s.kvt.gs = true →
      (lanternFits s 35640000 = true → ∃ t, exec .lanternHeartbeat s = .next t
        ∧ t.out = (if 0 < s.luv.lanEnd then [.lanternCut 0] else []) ++ [.lantern 0x2DD4 (lanternChan s) (lanternPower s) (heartbeatPayload s)])
      ∧ (lanternFits s 35640000 = false → ∃ t, exec .lanternHeartbeat s = .next t ∧ t.out = [] ∧ pending t 327 = true
        ∧ t.r Reg.LUV_COUNTS.LANTERN_SKIP = satInc 32 (s.r Reg.LUV_COUNTS.LANTERN_SKIP)
        ∧ EventsOnly [Reg.LUV_COUNTS.LANTERN_SKIP.key 0 0] s t))

/-- An uplink frame is taken only with a known key, a tag that verifies and a sequence number not seen before. On a
leading module, a frame received in good time on an active transceiver: with a bad header or a slot the rover does
not hold it is counted in HEADER_DROP and nothing else changes; with an epoch not accepted, or a tag that does not
verify under the session key of its epoch, it is counted and reported and reaches neither the windows nor the air
interface. With a SEQ above the window, or within it and not marked, it is acknowledged as accepted and its SEQ is
marked in the window; with a SEQ marked it is acknowledged as a duplicate; below the window it is a replay, counted
and dropped; neither moves a window. A rover missed for three watches becomes LOST, with its targeted stop; at the
end of its two watches the previous key epoch is discarded. (Rests on: R285, R296, R298, R301, R303, R308, R309,
R311) -/
def Obligations.uplink_frames_are_judged_by_key_tag_and_sequence : Prop :=
  (∀ (s : State) (f : UplinkRx), s.held = false → s.leading = true → hbActive s f.hb = true → rxLost s f = false →
      -2000 ≤ f.err → f.err ≤ 14400 →
    let r := f.rover
    let acked (t : State) (result : Nat) := t.luv.acks = s.luv.acks ++ [(s.tick, f.hb.val, f.slot.val, r, result, f.seq)]
    (headerOk f = false ∨ slotOf s f = false → ∃ t, exec (.uplinkFrameRx f) s = .next t
      ∧ t.r Reg.SEC_COUNTS.HEADER_DROP = satInc 32 (s.r Reg.SEC_COUNTS.HEADER_DROP)
      ∧ RegsOnly [Reg.SEC_COUNTS.HEADER_DROP.key 0 0] s t)
    ∧ (headerOk f = true → slotOf s f = true →
      (secEpoch s f.keyId = none → ∃ t, exec (.uplinkFrameRx f) s = .next t ∧ (354 ∉ s.onceWatch → pending t 354 = true)
        ∧ EventsOnly [Reg.SEC_COUNTS.KEY_UNKNOWN.key 0 0, Reg.SEC_COUNTS.KEY_EXPIRED.key 0 0] s t)
      ∧ ∀ old, secEpoch s f.keyId = some old →
        (uplinkOk s f old = false → ∃ t, exec (.uplinkFrameRx f) s = .next t ∧ (352 ∉ s.onceWatch → pending t 352 = true)
          ∧ t.r Reg.SEC_COUNTS.AUTH_FAIL = satInc 32 (s.r Reg.SEC_COUNTS.AUTH_FAIL) ∧ EventsOnly [Reg.SEC_COUNTS.AUTH_FAIL.key 0 0] s t)
        ∧ (uplinkOk s f old = true → let w := secWin s old r
          ((∀ h, w.h = some h → h < f.seq ∨ (h ≤ f.seq + 63 ∧ bitAt w.map (h - f.seq) = false)) →
            ∃ t h', exec (.uplinkFrameRx f) s = .next t ∧ acked t 0 ∧ (secWin t old r).h = some h' ∧ f.seq ≤ h'
              ∧ bitAt (secWin t old r).map (h' - f.seq) = true ∧ ∀ h, w.h = some h → h ≤ h')
          ∧ (∀ h, w.h = some h → f.seq ≤ h → h ≤ f.seq + 63 → bitAt w.map (h - f.seq) = true →
            ∃ t, exec (.uplinkFrameRx f) s = .next t ∧ acked t 1 ∧ t.sec.win = s.sec.win ∧ t.sec.winOld = s.sec.winOld
              ∧ t.luv.parts = s.luv.parts ∧ t.r Reg.SEC_COUNTS.DUP_COUNT = satInc 32 (s.r Reg.SEC_COUNTS.DUP_COUNT))
          ∧ (∀ h, w.h = some h → f.seq + 63 < h → ∃ t, exec (.uplinkFrameRx f) s = .next t ∧ t.luv = s.luv
              ∧ t.sec.win = s.sec.win ∧ t.sec.winOld = s.sec.winOld ∧ (353 ∉ s.onceWatch → pending t 353 = true)
              ∧ t.r Reg.SEC_COUNTS.REPLAY_COUNT = satInc 32 (s.r Reg.SEC_COUNTS.REPLAY_COUNT)))))
  ∧ (∀ (s : State) (r : Fin 128), s.held = false → s.running = true → s.ttu.pos = 0 → s.r Reg.SEC_ROVER.MISS_WATCHES r = 3 →
    s.rbit Reg.SEC_LOST.LOST r = false → ∃ t, exec (.roverLost r) s = .next t ∧ t.rbit Reg.SEC_LOST.LOST r = true
      ∧ pending t 355 = true ∧ t.rbit Reg.STP_TSTOP.TSTOP r = true ∧ (chtRover t r).freeze = true ∧ (fixRover t r).lost = true)
  ∧ (∀ (s : State) (e : Nat), Awake s → s.sec.left = 0 → s.sec.old = some e → ∃ t, exec .oldKeyEnd s = .next t ∧ t.sec.old = none
    ∧ t.sec.expired = some e ∧ t.sec.winOld = [] ∧ t.kvt.fkOld = [] ∧ t.rb Reg.SEC_STATUS.OLD_VALID = false ∧ pending t 359 = true)

/-- What link frames, discrete signals and frames on the air do to the pair. Outside DEAD and a pause: a frame that
fails its CRC counts in LANE_ERR and changes nothing else; a valid status frame gives the peer's mode and epoch, is
remembered in the greatest epoch known, makes a lead with a smaller epoch step down and a running module with a peer
in BOOT or MAINTENANCE go to PEER_GONE. A DEAD or POWER_FAIL frame or GONE makes a running module go to PEER_GONE
with TIME_MASTER. Loss of the wave, or of the frames, takes an IN_SYNC module to PAIRED_SILENT; trained lanes take
NO_PEER to TRAINING. A claim or a greater epoch seen makes a lead step down; SOLO_CONFIRM counts only with 0x5010 in
a lead in PAIRED_SILENT, and a reserved bit written 1 beside it counts as a refused write. TWN_ROLE_SET is accepted
for the second watch boundary, behind a handover already agreed (the model's choice, log entry 51), or completes
with ROLE_REFUSED. (Rests on: R318, R319, R322, R329, R332, R335, R336, R339, R341) -/
def Obligations.the_pair_state_follows_the_link : Prop :=
  (∀ (s : State) (h : Handle) (rsv : Nat), Taken leadModes s →
    let ok := rsv = 0 ∧ s.inSync = true
    let agreed : Nat → State → Prop := fun role t =>
      let x : Handover := { h := h, left := 2, role := role, maint := false }
      Outstanding s t h ∧ t.regs = s.regs
        ∧ (s.twn.handover = none → t.twn.handover = some x ∧ t.twn.later = s.twn.later)
        ∧ (∀ y, s.twn.handover = some y → t.twn.handover = some y ∧ t.twn.later = s.twn.later ++ [x])
    let turned : State → Prop := fun t => Posted s t h stRole 0 ∧ t.regs = s.regs ∧ t.twn.handover = s.twn.handover
    (ok → ∃ t, exec (.twnRoleSetLead h rsv) s = .next t ∧ agreed 0 t)
    ∧ (¬ ok → ∃ t, exec (.twnRoleSetLead h rsv) s = .next t ∧ turned t)
    ∧ (ok → s.rb Reg.TWN_STATUS.TIME_MASTER = true → ∃ t, exec (.twnRoleSetTime h rsv) s = .next t ∧ agreed 1 t)
    ∧ (¬ (ok ∧ s.rb Reg.TWN_STATUS.TIME_MASTER = true) → ∃ t, exec (.twnRoleSetTime h rsv) s = .next t ∧ turned t))
  ∧ ∀ s : State, s.held = false → s.mode ≠ .dead →
    (∀ f : StatusIn, s.paused = false →
      (f.crcOk = false → ∃ t, exec (.linkStatusFrame f) s = .next t ∧ t.r Reg.TWN_COUNTS.LANE_ERR = satInc 32 (s.r Reg.TWN_COUNTS.LANE_ERR)
        ∧ RegsOnly [Reg.TWN_COUNTS.LANE_ERR.key 0 0] s t)
      ∧ (f.crcOk = true → f.stored < 2 ^ 32 → ∃ t, exec (.linkStatusFrame f) s = .next t ∧ t.mode = s.mode
        ∧ t.r Reg.TWN_STATUS.PEER_MODE = modeNum f.mode ∧ t.r Reg.TWN_EPOCHS.PEER_EPOCH = f.stored ∧ t.twn.silent = false
        ∧ t.twn.maxEpoch = max s.twn.maxEpoch (max f.epoch f.stored)
        ∧ (s.leading = true → (f.mode = .lead ∨ f.mode = .halt) → s.r Reg.TWN_EPOCHS.LEAD_EPOCH < f.epoch → t.twn.stepDown = true)
        ∧ (s.running = true → (f.mode = .boot ∨ f.mode = .maintenance) → t.pair = 5)))
    ∧ (∀ (power : Bool) (tick : Nat) (logs : List PeerLog), s.paused = false →
      (∃ t, exec (.peerDeadFrame false power tick logs) s = .next t ∧ RegsOnly [Reg.TWN_COUNTS.LANE_ERR.key 0 0] s t
        ∧ t.r Reg.TWN_COUNTS.LANE_ERR = satInc 32 (s.r Reg.TWN_COUNTS.LANE_ERR))
      ∧ (s.running = true → s.pair ≠ 5 → ∃ t, exec (.peerDeadFrame true power tick logs) s = .next t ∧ t.pair = 5
        ∧ t.rb Reg.TWN_STATUS.TIME_MASTER = true ∧ pending t 386 = true))
    ∧ (s.running = true → s.pair ≠ 5 → ∃ t, exec .peerGoneSignal s = .next t ∧ t.pair = 5 ∧ t.rb Reg.TWN_STATUS.TIME_MASTER = true
      ∧ t.rb Reg.TWN_STATUS.HEALTH_IN = false ∧ pending t 386 = true)
    ∧ (∃ t, exec .healthFault s = .next t ∧ t.rb Reg.TWN_STATUS.HEALTH_IN = false ∧ (s.mode = .shadow → pending t 393 = true)
      ∧ t.pair = (if s.inSync then 4 else s.pair))
    ∧ (∃ t, exec .healthWaveRestored s = .next t ∧ t.rb Reg.TWN_STATUS.HEALTH_IN = true ∧ t.twn.silent = false
      ∧ RegsKept [Reg.TWN_STATUS.HEALTH_IN.key 0 0] s t)
    ∧ (∀ wave : Bool, ∃ t, exec (.linkSilent wave) s = .next t ∧ t.r Reg.TWN_STATUS.LANES_UP = s.r Reg.TWN_STATUS.LANES_UP ∧ t.r Reg.TWN_STATUS.PEER_MODE = 7
      ∧ t.rb Reg.TWN_STATUS.HEALTH_IN = wave ∧ t.twn.silent = (!wave) ∧ t.pair = (if s.inSync then 4 else s.pair))
    ∧ (∃ t, exec .twnLinkUp s = .next t ∧ t.r Reg.TWN_STATUS.LANES_UP = 3 ∧ pending t 384 = true
      ∧ t.pair = (if s.pair = 0 then 1 else s.pair))
    ∧ (∃ t, exec .leadClaimSeen s = .next t ∧ t.rb Reg.TWN_STATUS.CLAIM_IN = true
      ∧ t.twn.stepDown = (s.twn.stepDown || (s.leading && s.twn.claimLeft != 2))
      ∧ (s.leading = true → s.twn.claimLeft = 2 → pending t 396 = true) ∧ RegsKept (Reg.TWN_STATUS.CLAIM_IN.key 0 0 :: evtKeys) s t)
    ∧ (∀ e : Nat, let own := s.r Reg.TWN_EPOCHS.LEAD_EPOCH
      let known := { s.twn with maxEpoch := max s.twn.maxEpoch e }
      exec (.beaconRx e) s = .next { s with out := [], twn :=
        if s.leading = true ∧ own < e then { known with stepDown := true }
        else if s.mode = .shadow ∧ e = own then { known with beaconSeen := true } else known })
    ∧ ((listenTick s = true → ∃ t, exec .ackRxListen s = .next t ∧ pending t 396 = true ∧ EventsOnly [] s t)
      ∧ (listenTick s = false → exec .ackRxListen s = .next s.start))
    ∧ (∀ v : Word, let confirms := s.leading = true ∧ s.pair = 4 ∧ v.toNat % 65536 = 0x5010
      let rkeys := [Reg.HST_REFUSED_WR.OFFSET.key 0 0, Reg.HST_REFUSED_WR.VALID.key 0 0]
      let marked : State → Prop := fun t => t.r Reg.HST_REFUSED_WR.OFFSET = 0xC0020 ∧ t.rb Reg.HST_REFUSED_WR.VALID = true
      (confirms → ∃ t, exec (.soloConfirm v) s = .next t ∧ t.pair = 0 ∧ pending t 394 = true ∧ (65535 < v.toNat → marked t))
      ∧ (¬ confirms → (v.toNat < 65536 → exec (.soloConfirm v) s = .next s.start)
        ∧ (65535 < v.toNat → ∃ t, exec (.soloConfirm v) s = .next t ∧ EventsOnly rkeys s t ∧ marked t)))

/-- Sending, receiving, acknowledging and missing a tick's stream, and the joiner that reaches IN_SYNC. In its slot an
IN_SYNC lead sends the stream of the tick, keeps it as in flight and carries what did not fit over to the next tick.
Item 8 of the stream is over its items and the permits of that moment. A frame that fails its CRC counts in
LANE_ERR; an IN_SYNC shadow acknowledges every stream received, and keeps one that it has not had. The lead's
acknowledgement of item 8 takes the streams up to that tick out of flight; that of item 1 covers its changes from
the next boundary, a late one a boundary later. A tick without acknowledgement is counted, the streams in flight are
sent again and fetching stops; at the tenth the pair goes to RESYNC; the shadow goes there at the tenth tick without
a stream, STALE. At a watch boundary in RESYNC the shadow takes the snapshot and both go to IN_SYNC. (Rests on: R49,
R319, R323, R324, R325, R326, R337) -/
def Obligations.the_reflection_stream_is_sent_and_acknowledged : Prop :=
  ∀ s : State, s.held = false →
    (∀ (use : SlotUse) (packed : Nat), s.leading = true → s.inSync = true → s.paused = false → ∃ t items cover,
      exec (.twnSlot use packed) s = .next t ∧ t.twn.flight = s.twn.flight ++ [{ tick := s.tick, cover := cover, items := items, digest := streamDigest items (permitBits t) }]
      ∧ t.out.getLast? = some (.byhelStream s.tick items (streamDigest items (permitBits t))) ∧ items.length ≤ packed
      ∧ t.twn.items = [] ∧ (t.twn.carry = [] → cover = s.tick)
      ∧ t.mode = s.mode)
    ∧ (∀ (tick : Nat) (items : List ReflEntry) (digest : Nat), s.mode ≠ .dead → s.paused = false →
      ∃ t, exec (.reflStreamRx tick items ⟨false, digest⟩) s = .next t ∧ RegsOnly [Reg.TWN_COUNTS.LANE_ERR.key 0 0] s t
        ∧ t.r Reg.TWN_COUNTS.LANE_ERR = satInc 32 (s.r Reg.TWN_COUNTS.LANE_ERR))
    ∧ (∀ (tick : Nat) (items : List ReflEntry) (digest : Nat), s.mode = .shadow → s.paused = false → s.inSync = true →
      ∃ t, exec (.reflStreamRx tick items ⟨true, digest⟩) s = .next t ∧ t.out = [.byhelAck tick 1, .byhelAck tick 8]
        ∧ (tick ≤ s.twn.lastRefl → t = { s with out := t.out, twn := { s.twn with unackRun := 0 } })
        ∧ (s.twn.lastRefl < tick → t.twn = { s.twn with lastRefl := tick, rx := s.twn.rx ++ [(tick, items, digest)], unackRun := 0 }
          ∧ RegsKept [Reg.TWN_LAST_REFL.TICK_LO.key 0 0] s t))
    ∧ (∀ (tick : Nat) (results : List (Handle × Nat × Nat)) (f : Flight), s.leading = true → s.paused = false → s.inSync = true →
      s.twn.flight.find? (fun f => f.tick == tick) = some f →
      (∀ late : Bool, ∃ t, exec (.reflAckRx tick ⟨true, true⟩ late results) s = .next t ∧ t.twn.lastRefl = tick ∧ t.twn.unackRun = 0
        ∧ t.twn.flight = s.twn.flight.filter (fun g => decide (tick < g.tick)) ∧ t.twn.ack8 = max s.twn.ack8 f.cover)
      ∧ (∀ late : Bool, late = false ∨ tick ≠ s.tick → exec (.reflAckRx tick ⟨true, false⟩ late results) s
        = .next { s with out := [], twn := { s.twn with ack1Next := max s.twn.ack1Next f.cover } })
      ∧ (tick = s.tick → exec (.reflAckRx tick ⟨true, false⟩ true results) s
        = .next { s with out := [], twn := { s.twn with ack1Late := max s.twn.ack1Late f.cover } }))
    ∧ (∀ (tick : Nat) (late digest : Bool) (results : List (Handle × Nat × Nat)), s.mode ≠ .dead → s.paused = false →
      ∃ t, exec (.reflAckRx tick ⟨false, digest⟩ late results) s = .next t ∧ RegsOnly [Reg.TWN_COUNTS.LANE_ERR.key 0 0] s t
        ∧ t.r Reg.TWN_COUNTS.LANE_ERR = satInc 32 (s.r Reg.TWN_COUNTS.LANE_ERR))
    ∧ (s.leading = true → s.inSync = true → s.twn.flight ≠ [] → ∃ t, exec .reflUnacked s = .next t
      ∧ t.r Reg.TWN_COUNTS.REFL_UNACKED = satInc 32 (s.r Reg.TWN_COUNTS.REFL_UNACKED)
      ∧ t.out = s.twn.flight.map (fun f => .byhelStream f.tick f.items f.digest)
      ∧ (s.twn.unackRun < 9 → t.twn.noFetch = true ∧ t.twn.unackRun = s.twn.unackRun + 1 ∧ t.pair = 3)
      ∧ (9 ≤ s.twn.unackRun → t.pair = 2 ∧ pending t 389 = true))
    ∧ (s.mode = .shadow → s.inSync = true →
      (s.twn.unackRun < 9 → exec .reflUnacked s = .next { s with out := [], twn := { s.twn with unackRun := s.twn.unackRun + 1 } })
      ∧ (9 ≤ s.twn.unackRun → ∃ t, exec .reflUnacked s = .next t ∧ t.pair = 2 ∧ t.rb Reg.TWN_STATUS.STALE = true ∧ pending t 389 = true))
    ∧ (∀ x : Snapshot, s.pair = 2 → s.ttu.pos = 0 → s.paused = false →
      (s.mode = .shadow → ∃ t, exec (.twnInSync x) s = .next t ∧ t.pair = 3 ∧ t.rb Reg.TWN_STATUS.STALE = false
        ∧ t.fix = x.fix ∧ t.asg = (asgSynced { s with asg := x.asg }).asg ∧ t.cpl = x.cpl ∧ t.sec = x.sec ∧ t.hst.started = x.started)
      ∧ (s.leading = true → ∃ t, exec (.twnInSync x) s = .next t ∧ t.pair = 3 ∧ pending t 390 = true
        ∧ t.twn.flight = [] ∧ t.twn.items = []))

/-- Who takes the lead, and with what epoch and sequence numbers. A shadow decides to claim when the peer is gone or,
where enabled, silent on the air, and a stale one only after 2 s; the claim then makes it lead with an epoch above
every epoch known, and 1,024 more on every TX_SEQ where the peer was gone, otherwise with the next key epoch. A
module that has finished BOOT waits for a peer in BOOT, claims with the greater stored epoch or slot A, claims alone
after 2,000 ticks, or enters MAINTENANCE where it has no fleet key; with a lead present and its key it adopts the
tick and enters SHADOW. A lead told to step down, or whose handover is due, becomes shadow, or goes to MAINTENANCE
where the handover is that of an ENTER_MAINT; and the shadow of a handover becomes lead and completes it, and every
other one agreed of its role, with OK. (Rests on: R299, R320, R321, R329, R330, R332, R335, R337, R338, R458) -/
def Obligations.claims_elections_and_handovers : Prop :=
  ∀ s : State, s.held = false →
    let claims (t : State) := t.leading = true ∧ t.twn.claimLeft = 2 ∧ t.twn.maxEpoch = max s.twn.maxEpoch (epochNext s)
    let advanced (t : State) := ∀ r < 128, txSeq t r = txSeq s r + 1024
    s.twn.maxEpoch < epochNext s ∧ s.r Reg.TWN_EPOCHS.LEAD_EPOCH < epochNext s ∧ epochNext s % 2 = s.r Reg.TWN_STATUS.SLOT % 2
    ∧ (s.mode = .shadow → s.paused = false → (s.twn.handover.any (fun x => x.left == 1 && x.role == 0) = true → lastOfWatch s = false) →
      let set (c : Nat) : State := { s with out := [], twn := { s.twn with claim := some c } }
      (s.rb Reg.TWN_STATUS.STALE = false → exec .twnClaimDecision s
        = .next (if s.pair = 5 then set 3 else if airDue s then set 4 else s.start))
      ∧ (s.rb Reg.TWN_STATUS.STALE = true → s.pair = 5 ∨ airDue s = true → (staleDue s = false → exec .twnClaimDecision s = .next s.start)
        ∧ (staleDue s = true → ∃ t, exec .twnClaimDecision s = .next t ∧ t.twn.claim = some 6 ∧ pending t 397 = true)))
    ∧ (∀ (c : Nat) (tags : List Nat), s.mode = .shadow → s.twn.claim = some c →
      (c = 3 → ∃ t, exec (.twnClaim tags) s = .next t ∧ claims t ∧ advanced t)
      ∧ (c = 4 ∨ c = 6 → s.kvt.stored < 0xFFFFFFFF → ∃ t, exec (.twnClaim tags) s = .next t ∧ claims t
        ∧ t.kvt.stored = s.kvt.stored + 1))
    ∧ (s.mode = .boot → s.twn.electing = true →
      let pm := s.r Reg.TWN_STATUS.PEER_MODE
      let mine := s.r Reg.TWN_EPOCHS.STORED_EPOCH
      let peer := s.r Reg.TWN_EPOCHS.PEER_EPOCH
      let wins := (pm ≤ 2 ∧ (pm = 0 → s.twn.peerFinished = true) ∧ (peer < mine ∨ (peer = mine ∧ s.r Reg.TWN_STATUS.SLOT = 0)))
        ∨ (5 ≤ pm ∧ 2000 ≤ s.twn.waitTicks)
      (¬ wins → exec .leadElection s = .next s.start)
      ∧ (wins → s.kvt.active = none → ∃ t, exec .leadElection s = .next t ∧ t.mode = .maintenance ∧ t.twn.electing = false)
      ∧ (wins → s.kvt.active ≠ none → s.kvt.stored < 0xFFFFFFFF → ∃ t, exec .leadElection s = .next t ∧ claims t
        ∧ t.kvt.stored = s.kvt.stored + 1)
      ∧ (∀ a : AdoptIn, pm = 3 ∨ pm = 4 → s.rb Reg.KVT_STATUS.PEER_MATCH = true → ∃ t, exec (.tickAdopt a) s = .next t ∧ t.mode = .shadow
        ∧ t.tick = a.tick ∧ t.ttu.tb1 = a.tb1 ∧ t.ttu.pos = 0 ∧ t.twn.electing = false ∧ t.twn.follows = true ∧ a.epoch ≤ t.twn.maxEpoch))
    ∧ (s.leading = true → s.twn.stepDown = true → ∃ t, exec .twnStepDown s = .next t ∧ t.mode = .shadow ∧ t.twn.claimLeft = 0
      ∧ t.rb Reg.TWN_STATUS.STALE = true ∧ t.rb Reg.TWN_STATUS.TIME_MASTER = false ∧ pending t 388 = true ∧ pending t 396 = true)
    ∧ (s.leading = false ∨ s.twn.stepDown = false → exec .twnStepDown s = .next s.start)
    ∧ (∀ (x : Handover) (tags : List Nat), s.mode ≠ .dead → s.twn.handover = some x → s.twn.handoverNow = true →
      (∀ y ∈ s.twn.later, y.role = x.role) →
      let plain := ∀ y ∈ x :: s.twn.later, y.maint = false
      (x.role = 1 → ∃ t, exec (.twnHandover tags) s = .next t ∧ pending t 395 = true ∧ t.twn.handover = none
        ∧ t.rb Reg.TWN_STATUS.TIME_MASTER = !s.rb Reg.TWN_STATUS.TIME_MASTER ∧ t.mode = s.mode)
      ∧ (x.role = 0 → plain → s.leading = true → ∃ t, exec (.twnHandover tags) s = .next t ∧ t.mode = .shadow
        ∧ t.twn.handover = none ∧ pending t 388 = true ∧ pending t 395 = true)
      ∧ (x.role = 0 → ¬ plain → s.leading = true → ∃ t, exec (.twnHandover tags) s = .next t ∧ t.mode = .maintenance ∧ pending t 395 = true)
      ∧ (x.role = 0 → s.mode = .shadow → ∃ t, exec (.twnHandover tags) s = .next t ∧ claims t ∧ advanced t
        ∧ pending t 395 = true ∧ ∀ y ∈ x :: s.twn.later, y.maint = false → ∃ c ∈ t.hst.compl, c.h = y.h ∧ c.status = stOk ∧ c.detail = 0))

/-- The queue commands of the Cell Pool, and what the host asks of a CAN channel. In MAINTENANCE, LEAD and HALT: a queue
setting or deletion that R372 admits waits for the next tick boundary and completes with OK, any other with
QUEUE_REFUSED; CPL_READ writes the oldest whole packets that fit, in order (none while host memory cannot be
reached), and completes with their number and the number left; of a read that the link cuts short, the packets stay
whose writes were not all issued. CAN_SEND puts a valid record at the end of the channel's queue, where it fits with
nothing removed, and completes later; CAN_CTRL waits for the next tick boundary; both are otherwise refused. REQ of
a free BAR2-fed buffer makes it wait, or ABORTED in the shadow, or INVALID; ABORT aborts a waiting frame and RELEASE
frees a clash; in other states they change nothing. (Rests on: R367, R372, R373, R382, R384, R385, R386, R387, R394) -/
def Obligations.pool_queues_and_can_commands : Prop :=
  (∀ (s : State) (h : Handle), Taken anyRunMode s →
    let ended (t : State) (st : Nat) := Posted s t h st 0 ∧ t.regs = s.regs ∧ t.cpl = s.cpl ∧ t.can = s.can
    (∀ q notice maxC minC maxP rsv : Nat, let bad := queueSetBad s q notice maxC minC maxP rsv
      (bad = true → ∃ t, exec (.cplQueueSet h q notice maxC minC maxP rsv) s = .next t ∧ ended t stQueue)
      ∧ (bad = false → ∃ t, exec (.cplQueueSet h q notice maxC minC maxP rsv) s = .next t ∧ Posted s t h stOk 0 ∧ t.regs = s.regs
        ∧ t.cpl = { s.cpl with pend := s.cpl.pend ++ [{ q := q, create := true, notice := notice == 1, maxC := maxC, minC := minC, maxP := maxP }] }))
    ∧ (∀ q rsv : Nat, let ok := q ≤ 1023 ∧ rsv = 0 ∧ q ≠ 135 ∧ (q < 144 ∨ 255 < q) ∧ s.rb Reg.CPL_Q.FIXED q = false
      (¬ ok → ∃ t, exec (.cplQueueDelete h q rsv) s = .next t ∧ ended t stQueue)
      ∧ (ok → ∃ t, exec (.cplQueueDelete h q rsv) s = .next t ∧ Posted s t h stOk 0 ∧ t.regs = s.regs
        ∧ t.cpl = { s.cpl with pend := s.cpl.pend ++ [{ q := q, create := false, notice := false, maxC := 0, minC := 0, maxP := 0 }] }))
    ∧ (∀ q maxP len addr rsv : Nat, let v := cplQ s q
      let n := if hostReach s then cplReadCount v.pkts maxP (cutLen h len) else 0
      let sent := if hostReach s then v.pkts.take (cplReadCount v.pkts maxP len) else []
      let ok := q ≤ 1023 ∧ s.rb Reg.CPL_Q.EXISTS q = true ∧ hostQueue q = true ∧ rsv = 0 ∧ 1 ≤ maxP ∧ maxP ≤ 65535 ∧ len % 8 = 0
        ∧ len ≤ 65536 ∧ addr % 8 = 0
      (inWindow s addr len = false → ∃ t, exec (.cplRead h q maxP len addr rsv) s = .next t ∧ ended t stBuffer)
      ∧ (inWindow s addr len = true → ¬ ok → ∃ t, exec (.cplRead h q maxP len addr rsv) s = .next t ∧ ended t stQueue)
      ∧ (inWindow s addr len = true → ok → ∃ t, exec (.cplRead h q maxP len addr rsv) s = .next t
        ∧ Posted s t h stOk (n + 65536 * min (v.pkts.length - n) 65535) ∧ (cplQ t q).pkts = v.pkts.drop n
        ∧ t.out = cplIssued h q addr v.lost sent ∧ (n = 0 → t.regs = s.regs ∧ t.cpl = s.cpl)))
    ∧ (∀ (c addr rsv : Nat) (buf : BufIn), let len := 32 + recBytes buf.data
      let ok := c ≤ 3 ∧ rsv = 0 ∧ addr % 8 = 0 ∧ recOk s c buf.data = true ∧ s.rb Reg.CAN_CH_CFG.EN c = true
        ∧ s.r Reg.CPL_Q.PKTS (canTxQ c) < s.r Reg.CPL_Q.MAX_PKTS (canTxQ c)
      (bufOk s addr len buf = false → ∃ t, exec (.canSend h c addr rsv buf) s = .next t ∧ ended t stBuffer)
      ∧ (bufOk s addr len buf = true → ¬ ok → ∃ t, exec (.canSend h c addr rsv buf) s = .next t ∧ ended t stCan)
      ∧ (bufOk s addr len buf = true → ok → canRoom s c len = false → ∃ t, exec (.canSend h c addr rsv buf) s = .next t ∧ ended t stCan)
      ∧ (bufOk s addr len buf = true → ok → canRoom s c len = true →
        ∃ t, exec (.canSend h c addr rsv buf) s = .next t ∧ Outstanding s t h
          ∧ (canState s c = 0 ∨ canState s c = 2 → (canCh t c).handles = (canCh s c).handles ++ [h]
            ∧ (cplQ t (canTxQ c)).pkts.getLast? = some { data := buf.data.take len, tick := s.tick })))
    ∧ (∀ c rsv : Nat, let ok := c ≤ 3 ∧ rsv = 0 ∧ s.rb Reg.CAN_CH_CFG.EN c = true
      let noStop := bitAt (s.r Reg.STP_REPEAT.CAN_STOP_CH) c = false
      let waits : Nat → State → Prop := fun act t => Outstanding s t h ∧ t.regs = s.regs
        ∧ canCh t c = { canCh s c with acts := (canCh s c).acts ++ [(h, act)] }
      (ok → (∃ t, exec (.canCtrlOff h c rsv) s = .next t ∧ waits 0 t) ∧ (∃ t, exec (.canCtrlOn h c rsv) s = .next t ∧ waits 1 t)
        ∧ (noStop → ∃ t, exec (.canCtrlSleep h c rsv) s = .next t ∧ waits 2 t)
        ∧ (busOff s c = true → ∃ t, exec (.canCtrlRecover h c rsv) s = .next t ∧ waits 3 t)
        ∧ (∃ t, exec (.canCtrlFlush h c rsv) s = .next t ∧ waits 4 t))
      ∧ (¬ ok → (∃ t, exec (.canCtrlOff h c rsv) s = .next t ∧ ended t stCan)
        ∧ (∃ t, exec (.canCtrlOn h c rsv) s = .next t ∧ ended t stCan)
        ∧ (∃ t, exec (.canCtrlFlush h c rsv) s = .next t ∧ ended t stCan))
      ∧ (¬ (ok ∧ noStop) → ∃ t, exec (.canCtrlSleep h c rsv) s = .next t ∧ ended t stCan)
      ∧ (¬ (ok ∧ busOff s c = true) → ∃ t, exec (.canCtrlRecover h c rsv) s = .next t ∧ ended t stCan)))
  ∧ (∀ (s : State) (c : Fin 4) (b : Fin 3), Awake s →
    let st := txState s c b
    let waits := st = 1 ∨ st = 3 ∨ st = 4
    let late := txLate s (canBuf s c b).frame
    let free := bitAt (s.r Reg.CAN_CH_CFG.TX_SRC c) b = false
    (free → ¬ waits → ∃ t, exec (.canTxbReq c b) s = .next t ∧ txState t c b = (if s.mode = .shadow then 6
      else if recOk s c (padTo 96 (canBuf s c b).frame) then waitState s c else 7))
    ∧ (¬ free ∨ waits → exec (.canTxbReq c b) s = .next s.start)
    ∧ (free → waits → ∃ t, exec (.canTxbAbort c b) s = .next t ∧ txState t c b = 6
      ∧ ∀ h, (canBuf s c b).h = some h → s.mode ≠ .shadow → Posted s t h stCancelled 0)
    ∧ (¬ waits → exec (.canTxbAbort c b) s = .next s.start)
    ∧ (st = 3 → late = false → ∃ t, exec (.canTxbRelease c b) s = .next t ∧ txState t c b = waitState s c)
    ∧ (st = 3 → late = true → free → ∃ t, exec (.canTxbRelease c b) s = .next t ∧ txState t c b = 5)
    ∧ (st ≠ 3 → exec (.canTxbRelease c b) s = .next s.start))

/-- What happens to a CAN channel on its bus. Outside BOOT and DEAD, on a running channel: the offered frame that is
sent goes on the bus, counts in TX_OK and makes its buffer SENT, and a stop-class frame leaves its buffer; a bit
error adds 8 to the transmit counter (past 255 it is bus-off), and the 16th in a row with one identifier holds the
frame in HELD_CLASH; other errors bring the counters they bring, the error states report themselves, bus-off holds
the waiting frames, and recovery clears the counters. A deadline passed expires the frame, but for a stop frame
whose attempt is on the bus. A received frame goes to its mailbox, or to the shadow buffer of a locked one, or
counts as matching none; unlocking brings the shadow frame. A wake and the end of integration make the channel run;
an address held 250 ms is claimed; a controller goes out, rejoins as standby and is in service again. (Rests on:
R383, R386, R387, R388, R389, R390, R391, R395, R396, R397) -/
def Obligations.can_channels_on_the_bus : Prop :=
  ∀ (s : State) (c : Fin 4), Awake s →
    let v := canCh s c
    (canState s c = 1 → busOff s c = false →
      (∀ (b : Fin 3) (at_ : Int), v.offer = some (some b.val) → txState s c b = 1 → canSends s = true →
        ∃ t, exec (.canTxDone c at_) s = .next t ∧ t.out = [.can c (busFrame s c (canBuf s c b).frame)]
          ∧ t.r Reg.CAN_CH_CNT.TX_OK c = satInc 32 (s.r Reg.CAN_CH_CNT.TX_OK c)
          ∧ (bitAt (s.r Reg.CAN_CH_CFG.TX_SRC c) b = false → txState t c b = 2)
          ∧ ∀ h, (canBuf s c b).h = some h → Posted s t h stOk (s.r Reg.CAN_TXB.RETRIES c b))
      ∧ (∀ (f : StopFrame) (at_ : Int), v.offer = some none → v.stopOn = some f →
        ∃ t, exec (.canTxDone c at_) s = .next t ∧ t.out = [.can c (stopRecord s f)] ∧ (canCh t c).stop = v.stop.erase f
          ∧ t.r Reg.CAN_CH_CNT.STOP_SENT c = satInc 32 (s.r Reg.CAN_CH_CNT.STOP_SENT c))
      ∧ (∃ t, exec (.canBitError c) s = .next t ∧ (canCh t c).tec = (if 255 < v.tec + 8 then 256 else v.tec + 8)
        ∧ t.r Reg.CAN_CH_CNT.ERR_FRAMES c = satInc 32 (s.r Reg.CAN_CH_CNT.ERR_FRAMES c)
        ∧ ∀ b : Fin 3, v.offer = some (some b.val) → txState s c b = 1 → 15 ≤ s.r Reg.CAN_TXB.CLASH_RUN c b →
          txState t c b = 3 ∧ pending t 503 = true)
      ∧ (∀ (e : CanErrs) (rx : Nat), ∃ t, exec (.canErrPassive c e rx) s = .next t
        ∧ t.r Reg.CAN_CH_CNT.ERR_FRAMES c = min (s.r Reg.CAN_CH_CNT.ERR_FRAMES c + e.frames) (2 ^ 32 - 1)
        ∧ t.r Reg.CAN_CH_STATUS.TEC c = min e.tec 255
        ∧ (s.r Reg.CAN_CH_STATUS.ERR_STATE c = 0 → e.tec ≤ 255 → 127 < e.tec ∨ 127 < rx →
          t.r Reg.CAN_CH_STATUS.ERR_STATE c = 1 ∧ pending t 500 = true)
        ∧ (255 < e.tec → t.r Reg.CAN_CH_STATUS.ERR_STATE c = 2 ∧ pending t 501 = true))
      ∧ (∃ t, exec (.canBusOff c) s = .next t ∧ t.r Reg.CAN_CH_STATUS.ERR_STATE c = 2 ∧ t.r Reg.CAN_CH_STATUS.TEC c = 255
        ∧ pending t 501 = true ∧ ∀ b : Fin 3, txState s c b = 1 → txState t c b = 4)
      ∧ (∀ f : CanRx,
        (canFilter s c f = none → ∃ t, exec (.canFrameRx c f) s = .next t
          ∧ t.r Reg.CAN_CH_CNT.RX_OK c = satInc 32 (s.r Reg.CAN_CH_CNT.RX_OK c)
          ∧ t.r Reg.CAN_CH_CNT.NOMATCH c = satInc 32 (s.r Reg.CAN_CH_CNT.NOMATCH c))
        ∧ (∀ k, canFilter s c f = some k → s.r Reg.CAN_FLT.DEST c k = 1 → let m := s.r Reg.CAN_FLT.MAILBOX c k
          ∃ t, exec (.canFrameRx c f) s = .next t
            ∧ (s.rb Reg.CAN_MB.LOCK c m = false → t.rb Reg.CAN_MB.FULL c m = true
              ∧ canBox t c m = { canBox s c m with frame := rxRecord s f k (s.rb Reg.CAN_MB.FULL c m) })
            ∧ (s.rb Reg.CAN_MB.LOCK c m = true → t.rb Reg.CAN_MB.SHADOW_FULL c m = true
              ∧ canBox t c m = { canBox s c m with shad := rxRecord s f k (s.rb Reg.CAN_MB.SHADOW_FULL c m) }))))
    ∧ (busOff s c = true → v.recov = true → ∃ t, exec (.canRecovered c) s = .next t ∧ t.r Reg.CAN_CH_STATUS.ERR_STATE c = 0
      ∧ (canCh t c).tec = 0 ∧ (canCh t c).rx = 0 ∧ pending t 502 = true)
    ∧ (busOff s c = false → canState s c ≠ 2 →
      (∀ onBus : Bool, ∃ t, exec (.canFrameExpired c (.stop onBus)) s = .next t ∧ (canCh t c).stop = v.stop.filter (fun f =>
        (onBus && v.offer == some none && v.stopOn == some f) || decide (s.tick ≤ f.tick + 1)))
      ∧ (∀ b : Fin 3, txState s c b = 1 → txLate s (canBuf s c b).frame = true → ∃ t, exec (.canFrameExpired c (.txb b)) s = .next t
        ∧ (bitAt (s.r Reg.CAN_CH_CFG.TX_SRC c) b = false → txState t c b = 5)
        ∧ ∀ h, (canBuf s c b).h = some h → s.mode ≠ .shadow → Posted s t h stExpired 0))
    ∧ (∀ (m : Fin 32) (w1c : Nat), (∃ t, exec (.mailboxLock c m w1c) s = .next t ∧ t.rb Reg.CAN_MB.LOCK c m = true
        ∧ t.rb Reg.CAN_MB.FULL c m = (s.rb Reg.CAN_MB.FULL c m && !bitAt w1c 1))
      ∧ (∃ t, exec (.mailboxUnlock c m w1c) s = .next t ∧ t.rb Reg.CAN_MB.LOCK c m = false ∧ t.rb Reg.CAN_MB.SHADOW_FULL c m = false
        ∧ t.rb Reg.CAN_MB.FULL c m = (s.rb Reg.CAN_MB.SHADOW_FULL c m || s.rb Reg.CAN_MB.FULL c m && !bitAt w1c 1)
        ∧ (s.rb Reg.CAN_MB.SHADOW_FULL c m = true → canBox t c m = { frame := (canBox s c m).shad, shad := [] })))
    ∧ (∀ w : CanWakeIn, canState s c = 2 → (canWakes s c w = true → ∃ t, exec (.canWake c w) s = .next t ∧ canState t c = 1 ∧ pending t 505 = true)
      ∧ (canWakes s c w = false → exec (.canWake c w) s = .next s.start))
    ∧ (canState s c = 3 → ∃ t, exec (.canIntegrated c) s = .next t ∧ canState t c = 1
      ∧ (v.keep = false → t.r Reg.CAN_CH_STATUS.ERR_STATE c = 0 ∧ (canCh t c).tec = 0 ∧ (canCh t c).rx = 0))
    ∧ (canSends s = true → isoOn s c = true → canState s c = 1 → v.iso < 254 → s.rb Reg.CAN_CH_ISO.CLAIMED c = false → v.isoAt + 250 ≤ s.tick →
      ∃ t, exec (.isoAddrClaimed c) s = .next t ∧ t.rb Reg.CAN_CH_ISO.CLAIMED c = true ∧ t.r Reg.CAN_CH_ISO.CUR_ADDR c = v.iso
        ∧ pending t 507 = true)
    ∧ (∀ k : Fin 5, ((unit s 3 k).out = false → ∀ readable : Bool, exec (.canCtrlFault k readable) s
        = .next { s with out := [], can := { s.can with outs := s.can.outs ++ [(k.val, true, readable)] } })
      ∧ (s.ttu.pos = 0 → unitMayJoin s 3 k = true → ∃ t, exec (.canCtrlBack k) s = .next t ∧ (unit t 3 k).standby = true
        ∧ t.r Reg.CAN_CTRL_MAP.STANDBY = k ∧ pending t 506 = true)
      ∧ (s.ttu.pos = 0 → unitStable s 3 k = true → ∃ t, exec (.canCtrlRestored k) s = .next t ∧ unitIn t 3 k = true
        ∧ bitAt (t.r Reg.CAN_CTRL_MAP.IN_SERVICE) k = true ∧ pending t 506 = true))

/-- What GLT_READ delivers or answers, what the mark writes set, and how the trigger machine moves. GLT_READ in
MAINTENANCE, LEAD or HALT: a buffer outside the host window map completes with BUFFER_REFUSED, a field out of range
with CAPTURE_REFUSED 0, MODULE 1 out of IN_SYNC with DETAIL 3; a read of this module delivers whole blocks from
START or from the mark up to the write position, the window of a capture, or records, with their number as DETAIL (a
link that drops meanwhile cuts the data short, and the mark then stays), and otherwise answers MARK_LOST or
CAPTURE_REFUSED with DETAIL 0, 1, 2 or 4. ARM and STOP wait for the tick boundary; MARK_HERE and MARK_CLEAR set and
clear the mark of one stream alone. Met conditions start a capture in READY, count in IGN_PRE in FILL and in
IGN_HOLD after the trigger, and do nothing in IDLE. FILL, POST and HOLDOFF end when their time has come and not
before; the end of POST completes the capture. The backlog check shows the backlog and raises the level of one
stream above 256 KiB. (Rests on: R350, R422, R423, R424, R425, R426, R427, R428, R429, R431) -/
def Obligations.glint_reads_marks_and_triggers : Prop :=
  ∀ s : State,
    (∀ (h : Handle) (k m fl st addr len rsv : Nat) (peer : BufIn), Taken anyRunMode s →
      let v := gltStream s k
      let n := regionBlocks v
      let ends : Nat → Nat → State → Prop := fun status d t => Posted s t h status d ∧ t.regs = s.regs ∧ t.glt = s.glt ∧ t.out = []
      let gives : List (List Byte) → State → Prop := fun parts t => Posted s t h stOk parts.length
        ∧ (let d := parts.flatten
          t.out = if hostReach s = false ∨ cutLen h d.length = 0 then [] else [.hostWrite addr (d.take (cutLen h d.length))])
      let blocks : List GltBlock → State → Prop := fun bs t => gives (bs.map (gltBlockBytes k)) t
      let fine : Nat → Prop := fun kind => inWindow s addr len = true ∧ gltBad kind k m fl st addr len rsv = false
      ((inWindow s addr len = false → ∃ t, exec (.gltReadBlocks h k m fl st addr len rsv peer) s = .next t ∧ ends stBuffer 0 t)
        ∧ (inWindow s addr len = true → gltBad 0 k m fl st addr len rsv = true → ∃ t, exec (.gltReadBlocks h k m fl st addr len rsv peer) s = .next t ∧ ends stCapture 0 t)
        ∧ (fine 0 → m = 1 → s.inSync = false → ∃ t, exec (.gltReadBlocks h k m fl st addr len rsv peer) s = .next t ∧ ends stCapture 3 t)
        ∧ (fine 0 → m = 1 → s.inSync = true → ∀ status d parts, gltPeer 0 peer = some (status, d, parts) →
          (status = stOk → ∃ t, exec (.gltReadBlocks h k m fl st addr len rsv peer) s = .next t ∧ gives parts t)
          ∧ (status ≠ stOk → ∃ t, exec (.gltReadBlocks h k m fl st addr len rsv peer) s = .next t ∧ ends status d t))
        ∧ (fine 0 → m = 0 → let i := st / 4096
          (n ≤ i → ∃ t, exec (.gltReadBlocks h k m fl st addr len rsv peer) s = .next t ∧ ends stCapture 0 t)
          ∧ (i < n → ∃ t, exec (.gltReadBlocks h k m fl st addr len rsv peer) s = .next t ∧ blocks (blocksFrom v i (min (len / 4096) ((v.idx + n - i) % n))) t)))
      ∧ ((inWindow s addr len = false → ∃ t, exec (.gltReadMark h k m fl st addr len rsv peer) s = .next t ∧ ends stBuffer 0 t)
        ∧ (inWindow s addr len = true → gltBad 1 k m fl st addr len rsv = true → ∃ t, exec (.gltReadMark h k m fl st addr len rsv peer) s = .next t ∧ ends stCapture 0 t)
        ∧ (fine 1 → m = 1 → s.inSync = false → ∃ t, exec (.gltReadMark h k m fl st addr len rsv peer) s = .next t ∧ ends stCapture 3 t)
        ∧ (fine 1 → m = 1 → s.inSync = true → ∀ status d parts, gltPeer 1 peer = some (status, d, parts) →
          (status = stOk → ∃ t, exec (.gltReadMark h k m fl st addr len rsv peer) s = .next t ∧ gives parts t)
          ∧ (status ≠ stOk → ∃ t, exec (.gltReadMark h k m fl st addr len rsv peer) s = .next t ∧ ends status d t))
        ∧ (fine 1 → m = 0 → let i := s.r Reg.GLT_STREAM.MARK_POS k / 4096
          let bs := blocksFrom v i (min (len / 4096) (gltSpan v i))
          (s.rb Reg.GLT_STREAM.MARK_LOST k = true → ∃ t, exec (.gltReadMark h k m fl st addr len rsv peer) s = .next t ∧ ends stMarkLost 0 t)
          ∧ (s.rb Reg.GLT_STREAM.MARK_LOST k = false → s.rb Reg.GLT_STREAM.MARK_VALID k = false →
            ∃ t, exec (.gltReadMark h k m fl st addr len rsv peer) s = .next t ∧ ends stCapture 4 t)
          ∧ (s.rb Reg.GLT_STREAM.MARK_LOST k = false → s.rb Reg.GLT_STREAM.MARK_VALID k = true →
            ∃ t, exec (.gltReadMark h k m fl st addr len rsv peer) s = .next t ∧ blocks bs t ∧ t.r Reg.GLT_STREAM.MARK_POS k
              = if fl = 1 ∧ bs ≠ [] ∧ hostReach s = true ∧ bs.length * 4096 ≤ cutLen h (bs.length * 4096) then ((i + bs.length) % max 1 n * 4096) % 2 ^ 30 else s.r Reg.GLT_STREAM.MARK_POS k)))
      ∧ ((inWindow s addr len = false → ∃ t, exec (.gltReadWindow h k m fl st addr len rsv peer) s = .next t ∧ ends stBuffer 0 t)
        ∧ (inWindow s addr len = true → gltBad 2 k m fl st addr len rsv = true → ∃ t, exec (.gltReadWindow h k m fl st addr len rsv peer) s = .next t ∧ ends stCapture 0 t)
        ∧ (fine 2 → m = 1 → s.inSync = false → ∃ t, exec (.gltReadWindow h k m fl st addr len rsv peer) s = .next t ∧ ends stCapture 3 t)
        ∧ (fine 2 → m = 1 → s.inSync = true → ∀ status d parts, gltPeer 2 peer = some (status, d, parts) →
          (status = stOk → ∃ t, exec (.gltReadWindow h k m fl st addr len rsv peer) s = .next t ∧ gives parts t)
          ∧ (status ≠ stOk → ∃ t, exec (.gltReadWindow h k m fl st addr len rsv peer) s = .next t ∧ ends status d t))
        ∧ (fine 2 → m = 0 →
          (s.glt.caps.find? (fun c => c.num == st) = none → ∃ t, exec (.gltReadWindow h k m fl st addr len rsv peer) s = .next t ∧ ends stCapture 1 t)
          ∧ ∀ c, s.glt.caps.find? (fun c => c.num == st) = some c →
            ((bitAt c.flags 3 = true ∨ bitAt c.flags 6 = false) → ∃ t, exec (.gltReadWindow h k m fl st addr len rsv peer) s = .next t ∧ ends stCapture 2 t)
            ∧ (bitAt c.flags 3 = false → bitAt c.flags 6 = true →
              ∃ t, exec (.gltReadWindow h k m fl st addr len rsv peer) s = .next t ∧ blocks ((windowBlocks v c k).take (len / 4096)) t)))
      ∧ ((inWindow s addr len = false → ∃ t, exec (.gltReadRecords h k m fl st addr len rsv peer) s = .next t ∧ ends stBuffer 0 t)
        ∧ (inWindow s addr len = true → gltBad 3 k m fl st addr len rsv = true → ∃ t, exec (.gltReadRecords h k m fl st addr len rsv peer) s = .next t ∧ ends stCapture 0 t)
        ∧ (fine 3 → m = 1 → s.inSync = false → ∃ t, exec (.gltReadRecords h k m fl st addr len rsv peer) s = .next t ∧ ends stCapture 3 t)
        ∧ (fine 3 → m = 1 → s.inSync = true → ∀ status d parts, gltPeer 3 peer = some (status, d, parts) →
          (status = stOk → ∃ t, exec (.gltReadRecords h k m fl st addr len rsv peer) s = .next t ∧ gives parts t)
          ∧ (status ≠ stOk → ∃ t, exec (.gltReadRecords h k m fl st addr len rsv peer) s = .next t ∧ ends status d t))
        ∧ (fine 3 → m = 0 → let cs := s.glt.caps.dropWhile (fun c => c.num != st)
          (cs = [] → ∃ t, exec (.gltReadRecords h k m fl st addr len rsv peer) s = .next t ∧ ends stCapture 1 t)
          ∧ (cs ≠ [] → ∃ t, exec (.gltReadRecords h k m fl st addr len rsv peer) s = .next t ∧ gives ((cs.take (len / 64)).map gltRecord) t))))
    ∧ (Awake s →
      exec .gltArm s = .next { s with out := [], glt := { s.glt with arm := true } }
      ∧ exec .gltStop s = .next { s with out := [], glt := { s.glt with stop := true } }
      ∧ (∀ k : Fin 8,
        (∃ t, exec (.markHere k) s = .next t ∧ t.rb Reg.GLT_STREAM.MARK_VALID k = true ∧ t.rb Reg.GLT_STREAM.MARK_LOST k = false
          ∧ t.rb Reg.GLT_STREAM.MARK_HELD k = false ∧ t.r Reg.GLT_STREAM.MARK_POS k = ((gltStream s k).idx * 4096) % 2 ^ 30
          ∧ RegsKept [Reg.GLT_STREAM.MARK_VALID.key k 0, Reg.GLT_STREAM.MARK_LOST.key k 0, Reg.GLT_STREAM.MARK_HELD.key k 0,
              Reg.GLT_STREAM.MARK_POS.key k 0] s t
          ∧ (∀ j, j ≠ k.val → gltStream t j = gltStream s j)
          ∧ t = { s with regs := t.regs, out := [], glt := { s.glt with streams := t.glt.streams } })
        ∧ (∃ t, exec (.markClear k) s = .next t ∧ t.rb Reg.GLT_STREAM.MARK_VALID k = false
          ∧ t.rb Reg.GLT_STREAM.MARK_HELD k = false
          ∧ RegsOnly [Reg.GLT_STREAM.MARK_VALID.key k 0, Reg.GLT_STREAM.MARK_HELD.key k 0] s t))
      ∧ (let early : State → Prop := fun t => gltState t = 1 ∧ t.glt.caps = s.glt.caps
          ∧ t.r Reg.GLT_IGN.IGN_PRE = satInc 32 (s.r Reg.GLT_IGN.IGN_PRE)
        let starts : Nat → State → Prop := fun mask t => gltState t = 3 ∧ t.r Reg.GLT_LAST.COND_MASK = mask
          ∧ t.glt.started = s.glt.started + 1 ∧ ∃ c, c.mask = mask ∧ c.num = s.glt.started % 65536 ∧ c.tick = s.tick
          ∧ t.glt.caps = (if 64 ≤ s.glt.caps.length then s.glt.caps.drop 1 else s.glt.caps) ++ [c]
        let late : State → Prop := fun t => gltState t = gltState s ∧ t.glt.caps = s.glt.caps
          ∧ t.glt.holds = s.glt.holds + b2n (gltState s == 4 && s.rb Reg.GLT_CFG.HOLD_MODE)
          ∧ t.r Reg.GLT_IGN.IGN_HOLD = satInc 32 (s.r Reg.GLT_IGN.IGN_HOLD)
        (∀ x : GltSample, (let mask := ((List.range 8).filter (fun c => condHits s x false c != [])).foldl (fun n c => n + 2 ^ c) 0
          (mask = 0 ∨ gltState s = 0 → exec (.gltTrigger x) s = .next s.start)
          ∧ (mask ≠ 0 → gltState s = 1 → ∃ t, exec (.gltTrigger x) s = .next t ∧ early t)
          ∧ (mask ≠ 0 → gltState s = 2 → ∃ t, exec (.gltTrigger x) s = .next t ∧ starts mask t)
          ∧ (mask ≠ 0 → 3 ≤ gltState s → ∃ t, exec (.gltTrigger x) s = .next t ∧ late t)))
        ∧ (∀ cyc : Nat, let x : GltSample := { edges := [], samples := [], events := [], tick := false, cyc := cyc }
          let mask := ((List.range 8).filter (fun c => condHits s x true c != [])).foldl (fun n c => n + 2 ^ c) 0
          (mask = 0 ∨ gltState s = 0 → exec (.gltForce cyc) s = .next s.start)
          ∧ (mask ≠ 0 → gltState s = 1 → ∃ t, exec (.gltForce cyc) s = .next t ∧ early t)
          ∧ (mask ≠ 0 → gltState s = 2 → ∃ t, exec (.gltForce cyc) s = .next t ∧ starts mask t)
          ∧ (mask ≠ 0 → 3 ≤ gltState s → ∃ t, exec (.gltForce cyc) s = .next t ∧ late t)))
      ∧ (∀ cyc : Nat,
        let last := s.glt.caps.getLast?
        let fillEnd := gltState s = 1 ∧ s.glt.fill3 + s.r Reg.GLT_WINDOW.PRE_US * 10000 * uNs ≤ nowT3 s cyc
        let postEnd (c : GltCapture) := gltState s = 3 ∧ c.to3 ≤ nowT3 s cyc
        let holdEnd (c : GltCapture) := gltState s = 4 ∧ (if s.rb Reg.GLT_CFG.HOLD_MODE = true
          then s.r Reg.GLT_HOLD.HOLD ≤ s.glt.holds else c.trig3 + s.r Reg.GLT_HOLD.HOLD * 10000 * uNs ≤ nowT3 s cyc)
        exec (.gltFillDone cyc) s = .next (if fillEnd then setGltState s.start 2 else s.start)
        ∧ ((∀ c, last = some c → ¬ postEnd c) → exec (.gltPostDone cyc) s = .next s.start)
        ∧ (∀ c, last = some c → postEnd c → ∃ t c', exec (.gltPostDone cyc) s = .next t ∧ gltState t = 4 ∧ pending t 495 = true
          ∧ t.glt.holds = 0 ∧ t.glt.caps = s.glt.caps.dropLast ++ [c'] ∧ c'.num = c.num ∧ c'.mask = c.mask ∧ c.flags + 64 ≤ c'.flags)
        ∧ ((∀ c, last = some c → ¬ holdEnd c) → exec (.gltHoldoffDone cyc) s = .next s.start)
        ∧ (∀ c, last = some c → holdEnd c → exec (.gltHoldoffDone cyc) s = .next (setGltState s.start 5)))
      ∧ ∃ t, exec .gltBacklogCheck s = .next t ∧ t.r Reg.GLT_STATE.BACKLOG_KIB = min (backlog s / 1024) 1023
        ∧ RegsKept [Reg.GLT_STATE.BACKLOG_KIB.key 0 0] s t ∧ t.glt.calm = (s.glt.calm && decide (backlog s ≤ 65536))
        ∧ (backlog s ≤ 262144 → t.glt.streams = s.glt.streams)
        ∧ (262144 < backlog s → ∀ k, k < 8 ∧ gltRuns s k = true
          ∧ s.rb Reg.GLT_STREAM.REDUCE_EN k = true ∧ srcFixed (gltSrc s k) = false ∧ s.r Reg.GLT_STREAM.DECIM_LOG2 k < 8
          ∧ (∀ j, k < j → j < 8 → ¬ (gltRuns s j = true ∧ s.rb Reg.GLT_STREAM.REDUCE_EN j = true
            ∧ srcFixed (gltSrc s j) = false ∧ s.r Reg.GLT_STREAM.DECIM_LOG2 j < 8)) →
          (gltStream t k).d1 = s.r Reg.GLT_STREAM.DECIM_LOG2 k + 1))

/-- What LOG_READ gives, what storing a record does, and how fleet keys are loaded, committed, re-masked and zeroised.
LOG_READ gives whole records from START on with their number and the mark of records lost before START, or the
refusal the rows of R444 name. Storing takes the oldest pending record: it enters the ring last under the next SEQ,
or merges into an earlier record of its kind; in LATCH_ONLY it goes to the last-word latch. A port fault leaves
LATCH_ONLY set; a bad block with a spare free takes the spare. KVT_KEY_LOAD is answered by the first row of R465 or
R454 that applies, or waits with the pending key erased; KVT_COMMIT waits with COMMIT_BUSY; DISCARD erases the
pending key. The key unwrapped must have the KCV of its record. A load completes when its slot has been read back
and the peer has reported, a commit at its boundary, where the epoch goes up by 1, a pending key becomes the active
one, and the command completes with OK. Tamper takes every key away, latches the fleet stop with source ARM_FAULT
and leads to DEAD. (Rests on: R439, R440, R441, R442, R444, R452, R454, R455, R460, R462, R464, R465) -/
def Obligations.logbook_store_and_export_and_the_key_vault : Prop :=
  ∀ s : State,
    (∀ (h : Handle) (m st addr len rsv : Nat) (peer : BufIn), Taken anyRunMode s →
      let bad := rsv ≠ 0 ∨ 1 < m ∨ addr % 8 ≠ 0 ∨ len % 8 ≠ 0 ∨ len < 256 ∨ 1048576 < len
      let ends : Nat → Nat → State → Prop := fun status d t => Posted s t h status d ∧ t.regs = s.regs ∧ t.log = s.log ∧ t.out = []
      let gives : List (List Byte) → Nat → State → Prop := fun rs oldest t => t.regs = s.regs ∧ t.log = s.log
        ∧ Posted s t h stOk ((logFill rs len).1 % 65536 + if st < oldest then 65536 else 0)
        ∧ (let d := (logFill rs len).2
          t.out = if hostReach s = false ∨ cutLen h d.length = 0 then [] else [.hostWrite addr (d.take (cutLen h d.length))])
      (inWindow s addr len = false → ∃ t, exec (.logRead h m st addr len rsv peer) s = .next t ∧ ends stBuffer 0 t)
      ∧ (inWindow s addr len = true → bad → ∃ t, exec (.logRead h m st addr len rsv peer) s = .next t ∧ ends stLog 0 t)
      ∧ (inWindow s addr len = true → ¬ bad →
        (m = 1 → s.inSync = false → ∃ t, exec (.logRead h m st addr len rsv peer) s = .next t ∧ ends stLog 1 t)
        ∧ (m = 1 → s.inSync = true →
          (logPeer peer = none → ∃ t, exec (.logRead h m st addr len rsv peer) s = .next t ∧ ends stOk 0 t)
          ∧ ∀ rs oldest, logPeer peer = some (rs, oldest) →
            ∃ t, exec (.logRead h m st addr len rsv peer) s = .next t ∧ gives rs oldest t)
        ∧ (m = 0 → s.rb Reg.LOG_STATUS.LATCH_ONLY = true →
          ∃ t, exec (.logRead h m st addr len rsv peer) s = .next t ∧ ends stOk 0 t)
        ∧ (m = 0 → s.rb Reg.LOG_STATUS.LATCH_ONLY = false →
          ∃ t, exec (.logRead h m st addr len rsv peer) s = .next t
            ∧ gives (((logBySeq s).filter (fun r => decide (st ≤ r.seq))).map (fun r => logBytes r (logOpen s r)))
              (s.r Reg.LOG_SEQ.OLDEST_SEQ) t)))
    ∧ (Awake s →
      (s.log.queue = [] → exec (.logRecordStore false none) s = .next s.start)
      ∧ (∀ (x : LogRec) (q : List LogRec), s.log.queue = x :: q →
        (s.rb Reg.LOG_STATUS.LATCH_ONLY = false →
          ((logLast s).find? (fun r => logMerges s r x) = none → s.log.blocks ≠ [] ∨ s.log.empty ≠ [] →
            ∃ t, exec (.logRecordStore false none) s = .next t ∧ t.log.queue = q
              ∧ (logAll t).getLast? = some { x with seq := s.r Reg.LOG_SEQ.NEXT_SEQ }
              ∧ t.r Reg.LOG_SEQ.NEXT_SEQ = (s.r Reg.LOG_SEQ.NEXT_SEQ + 1) % 2 ^ 32)
          ∧ ∀ r, (logLast s).find? (fun r => logMerges s r x) = some r →
            ∃ t, exec (.logRecordStore false none) s = .next t ∧ t.log.queue = q ∧ t.regs = s.regs
              ∧ logAll t = (logAll s).map fun y => if y.seq = r.seq
                  then { y with rep := y.rep + 1, lastDt := min (x.tick - y.tick) 0xFFFFFFFF } else y)
        ∧ (s.rb Reg.LOG_STATUS.LATCH_ONLY = true → ∃ t, exec (.logRecordStore false none) s = .next t ∧ t.log.queue.length ≤ q.length + 1
          ∧ logAll t = logAll s
          ∧ (x.peer = true → t.regs = s.regs)
          ∧ (x.peer = false → t.r Reg.LOG_COUNTS.LATCH_COUNT = satInc 32 (s.r Reg.LOG_COUNTS.LATCH_COUNT)
            ∧ ∀ k < 8, t.r Reg.LOG_LATCH.WORD k
              = field (logBytes { x with seq := s.r Reg.LOG_SEQ.NEXT_SEQ } false) (4 * k) 4 % 2 ^ 32)))
      ∧ (∀ bb : Option Nat, ∃ t, exec (.logRecordStore true bb) s = .next t ∧ t.rb Reg.LOG_STATUS.LATCH_ONLY = true
        ∧ logAll t = logAll s)
      ∧ (∀ b sp rest, s.rb Reg.LOG_STATUS.LATCH_ONLY = false → s.log.spares = sp :: rest →
        (s.log.blocks.any (fun k => k.id == b) || s.log.empty.contains b) = true →
        ∃ t, exec (.logRecordStore false (some b)) s = .next t ∧ t.log.spares = rest ∧ t.r Reg.LOG_STATUS.SPARES = rest.length % 8
          ∧ pending t 491 = true))
    ∧ (∀ (h : Handle) (addr rsv : Nat) (buf : BufIn), Taken anyRunMode s →
      let b := buf.data
      let wrap := field b 1 1
      let gen := field b 8 4
      let k := s.kvt
      let verdict : Option (Nat × Nat) :=
        if k.commit.isSome then some (stKey, 7)
        else if rsv != 0 || addr % 8 != 0 || keyRecordBad b then some (stKey, 0)
        else if (wrap = 0 ∧ s.mode ≠ .maintenance) ∨ (wrap = 1 ∧ k.active = none) then some (stKey, 1)
        else if wrap = 0 ∧ keyPubOk ((b.drop 16).take 96) = false then some (stKey, 2)
        else match keyUnwrap s b with
          | none => some (stKey, 3)
          | some key => if kcvOf key ≠ field b 4 4 then some (stKcv, 0)
            else if gen = 0 ∨ k.active.any (fun a => decide (gen ≤ a.1)) = true then some (stKey, 4) else none
      let posts : Nat → Nat → State → Prop := fun status d t => Posted s t h status d ∧ t.regs = s.regs ∧ t.kvt = k
      (bufOk s addr 160 buf = false → ∃ t, exec (.kvtKeyLoad h addr rsv buf) s = .next t ∧ posts stBuffer 0 t)
      ∧ (bufOk s addr 160 buf = true → ∀ status d, verdict = some (status, d) → ∃ t, exec (.kvtKeyLoad h addr rsv buf) s = .next t
        ∧ Posted s t h status d ∧ t.kvt = k ∧ t.r Reg.KVT_COUNTS.LOAD_REFUSED = satInc 32 (s.r Reg.KVT_COUNTS.LOAD_REFUSED)
        ∧ RegsKept [Reg.KVT_COUNTS.LOAD_REFUSED.key 0 0] s t)
      ∧ (bufOk s addr 160 buf = true → verdict = none → ∃ t key, exec (.kvtKeyLoad h addr rsv buf) s = .next t ∧ Outstanding s t h
        ∧ keyUnwrap s b = some key ∧ kcvOf key = field b 4 4 ∧ t.rb Reg.KVT_STATUS.PENDING = false
        ∧ t.kvt = { k with next := none, fkNext := [], loads := k.loads ++ [{ h := h, gen := gen, kcv := field b 4 4, key := key }] })
      ∧ (k.commit ≠ none → (∃ t, exec (.kvtCommit h rsv) s = .next t ∧ posts stKey 7 t)
        ∧ (∃ t, exec (.kvtCommitDiscard h rsv) s = .next t ∧ posts stKey 7 t))
      ∧ (k.commit = none →
        (rsv ≠ 0 ∨ 0xFFFFFFFF ≤ keyEpoch s → ∃ t, exec (.kvtCommit h rsv) s = .next t ∧ posts stKey 0 t)
        ∧ (rsv = 0 → keyEpoch s < 0xFFFFFFFF → ∃ t, exec (.kvtCommit h rsv) s = .next t ∧ Outstanding s t h
          ∧ t.rb Reg.KVT_STATUS.COMMIT_BUSY = true ∧ RegsKept [Reg.KVT_STATUS.COMMIT_BUSY.key 0 0] s t
          ∧ t.kvt = { k with commit := some { h := h, tick := s.tick, lead := true } })
        ∧ (rsv ≠ 0 → ∃ t, exec (.kvtCommitDiscard h rsv) s = .next t ∧ posts stKey 0 t)
        ∧ (rsv = 0 → ∃ t, exec (.kvtCommitDiscard h rsv) s = .next t ∧ Posted s t h stOk 0 ∧ t.kvt = { k with next := none, fkNext := [] }
          ∧ t.rb Reg.KVT_STATUS.PENDING = false)))
    ∧ (s.held = false → ∀ (v : Word) (cyc : Nat),
      (s.mode = .boot ∨ s.mode = .maintenance → v.toNat < 2 → ∃ t, exec (.kvtHwinSave v cyc) s = .next t
        ∧ t.rb Reg.KVT_HWIN_SAVE.SAVE = decide (v.toNat = 1) ∧ RegsOnly [Reg.KVT_HWIN_SAVE.SAVE.key 0 0] s t)
      ∧ (s.mode ≠ .boot → s.mode ≠ .maintenance → s.mode ≠ .dead → ∃ t, exec (.kvtHwinSave v cyc) s = .next t
        ∧ t.r Reg.KVT_HWIN_SAVE.SAVE = s.r Reg.KVT_HWIN_SAVE.SAVE
        ∧ (v.toNat ≠ s.r Reg.KVT_HWIN_SAVE.SAVE → t.r Reg.HST_REFUSED_WR.OFFSET = 0x100280)))
    ∧ (Awake s →
      (∀ cyc : Nat, ∃ t, exec (.tamper cyc) s = .next t ∧ t.rb Reg.KVT_TAMPER.TAMPER_IN = false ∧ fleetLatch t = true
        ∧ (fleetLatch s = false → t.r Reg.STP_STATE.SOURCE = 9 ∧ t.r Reg.STP_STATE.OUT_ON = 0)
        ∧ pending t 488 = true ∧ t.mode = s.mode ∧ t.rb Reg.KVT_STATUS.FLEET_PRESENT = false
        ∧ t.kvt = { s.kvt with volatile := false, gs := false, copy0 := none, copy1 := none, active := none, next := none,
                               fk := [], fkNext := [], fkOld := [], loads := [], commit := none, dying := true })
      ∧ (∀ (readBack : Bool) (peer : Option (Nat × Nat)),
        (s.kvt.loads = [] → exec (.kvtLoadDone readBack peer) s = .next s.start)
        ∧ ∀ x rest, s.kvt.loads = x :: rest → s.mode ≠ .shadow →
          let kept := readBack = true ∧ flashSpare s = true ∧ (peer = none ∨ ∃ d, peer = some (stOk, d))
          (kept → ∃ t, exec (.kvtLoadDone readBack peer) s = .next t ∧ Posted s t x.h stOk 0
            ∧ t.kvt = { s.kvt with loads := rest, next := some (x.gen, x.kcv), fkNext := x.key } ∧ t.rb Reg.KVT_STATUS.PENDING = true)
          ∧ (¬ kept → ∃ t, exec (.kvtLoadDone readBack peer) s = .next t
            ∧ t.kvt = { s.kvt with loads := rest, next := none, fkNext := [] } ∧ t.rb Reg.KVT_STATUS.PENDING = false
            ∧ t.r Reg.KVT_COUNTS.LOAD_REFUSED = satInc 32 (s.r Reg.KVT_COUNTS.LOAD_REFUSED)
            ∧ (readBack = false ∨ flashSpare s = false → Posted s t x.h stKey 6 ∧ pending t 489 = true)
            ∧ ∀ st d, readBack = true → flashSpare s = true → peer = some (st, d) → Posted s t x.h st (if st = stKey then 5 else d)))
      ∧ (∀ peer : Bool, (s.kvt.commit = none → exec (.kvtRecordsDone peer) s = .next s.start)
        ∧ ∀ c, s.kvt.commit = some c →
          (peer = true → exec (.kvtRecordsDone peer) s = .next { s with out := [], kvt := { s.kvt with
            commit := some { c with peer := c.peer.or (some s.tick) } } })
          ∧ (peer = false → s.kvt.loads ≠ [] ∨ c.written ≠ none ∨ flashSpare s = false → exec (.kvtRecordsDone peer) s = .next s.start)
          ∧ (peer = false → s.kvt.loads = [] → c.written = none → flashSpare s = true →
            let r : KvtRec := { epoch := keyEpoch s + 1, fk := s.kvt.next.or s.kvt.active }
            exec (.kvtRecordsDone peer) s = .next { s with out := [], kvt := { s.kvt with
              copy0 := some r, copy1 := some r, commit := some { c with written := some s.tick } } }))
      ∧ ((∀ c, s.kvt.commit = some c → kvtDue s c = false) → exec .kvtCommitEffect s = .next s.start)
      ∧ (∀ c, s.kvt.commit = some c → kvtDue s c = true → ∃ t, exec .kvtCommitEffect s = .next t
        ∧ keyEpoch t = (keyEpoch s + 1) % 2 ^ 32 ∧ t.kvt.active = s.kvt.next.or s.kvt.active ∧ t.kvt.next = none
        ∧ t.kvt.fk = (if s.kvt.next.isSome then s.kvt.fkNext else s.kvt.fk) ∧ t.kvt.fkOld = s.kvt.fk
        ∧ t.kvt.commit = none ∧ t.rb Reg.KVT_STATUS.COMMIT_BUSY = false ∧ t.rb Reg.KVT_STATUS.PENDING = false
        ∧ t.sec.old = some (keyEpoch s) ∧ t.sec.left = 200 ∧ pending t 486 = true
        ∧ (s.mode ≠ .shadow → Posted s t c.h stOk 0))
      ∧ (∀ finished : Bool, (s.kvt.mask < 60000 → exec (.kvtRemask finished) s = .next s.start)
        ∧ (60000 ≤ s.kvt.mask → ∃ t, exec (.kvtRemask finished) s = .next t ∧ t.kvt = { s.kvt with mask := 0 }
          ∧ t.r Reg.KVT_COUNTS.REMASK_LATE = (if finished then s.r Reg.KVT_COUNTS.REMASK_LATE
              else satInc 32 (s.r Reg.KVT_COUNTS.REMASK_LATE)) ∧ RegsKept [Reg.KVT_COUNTS.REMASK_LATE.key 0 0] s t)))

/-- What SVC_UNIT, the background window, the self-tests, BOOT_IMAGE_LOAD and the BOOT_CONTROL commands do. SVC_UNIT is
refused where its fields or the unit do not allow it, waits for the peer where it is for the peer, and otherwise
waits with the unit's OUT, RETURN or RESTORE noted behind those noted before. The background window shows its time
and backlog, stores the tables due for flash where a spare block is left, and dies of a fatal word. A scrub pass or
calibration past its time sets its bit and raises its event; a self-test passes or fails a unit that is out; a stop
path that fails goes out at the next boundary; in tick 99 the telemetry record is formed. BOOT_IMAGE_LOAD answers by
the rows of R490, and its end leaves the slot VALID with the image or INVALID. ENTER_MAINT, LEAVE_MAINT, ACTIVATE,
SAVE_CONFIG and RESET answer by the rows of R489 to R497 and note what the boundary or the background is to do, and
an ENTER_MAINT that finds a handover agreed waits behind it (the model's choice, log entry 51); the end of each
completes it. A lockstep mismatch leaves the module DEAD. (Rests on: R27, R44, R470, R472, R475, R476, R477, R478,
R490, R493, R494, R495) -/
def Obligations.service_units_images_and_boot_commands : Prop :=
  ∀ s : State,
    (∀ (h : Handle) (c i m rsv : Nat), Taken anyRunMode s →
      let u := unit s c i
      let wrong := rsv ≠ 0 ∨ 6 < c ∨ classCount c ≤ i ∨ 1 < m ∨ (m = 1 ∧ s.inSync = false)
      let turned : State → Prop := fun t => Posted s t h stUnit 0 ∧ t.regs = s.regs ∧ t.svc = s.svc
      let passed : State → Prop := fun t => Outstanding s t h ∧ t.regs = s.regs ∧ t.svc = s.svc
        ∧ t.twn.peerCmds = s.twn.peerCmds ++ [(h, stUnit, 0)]
      ((wrong ∨ (m = 0 ∧ (unitIsOut s c i || !unitCovered s c i) = true) → ∃ t, exec (.svcUnitOut h c i m rsv) s = .next t ∧ turned t)
        ∧ (¬ wrong → m = 1 → ∃ t, exec (.svcUnitOut h c i m rsv) s = .next t ∧ passed t)
        ∧ (¬ wrong → m = 0 → (unitIsOut s c i || !unitCovered s c i) = false → ∃ t, exec (.svcUnitOut h c i m rsv) s = .next t ∧ Outstanding s t h ∧ t.regs = s.regs
          ∧ unit t c i = { u with outPend := u.outPend ++ [h] }))
      ∧ ((wrong ∨ (m = 0 ∧ unitIsOut s c i = false) → ∃ t, exec (.svcUnitReturn h c i m rsv) s = .next t ∧ turned t)
        ∧ (¬ wrong → m = 1 → ∃ t, exec (.svcUnitReturn h c i m rsv) s = .next t ∧ passed t)
        ∧ (¬ wrong → m = 0 → unitIsOut s c i = true → ∃ t, exec (.svcUnitReturn h c i m rsv) s = .next t ∧ Outstanding s t h ∧ t.regs = s.regs
          ∧ unit t c i = { u with out := true, ret := u.ret ++ [h], passed := u.passed && u.ret != [] }))
      ∧ ((wrong ∨ (m = 0 ∧ (c != 6 || i != 0 || (unit s 6 0).out || pathActive s 0) = true) → ∃ t, exec (.svcUnitRestore h c i m rsv) s = .next t ∧ turned t)
        ∧ (¬ wrong → m = 1 → ∃ t, exec (.svcUnitRestore h c i m rsv) s = .next t ∧ passed t)
        ∧ (¬ wrong → m = 0 → (c != 6 || i != 0 || (unit s 6 0).out || pathActive s 0) = false → ∃ t, exec (.svcUnitRestore h c i m rsv) s = .next t ∧ Outstanding s t h ∧ t.regs = s.regs
          ∧ t.svc = { s.svc with restore := s.svc.restore ++ [h] })))
    ∧ (∀ w : BgIn,
      (s.held = false → s.mode = .boot ∨ s.mode = .dead ∨ s.paused = true → exec (.backgroundWindow w) s = .next s.start)
      ∧ (Awake s → s.paused = false →
        (w.work = [] → ∃ t, exec (.backgroundWindow w) s = .next t ∧ t.r Reg.TTU_BG_USED.USED_US = min w.usedUs 127
          ∧ t.r Reg.TTU_BG_USED.BACKLOG_TICKS
            = (if w.pending then min 65535 (s.r Reg.TTU_BG_USED.BACKLOG_TICKS + 1) else 0)
          ∧ t.mode = s.mode
          ∧ (flashSpare s = true → t.luv.dirty = false ∧ t.twn.flashEpoch = s.r Reg.TWN_EPOCHS.STORED_EPOCH))
        ∧ ∀ (m : Fin 8) (chart : Bool), w.work = [.uncorrectable m none (.fatal chart)] →
          ∃ t, exec (.backgroundWindow w) s = .next t ∧ t.mode = .dead ∧ t.bt.cause = 4 ∧ t.r Reg.STP_STATE.OUT_ON = 0))
    ∧ (Awake s →
      (∀ m : Fin 8,
        (scrubDue s m = true → ∃ t, exec (.scrubLate m) s = .next t ∧ bitAt (t.r Reg.SVC_STATUS.SCRUB_LATE) m = true
          ∧ pending t 480 = true ∧ t.svc = { s.svc with late := s.svc.late ++ [m.val] }
          ∧ RegsKept (Reg.SVC_STATUS.SCRUB_LATE.key 0 0 :: evtKeys) s t)
        ∧ (scrubDue s m = false → exec (.scrubLate m) s = .next s.start))
      ∧ (∀ k : Fin 4, let due := (calUnits s k).any (calOld s k) = true ∧ bitAt (s.r Reg.SVC_STATUS.CAL_STALE) k = false
        (due → ∃ t, exec (.calStale k) s = .next t ∧ bitAt (t.r Reg.SVC_STATUS.CAL_STALE) k = true ∧ pending t 481 = true
          ∧ EventsOnly [Reg.SVC_STATUS.CAL_STALE.key 0 0] s t)
        ∧ (¬ due → exec (.calStale k) s = .next s.start))
      ∧ (∀ (c i : Nat) (pass : Bool), let u := unit s c i
        let again := u.byFault = true ∧ s.rb Reg.SVC_CFG.RETEST_EN = true ∧ u.tests < 3
        (u.out = false → exec (.unitRetest c i pass) s = .next s.start)
        ∧ (u.out = true → (u.ret = [] → again) → pass = true →
          exec (.unitRetest c i pass) s = .next (setUnit s.start c i { u with passed := true }))
        ∧ (u.out = true → u.ret = [] → again → pass = false →
          exec (.unitRetest c i pass) s = .next (setUnit s.start c i { u with tests := u.tests + 1 }))
        ∧ (u.out = true → u.ret = [] → ¬ again → exec (.unitRetest c i pass) s = .next s.start)
        ∧ (u.out = true → u.ret ≠ [] → pass = false → ∃ t, exec (.unitRetest c i pass) s = .next t
          ∧ unit t c i = { u with ret := [] }
          ∧ (s.mode ≠ .shadow → ∀ h ∈ u.ret, ∃ x ∈ t.hst.compl, x.h = h ∧ x.status = stUnit ∧ x.detail = 1)))
      ∧ (∀ a b : Bool, (s.r Reg.TTU_WATCH_POS.TICK_IN_WATCH ≠ 50 → exec (.stopPathSelfTest a b) s = .next s.start)
        ∧ (s.r Reg.TTU_WATCH_POS.TICK_IN_WATCH = 50 → (unit s 6 0).out = false → (unit s 6 1).out = false →
          exec (.stopPathSelfTest a b) s = .next { s with out := [], svc := { s.svc with
            outs := s.svc.outs ++ (if a then [] else [(6, 0, true)]) ++ (if b then [] else [(6, 1, true)]) } }))
      ∧ (∀ x : TelIn, let due := s.paused = false ∧ s.rb Reg.SVC_TEL.TEL_EN = true ∧ s.r Reg.TTU_WATCH_POS.TICK_IN_WATCH = 99
        exec (.telemetry x) s = .next (if due then { s with out := [], svc := { s.svc with tel := some (telBytes s x) } } else s.start)))
    ∧ (∀ (h : Handle) (m addr len rsv : Nat) (buf : BufIn), Taken anyRunMode s →
      let bad := rsv ≠ 0 ∨ 1 < m ∨ addr % 8 ≠ 0 ∨ len < 528 ∨ 67109376 < len
      let ends : Nat → Nat → State → Prop := fun status d t => Posted s t h status d ∧ t.bt = s.bt ∧ t.regs = s.regs
      let own := inWindow s addr len = true ∧ ¬ bad ∧ m = 0 ∧ buf.err = false
      (inWindow s addr len = false → ∃ t, exec (.bootImageLoad h m addr len rsv buf) s = .next t ∧ ends stBuffer 0 t)
      ∧ (inWindow s addr len = true → bad → ∃ t, exec (.bootImageLoad h m addr len rsv buf) s = .next t ∧ ends stImage 0 t)
      ∧ (inWindow s addr len = true → ¬ bad → m = 1 → (s.inSync = false → ∃ t, exec (.bootImageLoad h m addr len rsv buf) s = .next t ∧ ends stImage 8 t)
        ∧ (s.inSync = true → ∃ t, exec (.bootImageLoad h m addr len rsv buf) s = .next t ∧ Outstanding s t h ∧ t.bt = s.bt))
      ∧ (inWindow s addr len = true → ¬ bad → m = 0 → buf.err = true → ∃ t, exec (.bootImageLoad h m addr len rsv buf) s = .next t ∧ ends stBuffer 0 t)
      ∧ (own → s.bt.load ≠ none ∨ activating s = true → ∃ t, exec (.bootImageLoad h m addr len rsv buf) s = .next t ∧ ends stImage 0 t)
      ∧ (own → s.bt.load = none → activating s = false →
        (len ≠ 512 + bodyLen buf.data → ∃ t, exec (.bootImageLoad h m addr len rsv buf) s = .next t ∧ ends stImage 9 t)
        ∧ (len = 512 + bodyLen buf.data →
          (imageCheck s buf.data ≠ 0 → ∃ t, exec (.bootImageLoad h m addr len rsv buf) s = .next t ∧ Posted s t h stImage (imageCheck s buf.data) ∧ t.bt = s.bt ∧ pending t 510 = true)
          ∧ (imageCheck s buf.data = 0 → ∃ t, exec (.bootImageLoad h m addr len rsv buf) s = .next t ∧ Outstanding s t h
            ∧ t.bt = { s.bt with load := some (h, imageInfo buf.data), slotBad := true }
            ∧ t.r Reg.BOOT_STATUS.SLOT_STATE = 4 ∧ t.r Reg.BOOT_LOAD.PROGRESS = 0))))
    ∧ (∀ (h : Handle) (m rsv : Nat), Taken anyRunMode s →
      let wrong := rsv ≠ 0 ∨ 1 < m
      let busy := rsv = 0 ∧ m ≤ 1 ∧ controlBusy s = true
      let peer := rsv = 0 ∧ m = 1 ∧ controlBusy s = false
      let mine := rsv = 0 ∧ m = 0 ∧ controlBusy s = false
      let ends : Nat → State → Prop := fun d t => Posted s t h stActivate d ∧ t.bt = s.bt ∧ t.regs = s.regs ∧ t.modeNext = s.modeNext
      let waits : Nat × Nat → State → Prop := fun lost t => Outstanding s t h ∧ t.bt = s.bt
        ∧ t.twn.peerCmds = s.twn.peerCmds ++ [(h, lost)]
      ((wrong → ∃ t, exec (.enterMaint h m rsv) s = .next t ∧ ends 0 t) ∧ (busy → ∃ t, exec (.enterMaint h m rsv) s = .next t ∧ ends 7 t)
        ∧ (peer → s.inSync = false → ∃ t, exec (.enterMaint h m rsv) s = .next t ∧ ends 8 t)
        ∧ (peer → s.inSync = true → ∃ t, exec (.enterMaint h m rsv) s = .next t ∧ waits (stOk, 0) t)
        ∧ (mine → s.mode = .lead → s.inSync = false → ∃ t, exec (.enterMaint h m rsv) s = .next t ∧ ends 2 t)
        ∧ (mine → s.leading = true → s.inSync = true → s.twn.handover ≠ none → ∃ t, exec (.enterMaint h m rsv) s = .next t ∧ Outstanding s t h
          ∧ t.twn = { s.twn with items := t.twn.items, seq := t.twn.seq, later := s.twn.later ++ [{ h := h, left := 2, role := 0, maint := true }] }))
      ∧ ((wrong → ∃ t, exec (.leaveMaint h m rsv) s = .next t ∧ ends 0 t) ∧ (busy → ∃ t, exec (.leaveMaint h m rsv) s = .next t ∧ ends 7 t)
        ∧ (peer → s.inSync = false → ∃ t, exec (.leaveMaint h m rsv) s = .next t ∧ ends 8 t)
        ∧ (peer → s.inSync = true → ∃ t, exec (.leaveMaint h m rsv) s = .next t ∧ waits (stActivate, 8) t)
        ∧ (mine → s.mode ≠ .maintenance → ∃ t, exec (.leaveMaint h m rsv) s = .next t ∧ ends 2 t))
      ∧ ((wrong → ∃ t, exec (.activate h m rsv) s = .next t ∧ ends 0 t) ∧ (busy → ∃ t, exec (.activate h m rsv) s = .next t ∧ ends 7 t)
        ∧ (peer → s.inSync = false → ∃ t, exec (.activate h m rsv) s = .next t ∧ ends 8 t)
        ∧ (peer → s.inSync = true → ∃ t, exec (.activate h m rsv) s = .next t ∧ waits (peerStays, 0) t)
        ∧ (mine → s.mode = .lead → ∃ t, exec (.activate h m rsv) s = .next t ∧ ends 2 t)
        ∧ (mine → s.mode = .halt → s.inSync = true → ∃ t, exec (.activate h m rsv) s = .next t ∧ ends 6 t)
        ∧ (mine → s.mode = .maintenance ∨ (s.mode = .halt ∧ s.inSync = false) → s.r Reg.BOOT_STATUS.SLOT_STATE ≠ 2 → ∃ t, exec (.activate h m rsv) s = .next t ∧ ends 4 t))
      ∧ ((wrong → ∃ t, exec (.saveConfig h m rsv) s = .next t ∧ ends 0 t) ∧ (busy → ∃ t, exec (.saveConfig h m rsv) s = .next t ∧ ends 7 t)
        ∧ (peer → s.inSync = false → ∃ t, exec (.saveConfig h m rsv) s = .next t ∧ ends 8 t)
        ∧ (peer → s.inSync = true → ∃ t, exec (.saveConfig h m rsv) s = .next t ∧ waits (stActivate, 8) t)
        ∧ (mine → s.mode ≠ .maintenance → ∃ t, exec (.saveConfig h m rsv) s = .next t ∧ ends 2 t))
      ∧ ((wrong → ∃ t, exec (.bootControlReset h m rsv) s = .next t ∧ ends 0 t) ∧ (busy → ∃ t, exec (.bootControlReset h m rsv) s = .next t ∧ ends 7 t)
        ∧ (peer → s.inSync = false → ∃ t, exec (.bootControlReset h m rsv) s = .next t ∧ ends 8 t)
        ∧ (peer → s.inSync = true → ∃ t, exec (.bootControlReset h m rsv) s = .next t ∧ waits (stActivate, 8) t)
        ∧ (mine → s.mode ≠ .maintenance → ∃ t, exec (.bootControlReset h m rsv) s = .next t ∧ ends 2 t))
      ∧ (rsv = 0 → m = 0 → controlBusy s = false →
        (s.mode = .maintenance → (∃ t, exec (.enterMaint h m rsv) s = .next t ∧ Posted s t h stOk 0 ∧ t.bt = s.bt ∧ t.mode = s.mode)
          ∧ (∃ t, exec (.leaveMaint h m rsv) s = .next t ∧ Posted s t h stOk 0 ∧ t.regs = s.regs ∧ t.bt = { s.bt with leave := true })
          ∧ (∃ t, exec (.saveConfig h m rsv) s = .next t ∧ Outstanding s t h ∧ t.regs = s.regs
            ∧ t.bt = { s.bt with saves := s.bt.saves ++ [(h, cfgTake s)] })
          ∧ (∃ t, exec (.bootControlReset h m rsv) s = .next t ∧ Posted s t h stOk 0 ∧ t.regs = s.regs
            ∧ t.bt = { s.bt with reset := true }))
        ∧ (s.mode = .halt → s.inSync = false → ∃ t, exec (.enterMaint h m rsv) s = .next t ∧ Posted s t h stOk 0
          ∧ t.modeNext = some .maintenance ∧ t.mode = s.mode)
        ∧ (s.leading = true → s.inSync = true → s.twn.handover = none → ∃ t, exec (.enterMaint h m rsv) s = .next t
          ∧ Outstanding s t h ∧ t.twn.handover = some { h := h, left := 2, role := 0, maint := true })
        ∧ (s.mode = .maintenance ∨ (s.mode = .halt ∧ s.inSync = false) → s.r Reg.BOOT_STATUS.SLOT_STATE = 2 →
          ∃ t, exec (.activate h m rsv) s = .next t ∧ Outstanding s t h ∧ t.regs = s.regs ∧ t.bt = { s.bt with check := some h })))
    ∧ (s.held = false →
      (s.bt.saves = [] → exec .configSaveDone s = .next s.start)
      ∧ (∀ h c rest, s.bt.saves = (h, c) :: rest → s.mode ≠ .dead → ∃ t, exec .configSaveDone s = .next t
        ∧ t.bt = { s.bt with saves := rest, cfg := some c } ∧ pending t 511 = true ∧ (s.mode ≠ .shadow → Posted s t h stOk 0))
      ∧ (s.mode = .dead → exec .lockstepMismatch s = .next s.start)
      ∧ (s.mode ≠ .dead → (∃ t, exec .lockstepMismatch s = .next t ∧ t.mode = .dead ∧ t.bt.cause = 3 ∧ t.r Reg.STP_STATE.OUT_ON = 0)
        ∧ (∀ ok : Bool, (s.bt.load = none → exec (.imageWriteDone ok) s = .next s.start)
          ∧ ∀ h i, s.bt.load = some (h, i) → ∃ t, exec (.imageWriteDone ok) s = .next t
            ∧ t.r Reg.BOOT_STATUS.SLOT_STATE = (if ok then 2 else 3) ∧ pending t (if ok then 509 else 510) = true
            ∧ t.bt = (if ok then { s.bt with load := none, slot := i, slotBad := false } else { s.bt with load := none })
            ∧ (ok = true → t.r Reg.BOOT_LOAD.PROGRESS = 100 ∧ t.r Reg.BOOT_SLOT.SLOT_VERSION = i.version % 2 ^ 32
              ∧ t.r Reg.BOOT_SLOT.SLOT_SVN = i.svn % 2 ^ 16)
            ∧ (s.mode ≠ .shadow → Posted s t h (if ok then stOk else stImage) (if ok then 0 else 6)))
        ∧ (∀ ok : Bool, (s.bt.check = none → exec (.activateCheckDone ok) s = .next s.start)
          ∧ ∀ h, s.bt.check = some h →
            (ok = true → exec (.activateCheckDone ok) s
              = .next { s with out := [], bt := { s.bt with check := none, pause := some (h, none) } })
            ∧ (ok = false → ∃ t, exec (.activateCheckDone ok) s = .next t ∧ t.bt = { s.bt with check := none, slotBad := true }
              ∧ t.r Reg.BOOT_STATUS.SLOT_STATE = 3 ∧ pending t 510 = true ∧ (s.mode ≠ .shadow → Posted s t h stActivate 5)))
        ∧ (∀ started : Bool, ((∀ h n, s.bt.pause ≠ some (h, some n)) → exec (.activateReturn started) s = .next s.start)
          ∧ ∀ h n, s.bt.pause = some (h, some n) →
            (started = false → ∃ t, exec (.activateReturn started) s = .next t ∧ t.mode = .dead ∧ t.bt.cause = 0x0A)
            ∧ (started = true → s.mode = .maintenance → s.bt.heldEvts = [] → ∃ t, exec (.activateReturn started) s = .next t
              ∧ Posted s t h stOk n ∧ t.mode = s.mode ∧ t.bt = { s.bt with pause := none, running := s.bt.slot }
              ∧ t.paused = false ∧ t.r Reg.BOOT_STATUS.LAST_RESET = 3 ∧ t.r Reg.BOOT_STATUS.SLOT_STATE = 1
              ∧ t.r Reg.BOOT_TIMES.PAUSE_MS = n % 2 ^ 16))))

/-- How the module starts, where BOOT ends, what a hot reset leaves, and what every tick and watch boundary does. With
supply back, POWER_UP ends the hold in reset: a failed self-test leaves the module DEAD with cause 0x02, a slot that
may not run with cause 0x01; otherwise it runs the image of the slot in BOOT, and with the setup sealed STEP is 3
(the whole sequence up to the seal is one command, log entry 20). Where BOOT is not to start, POWER_UP does nothing.
BOOT_END does nothing before the seal or before the frames of eight ticks are armed where the group session key is
there; then it leaves the module in MAINTENANCE under STAY or CFG_DEFAULT, and electing otherwise, with STEP 4. A
hot reset outside DEAD disables bus mastering and clears the MSI-X table; mode and other registers stay. A tick
boundary adds one to the tick number; in DEAD the module stays there while the time bases run on; work of the slot
of TTU still pending leads to DEAD with cause 0x05; a RESET accepted before it puts the module into BOOT with tick
number 0 and LAST_RESET 2. A watch boundary does its work once, in the first tick of a watch, and keeps the mode and
the tick number; it counts an agreed handover down. (Rests on: R35, R36, R251, R320, R335, R344, R463, R482, R483,
R485, R486, R496) -/
def Obligations.power_up_the_end_of_boot_and_the_boundaries : Prop :=
  (∀ (b : BootIn) (s : State), s.mode = .boot →
    let starts := s.held = true ∨ (s.bt.sealed = false ∧ s.r Reg.BOOT_STATUS.STEP = 0)
    let badSlot := s.bt.slotBad = true ∨ b.slotOk = false ∨ s.bt.slot.svn < s.r Reg.BOOT_SLOT.SVN_MIN
    (¬ starts → exec (.powerUp b) s = .next s.start)
    ∧ (starts → b.selfTest = false → ∃ t, exec (.powerUp b) s = .next t ∧ t.held = false ∧ t.mode = .dead ∧ t.bt.cause = 2
      ∧ t.r Reg.STP_STATE.OUT_ON = 0)
    ∧ (starts → b.selfTest = true → badSlot → ∃ t, exec (.powerUp b) s = .next t ∧ t.held = false ∧ t.mode = .dead ∧ t.bt.cause = 1
      ∧ t.r Reg.STP_STATE.OUT_ON = 0)
    ∧ (starts → b.selfTest = true → ¬ badSlot → ∃ t, exec (.powerUp b) s = .next t ∧ t.held = false ∧ t.mode = .boot
      ∧ t.bt.running = s.bt.slot ∧ t.tick = s.tick
      ∧ (b.sealSet = true → t.bt.sealed = true ∧ t.r Reg.BOOT_STATUS.STEP = 3 ∧ t.rb Reg.KVT_STATUS.SEALED = true
        ∧ t.kvt.gs = t.kvt.active.isSome)))
  ∧ ∀ s : State, s.held = false →
    let wait := s.mode ≠ .boot ∨ s.bt.sealed = false ∨ s.r Reg.BOOT_STATUS.STEP = 4 ∨ (s.kvt.gs = true ∧ armedTicks s < 8)
    ((wait → exec .bootEnd s = .next s.start)
      ∧ (¬ wait → s.rb Reg.BOOT_CTRL.STAY = true ∨ s.rb Reg.BOOT_STATUS.CFG_DEFAULT = true →
        ∃ t, exec .bootEnd s = .next t ∧ t.mode = .maintenance)
      ∧ (¬ wait → s.rb Reg.BOOT_CTRL.STAY = false → s.rb Reg.BOOT_STATUS.CFG_DEFAULT = false →
        ∃ t, exec .bootEnd s = .next t ∧ t.mode = .boot ∧ t.twn.electing = true ∧ t.r Reg.BOOT_STATUS.STEP = 4))
    ∧ (s.mode ≠ .dead → ∃ t, exec .pcieHotReset s = .next t ∧ t.mode = s.mode ∧ t.hst.pcie.bme = false
      ∧ (∀ k, k / 32 < 0x1F0000 → mget 0 t.regs k = mget 0 s.regs k)
      ∧ t = { s with out := [], regs := t.regs, hst := { s.hst with pcie := {} } })
    ∧ (∀ w : TickIn,
      (s.bt.reset = true → ∃ t, exec (.tickBoundary w) s = .next t ∧ t.mode = .boot ∧ t.tick = 0 ∧ t.held = false
        ∧ t.r Reg.BOOT_STATUS.LAST_RESET = 2 ∧ t.log = s.log ∧ t.kvt.copy0 = s.kvt.copy0 ∧ t.kvt.copy1 = s.kvt.copy1
        ∧ t.bt.slot = s.bt.slot ∧ t.bt.cfg = s.bt.cfg)
      ∧ (s.bt.reset = false → ∃ t, exec (.tickBoundary w) s = .next t ∧ t.tick = s.tick + 1
        ∧ (s.mode = .dead → t.mode = .dead ∧ t.ttu.tb1 = s.ttu.tb1 + s.ttu.adv ∧ t.ttu.tb3 = s.ttu.tb3 + s.ttu.len)
        ∧ (s.mode ≠ .dead → w.ttuUse.pending = true → t.mode = .dead ∧ t.bt.cause = 5)))
    ∧ (∀ w : WatchIn,
      (s.r Reg.TTU_WATCH_POS.TICK_IN_WATCH ≠ 0 ∨ s.ttu.watchDone = true → exec (.watchBoundary w) s = .next s.start)
      ∧ (s.r Reg.TTU_WATCH_POS.TICK_IN_WATCH = 0 → s.ttu.watchDone = false →
        (s.mode = .dead → exec (.watchBoundary w) s = .next { s with out := [], onceWatch := [], ttu := { s.ttu with watchDone := true } })
        ∧ ∃ t, exec (.watchBoundary w) s = .next t ∧ t.ttu.watchDone = true ∧ t.mode = s.mode ∧ t.tick = s.tick
          ∧ (s.mode ≠ .dead → ∀ x, s.twn.handover = some x →
            (2 ≤ x.left → t.twn.handover = some { x with left := x.left - 1 } ∧ t.twn.handoverNow = s.twn.handoverNow)
            ∧ (x.left ≤ 1 → t.twn.handover = some x ∧ t.twn.handoverNow = true))))
end

