-- ==== Sys2Proof/Laws/Desc.lean ====
section
/-! SUPPORT. Sys2Proof/Laws/Desc.lean: reading a field back from the bytes it was written to, and the fields of a descriptor. -/

namespace Sys2Proof.Machine

open Sys2Proof

/-! ### Bytes and numbers -/

@[simp] theorem le_length (n v : Nat) : (le n v).length = n := by
  induction n generalizing v with
  | zero => rfl
  | succ n ih => simp [le, ih]

theorem leNat_le (n v : Nat) : leNat (le n v) = v % 256 ^ n := by
  induction n generalizing v with
  | zero => simp [le, leNat, Nat.mod_one]
  | succ n ih =>
    have h : v % 256 ^ (n + 1) = v % 256 + 256 * (v / 256 % 256 ^ n) := by
      rw [Nat.pow_succ, Nat.mul_comm, Nat.mod_mul]
    rw [le, leNat, ih, h]
    simp

theorem leNat_append_zeros (bs : List Byte) (k : Nat) : leNat (bs ++ List.replicate k 0) = leNat bs := by
  induction bs with
  | nil =>
    induction k with
    | zero => rfl
    | succ k ih => simpa [List.replicate_succ, leNat] using ih
  | cons b bs ih => rw [List.cons_append, leNat, leNat, ih]

theorem leNat_take_append_zeros (bs : List Byte) (n k : Nat) :
    leNat ((bs ++ List.replicate k 0).take n) = leNat (bs.take n) := by
  rw [List.take_append, List.take_replicate]
  exact leNat_append_zeros _ _

/-! ### Fields -/

/-- A field beyond some bytes is read from what follows them. -/
theorem field_skip (n v off m : Nat) (rest : List Byte) (h : n ≤ off) :
    field (le n v ++ rest) off m = field rest (off - n) m := by
  unfold field
  rw [List.drop_append, le_length, List.drop_eq_nil_of_le (by simpa using h), List.nil_append]

theorem field_here (n v : Nat) (rest : List Byte) (h : v < 256 ^ n) : field (le n v ++ rest) 0 n = v := by
  unfold field
  simp [leNat_le, Nat.mod_eq_of_lt h]

theorem field_last (n v : Nat) (h : v < 256 ^ n) : field (le n v) 0 n = v := by
  simpa using field_here n v [] h

theorem field_past (n v off m : Nat) (h : n ≤ off) : field (le n v) off m = 0 := by
  unfold field
  rw [List.drop_eq_nil_of_le (by simpa using h)]
  simp [leNat]

theorem field_nil (off m : Nat) : field [] off m = 0 := by simp [field, leNat]

/-! ### The descriptor -/

/-- The fields of a descriptor lie from byte 8 on. -/
theorem field_desc (op tag off n : Nat) (fs : List Byte) (h : 8 ≤ off) (k : off + n ≤ 28) :
    field (descBytes op tag fs) off n = field fs (off - 8) n := by
  have h20 : (padTo 20 (fs.take 20)).length = 20 := by simp [padTo]
  have hd : ∀ C : List Byte, ((padTo 20 (fs.take 20) ++ C).drop (off - 8)).take n
      = ((padTo 20 (fs.take 20)).drop (off - 8)).take n := by
    intro C
    rw [List.drop_append_of_le_length (by omega), List.take_append_of_le_length (by rw [List.length_drop]; omega)]
  have e : descBytes op tag fs = (le 1 op ++ le 3 0 ++ le 4 tag)
      ++ (padTo 20 (fs.take 20) ++ le 4 (crc32c (le 1 op ++ le 3 0 ++ le 4 tag ++ padTo 20 (fs.take 20)))) := by
    simp [descBytes]
  unfold field
  rw [e, List.drop_append, List.drop_eq_nil_of_le (by simpa using h), List.nil_append]
  simp only [List.length_append, le_length]
  rw [hd]
  unfold padTo
  rw [List.drop_append, List.drop_replicate, leNat_take_append_zeros, List.drop_take, List.take_take]
  congr 2
  omega

/-- OPCODE is byte 0. -/
theorem field_op (op tag : Nat) (fs : List Byte) (h : op < 256) : field (descBytes op tag fs) 0 1 = op := by
  unfold descBytes
  simp only [List.append_assoc]
  exact field_here 1 op _ (by simpa using h)

end Sys2Proof.Machine
end

