-- ==== Sys2Proof/Laws/Maps.lean ====
section
/-! SUPPORT. Sys2Proof/Laws/Maps.lean: the laws of the sparse maps: what is read after a write, and that a write keeps the
canonical form. -/

namespace Sys2Proof.Machine

variable {α : Type}

@[simp] theorem mget_nil (d : α) (k : Nat) : mget d [] k = d := rfl

theorem mget_mdel_same (d : α) (m : List (Nat × α)) (k : Nat) : mget d (mdel m k) k = d := by
  induction m with
  | nil => rfl
  | cons p m ih =>
    obtain ⟨j, v⟩ := p
    by_cases h : j = k <;> simp [mdel, mget, h, ih]

theorem mget_mdel_ne (d : α) (m : List (Nat × α)) {k i : Nat} (h : i ≠ k) : mget d (mdel m k) i = mget d m i := by
  induction m with
  | nil => rfl
  | cons p m ih =>
    obtain ⟨j, v⟩ := p
    by_cases hj : j = k
    · simp [mdel, mget, hj, ih, Ne.symm h]
    · simp only [mdel, hj, if_false, mget]
      split
      · rfl
      · exact ih

theorem mget_mins_same (d : α) (m : List (Nat × α)) (k : Nat) (v : α) : mget d (mins (mdel m k) k v) k = v := by
  induction m with
  | nil => simp [mdel, mins, mget]
  | cons p m ih =>
    obtain ⟨j, u⟩ := p
    by_cases hj : j = k
    · simpa [mdel, hj] using ih
    · simp only [mdel, hj, if_false, mins]
      split <;> simp [mget, hj, ih]

theorem mget_mins_ne (d : α) (m : List (Nat × α)) {k i : Nat} (v : α) (h : i ≠ k) :
    mget d (mins m k v) i = mget d m i := by
  induction m with
  | nil => simp [mins, mget, Ne.symm h]
  | cons p m ih =>
    obtain ⟨j, u⟩ := p
    simp only [mins]
    split
    · simp only [mget, if_neg (Ne.symm h)]
    · simp only [mget]
      split
      · rfl
      · exact ih

@[simp] theorem mget_mput_same [DecidableEq α] (d : α) (m : List (Nat × α)) (k : Nat) (v : α) :
    mget d (mput d m k v) k = v := by
  unfold mput
  split
  · rename_i h; rw [mget_mdel_same, h]
  · exact mget_mins_same d m k v

theorem mget_mput_ne [DecidableEq α] (d : α) (m : List (Nat × α)) {k i : Nat} (v : α) (h : i ≠ k) :
    mget d (mput d m k v) i = mget d m i := by
  unfold mput
  split
  · exact mget_mdel_ne d m h
  · rw [mget_mins_ne d _ v h, mget_mdel_ne d m h]

/-! ### The canonical form -/

theorem mwfFrom_weaken [DecidableEq α] {d : α} {lo lo' : Nat} {m : List (Nat × α)} (hl : lo' ≤ lo)
    (h : mwfFrom d lo m = true) : mwfFrom d lo' m = true := by
  cases m with
  | nil => rfl
  | cons p m =>
    obtain ⟨j, v⟩ := p
    simp only [mwfFrom, Bool.and_eq_true, decide_eq_true_eq] at h ⊢
    exact ⟨⟨by omega, h.1.2⟩, h.2⟩

theorem mwfFrom_mdel [DecidableEq α] {d : α} {m : List (Nat × α)} (k : Nat) :
    ∀ {lo : Nat}, mwfFrom d lo m = true → mwfFrom d lo (mdel m k) = true := by
  induction m with
  | nil => intro lo h; exact h
  | cons p m ih =>
    obtain ⟨j, v⟩ := p
    intro lo h
    simp only [mwfFrom, Bool.and_eq_true, decide_eq_true_eq] at h
    by_cases hj : j = k
    · simp only [mdel, hj, if_true]
      exact mwfFrom_weaken (by omega) (ih h.2)
    · simp only [mdel, hj, if_false, mwfFrom, Bool.and_eq_true, decide_eq_true_eq]
      exact ⟨h.1, ih h.2⟩

theorem mwfFrom_mins [DecidableEq α] {d : α} {m : List (Nat × α)} {k : Nat} {v : α} (hv : v ≠ d) :
    ∀ {lo : Nat}, lo ≤ k → mwfFrom d lo (mdel m k) = true → mwfFrom d lo (mins (mdel m k) k v) = true := by
  induction m with
  | nil => intro lo hl _; simp [mdel, mins, mwfFrom, hl, hv]
  | cons p m ih =>
    obtain ⟨j, u⟩ := p
    intro lo hl h
    by_cases hj : j = k
    · simp only [mdel, hj, if_true] at h ⊢
      exact ih hl h
    · simp only [mdel, hj, if_false, mwfFrom, Bool.and_eq_true, decide_eq_true_eq] at h
      simp only [mdel, hj, if_false, mins]
      split
      · simp only [mwfFrom, Bool.and_eq_true, decide_eq_true_eq]
        exact ⟨⟨hl, hv⟩, ⟨by omega, h.1.2⟩, h.2⟩
      · simp only [mwfFrom, Bool.and_eq_true, decide_eq_true_eq]
        exact ⟨h.1, ih (by omega) h.2⟩

/-- Every write keeps the canonical form. -/
theorem mwf_mput [DecidableEq α] {d : α} {m : List (Nat × α)} (k : Nat) (v : α) (h : mwf d m = true) :
    mwf d (mput d m k v) = true := by
  unfold mput mwf at *
  split
  · exact mwfFrom_mdel k h
  · rename_i hv
    exact mwfFrom_mins hv (Nat.zero_le k) (mwfFrom_mdel k h)

end Sys2Proof.Machine
end

