-- ==== Sys2Proof/Laws/State.lean ====
section
/-! SUPPORT. Sys2Proof/Laws/State.lean: what each plain update of State changes, and that it changes nothing else: register
fields, free values, outputs. -/

namespace Sys2Proof.Machine

open Sys2Proof

/-! ### Register fields -/

/-- The value written is read back, cut to the field's width. -/
@[simp] theorem State.r_w_same (s : State) (f : Field) (v i j : Nat) : (s.w f v i j).r f i j = v % 2 ^ f.width := by
  simp [State.r, State.w, Nat.xor_mod_two_pow, Nat.xor_assoc]

/-- A write leaves every field at another key alone. -/
theorem State.r_w_ne (s : State) (f g : Field) (v i j k l : Nat) (h : g.key k l ≠ f.key i j) :
    (s.w f v i j).r g k l = s.r g k l := by
  simp [State.r, State.w, mget_mput_ne 0 s.regs _ h]

/-- A flag set or cleared is read back. -/
@[simp] theorem State.rb_wb_same (s : State) (f : Field) (b : Bool) (i j : Nat) (h : f.width = 1) :
    (s.wb f b i j).rb f i j = b := by
  cases b <;> simp [State.rb, State.wb, b2n, h]

theorem State.rb_w_ne (s : State) (f g : Field) (v i j k l : Nat) (h : g.key k l ≠ f.key i j) :
    (s.w f v i j).rb g k l = s.rb g k l := by
  simp [State.rb, s.r_w_ne f g v i j k l h]

/-- A write keeps the canonical form of the register map. -/
theorem State.w_regs_wf (s : State) (f : Field) (v i j : Nat) (h : mwf 0 s.regs = true) :
    mwf 0 (s.w f v i j).regs = true := mwf_mput _ _ h

/-! ### What a write of a register field leaves alone -/

@[simp] theorem State.w_mode (s : State) (f : Field) (v i j : Nat) : (s.w f v i j).mode = s.mode := rfl
@[simp] theorem State.w_held (s : State) (f : Field) (v i j : Nat) : (s.w f v i j).held = s.held := rfl
@[simp] theorem State.w_tick (s : State) (f : Field) (v i j : Nat) : (s.w f v i j).tick = s.tick := rfl
@[simp] theorem State.w_free (s : State) (f : Field) (v i j : Nat) : (s.w f v i j).free = s.free := rfl
@[simp] theorem State.w_out (s : State) (f : Field) (v i j : Nat) : (s.w f v i j).out = s.out := rfl
@[simp] theorem State.w_onceTick (s : State) (f : Field) (v i j : Nat) : (s.w f v i j).onceTick = s.onceTick := rfl
@[simp] theorem State.w_onceWatch (s : State) (f : Field) (v i j : Nat) : (s.w f v i j).onceWatch = s.onceWatch := rfl
@[simp] theorem State.w_inst (s : State) (f : Field) (v i j : Nat) : (s.w f v i j).inst = s.inst := rfl
@[simp] theorem State.w_modeNext (s : State) (f : Field) (v i j : Nat) : (s.w f v i j).modeNext = s.modeNext := rfl
@[simp] theorem State.w_ttu (s : State) (f : Field) (v i j : Nat) : (s.w f v i j).ttu = s.ttu := rfl
@[simp] theorem State.w_eth (s : State) (f : Field) (v i j : Nat) : (s.w f v i j).eth = s.eth := rfl
@[simp] theorem State.w_sxt (s : State) (f : Field) (v i j : Nat) : (s.w f v i j).sxt = s.sxt := rfl
@[simp] theorem State.w_obs (s : State) (f : Field) (v i j : Nat) : (s.w f v i j).obs = s.obs := rfl
@[simp] theorem State.w_fix (s : State) (f : Field) (v i j : Nat) : (s.w f v i j).fix = s.fix := rfl
@[simp] theorem State.w_cht (s : State) (f : Field) (v i j : Nat) : (s.w f v i j).cht = s.cht := rfl
@[simp] theorem State.w_asg (s : State) (f : Field) (v i j : Nat) : (s.w f v i j).asg = s.asg := rfl
@[simp] theorem State.w_prf (s : State) (f : Field) (v i j : Nat) : (s.w f v i j).prf = s.prf := rfl
@[simp] theorem State.w_pos (s : State) (f : Field) (v i j : Nat) : (s.w f v i j).pos = s.pos := rfl
@[simp] theorem State.w_stp (s : State) (f : Field) (v i j : Nat) : (s.w f v i j).stp = s.stp := rfl
@[simp] theorem State.w_luv (s : State) (f : Field) (v i j : Nat) : (s.w f v i j).luv = s.luv := rfl
@[simp] theorem State.w_sec (s : State) (f : Field) (v i j : Nat) : (s.w f v i j).sec = s.sec := rfl
@[simp] theorem State.w_twn (s : State) (f : Field) (v i j : Nat) : (s.w f v i j).twn = s.twn := rfl
@[simp] theorem State.w_hst (s : State) (f : Field) (v i j : Nat) : (s.w f v i j).hst = s.hst := rfl
@[simp] theorem State.w_cpl (s : State) (f : Field) (v i j : Nat) : (s.w f v i j).cpl = s.cpl := rfl
@[simp] theorem State.w_svc (s : State) (f : Field) (v i j : Nat) : (s.w f v i j).svc = s.svc := rfl
@[simp] theorem State.w_kvt (s : State) (f : Field) (v i j : Nat) : (s.w f v i j).kvt = s.kvt := rfl
@[simp] theorem State.w_log (s : State) (f : Field) (v i j : Nat) : (s.w f v i j).log = s.log := rfl
@[simp] theorem State.w_glt (s : State) (f : Field) (v i j : Nat) : (s.w f v i j).glt = s.glt := rfl
@[simp] theorem State.w_can (s : State) (f : Field) (v i j : Nat) : (s.w f v i j).can = s.can := rfl
@[simp] theorem State.w_bt (s : State) (f : Field) (v i j : Nat) : (s.w f v i j).bt = s.bt := rfl
@[simp] theorem State.w_pending (s : State) (f : Field) (v i j : Nat) : (s.w f v i j).pending = s.pending := rfl

/-! ### What a write of a flag, a counter or a bit leaves alone -/

@[simp] theorem State.wb_mode (s : State) (f : Field) (b : Bool) (i j : Nat) : (s.wb f b i j).mode = s.mode := rfl
@[simp] theorem State.wb_held (s : State) (f : Field) (b : Bool) (i j : Nat) : (s.wb f b i j).held = s.held := rfl
@[simp] theorem State.wb_tick (s : State) (f : Field) (b : Bool) (i j : Nat) : (s.wb f b i j).tick = s.tick := rfl
@[simp] theorem State.wb_free (s : State) (f : Field) (b : Bool) (i j : Nat) : (s.wb f b i j).free = s.free := rfl
@[simp] theorem State.wb_out (s : State) (f : Field) (b : Bool) (i j : Nat) : (s.wb f b i j).out = s.out := rfl
@[simp] theorem State.wb_onceTick (s : State) (f : Field) (b : Bool) (i j : Nat) : (s.wb f b i j).onceTick = s.onceTick := rfl
@[simp] theorem State.wb_onceWatch (s : State) (f : Field) (b : Bool) (i j : Nat) : (s.wb f b i j).onceWatch = s.onceWatch := rfl
@[simp] theorem State.wb_inst (s : State) (f : Field) (b : Bool) (i j : Nat) : (s.wb f b i j).inst = s.inst := rfl
@[simp] theorem State.wb_modeNext (s : State) (f : Field) (b : Bool) (i j : Nat) : (s.wb f b i j).modeNext = s.modeNext := rfl
@[simp] theorem State.wb_ttu (s : State) (f : Field) (b : Bool) (i j : Nat) : (s.wb f b i j).ttu = s.ttu := rfl
@[simp] theorem State.wb_eth (s : State) (f : Field) (b : Bool) (i j : Nat) : (s.wb f b i j).eth = s.eth := rfl
@[simp] theorem State.wb_sxt (s : State) (f : Field) (b : Bool) (i j : Nat) : (s.wb f b i j).sxt = s.sxt := rfl
@[simp] theorem State.wb_obs (s : State) (f : Field) (b : Bool) (i j : Nat) : (s.wb f b i j).obs = s.obs := rfl
@[simp] theorem State.wb_fix (s : State) (f : Field) (b : Bool) (i j : Nat) : (s.wb f b i j).fix = s.fix := rfl
@[simp] theorem State.wb_cht (s : State) (f : Field) (b : Bool) (i j : Nat) : (s.wb f b i j).cht = s.cht := rfl
@[simp] theorem State.wb_asg (s : State) (f : Field) (b : Bool) (i j : Nat) : (s.wb f b i j).asg = s.asg := rfl
@[simp] theorem State.wb_prf (s : State) (f : Field) (b : Bool) (i j : Nat) : (s.wb f b i j).prf = s.prf := rfl
@[simp] theorem State.wb_pos (s : State) (f : Field) (b : Bool) (i j : Nat) : (s.wb f b i j).pos = s.pos := rfl
@[simp] theorem State.wb_stp (s : State) (f : Field) (b : Bool) (i j : Nat) : (s.wb f b i j).stp = s.stp := rfl
@[simp] theorem State.wb_luv (s : State) (f : Field) (b : Bool) (i j : Nat) : (s.wb f b i j).luv = s.luv := rfl
@[simp] theorem State.wb_sec (s : State) (f : Field) (b : Bool) (i j : Nat) : (s.wb f b i j).sec = s.sec := rfl
@[simp] theorem State.wb_twn (s : State) (f : Field) (b : Bool) (i j : Nat) : (s.wb f b i j).twn = s.twn := rfl
@[simp] theorem State.wb_hst (s : State) (f : Field) (b : Bool) (i j : Nat) : (s.wb f b i j).hst = s.hst := rfl
@[simp] theorem State.wb_cpl (s : State) (f : Field) (b : Bool) (i j : Nat) : (s.wb f b i j).cpl = s.cpl := rfl
@[simp] theorem State.wb_svc (s : State) (f : Field) (b : Bool) (i j : Nat) : (s.wb f b i j).svc = s.svc := rfl
@[simp] theorem State.wb_kvt (s : State) (f : Field) (b : Bool) (i j : Nat) : (s.wb f b i j).kvt = s.kvt := rfl
@[simp] theorem State.wb_log (s : State) (f : Field) (b : Bool) (i j : Nat) : (s.wb f b i j).log = s.log := rfl
@[simp] theorem State.wb_glt (s : State) (f : Field) (b : Bool) (i j : Nat) : (s.wb f b i j).glt = s.glt := rfl
@[simp] theorem State.wb_can (s : State) (f : Field) (b : Bool) (i j : Nat) : (s.wb f b i j).can = s.can := rfl
@[simp] theorem State.wb_bt (s : State) (f : Field) (b : Bool) (i j : Nat) : (s.wb f b i j).bt = s.bt := rfl
@[simp] theorem State.wb_pending (s : State) (f : Field) (b : Bool) (i j : Nat) : (s.wb f b i j).pending = s.pending := rfl
@[simp] theorem State.inc_mode (s : State) (f : Field) (i j : Nat) : (s.inc f i j).mode = s.mode := rfl
@[simp] theorem State.inc_held (s : State) (f : Field) (i j : Nat) : (s.inc f i j).held = s.held := rfl
@[simp] theorem State.inc_tick (s : State) (f : Field) (i j : Nat) : (s.inc f i j).tick = s.tick := rfl
@[simp] theorem State.inc_free (s : State) (f : Field) (i j : Nat) : (s.inc f i j).free = s.free := rfl
@[simp] theorem State.inc_out (s : State) (f : Field) (i j : Nat) : (s.inc f i j).out = s.out := rfl
@[simp] theorem State.inc_onceTick (s : State) (f : Field) (i j : Nat) : (s.inc f i j).onceTick = s.onceTick := rfl
@[simp] theorem State.inc_onceWatch (s : State) (f : Field) (i j : Nat) : (s.inc f i j).onceWatch = s.onceWatch := rfl
@[simp] theorem State.inc_inst (s : State) (f : Field) (i j : Nat) : (s.inc f i j).inst = s.inst := rfl
@[simp] theorem State.inc_modeNext (s : State) (f : Field) (i j : Nat) : (s.inc f i j).modeNext = s.modeNext := rfl
@[simp] theorem State.inc_ttu (s : State) (f : Field) (i j : Nat) : (s.inc f i j).ttu = s.ttu := rfl
@[simp] theorem State.inc_eth (s : State) (f : Field) (i j : Nat) : (s.inc f i j).eth = s.eth := rfl
@[simp] theorem State.inc_sxt (s : State) (f : Field) (i j : Nat) : (s.inc f i j).sxt = s.sxt := rfl
@[simp] theorem State.inc_obs (s : State) (f : Field) (i j : Nat) : (s.inc f i j).obs = s.obs := rfl
@[simp] theorem State.inc_fix (s : State) (f : Field) (i j : Nat) : (s.inc f i j).fix = s.fix := rfl
@[simp] theorem State.inc_cht (s : State) (f : Field) (i j : Nat) : (s.inc f i j).cht = s.cht := rfl
@[simp] theorem State.inc_asg (s : State) (f : Field) (i j : Nat) : (s.inc f i j).asg = s.asg := rfl
@[simp] theorem State.inc_prf (s : State) (f : Field) (i j : Nat) : (s.inc f i j).prf = s.prf := rfl
@[simp] theorem State.inc_pos (s : State) (f : Field) (i j : Nat) : (s.inc f i j).pos = s.pos := rfl
@[simp] theorem State.inc_stp (s : State) (f : Field) (i j : Nat) : (s.inc f i j).stp = s.stp := rfl
@[simp] theorem State.inc_luv (s : State) (f : Field) (i j : Nat) : (s.inc f i j).luv = s.luv := rfl
@[simp] theorem State.inc_sec (s : State) (f : Field) (i j : Nat) : (s.inc f i j).sec = s.sec := rfl
@[simp] theorem State.inc_twn (s : State) (f : Field) (i j : Nat) : (s.inc f i j).twn = s.twn := rfl
@[simp] theorem State.inc_hst (s : State) (f : Field) (i j : Nat) : (s.inc f i j).hst = s.hst := rfl
@[simp] theorem State.inc_cpl (s : State) (f : Field) (i j : Nat) : (s.inc f i j).cpl = s.cpl := rfl
@[simp] theorem State.inc_svc (s : State) (f : Field) (i j : Nat) : (s.inc f i j).svc = s.svc := rfl
@[simp] theorem State.inc_kvt (s : State) (f : Field) (i j : Nat) : (s.inc f i j).kvt = s.kvt := rfl
@[simp] theorem State.inc_log (s : State) (f : Field) (i j : Nat) : (s.inc f i j).log = s.log := rfl
@[simp] theorem State.inc_glt (s : State) (f : Field) (i j : Nat) : (s.inc f i j).glt = s.glt := rfl
@[simp] theorem State.inc_can (s : State) (f : Field) (i j : Nat) : (s.inc f i j).can = s.can := rfl
@[simp] theorem State.inc_bt (s : State) (f : Field) (i j : Nat) : (s.inc f i j).bt = s.bt := rfl
@[simp] theorem State.inc_pending (s : State) (f : Field) (i j : Nat) : (s.inc f i j).pending = s.pending := rfl
@[simp] theorem State.add_mode (s : State) (f : Field) (n i j : Nat) : (s.add f n i j).mode = s.mode := rfl
@[simp] theorem State.add_held (s : State) (f : Field) (n i j : Nat) : (s.add f n i j).held = s.held := rfl
@[simp] theorem State.add_tick (s : State) (f : Field) (n i j : Nat) : (s.add f n i j).tick = s.tick := rfl
@[simp] theorem State.add_free (s : State) (f : Field) (n i j : Nat) : (s.add f n i j).free = s.free := rfl
@[simp] theorem State.add_out (s : State) (f : Field) (n i j : Nat) : (s.add f n i j).out = s.out := rfl
@[simp] theorem State.add_onceTick (s : State) (f : Field) (n i j : Nat) : (s.add f n i j).onceTick = s.onceTick := rfl
@[simp] theorem State.add_onceWatch (s : State) (f : Field) (n i j : Nat) : (s.add f n i j).onceWatch = s.onceWatch := rfl
@[simp] theorem State.add_inst (s : State) (f : Field) (n i j : Nat) : (s.add f n i j).inst = s.inst := rfl
@[simp] theorem State.add_modeNext (s : State) (f : Field) (n i j : Nat) : (s.add f n i j).modeNext = s.modeNext := rfl
@[simp] theorem State.add_ttu (s : State) (f : Field) (n i j : Nat) : (s.add f n i j).ttu = s.ttu := rfl
@[simp] theorem State.add_eth (s : State) (f : Field) (n i j : Nat) : (s.add f n i j).eth = s.eth := rfl
@[simp] theorem State.add_sxt (s : State) (f : Field) (n i j : Nat) : (s.add f n i j).sxt = s.sxt := rfl
@[simp] theorem State.add_obs (s : State) (f : Field) (n i j : Nat) : (s.add f n i j).obs = s.obs := rfl
@[simp] theorem State.add_fix (s : State) (f : Field) (n i j : Nat) : (s.add f n i j).fix = s.fix := rfl
@[simp] theorem State.add_cht (s : State) (f : Field) (n i j : Nat) : (s.add f n i j).cht = s.cht := rfl
@[simp] theorem State.add_asg (s : State) (f : Field) (n i j : Nat) : (s.add f n i j).asg = s.asg := rfl
@[simp] theorem State.add_prf (s : State) (f : Field) (n i j : Nat) : (s.add f n i j).prf = s.prf := rfl
@[simp] theorem State.add_pos (s : State) (f : Field) (n i j : Nat) : (s.add f n i j).pos = s.pos := rfl
@[simp] theorem State.add_stp (s : State) (f : Field) (n i j : Nat) : (s.add f n i j).stp = s.stp := rfl
@[simp] theorem State.add_luv (s : State) (f : Field) (n i j : Nat) : (s.add f n i j).luv = s.luv := rfl
@[simp] theorem State.add_sec (s : State) (f : Field) (n i j : Nat) : (s.add f n i j).sec = s.sec := rfl
@[simp] theorem State.add_twn (s : State) (f : Field) (n i j : Nat) : (s.add f n i j).twn = s.twn := rfl
@[simp] theorem State.add_hst (s : State) (f : Field) (n i j : Nat) : (s.add f n i j).hst = s.hst := rfl
@[simp] theorem State.add_cpl (s : State) (f : Field) (n i j : Nat) : (s.add f n i j).cpl = s.cpl := rfl
@[simp] theorem State.add_svc (s : State) (f : Field) (n i j : Nat) : (s.add f n i j).svc = s.svc := rfl
@[simp] theorem State.add_kvt (s : State) (f : Field) (n i j : Nat) : (s.add f n i j).kvt = s.kvt := rfl
@[simp] theorem State.add_log (s : State) (f : Field) (n i j : Nat) : (s.add f n i j).log = s.log := rfl
@[simp] theorem State.add_glt (s : State) (f : Field) (n i j : Nat) : (s.add f n i j).glt = s.glt := rfl
@[simp] theorem State.add_can (s : State) (f : Field) (n i j : Nat) : (s.add f n i j).can = s.can := rfl
@[simp] theorem State.add_bt (s : State) (f : Field) (n i j : Nat) : (s.add f n i j).bt = s.bt := rfl
@[simp] theorem State.add_pending (s : State) (f : Field) (n i j : Nat) : (s.add f n i j).pending = s.pending := rfl
@[simp] theorem State.wbit_mode (s : State) (f : Field) (b : Nat) (on : Bool) : (s.wbit f b on).mode = s.mode := rfl
@[simp] theorem State.wbit_held (s : State) (f : Field) (b : Nat) (on : Bool) : (s.wbit f b on).held = s.held := rfl
@[simp] theorem State.wbit_tick (s : State) (f : Field) (b : Nat) (on : Bool) : (s.wbit f b on).tick = s.tick := rfl
@[simp] theorem State.wbit_free (s : State) (f : Field) (b : Nat) (on : Bool) : (s.wbit f b on).free = s.free := rfl
@[simp] theorem State.wbit_out (s : State) (f : Field) (b : Nat) (on : Bool) : (s.wbit f b on).out = s.out := rfl
@[simp] theorem State.wbit_onceTick (s : State) (f : Field) (b : Nat) (on : Bool) : (s.wbit f b on).onceTick = s.onceTick := rfl
@[simp] theorem State.wbit_onceWatch (s : State) (f : Field) (b : Nat) (on : Bool) : (s.wbit f b on).onceWatch = s.onceWatch := rfl
@[simp] theorem State.wbit_inst (s : State) (f : Field) (b : Nat) (on : Bool) : (s.wbit f b on).inst = s.inst := rfl
@[simp] theorem State.wbit_modeNext (s : State) (f : Field) (b : Nat) (on : Bool) : (s.wbit f b on).modeNext = s.modeNext := rfl
@[simp] theorem State.wbit_ttu (s : State) (f : Field) (b : Nat) (on : Bool) : (s.wbit f b on).ttu = s.ttu := rfl
@[simp] theorem State.wbit_eth (s : State) (f : Field) (b : Nat) (on : Bool) : (s.wbit f b on).eth = s.eth := rfl
@[simp] theorem State.wbit_sxt (s : State) (f : Field) (b : Nat) (on : Bool) : (s.wbit f b on).sxt = s.sxt := rfl
@[simp] theorem State.wbit_obs (s : State) (f : Field) (b : Nat) (on : Bool) : (s.wbit f b on).obs = s.obs := rfl
@[simp] theorem State.wbit_fix (s : State) (f : Field) (b : Nat) (on : Bool) : (s.wbit f b on).fix = s.fix := rfl
@[simp] theorem State.wbit_cht (s : State) (f : Field) (b : Nat) (on : Bool) : (s.wbit f b on).cht = s.cht := rfl
@[simp] theorem State.wbit_asg (s : State) (f : Field) (b : Nat) (on : Bool) : (s.wbit f b on).asg = s.asg := rfl
@[simp] theorem State.wbit_prf (s : State) (f : Field) (b : Nat) (on : Bool) : (s.wbit f b on).prf = s.prf := rfl
@[simp] theorem State.wbit_pos (s : State) (f : Field) (b : Nat) (on : Bool) : (s.wbit f b on).pos = s.pos := rfl
@[simp] theorem State.wbit_stp (s : State) (f : Field) (b : Nat) (on : Bool) : (s.wbit f b on).stp = s.stp := rfl
@[simp] theorem State.wbit_luv (s : State) (f : Field) (b : Nat) (on : Bool) : (s.wbit f b on).luv = s.luv := rfl
@[simp] theorem State.wbit_sec (s : State) (f : Field) (b : Nat) (on : Bool) : (s.wbit f b on).sec = s.sec := rfl
@[simp] theorem State.wbit_twn (s : State) (f : Field) (b : Nat) (on : Bool) : (s.wbit f b on).twn = s.twn := rfl
@[simp] theorem State.wbit_hst (s : State) (f : Field) (b : Nat) (on : Bool) : (s.wbit f b on).hst = s.hst := rfl
@[simp] theorem State.wbit_cpl (s : State) (f : Field) (b : Nat) (on : Bool) : (s.wbit f b on).cpl = s.cpl := rfl
@[simp] theorem State.wbit_svc (s : State) (f : Field) (b : Nat) (on : Bool) : (s.wbit f b on).svc = s.svc := rfl
@[simp] theorem State.wbit_kvt (s : State) (f : Field) (b : Nat) (on : Bool) : (s.wbit f b on).kvt = s.kvt := rfl
@[simp] theorem State.wbit_log (s : State) (f : Field) (b : Nat) (on : Bool) : (s.wbit f b on).log = s.log := rfl
@[simp] theorem State.wbit_glt (s : State) (f : Field) (b : Nat) (on : Bool) : (s.wbit f b on).glt = s.glt := rfl
@[simp] theorem State.wbit_can (s : State) (f : Field) (b : Nat) (on : Bool) : (s.wbit f b on).can = s.can := rfl
@[simp] theorem State.wbit_bt (s : State) (f : Field) (b : Nat) (on : Bool) : (s.wbit f b on).bt = s.bt := rfl
@[simp] theorem State.wbit_pending (s : State) (f : Field) (b : Nat) (on : Bool) : (s.wbit f b on).pending = s.pending := rfl
@[simp] theorem State.wset_mode (s : State) (f : Field) (b : Nat) (on : Bool) (i : Nat) : (s.wset f b on i).mode = s.mode := rfl
@[simp] theorem State.wset_held (s : State) (f : Field) (b : Nat) (on : Bool) (i : Nat) : (s.wset f b on i).held = s.held := rfl
@[simp] theorem State.wset_tick (s : State) (f : Field) (b : Nat) (on : Bool) (i : Nat) : (s.wset f b on i).tick = s.tick := rfl
@[simp] theorem State.wset_free (s : State) (f : Field) (b : Nat) (on : Bool) (i : Nat) : (s.wset f b on i).free = s.free := rfl
@[simp] theorem State.wset_out (s : State) (f : Field) (b : Nat) (on : Bool) (i : Nat) : (s.wset f b on i).out = s.out := rfl
@[simp] theorem State.wset_onceTick (s : State) (f : Field) (b : Nat) (on : Bool) (i : Nat) : (s.wset f b on i).onceTick = s.onceTick := rfl
@[simp] theorem State.wset_onceWatch (s : State) (f : Field) (b : Nat) (on : Bool) (i : Nat) : (s.wset f b on i).onceWatch = s.onceWatch := rfl
@[simp] theorem State.wset_inst (s : State) (f : Field) (b : Nat) (on : Bool) (i : Nat) : (s.wset f b on i).inst = s.inst := rfl
@[simp] theorem State.wset_modeNext (s : State) (f : Field) (b : Nat) (on : Bool) (i : Nat) : (s.wset f b on i).modeNext = s.modeNext := rfl
@[simp] theorem State.wset_ttu (s : State) (f : Field) (b : Nat) (on : Bool) (i : Nat) : (s.wset f b on i).ttu = s.ttu := rfl
@[simp] theorem State.wset_eth (s : State) (f : Field) (b : Nat) (on : Bool) (i : Nat) : (s.wset f b on i).eth = s.eth := rfl
@[simp] theorem State.wset_sxt (s : State) (f : Field) (b : Nat) (on : Bool) (i : Nat) : (s.wset f b on i).sxt = s.sxt := rfl
@[simp] theorem State.wset_obs (s : State) (f : Field) (b : Nat) (on : Bool) (i : Nat) : (s.wset f b on i).obs = s.obs := rfl
@[simp] theorem State.wset_fix (s : State) (f : Field) (b : Nat) (on : Bool) (i : Nat) : (s.wset f b on i).fix = s.fix := rfl
@[simp] theorem State.wset_cht (s : State) (f : Field) (b : Nat) (on : Bool) (i : Nat) : (s.wset f b on i).cht = s.cht := rfl
@[simp] theorem State.wset_asg (s : State) (f : Field) (b : Nat) (on : Bool) (i : Nat) : (s.wset f b on i).asg = s.asg := rfl
@[simp] theorem State.wset_prf (s : State) (f : Field) (b : Nat) (on : Bool) (i : Nat) : (s.wset f b on i).prf = s.prf := rfl
@[simp] theorem State.wset_pos (s : State) (f : Field) (b : Nat) (on : Bool) (i : Nat) : (s.wset f b on i).pos = s.pos := rfl
@[simp] theorem State.wset_stp (s : State) (f : Field) (b : Nat) (on : Bool) (i : Nat) : (s.wset f b on i).stp = s.stp := rfl
@[simp] theorem State.wset_luv (s : State) (f : Field) (b : Nat) (on : Bool) (i : Nat) : (s.wset f b on i).luv = s.luv := rfl
@[simp] theorem State.wset_sec (s : State) (f : Field) (b : Nat) (on : Bool) (i : Nat) : (s.wset f b on i).sec = s.sec := rfl
@[simp] theorem State.wset_twn (s : State) (f : Field) (b : Nat) (on : Bool) (i : Nat) : (s.wset f b on i).twn = s.twn := rfl
@[simp] theorem State.wset_hst (s : State) (f : Field) (b : Nat) (on : Bool) (i : Nat) : (s.wset f b on i).hst = s.hst := rfl
@[simp] theorem State.wset_cpl (s : State) (f : Field) (b : Nat) (on : Bool) (i : Nat) : (s.wset f b on i).cpl = s.cpl := rfl
@[simp] theorem State.wset_svc (s : State) (f : Field) (b : Nat) (on : Bool) (i : Nat) : (s.wset f b on i).svc = s.svc := rfl
@[simp] theorem State.wset_kvt (s : State) (f : Field) (b : Nat) (on : Bool) (i : Nat) : (s.wset f b on i).kvt = s.kvt := rfl
@[simp] theorem State.wset_log (s : State) (f : Field) (b : Nat) (on : Bool) (i : Nat) : (s.wset f b on i).log = s.log := rfl
@[simp] theorem State.wset_glt (s : State) (f : Field) (b : Nat) (on : Bool) (i : Nat) : (s.wset f b on i).glt = s.glt := rfl
@[simp] theorem State.wset_can (s : State) (f : Field) (b : Nat) (on : Bool) (i : Nat) : (s.wset f b on i).can = s.can := rfl
@[simp] theorem State.wset_bt (s : State) (f : Field) (b : Nat) (on : Bool) (i : Nat) : (s.wset f b on i).bt = s.bt := rfl
@[simp] theorem State.wset_pending (s : State) (f : Field) (b : Nat) (on : Bool) (i : Nat) : (s.wset f b on i).pending = s.pending := rfl
@[simp] theorem State.wi_mode (s : State) (f : Field) (v : Int) (i j : Nat) : (s.wi f v i j).mode = s.mode := rfl
@[simp] theorem State.wi_held (s : State) (f : Field) (v : Int) (i j : Nat) : (s.wi f v i j).held = s.held := rfl
@[simp] theorem State.wi_tick (s : State) (f : Field) (v : Int) (i j : Nat) : (s.wi f v i j).tick = s.tick := rfl
@[simp] theorem State.wi_free (s : State) (f : Field) (v : Int) (i j : Nat) : (s.wi f v i j).free = s.free := rfl
@[simp] theorem State.wi_out (s : State) (f : Field) (v : Int) (i j : Nat) : (s.wi f v i j).out = s.out := rfl
@[simp] theorem State.wi_onceTick (s : State) (f : Field) (v : Int) (i j : Nat) : (s.wi f v i j).onceTick = s.onceTick := rfl
@[simp] theorem State.wi_onceWatch (s : State) (f : Field) (v : Int) (i j : Nat) : (s.wi f v i j).onceWatch = s.onceWatch := rfl
@[simp] theorem State.wi_inst (s : State) (f : Field) (v : Int) (i j : Nat) : (s.wi f v i j).inst = s.inst := rfl
@[simp] theorem State.wi_modeNext (s : State) (f : Field) (v : Int) (i j : Nat) : (s.wi f v i j).modeNext = s.modeNext := rfl
@[simp] theorem State.wi_ttu (s : State) (f : Field) (v : Int) (i j : Nat) : (s.wi f v i j).ttu = s.ttu := rfl
@[simp] theorem State.wi_eth (s : State) (f : Field) (v : Int) (i j : Nat) : (s.wi f v i j).eth = s.eth := rfl
@[simp] theorem State.wi_sxt (s : State) (f : Field) (v : Int) (i j : Nat) : (s.wi f v i j).sxt = s.sxt := rfl
@[simp] theorem State.wi_obs (s : State) (f : Field) (v : Int) (i j : Nat) : (s.wi f v i j).obs = s.obs := rfl
@[simp] theorem State.wi_fix (s : State) (f : Field) (v : Int) (i j : Nat) : (s.wi f v i j).fix = s.fix := rfl
@[simp] theorem State.wi_cht (s : State) (f : Field) (v : Int) (i j : Nat) : (s.wi f v i j).cht = s.cht := rfl
@[simp] theorem State.wi_asg (s : State) (f : Field) (v : Int) (i j : Nat) : (s.wi f v i j).asg = s.asg := rfl
@[simp] theorem State.wi_prf (s : State) (f : Field) (v : Int) (i j : Nat) : (s.wi f v i j).prf = s.prf := rfl
@[simp] theorem State.wi_pos (s : State) (f : Field) (v : Int) (i j : Nat) : (s.wi f v i j).pos = s.pos := rfl
@[simp] theorem State.wi_stp (s : State) (f : Field) (v : Int) (i j : Nat) : (s.wi f v i j).stp = s.stp := rfl
@[simp] theorem State.wi_luv (s : State) (f : Field) (v : Int) (i j : Nat) : (s.wi f v i j).luv = s.luv := rfl
@[simp] theorem State.wi_sec (s : State) (f : Field) (v : Int) (i j : Nat) : (s.wi f v i j).sec = s.sec := rfl
@[simp] theorem State.wi_twn (s : State) (f : Field) (v : Int) (i j : Nat) : (s.wi f v i j).twn = s.twn := rfl
@[simp] theorem State.wi_hst (s : State) (f : Field) (v : Int) (i j : Nat) : (s.wi f v i j).hst = s.hst := rfl
@[simp] theorem State.wi_cpl (s : State) (f : Field) (v : Int) (i j : Nat) : (s.wi f v i j).cpl = s.cpl := rfl
@[simp] theorem State.wi_svc (s : State) (f : Field) (v : Int) (i j : Nat) : (s.wi f v i j).svc = s.svc := rfl
@[simp] theorem State.wi_kvt (s : State) (f : Field) (v : Int) (i j : Nat) : (s.wi f v i j).kvt = s.kvt := rfl
@[simp] theorem State.wi_log (s : State) (f : Field) (v : Int) (i j : Nat) : (s.wi f v i j).log = s.log := rfl
@[simp] theorem State.wi_glt (s : State) (f : Field) (v : Int) (i j : Nat) : (s.wi f v i j).glt = s.glt := rfl
@[simp] theorem State.wi_can (s : State) (f : Field) (v : Int) (i j : Nat) : (s.wi f v i j).can = s.can := rfl
@[simp] theorem State.wi_bt (s : State) (f : Field) (v : Int) (i j : Nat) : (s.wi f v i j).bt = s.bt := rfl
@[simp] theorem State.wi_pending (s : State) (f : Field) (v : Int) (i j : Nat) : (s.wi f v i j).pending = s.pending := rfl

/-! ### What an output leaves alone -/

@[simp] theorem State.emit_mode (s : State) (o : Out) : (s.emit o).mode = s.mode := rfl
@[simp] theorem State.emit_held (s : State) (o : Out) : (s.emit o).held = s.held := rfl
@[simp] theorem State.emit_tick (s : State) (o : Out) : (s.emit o).tick = s.tick := rfl
@[simp] theorem State.emit_regs (s : State) (o : Out) : (s.emit o).regs = s.regs := rfl
@[simp] theorem State.emit_free (s : State) (o : Out) : (s.emit o).free = s.free := rfl
@[simp] theorem State.emit_onceTick (s : State) (o : Out) : (s.emit o).onceTick = s.onceTick := rfl
@[simp] theorem State.emit_onceWatch (s : State) (o : Out) : (s.emit o).onceWatch = s.onceWatch := rfl
@[simp] theorem State.emit_inst (s : State) (o : Out) : (s.emit o).inst = s.inst := rfl
@[simp] theorem State.emit_modeNext (s : State) (o : Out) : (s.emit o).modeNext = s.modeNext := rfl
@[simp] theorem State.emit_ttu (s : State) (o : Out) : (s.emit o).ttu = s.ttu := rfl
@[simp] theorem State.emit_eth (s : State) (o : Out) : (s.emit o).eth = s.eth := rfl
@[simp] theorem State.emit_sxt (s : State) (o : Out) : (s.emit o).sxt = s.sxt := rfl
@[simp] theorem State.emit_obs (s : State) (o : Out) : (s.emit o).obs = s.obs := rfl
@[simp] theorem State.emit_fix (s : State) (o : Out) : (s.emit o).fix = s.fix := rfl
@[simp] theorem State.emit_cht (s : State) (o : Out) : (s.emit o).cht = s.cht := rfl
@[simp] theorem State.emit_asg (s : State) (o : Out) : (s.emit o).asg = s.asg := rfl
@[simp] theorem State.emit_prf (s : State) (o : Out) : (s.emit o).prf = s.prf := rfl
@[simp] theorem State.emit_pos (s : State) (o : Out) : (s.emit o).pos = s.pos := rfl
@[simp] theorem State.emit_stp (s : State) (o : Out) : (s.emit o).stp = s.stp := rfl
@[simp] theorem State.emit_luv (s : State) (o : Out) : (s.emit o).luv = s.luv := rfl
@[simp] theorem State.emit_sec (s : State) (o : Out) : (s.emit o).sec = s.sec := rfl
@[simp] theorem State.emit_twn (s : State) (o : Out) : (s.emit o).twn = s.twn := rfl
@[simp] theorem State.emit_hst (s : State) (o : Out) : (s.emit o).hst = s.hst := rfl
@[simp] theorem State.emit_cpl (s : State) (o : Out) : (s.emit o).cpl = s.cpl := rfl
@[simp] theorem State.emit_svc (s : State) (o : Out) : (s.emit o).svc = s.svc := rfl
@[simp] theorem State.emit_kvt (s : State) (o : Out) : (s.emit o).kvt = s.kvt := rfl
@[simp] theorem State.emit_log (s : State) (o : Out) : (s.emit o).log = s.log := rfl
@[simp] theorem State.emit_glt (s : State) (o : Out) : (s.emit o).glt = s.glt := rfl
@[simp] theorem State.emit_can (s : State) (o : Out) : (s.emit o).can = s.can := rfl
@[simp] theorem State.emit_bt (s : State) (o : Out) : (s.emit o).bt = s.bt := rfl
@[simp] theorem State.emit_pending (s : State) (o : Out) : (s.emit o).pending = s.pending := rfl
@[simp] theorem State.emit_out (s : State) (o : Out) : (s.emit o).out = s.out ++ [o] := rfl
@[simp] theorem State.emit_r (s : State) (o : Out) (f : Field) (i j : Nat) : (s.emit o).r f i j = s.r f i j := rfl

/-! ### What drawing a free value leaves alone -/

@[simp] theorem State.fresh_mode (s : State) : s.fresh.2.mode = s.mode := rfl
@[simp] theorem State.fresh_held (s : State) : s.fresh.2.held = s.held := rfl
@[simp] theorem State.fresh_tick (s : State) : s.fresh.2.tick = s.tick := rfl
@[simp] theorem State.fresh_regs (s : State) : s.fresh.2.regs = s.regs := rfl
@[simp] theorem State.fresh_out (s : State) : s.fresh.2.out = s.out := rfl
@[simp] theorem State.fresh_onceTick (s : State) : s.fresh.2.onceTick = s.onceTick := rfl
@[simp] theorem State.fresh_onceWatch (s : State) : s.fresh.2.onceWatch = s.onceWatch := rfl
@[simp] theorem State.fresh_inst (s : State) : s.fresh.2.inst = s.inst := rfl
@[simp] theorem State.fresh_modeNext (s : State) : s.fresh.2.modeNext = s.modeNext := rfl
@[simp] theorem State.fresh_ttu (s : State) : s.fresh.2.ttu = s.ttu := rfl
@[simp] theorem State.fresh_eth (s : State) : s.fresh.2.eth = s.eth := rfl
@[simp] theorem State.fresh_sxt (s : State) : s.fresh.2.sxt = s.sxt := rfl
@[simp] theorem State.fresh_obs (s : State) : s.fresh.2.obs = s.obs := rfl
@[simp] theorem State.fresh_fix (s : State) : s.fresh.2.fix = s.fix := rfl
@[simp] theorem State.fresh_cht (s : State) : s.fresh.2.cht = s.cht := rfl
@[simp] theorem State.fresh_asg (s : State) : s.fresh.2.asg = s.asg := rfl
@[simp] theorem State.fresh_prf (s : State) : s.fresh.2.prf = s.prf := rfl
@[simp] theorem State.fresh_pos (s : State) : s.fresh.2.pos = s.pos := rfl
@[simp] theorem State.fresh_stp (s : State) : s.fresh.2.stp = s.stp := rfl
@[simp] theorem State.fresh_luv (s : State) : s.fresh.2.luv = s.luv := rfl
@[simp] theorem State.fresh_sec (s : State) : s.fresh.2.sec = s.sec := rfl
@[simp] theorem State.fresh_twn (s : State) : s.fresh.2.twn = s.twn := rfl
@[simp] theorem State.fresh_hst (s : State) : s.fresh.2.hst = s.hst := rfl
@[simp] theorem State.fresh_cpl (s : State) : s.fresh.2.cpl = s.cpl := rfl
@[simp] theorem State.fresh_svc (s : State) : s.fresh.2.svc = s.svc := rfl
@[simp] theorem State.fresh_kvt (s : State) : s.fresh.2.kvt = s.kvt := rfl
@[simp] theorem State.fresh_log (s : State) : s.fresh.2.log = s.log := rfl
@[simp] theorem State.fresh_glt (s : State) : s.fresh.2.glt = s.glt := rfl
@[simp] theorem State.fresh_can (s : State) : s.fresh.2.can = s.can := rfl
@[simp] theorem State.fresh_bt (s : State) : s.fresh.2.bt = s.bt := rfl
@[simp] theorem State.fresh_pending (s : State) : s.fresh.2.pending = s.pending := rfl
@[simp] theorem State.fresh_r (s : State) (f : Field) (i j : Nat) : s.fresh.2.r f i j = s.r f i j := rfl

/-! ### The start of a command and its queue -/

@[simp] theorem State.start_mode (s : State) : s.start.mode = s.mode := rfl
@[simp] theorem State.start_held (s : State) : s.start.held = s.held := rfl
@[simp] theorem State.start_tick (s : State) : s.start.tick = s.tick := rfl
@[simp] theorem State.start_regs (s : State) : s.start.regs = s.regs := rfl
@[simp] theorem State.start_free (s : State) : s.start.free = s.free := rfl
@[simp] theorem State.start_onceTick (s : State) : s.start.onceTick = s.onceTick := rfl
@[simp] theorem State.start_onceWatch (s : State) : s.start.onceWatch = s.onceWatch := rfl
@[simp] theorem State.start_inst (s : State) : s.start.inst = s.inst := rfl
@[simp] theorem State.start_modeNext (s : State) : s.start.modeNext = s.modeNext := rfl
@[simp] theorem State.start_ttu (s : State) : s.start.ttu = s.ttu := rfl
@[simp] theorem State.start_eth (s : State) : s.start.eth = s.eth := rfl
@[simp] theorem State.start_sxt (s : State) : s.start.sxt = s.sxt := rfl
@[simp] theorem State.start_obs (s : State) : s.start.obs = s.obs := rfl
@[simp] theorem State.start_fix (s : State) : s.start.fix = s.fix := rfl
@[simp] theorem State.start_cht (s : State) : s.start.cht = s.cht := rfl
@[simp] theorem State.start_asg (s : State) : s.start.asg = s.asg := rfl
@[simp] theorem State.start_prf (s : State) : s.start.prf = s.prf := rfl
@[simp] theorem State.start_pos (s : State) : s.start.pos = s.pos := rfl
@[simp] theorem State.start_stp (s : State) : s.start.stp = s.stp := rfl
@[simp] theorem State.start_luv (s : State) : s.start.luv = s.luv := rfl
@[simp] theorem State.start_sec (s : State) : s.start.sec = s.sec := rfl
@[simp] theorem State.start_twn (s : State) : s.start.twn = s.twn := rfl
@[simp] theorem State.start_hst (s : State) : s.start.hst = s.hst := rfl
@[simp] theorem State.start_cpl (s : State) : s.start.cpl = s.cpl := rfl
@[simp] theorem State.start_svc (s : State) : s.start.svc = s.svc := rfl
@[simp] theorem State.start_kvt (s : State) : s.start.kvt = s.kvt := rfl
@[simp] theorem State.start_log (s : State) : s.start.log = s.log := rfl
@[simp] theorem State.start_glt (s : State) : s.start.glt = s.glt := rfl
@[simp] theorem State.start_can (s : State) : s.start.can = s.can := rfl
@[simp] theorem State.start_bt (s : State) : s.start.bt = s.bt := rfl
@[simp] theorem State.start_pending (s : State) : s.start.pending = s.pending := rfl
@[simp] theorem State.start_out (s : State) : s.start.out = [] := rfl
@[simp] theorem State.start_r (s : State) (f : Field) (i j : Nat) : s.start.r f i j = s.r f i j := rfl
@[simp] theorem State.start_rb (s : State) (f : Field) (i j : Nat) : s.start.rb f i j = s.rb f i j := rfl
@[simp] theorem State.requeue_mode (s : State) (q : List Instr) : (s.requeue q).mode = s.mode := rfl
@[simp] theorem State.requeue_held (s : State) (q : List Instr) : (s.requeue q).held = s.held := rfl
@[simp] theorem State.requeue_tick (s : State) (q : List Instr) : (s.requeue q).tick = s.tick := rfl
@[simp] theorem State.requeue_regs (s : State) (q : List Instr) : (s.requeue q).regs = s.regs := rfl
@[simp] theorem State.requeue_free (s : State) (q : List Instr) : (s.requeue q).free = s.free := rfl
@[simp] theorem State.requeue_out (s : State) (q : List Instr) : (s.requeue q).out = s.out := rfl
@[simp] theorem State.requeue_onceTick (s : State) (q : List Instr) : (s.requeue q).onceTick = s.onceTick := rfl
@[simp] theorem State.requeue_onceWatch (s : State) (q : List Instr) : (s.requeue q).onceWatch = s.onceWatch := rfl
@[simp] theorem State.requeue_inst (s : State) (q : List Instr) : (s.requeue q).inst = s.inst := rfl
@[simp] theorem State.requeue_modeNext (s : State) (q : List Instr) : (s.requeue q).modeNext = s.modeNext := rfl
@[simp] theorem State.requeue_ttu (s : State) (q : List Instr) : (s.requeue q).ttu = s.ttu := rfl
@[simp] theorem State.requeue_eth (s : State) (q : List Instr) : (s.requeue q).eth = s.eth := rfl
@[simp] theorem State.requeue_sxt (s : State) (q : List Instr) : (s.requeue q).sxt = s.sxt := rfl
@[simp] theorem State.requeue_obs (s : State) (q : List Instr) : (s.requeue q).obs = s.obs := rfl
@[simp] theorem State.requeue_fix (s : State) (q : List Instr) : (s.requeue q).fix = s.fix := rfl
@[simp] theorem State.requeue_cht (s : State) (q : List Instr) : (s.requeue q).cht = s.cht := rfl
@[simp] theorem State.requeue_asg (s : State) (q : List Instr) : (s.requeue q).asg = s.asg := rfl
@[simp] theorem State.requeue_prf (s : State) (q : List Instr) : (s.requeue q).prf = s.prf := rfl
@[simp] theorem State.requeue_pos (s : State) (q : List Instr) : (s.requeue q).pos = s.pos := rfl
@[simp] theorem State.requeue_stp (s : State) (q : List Instr) : (s.requeue q).stp = s.stp := rfl
@[simp] theorem State.requeue_luv (s : State) (q : List Instr) : (s.requeue q).luv = s.luv := rfl
@[simp] theorem State.requeue_sec (s : State) (q : List Instr) : (s.requeue q).sec = s.sec := rfl
@[simp] theorem State.requeue_twn (s : State) (q : List Instr) : (s.requeue q).twn = s.twn := rfl
@[simp] theorem State.requeue_hst (s : State) (q : List Instr) : (s.requeue q).hst = s.hst := rfl
@[simp] theorem State.requeue_cpl (s : State) (q : List Instr) : (s.requeue q).cpl = s.cpl := rfl
@[simp] theorem State.requeue_svc (s : State) (q : List Instr) : (s.requeue q).svc = s.svc := rfl
@[simp] theorem State.requeue_kvt (s : State) (q : List Instr) : (s.requeue q).kvt = s.kvt := rfl
@[simp] theorem State.requeue_log (s : State) (q : List Instr) : (s.requeue q).log = s.log := rfl
@[simp] theorem State.requeue_glt (s : State) (q : List Instr) : (s.requeue q).glt = s.glt := rfl
@[simp] theorem State.requeue_can (s : State) (q : List Instr) : (s.requeue q).can = s.can := rfl
@[simp] theorem State.requeue_bt (s : State) (q : List Instr) : (s.requeue q).bt = s.bt := rfl
@[simp] theorem State.requeue_pending (s : State) (q : List Instr) : (s.requeue q).pending = q := rfl
@[simp] theorem State.requeue_r (s : State) (q : List Instr) (f : Field) (i j : Nat) : (s.requeue q).r f i j = s.r f i j := rfl
@[simp] theorem State.requeue_rb (s : State) (q : List Instr) (f : Field) (i j : Nat) : (s.requeue q).rb f i j = s.rb f i j := rfl
@[simp] theorem State.atInst_mode (s : State) (i : Option Nat) : (s.atInst i).mode = s.mode := rfl
@[simp] theorem State.atInst_held (s : State) (i : Option Nat) : (s.atInst i).held = s.held := rfl
@[simp] theorem State.atInst_tick (s : State) (i : Option Nat) : (s.atInst i).tick = s.tick := rfl
@[simp] theorem State.atInst_regs (s : State) (i : Option Nat) : (s.atInst i).regs = s.regs := rfl
@[simp] theorem State.atInst_free (s : State) (i : Option Nat) : (s.atInst i).free = s.free := rfl
@[simp] theorem State.atInst_out (s : State) (i : Option Nat) : (s.atInst i).out = s.out := rfl
@[simp] theorem State.atInst_onceTick (s : State) (i : Option Nat) : (s.atInst i).onceTick = s.onceTick := rfl
@[simp] theorem State.atInst_onceWatch (s : State) (i : Option Nat) : (s.atInst i).onceWatch = s.onceWatch := rfl
@[simp] theorem State.atInst_modeNext (s : State) (i : Option Nat) : (s.atInst i).modeNext = s.modeNext := rfl
@[simp] theorem State.atInst_ttu (s : State) (i : Option Nat) : (s.atInst i).ttu = s.ttu := rfl
@[simp] theorem State.atInst_eth (s : State) (i : Option Nat) : (s.atInst i).eth = s.eth := rfl
@[simp] theorem State.atInst_sxt (s : State) (i : Option Nat) : (s.atInst i).sxt = s.sxt := rfl
@[simp] theorem State.atInst_obs (s : State) (i : Option Nat) : (s.atInst i).obs = s.obs := rfl
@[simp] theorem State.atInst_fix (s : State) (i : Option Nat) : (s.atInst i).fix = s.fix := rfl
@[simp] theorem State.atInst_cht (s : State) (i : Option Nat) : (s.atInst i).cht = s.cht := rfl
@[simp] theorem State.atInst_asg (s : State) (i : Option Nat) : (s.atInst i).asg = s.asg := rfl
@[simp] theorem State.atInst_prf (s : State) (i : Option Nat) : (s.atInst i).prf = s.prf := rfl
@[simp] theorem State.atInst_pos (s : State) (i : Option Nat) : (s.atInst i).pos = s.pos := rfl
@[simp] theorem State.atInst_stp (s : State) (i : Option Nat) : (s.atInst i).stp = s.stp := rfl
@[simp] theorem State.atInst_luv (s : State) (i : Option Nat) : (s.atInst i).luv = s.luv := rfl
@[simp] theorem State.atInst_sec (s : State) (i : Option Nat) : (s.atInst i).sec = s.sec := rfl
@[simp] theorem State.atInst_twn (s : State) (i : Option Nat) : (s.atInst i).twn = s.twn := rfl
@[simp] theorem State.atInst_hst (s : State) (i : Option Nat) : (s.atInst i).hst = s.hst := rfl
@[simp] theorem State.atInst_cpl (s : State) (i : Option Nat) : (s.atInst i).cpl = s.cpl := rfl
@[simp] theorem State.atInst_svc (s : State) (i : Option Nat) : (s.atInst i).svc = s.svc := rfl
@[simp] theorem State.atInst_kvt (s : State) (i : Option Nat) : (s.atInst i).kvt = s.kvt := rfl
@[simp] theorem State.atInst_log (s : State) (i : Option Nat) : (s.atInst i).log = s.log := rfl
@[simp] theorem State.atInst_glt (s : State) (i : Option Nat) : (s.atInst i).glt = s.glt := rfl
@[simp] theorem State.atInst_can (s : State) (i : Option Nat) : (s.atInst i).can = s.can := rfl
@[simp] theorem State.atInst_bt (s : State) (i : Option Nat) : (s.atInst i).bt = s.bt := rfl
@[simp] theorem State.atInst_pending (s : State) (i : Option Nat) : (s.atInst i).pending = s.pending := rfl
@[simp] theorem State.atInst_inst (s : State) (i : Option Nat) : (s.atInst i).inst = i := rfl
@[simp] theorem State.atInst_r (s : State) (k : Option Nat) (f : Field) (i j : Nat) : (s.atInst k).r f i j = s.r f i j := rfl
@[simp] theorem State.atInst_rb (s : State) (k : Option Nat) (f : Field) (i j : Nat) : (s.atInst k).rb f i j = s.rb f i j := rfl

end Sys2Proof.Machine
end

