-- ==== Sys2Proof/Laws/Ops.lean ====
section
/-! SUPPORT. Sys2Proof/Laws/Ops.lean: what the shared operations can do: a pending Logbook record, the raising of an event, a
completion, the acceptance of a command, and the frame every command runs in. -/

namespace Sys2Proof.Machine

open Sys2Proof

/-! ### Records and events touch the event machinery alone -/

/-- From s to t nothing but the event machinery changes: registers, free values, the raisings limited to one a tick, the
Logbook queue, the event records that wait and Glint's event samples. -/
def EvtOnly (s t : State) : Prop :=
  t = { s with
    regs := t.regs, free := t.free, onceTick := t.onceTick
    log := { s.log with queue := t.log.queue }
    hst := { s.hst with evq := t.hst.evq, evOvf := t.hst.evOvf }
    glt := { s.glt with evts := t.glt.evts } }

theorem EvtOnly.rfl' (s : State) : EvtOnly s s := rfl

theorem EvtOnly.trans {s t u : State} (h : EvtOnly s t) (k : EvtOnly t u) : EvtOnly s u := by
  unfold EvtOnly at *
  rw [k, h]

theorem w_evtOnly (s : State) (f : Field) (v i j : Nat) : EvtOnly s (s.w f v i j) := rfl

theorem logPush_evtOnly (s : State) (r : LogRec) : EvtOnly s (logPush s r) := by
  unfold logPush; split <;> rfl

theorem logNow_evtOnly (s : State) (k : LogKind) (src : Nat) (d : List Byte) : EvtOnly s (logNow s k src d) := by
  unfold logNow
  exact EvtOnly.trans (t := s.fresh.2) rfl (logPush_evtOnly _ _)

theorem gltEvent_evtOnly (s : State) (e d : Nat) : EvtOnly s (gltEvent s e d) := by
  unfold gltEvent; split <;> rfl

theorem raiseMark_evtOnly (s : State) (e d : Nat) : EvtOnly s (raiseMark s e d) := by
  unfold raiseMark
  have h : EvtOnly s (gltEvent (s.wbit Reg.HST_EVT_PEND.PEND e true) e d) :=
    EvtOnly.trans (t := s.wbit Reg.HST_EVT_PEND.PEND e true) rfl (gltEvent_evtOnly _ _ _)
  dsimp only
  split
  · exact h.trans (logNow_evtOnly _ _ _ _)
  · exact h

theorem routeTo_evtOnly (s : State) (e d q : Nat) : EvtOnly s (routeTo s e d q) := by
  unfold routeTo
  split
  · rfl
  · split
    · dsimp only; split <;> rfl
    · rfl

theorem raiseCore_evtOnly (s : State) (e d : Nat) : EvtOnly s (raiseCore s e d) := by
  unfold raiseCore
  dsimp only
  split
  · exact (raiseMark_evtOnly s e d).trans (routeTo_evtOnly _ _ _ _)
  · exact raiseMark_evtOnly s e d

/-- A raising changes the event machinery alone. -/
theorem raise_evtOnly (s : State) (e d : Nat) : EvtOnly s (raise s e d) := by
  unfold raise
  dsimp only
  split
  · exact raiseCore_evtOnly s e d
  · exact ((raiseCore_evtOnly s e d).trans
      (u := { raiseCore s e d with onceTick := (raiseCore s e d).onceTick ++ [493] }) (by
        have h := raiseCore_evtOnly s e d
        unfold EvtOnly at *
        rfl)).trans (raiseCore_evtOnly _ _ _)

theorem raiseTick_evtOnly (s : State) (e d : Nat) : EvtOnly s (raiseTick s e d) := by
  unfold raiseTick raiseTickKey
  split
  · rfl
  · exact EvtOnly.trans (t := { s with onceTick := s.onceTick ++ [e] }) rfl (raise_evtOnly _ _ _)

/-- A raising limited to one a watch changes beside the event machinery only the list of those made. -/
theorem raiseWatch_evtOnly (s : State) (e d : Nat) :
    EvtOnly { s with onceWatch := (raiseWatch s e d).onceWatch } (raiseWatch s e d) := by
  unfold raiseWatch
  split
  · rfl
  · have h := raise_evtOnly { s with onceWatch := s.onceWatch ++ [e] } e d
    unfold EvtOnly at *
    rw [h]


/-! ### What raise leaves alone -/

@[simp] theorem raise_mode (s : State) (e d : Nat) : (raise s e d).mode = s.mode := by
  rw [raise_evtOnly s e d]
@[simp] theorem raise_held (s : State) (e d : Nat) : (raise s e d).held = s.held := by
  rw [raise_evtOnly s e d]
@[simp] theorem raise_tick (s : State) (e d : Nat) : (raise s e d).tick = s.tick := by
  rw [raise_evtOnly s e d]
@[simp] theorem raise_out (s : State) (e d : Nat) : (raise s e d).out = s.out := by
  rw [raise_evtOnly s e d]
@[simp] theorem raise_onceWatch (s : State) (e d : Nat) : (raise s e d).onceWatch = s.onceWatch := by
  rw [raise_evtOnly s e d]
@[simp] theorem raise_inst (s : State) (e d : Nat) : (raise s e d).inst = s.inst := by
  rw [raise_evtOnly s e d]
@[simp] theorem raise_modeNext (s : State) (e d : Nat) : (raise s e d).modeNext = s.modeNext := by
  rw [raise_evtOnly s e d]
@[simp] theorem raise_ttu (s : State) (e d : Nat) : (raise s e d).ttu = s.ttu := by
  rw [raise_evtOnly s e d]
@[simp] theorem raise_eth (s : State) (e d : Nat) : (raise s e d).eth = s.eth := by
  rw [raise_evtOnly s e d]
@[simp] theorem raise_sxt (s : State) (e d : Nat) : (raise s e d).sxt = s.sxt := by
  rw [raise_evtOnly s e d]
@[simp] theorem raise_obs (s : State) (e d : Nat) : (raise s e d).obs = s.obs := by
  rw [raise_evtOnly s e d]
@[simp] theorem raise_fix (s : State) (e d : Nat) : (raise s e d).fix = s.fix := by
  rw [raise_evtOnly s e d]
@[simp] theorem raise_cht (s : State) (e d : Nat) : (raise s e d).cht = s.cht := by
  rw [raise_evtOnly s e d]
@[simp] theorem raise_asg (s : State) (e d : Nat) : (raise s e d).asg = s.asg := by
  rw [raise_evtOnly s e d]
@[simp] theorem raise_prf (s : State) (e d : Nat) : (raise s e d).prf = s.prf := by
  rw [raise_evtOnly s e d]
@[simp] theorem raise_pos (s : State) (e d : Nat) : (raise s e d).pos = s.pos := by
  rw [raise_evtOnly s e d]
@[simp] theorem raise_stp (s : State) (e d : Nat) : (raise s e d).stp = s.stp := by
  rw [raise_evtOnly s e d]
@[simp] theorem raise_luv (s : State) (e d : Nat) : (raise s e d).luv = s.luv := by
  rw [raise_evtOnly s e d]
@[simp] theorem raise_sec (s : State) (e d : Nat) : (raise s e d).sec = s.sec := by
  rw [raise_evtOnly s e d]
@[simp] theorem raise_twn (s : State) (e d : Nat) : (raise s e d).twn = s.twn := by
  rw [raise_evtOnly s e d]
@[simp] theorem raise_cpl (s : State) (e d : Nat) : (raise s e d).cpl = s.cpl := by
  rw [raise_evtOnly s e d]
@[simp] theorem raise_svc (s : State) (e d : Nat) : (raise s e d).svc = s.svc := by
  rw [raise_evtOnly s e d]
@[simp] theorem raise_kvt (s : State) (e d : Nat) : (raise s e d).kvt = s.kvt := by
  rw [raise_evtOnly s e d]
@[simp] theorem raise_can (s : State) (e d : Nat) : (raise s e d).can = s.can := by
  rw [raise_evtOnly s e d]
@[simp] theorem raise_bt (s : State) (e d : Nat) : (raise s e d).bt = s.bt := by
  rw [raise_evtOnly s e d]
@[simp] theorem raise_pending (s : State) (e d : Nat) : (raise s e d).pending = s.pending := by
  rw [raise_evtOnly s e d]
@[simp] theorem raise_hst_started (s : State) (e d : Nat) : (raise s e d).hst.started = s.hst.started := by
  rw [raise_evtOnly s e d]
@[simp] theorem raise_hst_compl (s : State) (e d : Nat) : (raise s e d).hst.compl = s.hst.compl := by
  rw [raise_evtOnly s e d]
@[simp] theorem raise_hst_waiting (s : State) (e d : Nat) : (raise s e d).hst.waiting = s.hst.waiting := by
  rw [raise_evtOnly s e d]
@[simp] theorem raise_hst_reading (s : State) (e d : Nat) : (raise s e d).hst.reading = s.hst.reading := by
  rw [raise_evtOnly s e d]
@[simp] theorem raise_hst_linkUp (s : State) (e d : Nat) : (raise s e d).hst.linkUp = s.hst.linkUp := by
  rw [raise_evtOnly s e d]
@[simp] theorem raise_hst_pcie (s : State) (e d : Nat) : (raise s e d).hst.pcie = s.hst.pcie := by
  rw [raise_evtOnly s e d]
@[simp] theorem raise_hst_eqOn (s : State) (e d : Nat) : (raise s e d).hst.eqOn = s.hst.eqOn := by
  rw [raise_evtOnly s e d]
@[simp] theorem raise_hst_cqOn (s : State) (e d : Nat) : (raise s e d).hst.cqOn = s.hst.cqOn := by
  rw [raise_evtOnly s e d]

/-! ### What raiseTick leaves alone -/

@[simp] theorem raiseTick_mode (s : State) (e d : Nat) : (raiseTick s e d).mode = s.mode := by
  rw [raiseTick_evtOnly s e d]
@[simp] theorem raiseTick_held (s : State) (e d : Nat) : (raiseTick s e d).held = s.held := by
  rw [raiseTick_evtOnly s e d]
@[simp] theorem raiseTick_tick (s : State) (e d : Nat) : (raiseTick s e d).tick = s.tick := by
  rw [raiseTick_evtOnly s e d]
@[simp] theorem raiseTick_out (s : State) (e d : Nat) : (raiseTick s e d).out = s.out := by
  rw [raiseTick_evtOnly s e d]
@[simp] theorem raiseTick_onceWatch (s : State) (e d : Nat) : (raiseTick s e d).onceWatch = s.onceWatch := by
  rw [raiseTick_evtOnly s e d]
@[simp] theorem raiseTick_inst (s : State) (e d : Nat) : (raiseTick s e d).inst = s.inst := by
  rw [raiseTick_evtOnly s e d]
@[simp] theorem raiseTick_modeNext (s : State) (e d : Nat) : (raiseTick s e d).modeNext = s.modeNext := by
  rw [raiseTick_evtOnly s e d]
@[simp] theorem raiseTick_ttu (s : State) (e d : Nat) : (raiseTick s e d).ttu = s.ttu := by
  rw [raiseTick_evtOnly s e d]
@[simp] theorem raiseTick_eth (s : State) (e d : Nat) : (raiseTick s e d).eth = s.eth := by
  rw [raiseTick_evtOnly s e d]
@[simp] theorem raiseTick_sxt (s : State) (e d : Nat) : (raiseTick s e d).sxt = s.sxt := by
  rw [raiseTick_evtOnly s e d]
@[simp] theorem raiseTick_obs (s : State) (e d : Nat) : (raiseTick s e d).obs = s.obs := by
  rw [raiseTick_evtOnly s e d]
@[simp] theorem raiseTick_fix (s : State) (e d : Nat) : (raiseTick s e d).fix = s.fix := by
  rw [raiseTick_evtOnly s e d]
@[simp] theorem raiseTick_cht (s : State) (e d : Nat) : (raiseTick s e d).cht = s.cht := by
  rw [raiseTick_evtOnly s e d]
@[simp] theorem raiseTick_asg (s : State) (e d : Nat) : (raiseTick s e d).asg = s.asg := by
  rw [raiseTick_evtOnly s e d]
@[simp] theorem raiseTick_prf (s : State) (e d : Nat) : (raiseTick s e d).prf = s.prf := by
  rw [raiseTick_evtOnly s e d]
@[simp] theorem raiseTick_pos (s : State) (e d : Nat) : (raiseTick s e d).pos = s.pos := by
  rw [raiseTick_evtOnly s e d]
@[simp] theorem raiseTick_stp (s : State) (e d : Nat) : (raiseTick s e d).stp = s.stp := by
  rw [raiseTick_evtOnly s e d]
@[simp] theorem raiseTick_luv (s : State) (e d : Nat) : (raiseTick s e d).luv = s.luv := by
  rw [raiseTick_evtOnly s e d]
@[simp] theorem raiseTick_sec (s : State) (e d : Nat) : (raiseTick s e d).sec = s.sec := by
  rw [raiseTick_evtOnly s e d]
@[simp] theorem raiseTick_twn (s : State) (e d : Nat) : (raiseTick s e d).twn = s.twn := by
  rw [raiseTick_evtOnly s e d]
@[simp] theorem raiseTick_cpl (s : State) (e d : Nat) : (raiseTick s e d).cpl = s.cpl := by
  rw [raiseTick_evtOnly s e d]
@[simp] theorem raiseTick_svc (s : State) (e d : Nat) : (raiseTick s e d).svc = s.svc := by
  rw [raiseTick_evtOnly s e d]
@[simp] theorem raiseTick_kvt (s : State) (e d : Nat) : (raiseTick s e d).kvt = s.kvt := by
  rw [raiseTick_evtOnly s e d]
@[simp] theorem raiseTick_can (s : State) (e d : Nat) : (raiseTick s e d).can = s.can := by
  rw [raiseTick_evtOnly s e d]
@[simp] theorem raiseTick_bt (s : State) (e d : Nat) : (raiseTick s e d).bt = s.bt := by
  rw [raiseTick_evtOnly s e d]
@[simp] theorem raiseTick_pending (s : State) (e d : Nat) : (raiseTick s e d).pending = s.pending := by
  rw [raiseTick_evtOnly s e d]
@[simp] theorem raiseTick_hst_started (s : State) (e d : Nat) : (raiseTick s e d).hst.started = s.hst.started := by
  rw [raiseTick_evtOnly s e d]
@[simp] theorem raiseTick_hst_compl (s : State) (e d : Nat) : (raiseTick s e d).hst.compl = s.hst.compl := by
  rw [raiseTick_evtOnly s e d]
@[simp] theorem raiseTick_hst_waiting (s : State) (e d : Nat) : (raiseTick s e d).hst.waiting = s.hst.waiting := by
  rw [raiseTick_evtOnly s e d]
@[simp] theorem raiseTick_hst_reading (s : State) (e d : Nat) : (raiseTick s e d).hst.reading = s.hst.reading := by
  rw [raiseTick_evtOnly s e d]
@[simp] theorem raiseTick_hst_linkUp (s : State) (e d : Nat) : (raiseTick s e d).hst.linkUp = s.hst.linkUp := by
  rw [raiseTick_evtOnly s e d]
@[simp] theorem raiseTick_hst_pcie (s : State) (e d : Nat) : (raiseTick s e d).hst.pcie = s.hst.pcie := by
  rw [raiseTick_evtOnly s e d]
@[simp] theorem raiseTick_hst_eqOn (s : State) (e d : Nat) : (raiseTick s e d).hst.eqOn = s.hst.eqOn := by
  rw [raiseTick_evtOnly s e d]
@[simp] theorem raiseTick_hst_cqOn (s : State) (e d : Nat) : (raiseTick s e d).hst.cqOn = s.hst.cqOn := by
  rw [raiseTick_evtOnly s e d]

/-! ### What logNow leaves alone -/

@[simp] theorem logNow_mode (s : State) (k : LogKind) (src : Nat) (d : List Byte) : (logNow s k src d).mode = s.mode := by
  rw [logNow_evtOnly s k src d]
@[simp] theorem logNow_held (s : State) (k : LogKind) (src : Nat) (d : List Byte) : (logNow s k src d).held = s.held := by
  rw [logNow_evtOnly s k src d]
@[simp] theorem logNow_tick (s : State) (k : LogKind) (src : Nat) (d : List Byte) : (logNow s k src d).tick = s.tick := by
  rw [logNow_evtOnly s k src d]
@[simp] theorem logNow_out (s : State) (k : LogKind) (src : Nat) (d : List Byte) : (logNow s k src d).out = s.out := by
  rw [logNow_evtOnly s k src d]
@[simp] theorem logNow_onceWatch (s : State) (k : LogKind) (src : Nat) (d : List Byte) : (logNow s k src d).onceWatch = s.onceWatch := by
  rw [logNow_evtOnly s k src d]
@[simp] theorem logNow_inst (s : State) (k : LogKind) (src : Nat) (d : List Byte) : (logNow s k src d).inst = s.inst := by
  rw [logNow_evtOnly s k src d]
@[simp] theorem logNow_modeNext (s : State) (k : LogKind) (src : Nat) (d : List Byte) : (logNow s k src d).modeNext = s.modeNext := by
  rw [logNow_evtOnly s k src d]
@[simp] theorem logNow_ttu (s : State) (k : LogKind) (src : Nat) (d : List Byte) : (logNow s k src d).ttu = s.ttu := by
  rw [logNow_evtOnly s k src d]
@[simp] theorem logNow_eth (s : State) (k : LogKind) (src : Nat) (d : List Byte) : (logNow s k src d).eth = s.eth := by
  rw [logNow_evtOnly s k src d]
@[simp] theorem logNow_sxt (s : State) (k : LogKind) (src : Nat) (d : List Byte) : (logNow s k src d).sxt = s.sxt := by
  rw [logNow_evtOnly s k src d]
@[simp] theorem logNow_obs (s : State) (k : LogKind) (src : Nat) (d : List Byte) : (logNow s k src d).obs = s.obs := by
  rw [logNow_evtOnly s k src d]
@[simp] theorem logNow_fix (s : State) (k : LogKind) (src : Nat) (d : List Byte) : (logNow s k src d).fix = s.fix := by
  rw [logNow_evtOnly s k src d]
@[simp] theorem logNow_cht (s : State) (k : LogKind) (src : Nat) (d : List Byte) : (logNow s k src d).cht = s.cht := by
  rw [logNow_evtOnly s k src d]
@[simp] theorem logNow_asg (s : State) (k : LogKind) (src : Nat) (d : List Byte) : (logNow s k src d).asg = s.asg := by
  rw [logNow_evtOnly s k src d]
@[simp] theorem logNow_prf (s : State) (k : LogKind) (src : Nat) (d : List Byte) : (logNow s k src d).prf = s.prf := by
  rw [logNow_evtOnly s k src d]
@[simp] theorem logNow_pos (s : State) (k : LogKind) (src : Nat) (d : List Byte) : (logNow s k src d).pos = s.pos := by
  rw [logNow_evtOnly s k src d]
@[simp] theorem logNow_stp (s : State) (k : LogKind) (src : Nat) (d : List Byte) : (logNow s k src d).stp = s.stp := by
  rw [logNow_evtOnly s k src d]
@[simp] theorem logNow_luv (s : State) (k : LogKind) (src : Nat) (d : List Byte) : (logNow s k src d).luv = s.luv := by
  rw [logNow_evtOnly s k src d]
@[simp] theorem logNow_sec (s : State) (k : LogKind) (src : Nat) (d : List Byte) : (logNow s k src d).sec = s.sec := by
  rw [logNow_evtOnly s k src d]
@[simp] theorem logNow_twn (s : State) (k : LogKind) (src : Nat) (d : List Byte) : (logNow s k src d).twn = s.twn := by
  rw [logNow_evtOnly s k src d]
@[simp] theorem logNow_cpl (s : State) (k : LogKind) (src : Nat) (d : List Byte) : (logNow s k src d).cpl = s.cpl := by
  rw [logNow_evtOnly s k src d]
@[simp] theorem logNow_svc (s : State) (k : LogKind) (src : Nat) (d : List Byte) : (logNow s k src d).svc = s.svc := by
  rw [logNow_evtOnly s k src d]
@[simp] theorem logNow_kvt (s : State) (k : LogKind) (src : Nat) (d : List Byte) : (logNow s k src d).kvt = s.kvt := by
  rw [logNow_evtOnly s k src d]
@[simp] theorem logNow_can (s : State) (k : LogKind) (src : Nat) (d : List Byte) : (logNow s k src d).can = s.can := by
  rw [logNow_evtOnly s k src d]
@[simp] theorem logNow_bt (s : State) (k : LogKind) (src : Nat) (d : List Byte) : (logNow s k src d).bt = s.bt := by
  rw [logNow_evtOnly s k src d]
@[simp] theorem logNow_pending (s : State) (k : LogKind) (src : Nat) (d : List Byte) : (logNow s k src d).pending = s.pending := by
  rw [logNow_evtOnly s k src d]
@[simp] theorem logNow_hst_started (s : State) (k : LogKind) (src : Nat) (d : List Byte) : (logNow s k src d).hst.started = s.hst.started := by
  rw [logNow_evtOnly s k src d]
@[simp] theorem logNow_hst_compl (s : State) (k : LogKind) (src : Nat) (d : List Byte) : (logNow s k src d).hst.compl = s.hst.compl := by
  rw [logNow_evtOnly s k src d]
@[simp] theorem logNow_hst_waiting (s : State) (k : LogKind) (src : Nat) (d : List Byte) : (logNow s k src d).hst.waiting = s.hst.waiting := by
  rw [logNow_evtOnly s k src d]
@[simp] theorem logNow_hst_reading (s : State) (k : LogKind) (src : Nat) (d : List Byte) : (logNow s k src d).hst.reading = s.hst.reading := by
  rw [logNow_evtOnly s k src d]
@[simp] theorem logNow_hst_linkUp (s : State) (k : LogKind) (src : Nat) (d : List Byte) : (logNow s k src d).hst.linkUp = s.hst.linkUp := by
  rw [logNow_evtOnly s k src d]
@[simp] theorem logNow_hst_pcie (s : State) (k : LogKind) (src : Nat) (d : List Byte) : (logNow s k src d).hst.pcie = s.hst.pcie := by
  rw [logNow_evtOnly s k src d]
@[simp] theorem logNow_hst_eqOn (s : State) (k : LogKind) (src : Nat) (d : List Byte) : (logNow s k src d).hst.eqOn = s.hst.eqOn := by
  rw [logNow_evtOnly s k src d]
@[simp] theorem logNow_hst_cqOn (s : State) (k : LogKind) (src : Nat) (d : List Byte) : (logNow s k src d).hst.cqOn = s.hst.cqOn := by
  rw [logNow_evtOnly s k src d]

/-! ### Registers under a raising -/

/-- A register field that no raising writes: not a pending bit, a count of lost records or of dropped Logbook records. -/
def Calm (g : Field) (k l : Nat) : Prop :=
  (∀ n, n < 16 → g.key k l ≠ Reg.HST_EVT_PEND.PEND.key n 0) ∧ g.key k l ≠ Reg.HST_COUNTS.EVT_LOST.key 0 0
    ∧ g.key k l ≠ Reg.LOG_COUNTS.OVF_DROP.key 0 0

theorem logNow_r (s : State) (kd : LogKind) (src : Nat) (d : List Byte) (g : Field) (k l : Nat) (h : Calm g k l) :
    (logNow s kd src d).r g k l = s.r g k l := by
  unfold logNow logPush
  dsimp only
  split
  · rfl
  · exact State.r_w_ne _ _ _ _ _ _ _ _ h.2.2

theorem gltEvent_r (s : State) (e d : Nat) (g : Field) (k l : Nat) : (gltEvent s e d).r g k l = s.r g k l := by
  unfold gltEvent; split <;> rfl

theorem raiseMark_r (s : State) (e d : Nat) (g : Field) (k l : Nat) (h : Calm g k l) (he : e < 512) :
    (raiseMark s e d).r g k l = s.r g k l := by
  have hp : (gltEvent (s.wbit Reg.HST_EVT_PEND.PEND e true) e d).r g k l = s.r g k l := by
    rw [gltEvent_r]; exact State.r_w_ne _ _ _ _ _ _ _ _ (h.1 _ (by omega))
  unfold raiseMark
  dsimp only
  split
  · rw [logNow_r _ _ _ _ _ _ _ h, hp]
  · exact hp

theorem routeTo_r (s : State) (e d q : Nat) (g : Field) (k l : Nat) (h : Calm g k l) :
    (routeTo s e d q).r g k l = s.r g k l := by
  unfold routeTo
  split
  · rfl
  · split
    · dsimp only
      split <;> exact State.r_w_ne _ _ _ _ _ _ _ _ h.2.1
    · rfl

theorem raiseCore_r (s : State) (e d : Nat) (g : Field) (k l : Nat) (h : Calm g k l) (he : e < 512) :
    (raiseCore s e d).r g k l = s.r g k l := by
  unfold raiseCore
  dsimp only
  split
  · rw [routeTo_r _ _ _ _ _ _ _ h, raiseMark_r _ _ _ _ _ _ h he]
  · exact raiseMark_r _ _ _ _ _ _ h he

/-- A raising leaves every other register field alone. -/
theorem raise_r (s : State) (e d : Nat) (g : Field) (k l : Nat) (h : Calm g k l) (he : e < 512) :
    (raise s e d).r g k l = s.r g k l := by
  unfold raise
  dsimp only
  split
  · exact raiseCore_r _ _ _ _ _ _ h he
  · rw [raiseCore_r _ _ _ _ _ _ h (by decide)]
    exact raiseCore_r _ _ _ _ _ _ h he

theorem raiseTick_r (s : State) (e d : Nat) (g : Field) (k l : Nat) (h : Calm g k l) (he : e < 512) :
    (raiseTick s e d).r g k l = s.r g k l := by
  unfold raiseTick raiseTickKey
  split
  · rfl
  · rw [raise_r _ _ _ _ _ _ h he]; rfl

/-! ### Completions -/

/-- A completion in a running module: it is due once, and the command is no longer outstanding. -/
theorem complete_running (s : State) (h : Handle) (st d : Nat) (hd : s.mode ≠ .dead) (hs : s.mode ≠ .shadow) :
    complete s h st d = { s with hst := { s.hst with
      started := s.hst.started.filter (fun p => !(p.1 == h)),
      compl := s.hst.compl ++ [{ h := h, ftick := fetchTick s h, status := st, detail := d }] } } := by
  simp [complete, hd, hs]

/-- A completion changes only HST's list of commands under way, the completions due and, in a shadow, the completions
the lead has written. -/
theorem complete_only (s : State) (h : Handle) (st d : Nat) :
    complete s h st d = { s with
      hst := { s.hst with started := (complete s h st d).hst.started, compl := (complete s h st d).hst.compl }
      twn := { s.twn with written := (complete s h st d).twn.written } } := by
  unfold complete
  split
  · rfl
  · split <;> rfl

@[simp] theorem complete_mode (s : State) (h : Handle) (st d : Nat) : (complete s h st d).mode = s.mode := by
  rw [complete_only]
@[simp] theorem complete_held (s : State) (h : Handle) (st d : Nat) : (complete s h st d).held = s.held := by
  rw [complete_only]
@[simp] theorem complete_tick (s : State) (h : Handle) (st d : Nat) : (complete s h st d).tick = s.tick := by
  rw [complete_only]
@[simp] theorem complete_regs (s : State) (h : Handle) (st d : Nat) : (complete s h st d).regs = s.regs := by
  rw [complete_only]
@[simp] theorem complete_free (s : State) (h : Handle) (st d : Nat) : (complete s h st d).free = s.free := by
  rw [complete_only]
@[simp] theorem complete_out (s : State) (h : Handle) (st d : Nat) : (complete s h st d).out = s.out := by
  rw [complete_only]
@[simp] theorem complete_onceTick (s : State) (h : Handle) (st d : Nat) : (complete s h st d).onceTick = s.onceTick := by
  rw [complete_only]
@[simp] theorem complete_onceWatch (s : State) (h : Handle) (st d : Nat) : (complete s h st d).onceWatch = s.onceWatch := by
  rw [complete_only]
@[simp] theorem complete_inst (s : State) (h : Handle) (st d : Nat) : (complete s h st d).inst = s.inst := by
  rw [complete_only]
@[simp] theorem complete_modeNext (s : State) (h : Handle) (st d : Nat) : (complete s h st d).modeNext = s.modeNext := by
  rw [complete_only]
@[simp] theorem complete_ttu (s : State) (h : Handle) (st d : Nat) : (complete s h st d).ttu = s.ttu := by
  rw [complete_only]
@[simp] theorem complete_eth (s : State) (h : Handle) (st d : Nat) : (complete s h st d).eth = s.eth := by
  rw [complete_only]
@[simp] theorem complete_sxt (s : State) (h : Handle) (st d : Nat) : (complete s h st d).sxt = s.sxt := by
  rw [complete_only]
@[simp] theorem complete_obs (s : State) (h : Handle) (st d : Nat) : (complete s h st d).obs = s.obs := by
  rw [complete_only]
@[simp] theorem complete_fix (s : State) (h : Handle) (st d : Nat) : (complete s h st d).fix = s.fix := by
  rw [complete_only]
@[simp] theorem complete_cht (s : State) (h : Handle) (st d : Nat) : (complete s h st d).cht = s.cht := by
  rw [complete_only]
@[simp] theorem complete_asg (s : State) (h : Handle) (st d : Nat) : (complete s h st d).asg = s.asg := by
  rw [complete_only]
@[simp] theorem complete_prf (s : State) (h : Handle) (st d : Nat) : (complete s h st d).prf = s.prf := by
  rw [complete_only]
@[simp] theorem complete_pos (s : State) (h : Handle) (st d : Nat) : (complete s h st d).pos = s.pos := by
  rw [complete_only]
@[simp] theorem complete_stp (s : State) (h : Handle) (st d : Nat) : (complete s h st d).stp = s.stp := by
  rw [complete_only]
@[simp] theorem complete_luv (s : State) (h : Handle) (st d : Nat) : (complete s h st d).luv = s.luv := by
  rw [complete_only]
@[simp] theorem complete_sec (s : State) (h : Handle) (st d : Nat) : (complete s h st d).sec = s.sec := by
  rw [complete_only]
@[simp] theorem complete_cpl (s : State) (h : Handle) (st d : Nat) : (complete s h st d).cpl = s.cpl := by
  rw [complete_only]
@[simp] theorem complete_svc (s : State) (h : Handle) (st d : Nat) : (complete s h st d).svc = s.svc := by
  rw [complete_only]
@[simp] theorem complete_kvt (s : State) (h : Handle) (st d : Nat) : (complete s h st d).kvt = s.kvt := by
  rw [complete_only]
@[simp] theorem complete_log (s : State) (h : Handle) (st d : Nat) : (complete s h st d).log = s.log := by
  rw [complete_only]
@[simp] theorem complete_glt (s : State) (h : Handle) (st d : Nat) : (complete s h st d).glt = s.glt := by
  rw [complete_only]
@[simp] theorem complete_can (s : State) (h : Handle) (st d : Nat) : (complete s h st d).can = s.can := by
  rw [complete_only]
@[simp] theorem complete_bt (s : State) (h : Handle) (st d : Nat) : (complete s h st d).bt = s.bt := by
  rw [complete_only]
@[simp] theorem complete_pending (s : State) (h : Handle) (st d : Nat) : (complete s h st d).pending = s.pending := by
  rw [complete_only]
@[simp] theorem complete_r (s : State) (h : Handle) (st d : Nat) (g : Field) (k l : Nat) :
    (complete s h st d).r g k l = s.r g k l := by
  unfold State.r; rw [complete_regs]

/-! ### Acceptance -/

@[simp] theorem accept_mode (s : State) (h : Handle) : (accept s h).mode = s.mode := by
  unfold accept startAt; split <;> rfl
@[simp] theorem accept_held (s : State) (h : Handle) : (accept s h).held = s.held := by
  unfold accept startAt; split <;> rfl
@[simp] theorem accept_tick (s : State) (h : Handle) : (accept s h).tick = s.tick := by
  unfold accept startAt; split <;> rfl
@[simp] theorem accept_regs (s : State) (h : Handle) : (accept s h).regs = s.regs := by
  unfold accept startAt; split <;> rfl
@[simp] theorem accept_free (s : State) (h : Handle) : (accept s h).free = s.free := by
  unfold accept startAt; split <;> rfl
@[simp] theorem accept_out (s : State) (h : Handle) : (accept s h).out = s.out := by
  unfold accept startAt; split <;> rfl
@[simp] theorem accept_onceTick (s : State) (h : Handle) : (accept s h).onceTick = s.onceTick := by
  unfold accept startAt; split <;> rfl
@[simp] theorem accept_onceWatch (s : State) (h : Handle) : (accept s h).onceWatch = s.onceWatch := by
  unfold accept startAt; split <;> rfl
@[simp] theorem accept_inst (s : State) (h : Handle) : (accept s h).inst = s.inst := by
  unfold accept startAt; split <;> rfl
@[simp] theorem accept_modeNext (s : State) (h : Handle) : (accept s h).modeNext = s.modeNext := by
  unfold accept startAt; split <;> rfl
@[simp] theorem accept_ttu (s : State) (h : Handle) : (accept s h).ttu = s.ttu := by
  unfold accept startAt; split <;> rfl
@[simp] theorem accept_eth (s : State) (h : Handle) : (accept s h).eth = s.eth := by
  unfold accept startAt; split <;> rfl
@[simp] theorem accept_sxt (s : State) (h : Handle) : (accept s h).sxt = s.sxt := by
  unfold accept startAt; split <;> rfl
@[simp] theorem accept_obs (s : State) (h : Handle) : (accept s h).obs = s.obs := by
  unfold accept startAt; split <;> rfl
@[simp] theorem accept_fix (s : State) (h : Handle) : (accept s h).fix = s.fix := by
  unfold accept startAt; split <;> rfl
@[simp] theorem accept_cht (s : State) (h : Handle) : (accept s h).cht = s.cht := by
  unfold accept startAt; split <;> rfl
@[simp] theorem accept_asg (s : State) (h : Handle) : (accept s h).asg = s.asg := by
  unfold accept startAt; split <;> rfl
@[simp] theorem accept_prf (s : State) (h : Handle) : (accept s h).prf = s.prf := by
  unfold accept startAt; split <;> rfl
@[simp] theorem accept_pos (s : State) (h : Handle) : (accept s h).pos = s.pos := by
  unfold accept startAt; split <;> rfl
@[simp] theorem accept_stp (s : State) (h : Handle) : (accept s h).stp = s.stp := by
  unfold accept startAt; split <;> rfl
@[simp] theorem accept_luv (s : State) (h : Handle) : (accept s h).luv = s.luv := by
  unfold accept startAt; split <;> rfl
@[simp] theorem accept_sec (s : State) (h : Handle) : (accept s h).sec = s.sec := by
  unfold accept startAt; split <;> rfl
@[simp] theorem accept_twn (s : State) (h : Handle) : (accept s h).twn = s.twn := by
  unfold accept startAt; split <;> rfl
@[simp] theorem accept_cpl (s : State) (h : Handle) : (accept s h).cpl = s.cpl := by
  unfold accept startAt; split <;> rfl
@[simp] theorem accept_svc (s : State) (h : Handle) : (accept s h).svc = s.svc := by
  unfold accept startAt; split <;> rfl
@[simp] theorem accept_kvt (s : State) (h : Handle) : (accept s h).kvt = s.kvt := by
  unfold accept startAt; split <;> rfl
@[simp] theorem accept_log (s : State) (h : Handle) : (accept s h).log = s.log := by
  unfold accept startAt; split <;> rfl
@[simp] theorem accept_glt (s : State) (h : Handle) : (accept s h).glt = s.glt := by
  unfold accept startAt; split <;> rfl
@[simp] theorem accept_can (s : State) (h : Handle) : (accept s h).can = s.can := by
  unfold accept startAt; split <;> rfl
@[simp] theorem accept_bt (s : State) (h : Handle) : (accept s h).bt = s.bt := by
  unfold accept startAt; split <;> rfl
@[simp] theorem accept_pending (s : State) (h : Handle) : (accept s h).pending = s.pending := by
  unfold accept startAt; split <;> rfl

/-- An accepted command is outstanding. -/
theorem accept_started (s : State) (h : Handle) : (accept s h).hst.started.any (fun p => p.1 == h) = true := by
  unfold accept startAt
  split
  · assumption
  · simp

/-! ### Reflection -/

@[simp] theorem reflect_mode (s : State) (i : ReflItem) : (reflect s i).mode = s.mode := by
  unfold reflect; split <;> rfl
@[simp] theorem reflect_held (s : State) (i : ReflItem) : (reflect s i).held = s.held := by
  unfold reflect; split <;> rfl
@[simp] theorem reflect_tick (s : State) (i : ReflItem) : (reflect s i).tick = s.tick := by
  unfold reflect; split <;> rfl
@[simp] theorem reflect_regs (s : State) (i : ReflItem) : (reflect s i).regs = s.regs := by
  unfold reflect; split <;> rfl
@[simp] theorem reflect_free (s : State) (i : ReflItem) : (reflect s i).free = s.free := by
  unfold reflect; split <;> rfl
@[simp] theorem reflect_out (s : State) (i : ReflItem) : (reflect s i).out = s.out := by
  unfold reflect; split <;> rfl
@[simp] theorem reflect_onceTick (s : State) (i : ReflItem) : (reflect s i).onceTick = s.onceTick := by
  unfold reflect; split <;> rfl
@[simp] theorem reflect_onceWatch (s : State) (i : ReflItem) : (reflect s i).onceWatch = s.onceWatch := by
  unfold reflect; split <;> rfl
@[simp] theorem reflect_inst (s : State) (i : ReflItem) : (reflect s i).inst = s.inst := by
  unfold reflect; split <;> rfl
@[simp] theorem reflect_modeNext (s : State) (i : ReflItem) : (reflect s i).modeNext = s.modeNext := by
  unfold reflect; split <;> rfl
@[simp] theorem reflect_ttu (s : State) (i : ReflItem) : (reflect s i).ttu = s.ttu := by
  unfold reflect; split <;> rfl
@[simp] theorem reflect_eth (s : State) (i : ReflItem) : (reflect s i).eth = s.eth := by
  unfold reflect; split <;> rfl
@[simp] theorem reflect_sxt (s : State) (i : ReflItem) : (reflect s i).sxt = s.sxt := by
  unfold reflect; split <;> rfl
@[simp] theorem reflect_obs (s : State) (i : ReflItem) : (reflect s i).obs = s.obs := by
  unfold reflect; split <;> rfl
@[simp] theorem reflect_fix (s : State) (i : ReflItem) : (reflect s i).fix = s.fix := by
  unfold reflect; split <;> rfl
@[simp] theorem reflect_cht (s : State) (i : ReflItem) : (reflect s i).cht = s.cht := by
  unfold reflect; split <;> rfl
@[simp] theorem reflect_asg (s : State) (i : ReflItem) : (reflect s i).asg = s.asg := by
  unfold reflect; split <;> rfl
@[simp] theorem reflect_prf (s : State) (i : ReflItem) : (reflect s i).prf = s.prf := by
  unfold reflect; split <;> rfl
@[simp] theorem reflect_pos (s : State) (i : ReflItem) : (reflect s i).pos = s.pos := by
  unfold reflect; split <;> rfl
@[simp] theorem reflect_stp (s : State) (i : ReflItem) : (reflect s i).stp = s.stp := by
  unfold reflect; split <;> rfl
@[simp] theorem reflect_luv (s : State) (i : ReflItem) : (reflect s i).luv = s.luv := by
  unfold reflect; split <;> rfl
@[simp] theorem reflect_sec (s : State) (i : ReflItem) : (reflect s i).sec = s.sec := by
  unfold reflect; split <;> rfl
@[simp] theorem reflect_hst (s : State) (i : ReflItem) : (reflect s i).hst = s.hst := by
  unfold reflect; split <;> rfl
@[simp] theorem reflect_cpl (s : State) (i : ReflItem) : (reflect s i).cpl = s.cpl := by
  unfold reflect; split <;> rfl
@[simp] theorem reflect_svc (s : State) (i : ReflItem) : (reflect s i).svc = s.svc := by
  unfold reflect; split <;> rfl
@[simp] theorem reflect_kvt (s : State) (i : ReflItem) : (reflect s i).kvt = s.kvt := by
  unfold reflect; split <;> rfl
@[simp] theorem reflect_log (s : State) (i : ReflItem) : (reflect s i).log = s.log := by
  unfold reflect; split <;> rfl
@[simp] theorem reflect_glt (s : State) (i : ReflItem) : (reflect s i).glt = s.glt := by
  unfold reflect; split <;> rfl
@[simp] theorem reflect_can (s : State) (i : ReflItem) : (reflect s i).can = s.can := by
  unfold reflect; split <;> rfl
@[simp] theorem reflect_bt (s : State) (i : ReflItem) : (reflect s i).bt = s.bt := by
  unfold reflect; split <;> rfl
@[simp] theorem reflect_pending (s : State) (i : ReflItem) : (reflect s i).pending = s.pending := by
  unfold reflect; split <;> rfl
@[simp] theorem reflect_r (s : State) (i : ReflItem) (g : Field) (k l : Nat) : (reflect s i).r g k l = s.r g k l := by
  unfold State.r; rw [reflect_regs]

/-! ### The frame of a command -/

/-- A module that is not held in reset carries a command out at its instant with no output of its own yet, its queue and
the instant outside commands as they were. -/
theorem withOutAt_live (s : State) (i : Option Nat) (f : State → State) (h : s.held = false) :
    withOutAt s i f = .next (((f (s.start.atInst i)).requeue s.pending).atInst s.inst) := by
  simp [withOutAt, h]

/-- A module held in reset takes nothing (R485). -/
theorem withOutAt_held (s : State) (i : Option Nat) (f : State → State) (h : s.held = true) :
    withOutAt s i f = .next s.start := by
  simp [withOutAt, h]

theorem withOut_live (s : State) (f : State → State) (h : s.held = false) :
    withOut s f = .next (((f (s.start.atInst none)).requeue s.pending).atInst s.inst) :=
  withOutAt_live s none f h

theorem withOut_held (s : State) (f : State → State) (h : s.held = true) : withOut s f = .next s.start :=
  withOutAt_held s none f h

/-- A command that leaves its starting state as it is ends in that state. -/
theorem atInst_start (s : State) (i : Option Nat) : ((s.start.atInst i).requeue s.pending).atInst s.inst = s.start := rfl

end Sys2Proof.Machine
end

