-- ==== Sys2Proof/Laws/Frames.lean ====
section
/-! SUPPORT. Sys2Proof/Laws/Frames.lean: the frames statements are written in: registers kept, what a raising changes, and the
guards a command passes. -/

namespace Sys2Proof.Machine

open Sys2Proof

/-! ### Registers kept -/

theorem RegsKept.rfl' (ks : List Nat) (s : State) : RegsKept ks s s := fun _ _ => rfl

theorem RegsKept.trans {ks : List Nat} {s t u : State} (h : RegsKept ks s t) (k : RegsKept ks t u) : RegsKept ks s u :=
  fun i hi => (k i hi).trans (h i hi)

theorem RegsKept.mono {ks ls : List Nat} {s t : State} (h : RegsKept ks s t) (hs : ∀ k, k ∈ ks → k ∈ ls) : RegsKept ls s t :=
  fun i hi => h i fun hk => hi (hs i hk)

/-- A write of a listed field keeps the others. -/
theorem RegsKept.w {ks : List Nat} {s t : State} (g : RegsKept ks s t) (f : Field) (v i j : Nat) (h : f.key i j ∈ ks) :
    RegsKept ks s (t.w f v i j) := by
  intro k hk
  refine (mget_mput_ne 0 t.regs _ fun e => hk ?_).trans (g k hk)
  rw [e]; exact h

/-- A field whose key is not listed reads as before. -/
theorem RegsKept.r {ks : List Nat} {s t : State} (g : RegsKept ks s t) (f : Field) (i j : Nat) (h : f.key i j ∉ ks) :
    t.r f i j = s.r f i j := by
  unfold State.r; rw [g _ h]

/-- Keys of two fields with one stride, at one index. -/
theorem key_ne (f g : Field) (i k : Nat) (h1 : f.s1 = g.s1) (hi : i = k)
    (h4 : 32 * f.off + f.lsb ≠ 32 * g.off + g.lsb) : f.key i 0 ≠ g.key k 0 := by
  unfold Field.key; rw [h1, hi]; omega

/-- A write leaves another field of the same index alone. -/
theorem r_w_other (s : State) (f g : Field) (v i : Nat) (h1 : g.s1 = f.s1) (h4 : 32 * g.off + g.lsb ≠ 32 * f.off + f.lsb) :
    (s.w f v i).r g i = s.r g i :=
  State.r_w_ne _ _ _ _ _ _ _ _ (key_ne g f i i h1 rfl h4)

/-! ### Raisings -/

theorem evtKeys_pend (n : Nat) (h : n < 16) : Reg.HST_EVT_PEND.PEND.key n 0 ∈ evtKeys :=
  List.mem_append_left _ (List.mem_map.2 ⟨n, List.mem_range.2 h, rfl⟩)

theorem logNow_keys (s : State) (kd : LogKind) (src : Nat) (d : List Byte) (k : Nat) (h : k ∉ evtKeys) :
    mget 0 (logNow s kd src d).regs k = mget 0 s.regs k := by
  unfold logNow logPush
  dsimp only
  split
  · rfl
  · refine mget_mput_ne 0 s.regs _ fun hk => h ?_
    subst hk
    simp [evtKeys]

theorem raiseCore_keys (s : State) (e d : Nat) (k : Nat) (he : e < 512) (h : k ∉ evtKeys) :
    mget 0 (raiseCore s e d).regs k = mget 0 s.regs k := by
  have hm : mget 0 (raiseMark s e d).regs k = mget 0 s.regs k := by
    have hp : mget 0 (gltEvent (s.wbit Reg.HST_EVT_PEND.PEND e true) e d).regs k = mget 0 s.regs k := by
      have : mget 0 (s.wbit Reg.HST_EVT_PEND.PEND e true).regs k = mget 0 s.regs k :=
        mget_mput_ne 0 s.regs _ fun hk => h (hk ▸ evtKeys_pend _ (by omega))
      unfold gltEvent
      split
      · exact this
      · exact this
    unfold raiseMark
    dsimp only
    split
    · rw [logNow_keys _ _ _ _ _ h, hp]
    · exact hp
  unfold raiseCore
  dsimp only
  split
  · rw [← hm]
    unfold routeTo
    split
    · rfl
    · split
      · have : Reg.HST_COUNTS.EVT_LOST.key 0 0 ∈ evtKeys := by simp [evtKeys]
        dsimp only
        split <;> exact mget_mput_ne 0 _ _ fun hk => h (hk ▸ this)
      · rfl
  · exact hm

/-- A raising writes no register beside those of evtKeys. -/
theorem raise_keys (s : State) (e d : Nat) (k : Nat) (he : e < 512) (h : k ∉ evtKeys) :
    mget 0 (raise s e d).regs k = mget 0 s.regs k := by
  unfold raise
  dsimp only
  split
  · exact raiseCore_keys s e d k he h
  · rw [raiseCore_keys _ _ _ _ (by decide) h]
    exact raiseCore_keys s e d k he h

theorem raiseTick_keys (s : State) (e d : Nat) (k : Nat) (he : e < 512) (h : k ∉ evtKeys) :
    mget 0 (raiseTick s e d).regs k = mget 0 s.regs k := by
  unfold raiseTick raiseTickKey
  split
  · rfl
  · exact raise_keys _ e d k he h

theorem raiseWatch_keys (s : State) (e d : Nat) (k : Nat) (he : e < 512) (h : k ∉ evtKeys) :
    mget 0 (raiseWatch s e d).regs k = mget 0 s.regs k := by
  unfold raiseWatch
  split
  · rfl
  · exact raise_keys _ e d k he h

/-- A register field no raising writes reads as before it. -/
theorem raise_field (s : State) (e d : Nat) (f : Field) (i j : Nat) (he : e < 512) (h : f.key i j ∉ evtKeys) :
    (raise s e d).r f i j = s.r f i j := by
  unfold State.r; rw [raise_keys s e d _ he h]

theorem raiseTick_field (s : State) (e d : Nat) (f : Field) (i j : Nat) (he : e < 512) (h : f.key i j ∉ evtKeys) :
    (raiseTick s e d).r f i j = s.r f i j := by
  unfold State.r; rw [raiseTick_keys s e d _ he h]

/-! ### Event frames -/

theorem EventsOnly.rfl' (ks : List Nat) (s : State) : EventsOnly ks s s := ⟨rfl, fun _ _ => rfl⟩

theorem EventsOnly.trans {ks : List Nat} {s t u : State} (h : EventsOnly ks s t) (k : EventsOnly ks t u) :
    EventsOnly ks s u := by
  refine ⟨?_, fun i hi => (k.2 i hi).trans (h.2 i hi)⟩
  have hk := k.1
  have hh := h.1
  rw [hk, hh]

theorem EventsOnly.mono {ks ls : List Nat} {s t : State} (h : EventsOnly ks s t) (hs : ∀ k, k ∈ ks → k ∈ ls) :
    EventsOnly ls s t :=
  ⟨h.1, h.2.mono fun k hk => (List.mem_append.1 hk).elim (fun a => List.mem_append_left _ (hs k a))
    (fun a => List.mem_append_right _ a)⟩

theorem EventsOnly.w {ks : List Nat} {s t : State} (g : EventsOnly ks s t) (f : Field) (v i j : Nat) (h : f.key i j ∈ ks) :
    EventsOnly ks s (t.w f v i j) := by
  refine ⟨?_, g.2.w f v i j (List.mem_append_left _ h)⟩
  have hg := g.1
  rw [hg]; rfl

/-- A raising in the terms of statements. -/
theorem raise_eventsOnly (ks : List Nat) (s : State) (e d : Nat) (he : e < 512) : EventsOnly ks s (raise s e d) := by
  refine ⟨?_, fun k hk => raise_keys s e d k he fun h => hk (List.mem_append_right _ h)⟩
  have h := raise_evtOnly s e d
  unfold EvtOnly at h
  rw [h]

theorem raiseTick_eventsOnly (ks : List Nat) (s : State) (e d : Nat) (he : e < 512) :
    EventsOnly ks s (raiseTick s e d) := by
  refine ⟨?_, fun k hk => raiseTick_keys s e d k he fun h => hk (List.mem_append_right _ h)⟩
  have h := raiseTick_evtOnly s e d
  unfold EvtOnly at h
  rw [h]

theorem raiseWatch_eventsOnly (ks : List Nat) (s : State) (e d : Nat) (he : e < 512) :
    EventsOnly ks s (raiseWatch s e d) := by
  refine ⟨?_, fun k hk => raiseWatch_keys s e d k he fun h => hk (List.mem_append_right _ h)⟩
  have h := raiseWatch_evtOnly s e d
  unfold EvtOnly at h
  rw [h]

/-! ### Guards -/

theorem latchRead_live (f : State → State) (s : State) (h : s.mode ≠ .dead) : latchRead f s = f s := by
  simp [latchRead, h]

theorem alive_live (f : State → State) (s : State) (hb : s.mode ≠ .boot) (hd : s.mode ≠ .dead) : alive s f = f s := by
  simp [alive, hb, hd]

theorem notDead_live (f : State → State) (s : State) (hd : s.mode ≠ .dead) : notDead s f = f s := by
  simp [notDead, hd]

theorem engines_live (f : State → State) (s : State) (h : s.slots = true) : engines s f = f s := by
  simp [engines, h]

/-- A command taken by an awake module. -/
theorem awake_exec (f : State → State) (s : State) (h : Awake s) :
    withOut s (fun s => alive s f) = .next (((f (s.start.atInst none)).requeue s.pending).atInst s.inst) := by
  rw [withOut_live _ _ h.1, alive_live f (s.start.atInst none) h.2.1 h.2.2]

/-- A command taken by running engines. -/
theorem engines_exec (f : State → State) (s : State) (h : Engines s) :
    withOut s (fun s => engines s f) = .next (((f (s.start.atInst none)).requeue s.pending).atInst s.inst) := by
  rw [withOut_live _ _ h.1, engines_live f (s.start.atInst none) h.2]

/-- A ring command handed over: its descriptor is reflected, and its subsystem takes it at the cycle of its handle. -/
theorem ringOp_taken (modes : List Mode) (h : Handle) (d : List Byte × BufIn) (body : State → State) (s : State)
    (ht : Taken modes s) (hm : ∀ m, m ∈ modes → m = .maintenance ∨ m = .lead ∨ m = .halt) :
    withOut s (ringOp modes h d body) = .next (((body (reflect (s.start.atInst (some (cycU h.cyc)))
      (.desc (handleSent (s.start.atInst none) h d.1) d.1 d.2))).requeue s.pending).atInst s.inst) := by
  obtain ⟨hh, hmem, hp, hr⟩ := ht
  rw [withOut_live _ _ hh]
  have hp' : (s.start.atInst none).paused = false := hp
  have he : (s.start.atInst none).atInst (some (cycU h.cyc)) = s.start.atInst (some (cycU h.cyc)) := rfl
  unfold ringOp
  rw [he]
  rcases hm s.mode hmem with h1 | h1 | h1 <;> rw [h1] at hmem <;>
    simp [h1, hp', hmem]

end Sys2Proof.Machine
end

