-- ==== Sys2Proof/Laws/Stop.lean ====
section
/-! SUPPORT. Sys2Proof/Laws/Stop.lean: what the release of a stop can change beside the latches: the air, the stop-class
buffers of CAN and the event machinery. -/

namespace Sys2Proof.Machine

open Sys2Proof

/-- The 64 KiB block of BAR0 a register key lies in. -/
def blockOf (k : Nat) : Nat := k / 32 / 0x10000

/-- The blocks of LUV, SEC and CAN. -/
def airBlock (b : Nat) : Bool := b == 0xA || b == 0xB || b == 0x13 || b == 0x20

/-- From s to t nothing changes but what the release of a stop sends: LUV, SEC and CAN with their registers, segments sent,
the elements noted for the stream, the transmit paths of STP, what goes out, and the event machinery. -/
def AirOnly (s t : State) : Prop :=
  t = { s with
    regs := t.regs, free := t.free, out := t.out, onceTick := t.onceTick
    luv := t.luv, sec := t.sec, cht := t.cht, can := t.can, bt := { s.bt with heldEvts := t.bt.heldEvts }
    twn := { s.twn with items := t.twn.items, seq := t.twn.seq }
    stp := { s.stp with hbA := t.stp.hbA, hbB := t.stp.hbB, tgt := t.stp.tgt }
    log := { s.log with queue := t.log.queue }
    hst := { s.hst with evq := t.hst.evq, evOvf := t.hst.evOvf }
    glt := { s.glt with evts := t.glt.evts } }
  ∧ ∀ k, k ∉ evtKeys → airBlock (blockOf k) = false → mget 0 t.regs k = mget 0 s.regs k

theorem AirOnly.rfl' (s : State) : AirOnly s s := ⟨rfl, fun _ _ _ => rfl⟩

theorem AirOnly.trans {s t u : State} (h : AirOnly s t) (k : AirOnly t u) : AirOnly s u := by
  refine ⟨?_, fun i a b => (k.2 i a b).trans (h.2 i a b)⟩
  have hk := k.1
  have hh := h.1
  rw [hk, hh]

/-- What happens at an instant of the tick, which is then put back. -/
theorem AirOnly.atInst {s u : State} {i : Option Nat} (h : AirOnly (s.atInst i) u) : AirOnly s (u.atInst s.inst) := by
  obtain ⟨h1, h2⟩ := h
  refine ⟨?_, h2⟩
  unfold State.atInst at h1 ⊢
  rw [h1]

theorem AirOnly.atInst_self {s u : State} (h : AirOnly s u) : AirOnly s (u.atInst s.inst) := by
  obtain ⟨h1, h2⟩ := h
  refine ⟨?_, h2⟩
  unfold State.atInst
  rw [h1]

theorem raise_airOnly (s : State) (e d : Nat) (he : e < 512) : AirOnly s (raise s e d) := by
  refine ⟨?_, fun k hk _ => raise_keys s e d k he hk⟩
  have h := raise_evtOnly s e d
  unfold EvtOnly at h
  rw [h]

theorem raiseTick_airOnly (s : State) (e d : Nat) (he : e < 512) : AirOnly s (raiseTick s e d) := by
  refine ⟨?_, fun k hk _ => raiseTick_keys s e d k he hk⟩
  have h := raiseTick_evtOnly s e d
  unfold EvtOnly at h
  rw [h]

/-- A write of a register of LUV, SEC or CAN. -/
theorem w_airOnly (s : State) (f : Field) (v i j : Nat)
    (h : airBlock (blockOf (f.key i j)) = true) : AirOnly s (s.w f v i j) := by
  refine ⟨rfl, fun k _ ha => mget_mput_ne 0 s.regs _ fun hk => ?_⟩
  subst hk
  rw [h] at ha
  exact absurd ha (by decide)

/-- A change of the state, without its registers, that AirOnly allows. -/
theorem airOnly_of_eq {s t : State} (hr : t.regs = s.regs) (h : t = { s with
    regs := t.regs, free := t.free, out := t.out, onceTick := t.onceTick
    luv := t.luv, sec := t.sec, cht := t.cht, can := t.can, bt := { s.bt with heldEvts := t.bt.heldEvts }
    twn := { s.twn with items := t.twn.items, seq := t.twn.seq }
    stp := { s.stp with hbA := t.stp.hbA, hbB := t.stp.hbB, tgt := t.stp.tgt }
    log := { s.log with queue := t.log.queue }
    hst := { s.hst with evq := t.hst.evq, evOvf := t.hst.evOvf }
    glt := { s.glt with evts := t.glt.evts } }) : AirOnly s t := ⟨h, fun _ _ _ => by rw [hr]⟩

theorem reflect_airOnly (s : State) (i : ReflItem) : AirOnly s (reflect s i) := by
  unfold reflect
  split
  · exact airOnly_of_eq rfl rfl
  · exact .rfl' s

theorem stpRaise_airOnly (s : State) (e d : Nat) (he : e < 512) : AirOnly s (stpRaise s e d) := by
  unfold stpRaise
  split
  · exact airOnly_of_eq rfl rfl
  · split
    · exact raiseTick_airOnly s e d he
    · exact raise_airOnly s e d he

theorem secSent_airOnly (s : State) : AirOnly s (secSent s) := by
  unfold secSent
  split
  · exact AirOnly.trans (t := { s with sec := { s.sec with switch := false } }) (airOnly_of_eq rfl rfl)
      (raise_airOnly _ _ _ (by decide))
  · exact .rfl' s

theorem nextGroupSeq_airOnly (s : State) (hb : Nat) (h : hb < 2) : AirOnly s (nextGroupSeq s hb).2 := by
  unfold nextGroupSeq setGroupSeq
  dsimp only
  refine AirOnly.trans (AirOnly.trans (w_airOnly s _ _ _ _ ?_) (w_airOnly _ _ _ _ _ ?_)) (reflect_airOnly _ _) <;>
    interval_cases hb <;> rfl

theorem elBegin_airOnly (hb : Nat) (s : State) (e : LuvEl) (h : hb < 2) : AirOnly s (elBegin hb s e).2 := by
  unfold elBegin
  split
  · exact (nextGroupSeq_airOnly s hb h).trans (secSent_airOnly _)
  · exact (nextGroupSeq_airOnly s hb h).trans (secSent_airOnly _)
  · exact .rfl' s

theorem elEnd_airOnly (hb : Nat) (s : State) (e : LuvEl) : AirOnly s (elEnd hb s e) := by
  unfold elEnd
  have h : ∀ u : State, AirOnly s u → AirOnly s (if u.leading then
      u.emit (.air hb e.start e.mcs (hbPower u hb) e.frame) else u) := fun u hu => by
    split
    · exact hu.trans (airOnly_of_eq rfl rfl)
    · exact hu
  dsimp only
  apply h
  split
  · exact airOnly_of_eq rfl rfl
  · exact airOnly_of_eq rfl rfl
  · exact .rfl' s

theorem elsUpTo_airOnly (hb t : Nat) (h : hb < 2) (es : List LuvEl) :
    ∀ s : State, AirOnly s (elsUpTo hb t es s).2 := by
  induction es with
  | nil => intro s; exact .rfl' s
  | cons e es ih =>
    intro s
    have hb1 : AirOnly s ((if e.start < t && !e.begun then elBegin hb (s.atInst (some (cycU e.start))) e else (e, s)).2.atInst
        s.inst) := by
      split
      · exact (elBegin_airOnly hb _ e h).atInst
      · exact (AirOnly.rfl' s).atInst_self
    unfold elsUpTo
    split
    · exact ih s
    dsimp only
    generalize (if e.start < t && !e.begun then elBegin hb (s.atInst (some (cycU e.start))) e else (e, s)) = p at hb1 ⊢
    obtain ⟨e', s'⟩ := p
    dsimp only at hb1 ⊢
    generalize s'.atInst s.inst = s' at hb1 ⊢
    split
    · exact hb1.trans ((elEnd_airOnly hb s' e').trans (ih _))
    · exact hb1.trans (ih _)

theorem setPlan_airOnly (s : State) (hb : Nat) (p : List LuvEl) : AirOnly s (setPlan s hb p) := airOnly_of_eq rfl rfl

theorem luvFlush_airOnly (s : State) (hb t : Nat) (h : hb < 2) : AirOnly s (luvFlush s hb t) := by
  unfold luvFlush
  exact (elsUpTo_airOnly hb t h _ s).trans (setPlan_airOnly _ _ _)

theorem luvSet_airOnly (s : State) (l : LuvState) : AirOnly s { s with luv := l } := airOnly_of_eq rfl rfl

theorem preempted_airOnly (s : State) (hb : Nat) (e : LuvEl) : AirOnly s (preempted s hb e) := by
  unfold preempted
  have h1 : AirOnly s (s.inc Reg.LUV_COUNTS.PREEMPT_COUNT) := w_airOnly s _ _ _ _ rfl
  generalize s.inc Reg.LUV_COUNTS.PREEMPT_COUNT = u at h1
  dsimp only
  split
  · exact h1.trans ((luvSet_airOnly u _).trans (raiseTick_airOnly _ _ _ (by decide)))
  · exact h1

theorem foldl_airOnly {α : Type} (f : State → α → State) (h : ∀ s a, AirOnly s (f s a)) (l : List α) :
    ∀ s : State, AirOnly s (l.foldl f s) := by
  induction l with
  | nil => intro s; exact .rfl' s
  | cons a l ih => intro s; exact (h s a).trans (ih _)

theorem iter_airOnly (f : Nat → State → State) (h : ∀ n s, AirOnly s (f n s)) (n : Nat) :
    ∀ s : State, AirOnly s (iter f n s) := by
  induction n with
  | zero => intro s; exact .rfl' s
  | succ n ih => intro s; exact (ih s).trans (h n _)

theorem luvCut_airOnly (s : State) (hb a b : Nat) (h : hb < 2) : AirOnly s (luvCut s hb a b) := by
  unfold luvCut
  dsimp only
  refine AirOnly.trans (AirOnly.trans (t := { s with luv := { s.luv with bursts := s.luv.bursts ++ [(hb, a, b)] } })
    (airOnly_of_eq rfl rfl) ((luvFlush_airOnly _ hb a h).trans (setPlan_airOnly _ _ _))) (foldl_airOnly _ (fun s e => ?_) _ _)
  exact preempted_airOnly s hb e

theorem burstAllowed_airOnly (s : State) (hb cyc : Nat) : AirOnly s (burstAllowed s hb cyc).2 := by
  unfold burstAllowed
  split
  · exact .rfl' s
  · split
    · split
      · exact (w_airOnly s _ _ _ _ rfl).trans (raise_airOnly _ _ _ (by decide))
      · exact airOnly_of_eq rfl rfl
    · exact .rfl' s

theorem setHbPath_airOnly (s : State) (hb : Nat) (p : HbPath) : AirOnly s (setHbPath s hb p) := by
  unfold setHbPath
  split <;> exact airOnly_of_eq rfl rfl

theorem setTgtWin_airOnly (s : State) (r : Nat) (w : TgtWin) : AirOnly s (setTgtWin s r w) := airOnly_of_eq rfl rfl

theorem markSent_airOnly (s : State) (fs : List (Option Nat)) : AirOnly s (markSent s fs) := by
  unfold markSent
  refine foldl_airOnly _ (fun s f => ?_) fs s
  cases f with
  | none => exact .rfl' s
  | some r => exact setTgtWin_airOnly s _ _

theorem burstStart_airOnly (s : State) (hb start : Nat) (fs : List (Option Nat)) (rest : HbPath) (e : Nat) (h : hb < 2) :
    AirOnly s (burstStart s hb start fs rest e) := by
  unfold burstStart
  dsimp only
  refine AirOnly.atInst (i := some (cycU start)) ?_
  have ha := burstAllowed_airOnly (s.atInst (some (cycU start))) hb (burstCyc fs.length)
  generalize burstAllowed (s.atInst (some (cycU start))) hb (burstCyc fs.length) = p at ha ⊢
  obtain ⟨b, u⟩ := p
  cases b with
  | false => exact AirOnly.trans ha (setHbPath_airOnly _ _ _)
  | true =>
    refine AirOnly.trans ha ?_
    have h1 := (luvCut_airOnly u hb start (start + burstCyc fs.length) h).trans (setHbPath_airOnly _ hb
      { rest with onAir := fs, endCyc := start + burstCyc fs.length })
    dsimp only
    refine AirOnly.trans (AirOnly.trans (h1.trans ?_) (markSent_airOnly _ fs)) (airOnly_of_eq rfl rfl)
    split
    · exact secSent_airOnly _
    · exact .rfl' _

theorem burstAdvance_airOnly (hb t e : Nat) (h : hb < 2) (n : Nat) :
    ∀ s : State, AirOnly s (burstAdvance hb t e n s) := by
  induction n with
  | zero => intro s; exact .rfl' s
  | succ n ih =>
    intro s
    unfold burstAdvance
    split
    · exact .rfl' s
    · split
      · exact (burstStart_airOnly s hb _ _ _ _ h).trans (ih _)
      · exact .rfl' s

theorem burstRelease_airOnly (s : State) (hb cyc : Nat) (f : Option Nat) (e : Nat) (h : hb < 2) :
    AirOnly s (burstRelease s hb cyc f e) := by
  have ha := burstAdvance_airOnly hb cyc e h 32 s
  unfold burstRelease
  dsimp only
  split
  · split
    · exact ha.trans (burstStart_airOnly _ hb _ _ _ _ h)
    · exact ha.trans (setHbPath_airOnly _ _ _)
  · split
    · exact ha.trans (setHbPath_airOnly _ _ _)
    · exact ha.trans (burstStart_airOnly _ hb _ _ _ _ h)

theorem lanternAir_airOnly (s : State) (cyc sync : Nat) (b : List Byte) : AirOnly s (lanternAir s cyc sync b) := by
  have h1 : AirOnly s (if cyc < s.luv.lanEnd then s.emit (.lanternCut cyc) else s) := by
    split
    · exact airOnly_of_eq rfl rfl
    · exact .rfl' s
  unfold lanternAir
  dsimp only
  generalize (if cyc < s.luv.lanEnd then s.emit (.lanternCut cyc) else s) = u at h1 ⊢
  refine h1.trans ?_
  split
  · exact AirOnly.trans (AirOnly.trans (t := { u with luv := { u.luv with lanEnd := cyc + lanternCyc, airTicks := _ } })
      (airOnly_of_eq rfl rfl) (w_airOnly _ _ _ _ _ rfl)) (airOnly_of_eq rfl rfl)
  · exact airOnly_of_eq rfl rfl

theorem lanternStop_airOnly (s : State) (c e l : Nat) : AirOnly s (lanternStop s c e l) := by
  unfold lanternStop lanternSkip
  split
  · exact .rfl' s
  · split
    · dsimp only
      refine AirOnly.trans ?_ (lanternAir_airOnly _ _ _ _)
      split
      · exact secSent_airOnly s
      · exact .rfl' s
    · exact (w_airOnly s _ _ _ _ rfl).trans (raise_airOnly _ _ _ (by decide))

theorem canStopPut_airOnly (s : State) (c : Nat) (f : StopFrame) (hc : c < 4) : AirOnly s (canStopPut s c f) := by
  have h1 : AirOnly s (s.inc Reg.CAN_CH_CNT.STOP_EXPIRED c) := w_airOnly s _ _ _ _ (by interval_cases c <;> rfl)
  have h2 : AirOnly s (if 8 ≤ (canCh s c).stop.length then s.inc Reg.CAN_CH_CNT.STOP_EXPIRED c else s) := by
    split
    · exact h1
    · exact .rfl' s
  unfold canStopPut
  dsimp only
  refine h2.trans (AirOnly.trans (t := setCanCh (if 8 ≤ (canCh s c).stop.length then s.inc Reg.CAN_CH_CNT.STOP_EXPIRED c else s) c _)
    (airOnly_of_eq rfl rfl) (AirOnly.trans (w_airOnly _ Reg.CAN_STOPV.DEPTH _ c 0 (by interval_cases c <;> rfl))
      (w_airOnly _ Reg.CAN_CH_STATUS.RESTRICTED _ c 0 (by interval_cases c <;> rfl))))

theorem canStopAll_airOnly (s : State) (f : StopFrame) : AirOnly s (canStopAll s f) := by
  have hs : ∀ c s, c < 4 → AirOnly s (if bitAt (s.r Reg.STP_REPEAT.CAN_STOP_CH) c then canStopPut s c f else s) := fun c s hc => by
    split
    · exact canStopPut_airOnly s c f hc
    · exact .rfl' s
  unfold canStopAll
  simp only [iter]
  exact (hs 0 _ (by decide)).trans ((hs 1 _ (by decide)).trans ((hs 2 _ (by decide)).trans (hs 3 _ (by decide))))

/-- The frames of a release leave every latch and every other register of STP alone. -/
theorem releaseFrames_airOnly (s : State) (rover : Option Nat) (rel : RelIn) : AirOnly s (releaseFrames s rover rel) := by
  unfold releaseFrames
  split
  · exact .rfl' s
  · rename_i e _
    dsimp only
    have h1 : AirOnly s (if rel.storeBad then stpRaise s 294 else s) := by
      split
      · exact stpRaise_airOnly s _ _ (by decide)
      · exact .rfl' s
    generalize (if rel.storeBad then stpRaise s 294 else s) = u at h1
    have h2 := h1.trans ((burstRelease_airOnly u 0 rel.cyc rover e (by decide)).trans
      (burstRelease_airOnly _ 1 rel.cyc rover e (by decide)))
    generalize burstRelease (burstRelease u 0 rel.cyc rover e) 1 rel.cyc rover e = v at h2
    refine h2.trans (AirOnly.trans ?_ (canStopAll_airOnly _ _))
    split
    · exact lanternStop_airOnly _ _ _ _
    · exact .rfl' _

/-- AirOnly and a register of STP: it reads as before. -/
theorem AirOnly.r {s t : State} (h : AirOnly s t) (f : Field) (i j : Nat) (hk : f.key i j ∉ evtKeys)
    (ha : airBlock (blockOf (f.key i j)) = false) : t.r f i j = s.r f i j := by
  unfold State.r
  rw [h.2 _ hk ha]

end Sys2Proof.Machine
end

