-- ==== Sys2Proof/Laws/Time.lean ====
section
/-! SUPPORT. Sys2Proof/Laws/Time.lean: the end of a closing watch as R52 gives it. -/

namespace Sys2Proof.Machine

open Sys2Proof

/-- The length of a closing watch is the least that meets the conditions of R52. -/
theorem closingLength_spec (t0 : Nat) (amt : Int) (p : Nat) :
   let e := closingLength t0 amt p
   ((t0 + e : Nat) + amt) % ((100 * uTick : Nat) : Int) = 0 ∧ 42 * uTick ≤ e ∧ (p + 2) * uTick ≤ e ∧
   e < max (42 * uTick) ((p + 2) * uTick) + 100 * uTick ∧
   ∀ e' : Nat, ((t0 + e' : Nat) + amt) % ((100 * uTick : Nat) : Int) = 0 → 42 * uTick ≤ e' → (p+2) * uTick ≤ e' → e ≤ e' := by
  unfold closingLength
  dsimp only
  generalize hl : max (42 * uTick) ((p + 2) * uTick) = l
  have hl1 : 42 * uTick ≤ l := hl ▸ le_max_left _ _
  have hl2 : (p+2) * uTick ≤ l := hl ▸ le_max_right _ _
  have hl3 : ∀ e', 42 * uTick ≤ e' → (p+2) * uTick ≤ e' → l ≤ e' := fun e' a b => hl ▸ max_le a b
  have hM : (0:Int) < ((100 * uTick : Nat) : Int) := by decide
  generalize hMM : 100 * uTick = M at *
  clear hl
  have hm0 : 0 ≤ (((t0 + l : Nat) : Int) + amt) % (M : Int) := Int.emod_nonneg _ (by omega)
  have hm1 : (((t0 + l : Nat) : Int) + amt) % (M : Int) < M := Int.emod_lt_of_pos _ hM
  split
  · rename_i h
    refine ⟨h, hl1, hl2, by omega, fun e' h1 h2 h3 => hl3 e' h2 h3⟩
  · rename_i h
    generalize hm : (((t0 + l : Nat) : Int) + amt) % (M : Int) = m at *
    refine ⟨?_, by omega, by omega, by omega, ?_⟩
    · have : ((t0 + (l + (M - m.toNat)) : Nat) : Int) + amt = ((t0 + l : Nat) + amt) - m + M := by omega
      rw [this, ← hm, Int.add_emod_right]
      have := Int.mul_ediv_add_emod (((t0 + l : Nat) : Int) + amt) M
      rw [show ((t0 + l : Nat) : Int) + amt - (((t0 + l : Nat) : Int) + amt) % M = M * ((((t0 + l : Nat) : Int) + amt) / M) by omega]
      exact Int.mul_emod_right _ _
    · intro e' h1 h2 h3
      have hle := hl3 e' h2 h3
      by_contra hc
      have hd := Int.dvd_of_emod_eq_zero h1
      have h4 : (((t0 + l : Nat) : Int) + amt) = (((t0 + e' : Nat) : Int) + amt) - (e' - l : Nat) := by omega
      obtain ⟨q, hq⟩ := hd
      rw [h4, hq] at hm
      have : ((M : Int) * q - ((e' - l : Nat) : Int)) % M = (-((e' - l : Nat) : Int)) % M := by
        rw [sub_eq_add_neg, add_comm, Int.add_mul_emod_self_left]
      rw [this] at hm
      by_cases h0 : e' - l = 0
      · rw [h0] at hm; simp at hm; omega
      · have : (-((e' - l : Nat) : Int)) % M = M - (e' - l : Nat) := by
          rw [← Int.add_emod_right, show -((e' - l : Nat) : Int) + M = M - (e' - l : Nat) by omega]
          exact Int.emod_eq_of_lt (by omega) (by omega)
        omega

end Sys2Proof.Machine
end

