-- ==== Sys2Proof/Tests/Slice0.lean ====
section
/-! SUPPORT. Sys2Proof/Tests/Slice0.lean: small states that meet the hypotheses of the statements, ill-formed commands, and
a few commands run once. -/

set_option maxRecDepth 4000
set_option Elab.async false
namespace Sys2Proof.Machine.Tests

open Sys2Proof Sys2Proof.Machine

/-! ### States -/

/-- A state in a mode, the rest as at reset. -/
def inMode (m : Mode) : State := { State.reset with mode := m }
def leadS : State := inMode .lead
def shadowS : State := inMode .shadow
def maintS : State := inMode .maintenance
/-- The pair IN_SYNC. -/
def pairS (m : Mode) : State := (inMode m).w Reg.TWN_STATUS.PAIR_STATE 3
def hd : Handle := { sq := 1, idx := 0, tag := 7, cyc := 0 }
def rel : RelIn := { cyc := 0, latNs := 0, storeBad := false }
def use : SlotUse := { held := 0, pending := false }

theorem wit_modes : Taken leadModes leadS ∧ Taken anyRunMode leadS ∧ Taken leadModes (inMode .halt) ∧ Taken anyRunMode maintS
    ∧ Awake leadS ∧ Awake shadowS ∧ Awake maintS ∧ Engines leadS ∧ Engines shadowS := by
  simp only [Taken, Awake, Engines]; decide
/-! ### Witnesses: the machine, its resets and its reads -/

theorem wit_queue : ({ leadS with pending := [.pairRun 0, .twnLinkUp] } : State).pending = [.pairRun 0, .twnLinkUp] ∧ leadS.pending = [] :=
  ⟨rfl, rfl⟩

theorem wit_held : ({ State.reset with held := true } : State).held = true ∧ leadS.held = false
    ∧ ∀ b, Instr.twnLinkUp ≠ .powerUp b := ⟨rfl, rfl, fun _ h => by cases h⟩

theorem wit_canonical : leadS.canonical = true ∧ (pairS .lead).canonical = true
    ∧ Reg.TTU_TICK_HI.TICK_HI.key 0 0 ≠ Reg.STP_STATE.OUT_ON.key 0 0 := by decide

theorem wit_dead : (inMode .dead).mode = .dead ∧ (inMode .dead).held = false ∧ (inMode .dead).bt.reset = false
    ∧ Instr.twnLinkUp ≠ .supplyFailure ∧ Instr.twnLinkUp ≠ .pcieHotReset := by decide

theorem wit_ring_command : ∃ op f buf, descParts (.stpStopRover hd 5 0) = some (hd, op, f, buf)
    ∧ (Instr.stpStopRover hd 5 0).wf = true := ⟨_, _, _, rfl, by decide⟩

/-- A Logbook of one record, and its port at the first and at the last word. -/
def rec1 (q : Nat) : LogRec :=
  { kind := .note, peer := false, seq := q, source := 3, rep := 0, mode := 3, stamp := 0, tick := 0, lastDt := 0, data := [] }
def logS (w : Nat) : State :=
  { leadS with log := { leadS.log with blocks := [{ id := 0, recs := [rec1 4, rec1 5] }], portSeq := 4, portWord := w } }

theorem wit_log_port : leadS.mode ≠ .dead ∧ logFrom leadS leadS.log.portSeq = [] ∧ logFrom (logS 0) 4 = [rec1 4, rec1 5]
    ∧ 4 * ((logS 0).log.portWord + 1) < logLen (rec1 4).data.length
    ∧ logLen (rec1 4).data.length ≤ 4 * ((logS 11).log.portWord + 1) := by decide

theorem wit_pos_axis : ((2 : Fin 3), leadS.obs.z, Reg.OBS_POS_Z.HI)
    ∈ [((0 : Fin 3), leadS.obs.x, Reg.OBS_POS_X.HI), (1, leadS.obs.y, Reg.OBS_POS_Y.HI), (2, leadS.obs.z, Reg.OBS_POS_Z.HI)] := by
  simp

/-! ### Witnesses: TTU -/

theorem wit_R52 : leadS.ttu.pos < 100 ∧ leadS.ttu.pos * uTick ≤ leadS.ttu.tb1 := by decide
def stepS : State := { leadS with ttu := { leadS.ttu with stepAmt := some (-5), stepDue := true, tb1 := 100 } }
theorem wit_R52_apply : stepS.held = false ∧ stepS.ttu.stepAmt = some (-5) ∧ stepS.ttu.stepDue = true
    ∧ 0 ≤ (stepS.ttu.tb1 : Int) + -5 := by decide

def divS : State := (leadS.w Reg.TTU_TIME_STATE.STATE 4).wb Reg.TTU_TIME_STATE.Q_PTP true
theorem wit_step : Taken anyRunMode divS ∧ ttuState divS = 4 ∧ divS.ttu.stepAmt = none ∧ srcQ divS 2 = true
    ∧ ¬ ttuState leadS = 4 ∧ (1 : Int) ≠ 0 := by
  simp only [Taken]; decide

def onceS : State := ((leadS.wb Reg.TTU_PULSE.MODE true 3).wb Reg.TTU_PULSE.EN true 3).wb Reg.TTU_PULSE.ARMED true 3
theorem wit_once : Taken anyRunMode onceS ∧ Awake onceS ∧ onceS.rb Reg.TTU_PULSE.MODE 3 = true ∧ onceS.rb Reg.TTU_PULSE.EN 3 = true
    ∧ onceS.rb Reg.TTU_PULSE.ARMED 3 = true ∧ (ttuPulse onceS 3).atStep = none ∧ 100 * uNs ≤ pulsePeriod onceS 3
    ∧ onceS.tb (onceS.r Reg.TTU_PULSE.TB_SEL 3) (cycU 0) + 2000 * uNs ≤ stampOf 65535 999999999 1
    ∧ onceS.tb (onceS.r Reg.TTU_PULSE.TB_SEL 3) 0 ≤ pulseStart onceS 3
    ∧ pulseStart onceS 3 < onceS.tb (onceS.r Reg.TTU_PULSE.TB_SEL 3) 0 + baseAdv onceS (onceS.r Reg.TTU_PULSE.TB_SEL 3) := by
  simp only [Taken, Awake]; decide

theorem wit_latch : ((3 : Word).toNat % 2 = 1) ∧ ((2 : Word).toNat % 2 = 0) ∧ leadS.tb 2 (cycU 249999) < 2 ^ 48 * uSec
    ∧ leadS.tb 3 (cycU 249999) < 2 ^ 48 * uSec := by decide

def captS : State := (leadS.wb Reg.TTU_CAPT.EN true 1).w Reg.TTU_CAPT.EDGE 2 1
theorem wit_capture : captS.rb Reg.TTU_CAPT.EN 1 = true ∧ bitAt (captS.r Reg.TTU_CAPT.EDGE 1) (b2n true) = true
    ∧ (ttuCapt captS 1).lastTb3 = none ∧ (ttuCapt captS 1).fifo.length < 16
    ∧ captS.rb Reg.TTU_TIME_CFG.PPS_EDGE = false := by decide

def srcS : State := (leadS.w Reg.TTU_TIME_STATE.SRC 1).w Reg.TTU_TIME_STATE.STATE 2
theorem wit_source_lost : srcS.r Reg.TTU_TIME_STATE.SRC = (1 : Fin 3) ∧ srcS.r Reg.TTU_TIME_STATE.SRC ≠ (2 : Fin 3)
    ∧ srcS.ttu.stepAmt = none ∧ srcS.twn.follows = false ∧ (∀ i : Fin 3, i ≠ 1 → srcUsable srcS i = false) ∧ ttuState srcS = 2 := by
  decide
/-! ### Witnesses: STP -/

def goS : State := leadS.wb Reg.STP_STATE.FLEET false
def runS : State := goS.w Reg.STP_CTRL.PAIR_EN 3
def latchedS : State := (goS.wb Reg.STP_STATE.FLEET true).wbit Reg.STP_TSTOP.TSTOP 127 true
theorem wit_stops : fleetLatch goS = false ∧ fleetLatch latchedS = true ∧ tgtLatch latchedS 127 = true ∧ tgtLatch goS 127 = false
    ∧ bitAt (runS.r Reg.STP_CTRL.PAIR_EN) ((3 : Fin 4).val / 2) = true ∧ bitAt (runS.r Reg.STP_STATE.PAIR_FAULT) (1 : Fin 2) = false
    ∧ bitAt (runS.r Reg.STP_STATE.OUT_FAULT) (3 : Fin 4) = false ∧ use.pending = false := by decide

def clearS : State := latchedS.w Reg.STP_CTRL.PAIR_EN 0
theorem wit_resume : Taken anyRunMode clearS ∧ clearS.leading = true ∧ stopChainClear clearS = true ∧ fleetLatch clearS = true ∧ tgtLatch clearS 127 = true
    ∧ clearS.rbit Reg.SEC_LOST.LOST 127 = false ∧ corridorHeld clearS 127 = false
    ∧ ¬ fleetLatch goS = true ∧ maintS.leading = false := by
  simp only [Taken]; decide

def armS : State := { latchedS.w Reg.STP_REPEAT.CAN_STOP_CH 15 with
  tick := 101, kvt := { latchedS.kvt with gs := true }, stp := { latchedS.stp with armed := [(101, 0)] } }
theorem wit_arm : armS.mode ≠ .dead ∧ armS.kvt.gs = true ∧ armedEpoch armS = some 0 ∧ fleetLatch armS = true
    ∧ armS.stp.canFleet + canRepeat armS ≤ armS.tick ∧ armS.stp.tgt = [] ∧ bitAt (armS.r Reg.STP_REPEAT.CAN_STOP_CH) 3 = true := by decide

/-- A targeted window open, its repeat due. -/
def tgtS : State :=
  { armS.wb Reg.STP_STATE.FLEET false with stp := { armS.stp with tgt := [(127, { canLeft := 5, canTick := 1 })] } }
theorem wit_repeats : armedEpoch tgtS = some 0 ∧ fleetLatch tgtS = false ∧ tgtS.stp.tgt = [(127, { canLeft := 5, canTick := 1 })]
    ∧ 0 < (5 : Nat) ∧ 1 + canRepeat tgtS ≤ tgtS.tick ∧ tgtS.mode ≠ .boot ∧ armedEpoch leadS = none
    ∧ armS.stp.tgt = [] ∧ { armS with stp := { armS.stp with canFleet := 100 } }.tick < 100 + canRepeat armS
    ∧ (inMode .dead).held = false := by decide
theorem wit_pair_inputs : bitAt (runS.r Reg.STP_CTRL.PAIR_EN) (1 : Fin 2) = true ∧ Awake runS ∧ bitAt (goS.r Reg.STP_CTRL.PAIR_EN) (1 : Fin 2) = true
    ∧ bitAt ((goS.w Reg.STP_CTRL.PAIR_EN 0).r Reg.STP_CTRL.PAIR_EN) (1 : Fin 2) = false
    ∧ bitAt ((goS.w Reg.STP_STATE.PAIR_FAULT 2).r Reg.STP_STATE.PAIR_FAULT) (1 : Fin 2) = true
    ∧ bitAt ((goS.w Reg.STP_STATE.OUT_FAULT 8).r Reg.STP_STATE.OUT_FAULT) (3 : Fin 4) = true := by simp only [Awake]; decide

/-! ### Witnesses: HST -/

/-- The host window map open over the whole of host memory. -/
def openMap (s : State) : State := (s.w Reg.KVT_HWIN.LIMIT_LO 0xFFFFF).w Reg.KVT_HWIN.LIMIT_HI 0xFFFFFFFF

theorem wit_modes_refused : leadS.twn.reflecting = false ∧ maintS.paused = false ∧ (leadS.wb Reg.BOOT_STATUS.PAUSE true).paused = true
    ∧ ∃ op f buf, descParts (.twnRoleSetLead hd 0) = some (hd, op, f, buf) ∧ opcodeModes op = some leadModes :=
  ⟨rfl, by decide, by decide, _, _, _, rfl, by decide⟩

theorem wit_ring_enable : RingKind.idxOk .eq 15 = true ∧ RingKind.idxOk .sq 63 = true
    ∧ inWindow (openMap leadS) (ringBase (openMap leadS) .sq 63) (ringLen (openMap leadS) .sq 63 * ringEntry .sq) = true
    ∧ ¬ inWindow (leadS.w Reg.HST_SQ.BASE_HI 1 63) (ringBase (leadS.w Reg.HST_SQ.BASE_HI 1 63) .sq 63)
        (ringLen (leadS.w Reg.HST_SQ.BASE_HI 1 63) .sq 63 * ringEntry .sq) = true
    ∧ leadS.rb (ringFault .sq) 63 = false := by decide

def dbS : State :=
  let s := ((leadS.wb Reg.HST_DB_CFG.DB_EN true).w Reg.HST_DB_STATUS.FAIL_RUN 7).wb Reg.HST_DB_CFG.LOSS_STOP true
  { ((openMap s).wb Reg.HST_SQ.ACTIVE true 63) with hst := { leadS.hst with linkUp := true, pcie := { bme := true }, dbReads := 1 } }
/-- A doorbell block whose entry 63 carries index 5 and its check. -/
def dbBlock : List Byte :=
  let e := [5, 0, 0, 0, 0, 0]
  List.replicate 504 0 ++ e ++ le 2 (crc16 (le 1 63 ++ e))
theorem wit_doorbell : sampling dbS = true ∧ inWindow dbS (dbAddr dbS) 512 = true ∧ { dbS with hst := { dbS.hst with linkUp := false } }.hst.linkUp = false ∧ dbS.hst.linkUp = true ∧ dbS.hst.pcie.bme = true ∧ dbS.hst.dbReads ≠ 0
    ∧ dbS.r Reg.HST_DB_STATUS.FAIL_RUN = 7 ∧ dbS.rb Reg.HST_DB_CFG.LOSS_STOP = true ∧ dbBlock.length = 512 := by decide
theorem wit_doorbell_entry : crc16 (le 1 63 ++ ((dbBlock.drop 504).take 8).take 6) = field ((dbBlock.drop 504).take 8) 6 2
    ∧ dbS.rb Reg.HST_SQ.ACTIVE 63 = true
    ∧ (field ((dbBlock.drop 504).take 8) 0 2 + 65536 - dbS.r Reg.HST_SQ.FETCH_CI 63) % 65536 ≤ ringLen dbS .sq 63
    ∧ ¬ crc16 (le 1 1 ++ ((dbBlock.drop 8).take 8).take 6) = field ((dbBlock.drop 8).take 8) 6 2 := by decide +kernel

/-- The same block with entry 1 written otherwise, failing its check too. -/
def dbOther : List Byte := List.replicate 8 0 ++ List.replicate 8 1 ++ dbBlock.drop 16
theorem wit_wrong_check : dbOther.length = 512 ∧ (dbBlock.drop 8).take 8 ≠ (dbOther.drop 8).take 8
    ∧ (∀ e ∈ List.range 64, (dbBlock.drop (8 * e)).take 8 = (dbOther.drop (8 * e)).take 8
      ∨ (¬ crc16 (le 1 e ++ ((dbBlock.drop (8 * e)).take 8).take 6) = field ((dbBlock.drop (8 * e)).take 8) 6 2
        ∧ ¬ crc16 (le 1 e ++ ((dbOther.drop (8 * e)).take 8).take 6) = field ((dbOther.drop (8 * e)).take 8) 6 2)) := by
  decide +kernel

def compl1 : Compl := { h := hd, ftick := 0, status := 0, detail := 0 }
def evt1 : EvtRec := { source := 8, mode := 1, detail := 0, tick := 0, eq := 15 }
def winS : State := { maintS with hst := { maintS.hst with linkUp := true, pcie := { bme := true }, cqOn := [(0, true)] } }
theorem wit_hst_window : winS.mode = .maintenance ∧ winS.paused = false ∧ hostReach winS = true ∧ winS.svc.tel = none
    ∧ winS.hst.waiting = [] ∧ winS.r Reg.HST_SQ.CQ compl1.h.sq = 0 ∧ mget false winS.hst.cqOn 0 = true
    ∧ (winS.r Reg.HST_CQ.PI 0 + 65536 - winS.r Reg.HST_CQ.DB_CI 0) % 65536 < ringLen winS .cq 0
    ∧ ({ winS with hst := { winS.hst with compl := [compl1] } } : State).hst.evq = []
    ∧ ({ winS with hst := { winS.hst with evq := [evt1] } } : State).hst.compl = [] := by decide
def ovfS : State := { leadS with hst := { leadS.hst with evOvf := [15], eqOn := [(15, true)] } }
theorem wit_overflow : (15 : Fin 16).val ∈ ovfS.hst.evOvf ∧ mget false ovfS.hst.eqOn (15 : Fin 16) = true
    ∧ eqUsed ovfS (15 : Fin 16) < ringLen ovfS .eq (15 : Fin 16) := by decide

def readS : State := { leadS with hst := { leadS.hst with reading := [(1, 65535)] } }
def nopBytes : List Byte := (descOf (.hstNop hd)).1
theorem wit_descriptor : readS.mode ≠ .shadow ∧ readS.hst.waiting = [] ∧ nopBytes.length = 32
    ∧ crc32c (nopBytes.take 28) = field nopBytes 28 4 ∧ opcodeModes (field nopBytes 0 1) = some anyRunMode
    ∧ field nopBytes 1 1 < 2 ∧ readS.mode ∈ anyRunMode ∧ (∀ p ∈ readS.hst.started, p.1.sq ≠ 1)
    ∧ ¬ crc32c ((List.replicate 32 (0 : Byte)).take 28) = field (List.replicate 32 0) 28 4 := by decide +kernel

theorem wit_link : dbS.hst.linkUp = true ∧ dbS.hst.idxZero = [] ∧ dbS.hst.pcie.bme = true ∧ leadS.hst.pcie.bme = false
    ∧ ({ leadS with hst := { leadS.hst with linkUp := true } } : State).hst.linkUp = true := by decide
/-- MSI-X vector 31 pending and not masked. -/
def msixS : State := (leadS.wbit Reg.MSIX_PBA.PENDING 31 true).wb Reg.MSIX.MASK false 31
def pcieOn : PcieCfg := { bme := true, msixEn := true }
theorem wit_vector : pcieOn.bme = true ∧ pcieOn.msixEn = true ∧ pcieOn.funcMask = false ∧ msixS.rb Reg.MSIX.MASK 31 = false
    ∧ bitAt (msixS.r Reg.MSIX_PBA.PENDING) 31 = true ∧ msixS.hst.pcie.bme = false ∧ ({} : PcieCfg).msixEn = false
    ∧ ({} : PcieCfg).bme = false ∧ dbS.mode ≠ .shadow ∧ dbS.hst.waiting = [] := by decide

/-! ### Witnesses: register writes and ETH -/

theorem wit_register_write : 0x20000 ≤ 0x50000 / 4 * 4 ∧ 0x50000 / 4 * 4 < 0xC0000
    ∧ ((wordFields 0xB0000).map fun p => p.1.key p.2.1 p.2.2).Nodup ∧ wordFields 0xB0000 ≠ []
    ∧ (∀ p ∈ wordFields 0xB0000, p.1.key p.2.1 p.2.2 < 32 * 0xB0000 + 32)
    ∧ writeRefused 0xB0000 0xFFFFFFFF leadS = true ∧ writeRefused 0xB0000 0 maintS = false ∧ 416 ∉ leadS.onceTick
    ∧ 0x50010 ≤ 0x5002B / 4 * 4 ∧ 0x5002B / 4 * 4 ≤ 0x50028 ∧ (∃ p ∈ wordFields 0x50028, p.1.acc.opens maintS.mode = true)
    ∧ ¬ (0x80100 ≤ 0x50000 ∧ 0x50000 < 0x80300 ∧ 0x50000 % 0x80 = 0) := by decide +kernel

def portS (st : Nat) : State :=
  let s := (((leadS.wb Reg.ETH_P_CFG.EN true 1).wb Reg.ETH_P_STATUS.LINK true 1).wb Reg.ETH_P_STATUS.IN_SERVICE true 1)
  s.w Reg.ETH_P_STATUS.PORT_STATE st 1
def hdr1 : PtpHdr := { udp := false, domain := 0, sdoId := 0, src := { clock := 1, port := 1 }, seq := 65535, corr := -65536 }
def gm1 : GmData :=
  { id := 1, prio1 := 128, clockClass := 6, accuracy := 32, variance := 0, prio2 := 128, timeSource := 32, utc := 37, utcValid := true }
def master1 : Foreign := { src := hdr1.src, gm := gm1, steps := 254, ticks := [0, 0] }
def exch (t : Nat) : Exchange := { src := hdr1.src, seq := 65535, stamp := 5, corr := 0, tick := t, slew := 0 }
/-- Port 1 follows the master, a Sync and a request of it waiting, and has measured no path delay. -/
def slaveS : State := { portS psSlave with eth := { leadS.eth with
  ports := [(1, { parent := some master1, foreign := [master1], sync := some (exch 0), req := some (exch 0), msDiff := some (500, 0) })] } }
def p2pS (st : Nat) : State := (portS st).wb Reg.ETH_P_CFG.DELAY_MECH true 1
def p2pReqS : State := { p2pS psSlave with eth := { leadS.eth with ports := [(1, { req := some (exch 0) })] } }
theorem wit_ptp : Awake slaveS ∧ slaveS.rb Reg.ETH_P_STATUS.LINK (1 : Fin 2) = true ∧ ethOn slaveS (1 : Fin 2) = true
    ∧ hdr1.udp = ethRb slaveS Reg.ETH_P_CFG.TRANSPORT (1 : Fin 2) ∧ { hdr1 with udp := true }.udp ≠ ethRb slaveS Reg.ETH_P_CFG.TRANSPORT (1 : Fin 2)
    ∧ hdr1.domain = slaveS.r Reg.ETH_PTP_CFG.DOMAIN ∧ hdr1.sdoId = 0 ∧ ethState slaveS (1 : Fin 2) = psSlave
    ∧ (ethPort slaveS (1 : Fin 2)).parent = some master1 ∧ master1.src = hdr1.src
    ∧ (ethPort slaveS (1 : Fin 2)).sync = some (exch 0) ∧ (exch 0).src = hdr1.src ∧ (exch 0).seq = hdr1.seq
    ∧ crossesStep slaveS (exch 0).tick slaveS.tick = false ∧ ethRb slaveS Reg.ETH_P_CFG.DELAY_MECH (1 : Fin 2) = false
    ∧ (ethPort slaveS (1 : Fin 2)).req = some (exch 0) ∧ (ethPort slaveS (1 : Fin 2)).msDiff = some (500, 0)
    ∧ crossesStep slaveS (min 0 (exch 0).tick) (max 0 (exch 0).tick) = false ∧ (ethPort slaveS (1 : Fin 2)).mpd = none
    ∧ (254 : Nat) < 255 := by
  simp only [Awake]; decide
theorem wit_ptp_announce : { hdr1.src with clock := ethClockId slaveS + 1 }.clock ≠ ethClockId slaveS := Nat.succ_ne_self _
theorem wit_ptp_crosses : crossesStep { slaveS with eth := { slaveS.eth with stepTick := some 5 }, tick := 5 } 4 5 = true
    ∧ crossesStep { slaveS with eth := { slaveS.eth with stepTick := some 5 }, tick := 6 } 5 6 = false
    ∧ crossesStep { slaveS with eth := { slaveS.eth with stepTick := some 5 } } (min 4 (exch 6).tick) (max 4 (exch 6).tick) = true := by decide
theorem wit_ptp_answers : ethState (portS psMaster) (1 : Fin 2) = psMaster ∧ ethOn (portS psMaster) (1 : Fin 2) = true
    ∧ ethRb (portS psMaster) Reg.ETH_P_CFG.DELAY_MECH (1 : Fin 2) = false ∧ (portS psMaster).rb Reg.ETH_P_STATUS.LINK (1 : Fin 2) = true
    ∧ ethRb (p2pS psSlave) Reg.ETH_P_CFG.DELAY_MECH (1 : Fin 2) = true ∧ ethOn (p2pS psSlave) (1 : Fin 2) = true
    ∧ (ethPort (p2pS psSlave) (1 : Fin 2)).fifo - 0 < 8
    ∧ (ethPort p2pReqS (1 : Fin 2)).req = some (exch 0) ∧ (ethPort p2pReqS (1 : Fin 2)).mpd = none
    ∧ crossesStep p2pReqS (exch 0).tick p2pReqS.tick = false ∧ ethRb p2pReqS Reg.ETH_P_CFG.DELAY_MECH (1 : Fin 2) = true
    ∧ ethOn p2pReqS (1 : Fin 2) = true := by decide
/-- The port's FIFO of transmit stamps is full. -/
def fullS : State := { portS psMaster with eth := { leadS.eth with ports := [(1, { fifo := 9 })] } }
/-- Port 1 is preferred and back; port 0 has SLAVE; both hear the same grandmaster, from two ports of it. -/
def gm2 : GmData := { gm1 with id := ethClockId leadS + 1 }
def backS : State :=
  let s := (((portS psPassive).w Reg.ETH_PTP_CFG.PREF_SLAVE 1).w Reg.ETH_P_STATUS.PORT_STATE psSlave 0).wb Reg.ETH_P_CFG.EN true 0
  let s := (s.wb Reg.ETH_P_STATUS.LINK true 0).wb Reg.ETH_P_STATUS.IN_SERVICE true 0
  let f : Foreign := { master1 with gm := gm2, steps := 0 }
  { s with eth := { s.eth with
      ports := [(0, { parent := some f, foreign := [f] }), (1, { foreign := [{ f with src := { clock := 1, port := 2 } }], watches := 1000 })] } }
def best1 : Cand := { gm := gm2, steps := 0, src := { clock := 1, port := 2 }, rx := 2 }
theorem wit_ports : 8 ≤ (ethPort fullS (1 : Fin 2)).fifo - 1 ∧ (ethPort fullS (1 : Fin 2)).fifo - 2 < 8 ∧ ethOn fullS (1 : Fin 2) = true
    ∧ ethState fullS (1 : Fin 2) = psMaster ∧ (portS psMaster).rb Reg.ETH_P_STATUS.IN_SERVICE (1 : Fin 2) = true
    ∧ (slaveS.eth.ports = [(1, ethPort slaveS 1)]) ∧ Awake backS := by
  simp only [Awake]; decide
theorem wit_port_back : backS.r Reg.ETH_PTP_CFG.PREF_SLAVE = (1 : Fin 2) ∧ ethOn backS (1 : Fin 2) = true
    ∧ ethState backS (1 - (1 : Fin 2).val) = psSlave ∧ stableWatches backS ≤ (ethPort backS (1 : Fin 2)).watches
    ∧ ¬ (1 ≤ (ethOwnQuality backS (1 : Fin 2)).clockClass ∧ (ethOwnQuality backS (1 : Fin 2)).clockClass ≤ 127) := by decide
theorem wit_port_back_best : ethBest backS (1 : Fin 2) = some best1 := by rfl
theorem wit_port_back_same : sameGm backS = true := (beq_self_eq_true (gm2.id) : (gm2.id == gm2.id) = true)
theorem wit_port_back_better : dsCompare (ethClockId backS)
    { gm := ethOwnQuality backS (1 : Fin 2), steps := 0, src := { clock := ethClockId backS, port := 0 }, rx := 0 } best1 ≤ 0 := by
  have h : ethClockId leadS ≠ gm2.id := (Nat.succ_ne_self _).symm
  have hl : lexLt (gmKey (ethOwnQuality backS (1 : Fin 2))) (gmKey gm2) = false := by rfl
  have e : ∀ (a b : Cand), a.gm.id ≠ b.gm.id → lexLt (gmKey a.gm) (gmKey b.gm) = false → dsCompare (ethClockId backS) a b = -2 := by
    intro a b h1 h2; simp [dsCompare, h1, h2]
  rw [e { gm := ethOwnQuality backS (1 : Fin 2), steps := 0, src := { clock := ethClockId backS, port := 0 }, rx := 0 } best1 h hl]; decide
/-! ### Witnesses: SXT and OBS -/

/-- Receiver channel 1023 in a state, with what it holds. -/
def chS (st : Nat) (c : SxtCh) : State :=
  let s := (leadS.w Reg.SXT_CH.STATE st 1023).w Reg.SXT_SIG_EN.SIG_EN 0x3FFFF
  { s.w Reg.SXT_CTRL.BAND_EN 7 with sxt := { s.sxt with chans := [(1023, c)] } }
/-- A channel past its lock tests, at tick 200. -/
def lockS (st : Nat) : State := { chS st { hiAt := some 100, loAt := some 150, weakAt := some 100 } with tick := 200 }
theorem wit_channels : Engines (chS 4 {}) ∧ chState (chS 4 {}) (1023 : Fin 1024) = 4 ∧ (sxtCh (chS 4 {}) (1023 : Fin 1024)).left = 0
    ∧ (sxtCh (chS 4 { left := 1 }) (1023 : Fin 1024)).left ≠ 0
    ∧ bandOn (chS 4 { left := 1 }) (sigBand ((chS 4 { left := 1 }).r Reg.SXT_CH.SIG (1023 : Fin 1024))) = true
    ∧ chState (chS 1 {}) (1023 : Fin 1024) = 1 ∧ (sxtCh (chS 1 {}) (1023 : Fin 1024)).held = false
    ∧ bitAt ((chS 1 {}).r Reg.SXT_SIG_EN.SIG_EN) 8 = true ∧ bandOn (chS 1 {}) (sigBand 8) = true ∧ searchFinds (chS 1 {}) 8 255 (-6000000) = true
    ∧ chState (lockS 2) (1023 : Fin 1024) = 2 ∧ forTicks (lockS 2) 100 (sxtCh (lockS 2) (1023 : Fin 1024)).hiAt = true
    ∧ chState (lockS 3) (1023 : Fin 1024) = 3 ∧ forTicks (lockS 3) 50 (sxtCh (lockS 3) (1023 : Fin 1024)).loAt = true
    ∧ forTicks (lockS 3) 100 (sxtCh (lockS 3) (1023 : Fin 1024)).weakAt = true
    ∧ sigData ((chS 3 {}).r Reg.SXT_CH.SIG (1023 : Fin 1024)) = true
    ∧ sigData (((chS 3 {}).w Reg.SXT_CH.SIG 1 1023).r Reg.SXT_CH.SIG (1023 : Fin 1024)) = false := by
  simp only [Engines]; decide
theorem wit_pair_free : pairTaken (chS 1 {}) (1023 : Fin 1024) 8 255 = false := by decide +kernel

/-- The bias on or off with a current, ANT_STATE, and what the notches and the noise reference need. -/
def antS (st ma : Nat) (on : Bool) : State :=
  let s := ((leadS.wb Reg.SXT_ANT_CFG.BIAS_EN true).w Reg.SXT_ANT_STATUS.ANT_STATE st).w Reg.SXT_ANT_STATUS.CURRENT_MA ma
  { s with tick := 1000, sxt := { s.sxt with bias := on, shortAt := 0, antLow := 100 } }
def jamS : State := { leadS with sxt := { leadS.sxt with
  jam := [(2, { started := true, ticks := 10000, sum := 5 })], lines := [(2, { bin := -9, power := 255, above := 10, below := 0 })]
  notches := [(8, { line := some 7 })] } }
theorem wit_antenna : (antS 1 111 true).rb Reg.SXT_ANT_CFG.BIAS_EN = true ∧ (antS 1 111 true).sxt.bias = true
    ∧ 110 < (antS 1 111 true).r Reg.SXT_ANT_STATUS.CURRENT_MA ∧ antState (antS 1 111 true) ≠ 3
    ∧ (antS 3 0 false).sxt.bias = false ∧ antState (antS 3 0 false) = 3 ∧ (antS 3 0 false).sxt.shortAt + 1000 ≤ (antS 3 0 false).tick
    ∧ 100 ≤ (antS 1 2 true).sxt.antLow ∧ antState (antS 1 2 true) ≠ 2 ∧ antState (antS 2 3 true) = 2
    ∧ 3 ≤ (antS 2 3 true).r Reg.SXT_ANT_STATUS.CURRENT_MA ∧ (antS 3 110 true).r Reg.SXT_ANT_STATUS.CURRENT_MA ≤ 110 := by decide
theorem wit_notches : lineDue jamS (2 : Fin 3) (-9) = true ∧ lineHeld jamS (2 : Fin 3) (-9) = false ∧ lineGone jamS (1 : Fin 3) (0 : Fin 8) = true
    ∧ (jamRef jamS (2 : Fin 3)).refTen = none ∧ 10000 ≤ (jamRef jamS (2 : Fin 3)).ticks ∧ Engines jamS := by
  simp only [Engines]; decide

def unitS (c i : Nat) (u : UnitSt) : State := setUnit leadS c i u
theorem wit_bank : (unit leadS 0 (16 : Fin 17)).out = false ∧ (unit leadS 0 (16 : Fin 17)).standby = false
    ∧ unitMayJoin (unitS 0 15 { out := true, passed := true }) 0 (15 : Fin 17) = true
    ∧ unitStable (unitS 0 15 { standby := true, stable := 1000000 }) 0 (15 : Fin 17) = true ∧ (15 : Fin 17).val < 16 := by decide
theorem wit_bank_queued : (∀ o ∈ leadS.sxt.bankOut, o.1 ≠ (16 : Fin 17).val)
    ∧ ({ leadS with sxt := { leadS.sxt with bankOut := [(16, [], false)] } } : State).sxt.bankOut = [((16 : Fin 17).val, [], false)] := by decide
def meas : MeasIn := { ch := 1023, txTime := 1, carrier := 3, towUnk := false }
def latch1 (d : Bool) : LatchCh :=
  { ch := 1023, sig := 0, sv := 1, freqK := 0, half := false, restart := false, notch := false, cn0 := 4500, doppler := -5, lockMs := 7, deliver := d }
def measS (d : Bool) : State := { chS 3 {} with sxt := { (chS 3 {}).sxt with latch := some ([latch1 d], 0, 0) } }
def corr1 : CorrIn := { ch := 1023, early := (1, 0), prompt := (2, 0), late := (1, 0), noise := (0, 1), data := none }
/-- Of GPS L1 C/A: words of zeros have right parity, a first byte of 1 has not. -/
def nav (m : Nat) : NavIn :=
  { stamp := 0, sub := 0, unit := 0, conv := true, bad := false, fixed := false, failMask := 0, corrMask := 0, data := le 38 m, polarity := true
    eph := some [1], utc := some 18, gnssTime := none, iono := none, utcPar := none, gloK := none }
theorem wit_measure : corr1.ch < 1024 ∧ chState (chS 3 {}) corr1.ch = 3 ∧ (sxtCh (chS 3 {}) corr1.ch).last + (sxtCh (chS 3 {}) corr1.ch).tcoh ≤ (chS 3 {}).tick + 1
    ∧ chState (chS 2 {}) corr1.ch = 2 ∧ (measS true).sxt.latch = some ([latch1 true], 0, 0) ∧ meas.ch = (latch1 true).ch
    ∧ (measS false).sxt.latch = some ([latch1 false], 0, 0) ∧ chState (chS 3 {}) (1023 : Fin 1024) = 3
    ∧ navCheck ((chS 3 {}).r Reg.SXT_CH.SIG 1023) (nav 0) = 0 ∧ (nav 0).eph = some [1] ∧ (nav 0).utc = some 18
    ∧ navCheck ((chS 3 {}).r Reg.SXT_CH.SIG 1023) (nav 1) = 2 ∧ use.pending = false := by decide

theorem wit_set_pos : ((0 : Int) * 0 + 0 * 0 + 62999999999 * 62999999999 < 63000000000 ^ 2)
    ∧ ¬ ((0 : Int) * 0 + 0 * 0 + 63000000000 * 63000000000 < 63000000000 ^ 2 ∨ (64000000000 : Int) ^ 2 < 63000000000 * 63000000000)
    ∧ (64000000000 : Int) ^ 2 < 64000000001 * 64000000001 + 0 * 0 + 0 * 0 := by decide

def checkS (sum : Int) : State := { leadS with obs := { leadS.obs with checking := true, count := 100, sums := (sum, 0, 0) } }
def ephS : State := { leadS with tick := 0, obs := { leadS.obs with eph := [(257, { stamp := 0, params := [] })], ephAt := [(257, -600000)] } }
theorem wit_obs : leadS.mode ≠ .shadow ∧ leadS.ttu.pos = 0 ∧ leadS.obs.diffs = [] ∧ leadS.obs.first = false ∧ leadS.sxt.recs = []
    ∧ (checkS 0).obs.checking = true ∧ 100 ≤ (checkS 0).obs.count
    ∧ ((0 - 100 * 0) * (0 - 100 * 0) : Int) ≤ (((checkS 0).r Reg.OBS_POS_CHECK.CHECK_M * 10000 * 100) ^ 2 : Nat)
    ∧ ¬ ((1000000000000 : Int) * 1000000000000 ≤ (((checkS 0).r Reg.OBS_POS_CHECK.CHECK_M * 10000 * 100) ^ 2 : Nat))
    ∧ ephS.obs.eph.find? (fun p => p.1 == 257) = some (257, { stamp := 0, params := [] })
    ∧ (∀ p ∈ ephS.obs.ephAt, p.1 = 257 → p.2 + 600000 ≤ (ephS.tick : Int)) ∧ (checkS 0).r Reg.OBS_POS_CHECK.CHECK_M ≠ 0
    ∧ (∀ x y z b, (checkS 0).obs.next ≠ some (.set 2 x y z b)) := by
  refine ⟨by decide, by decide, by decide, by decide, by decide, by decide, by decide, by decide, by decide, by decide, by decide, by decide, ?_⟩
  intro x y z b h; cases h
theorem wit_obs_next (x y z : Int) (b : Bool) : ({ checkS 0 with obs := { (checkS 0).obs with next := some (.set 2 x y z b) } } : State).obs.next
    = some (.set 2 x y z b) := rfl

/-! ### Witnesses: FIX -/

/-- 126 rovers enabled at 20 Hz or so that the load is 127 without rover 127. -/
def loadS : State := iter (fun r s => s.wb Reg.FIX_ROVER.ENABLED true r) 127 leadS
theorem wit_rate_load : ((List.range 128).map fun q => if q = 127 then 0 else loadAfter loadS q).sum + 1 + 0 ≤ 128
    ∧ 128 < ((List.range 128).map fun q => if q = 127 then 0 else loadAfter loadS q).sum + 1 + 1 := by decide +kernel

def job (cl : Option Nat) (cost : Nat) : FixJob := { rover := 5, u := 0, te := 0, epoch := 0, half := false, cost := cost, cl := cl }
/-- A VALID base, and rover 5 with a filter in a state on cluster 2. -/
def solS (st : Nat) : State :=
  { (leadS.w Reg.OBS_POS_STATE.STATE 2) with fix := { leadS.fix with
      rovers := [(5, { filt := { st := st }, upd := some 0 })], jobs := [job (some 2) 100], outs := [{ cl := 2, rover := 9, filt := none }] } }
theorem wit_solution : Engines (solS 0) ∧ posState (solS 0) = 2 ∧ (244999 : Nat) < 245000
    ∧ (solS 0).fix.jobs.find? (fun x => x.rover == (5 : Fin 128).val && x.cl.isSome) = some (job (some 2) 100)
    ∧ (job (some 2) 100).cl = some 2 ∧ (clJobs (solS 0) 2).head? = some (job (some 2) 100) ∧ (solS 0).tick < (job (some 2) 100).u + 20
    ∧ ((solS 0).fix.outs.filter fun o => o.cl == 2).length < 3 := by
  simp only [Engines]; decide

def baseObs (sv : Nat) : Observable :=
  { ch := sv, sig := 0, sv := sv, freqK := 0, pr := 0, carrier := 0, doppler := 0, cn0 := 0, lockMs := 0, half := false, notch := false
    uncorr := false }
def baseSet1 : ObsSet := { tick := 0, epoch := 0, corr := true, obs := (List.range 5).map baseObs }
/-- A record of 5 entries, of satellites 0 to 4 on GPS L1 C/A. -/
def record5 : List Byte := [1, 5, 5] ++ List.replicate 29 0 ++ (List.range 5).flatMap fun k => le 1 k ++ List.replicate 15 0
/-- A base set of 5 satellites with their ephemerides. -/
def solveS : State := { solS 0 with
  regs := ((solS 0).w Reg.SXT_SIG_EN.SIG_EN 1).regs
  obs := { leadS.obs with set := some baseSet1, eph := (List.range 5).map fun k => (k, { stamp := 0, params := [] }) } }
theorem wit_solve_few : baseSetFor solveS 0 false = some baseSet1
    ∧ (satsOf ((entriesUsed (solveS.r Reg.SXT_SIG_EN.SIG_EN) []).filterMap
        (usedObs solveS baseSet1 false {} (toSigned 32 (field [] 8 4))))).length < 5 := by decide +kernel
theorem filterMap_keeps {f : Entry → Option UsedObs} {g : Entry → Nat × Nat} {es : List Entry}
    (h : ∀ e ∈ es, ∃ u, f e = some u ∧ u.e = e) : (es.filterMap f).map (fun u => g u.e) = es.map g := by
  induction es with
  | nil => rfl
  | cons e es ih =>
    obtain ⟨u, hu, he⟩ := h e (List.mem_cons_self ..)
    rw [List.filterMap_cons_some hu, List.map_cons, List.map_cons, ih fun x hx => h x (List.mem_cons_of_mem _ hx), he]
/-- Elevations are left open (log entry 69): where all five stand above ELEV_MASK, all five are used. -/
theorem wit_solve_five (h : ∀ p q, ¬ Config.elevation p q < fixMask solveS * 100) :
    5 ≤ (satsOf ((entriesUsed (solveS.r Reg.SXT_SIG_EN.SIG_EN) record5).filterMap
        (usedObs solveS baseSet1 false {} (toSigned 32 (field record5 8 4))))).length := by
  have he : ∀ e ∈ entriesUsed (solveS.r Reg.SXT_SIG_EN.SIG_EN) record5, e.sig = 0
      ∧ (baseSet1.obs.find? fun o => o.sv == e.sv && o.sig == 0 && !o.uncorr) = some (baseObs e.sv)
      ∧ (solveS.obs.eph.find? fun p => p.1 == 256 * sigConst 0 + e.sv) = some (e.sv, { stamp := 0, params := [] }) := by decide +kernel
  have hu : ∀ e ∈ entriesUsed (solveS.r Reg.SXT_SIG_EN.SIG_EN) record5, ∃ u,
      usedObs solveS baseSet1 false {} (toSigned 32 (field record5 8 4)) e = some u ∧ u.e = e := by
    intro e hm
    obtain ⟨h0, h1, h2⟩ := he e hm
    simp only [usedObs, h0, h1, h2]
    rw [if_neg (by simp [sigConst, h])]
    exact ⟨_, rfl, rfl⟩
  rw [satsOf, filterMap_keeps (g := fun e => (sigConst e.sig, e.sv)) hu]
  decide +kernel

/-- A ready rover whose record of one entry lies in its queue. -/
def pkt5 : Pkt := { data := record5, tick := 0 }
def readyS : State := { solS 0 with
  tick := 1, obs := { leadS.obs with set := some baseSet1 }
  fix := { leadS.fix with jobs := [job none 0] }, cpl := { leadS.cpl with queues := [(5, { pkts := [pkt5] })] } }
theorem wit_fix_slot : nextReady readyS = some (job none 0) ∧ (job none 0).cost = 0 ∧ (fixTake readyS (job none 0).rover).1 = some pkt5
    ∧ recordRefusal readyS (job none 0) pkt5.data = none ∧ posState readyS = 2 ∧ noBaseSet readyS 0 false = false
    ∧ (∀ x ∈ readyS.fix.jobs, x.rover = 5 → x.te = 0 → x = job none 0) := by decide
theorem wit_fix_slot_cluster : clPick readyS = some 0 := by decide

def lateS : State := { leadS with tick := 20, fix := { leadS.fix with jobs := [job none 0] } }
def winF (void : Bool) : FixWin := { te := 0, epoch := 0, half := false, last := 0, frags := [127], void := void }
def closeS (lost : Bool) : State :=
  { (leadS.w Reg.OBS_POS_STATE.STATE 2).wb Reg.FIX_ROVER.ENABLED true 127 with
    obs := { leadS.obs with set := some baseSet1 }
    fix := { leadS.fix with win := some (winF false), rovers := [(127, { lost := lost })] } }
theorem wit_fix_deadlines : lateS.fix.jobs = [job none 0] ∧ (job none 0).rover < 128 ∧ (job none 0).u + 20 ≤ lateS.tick
    ∧ (closeS true).fix.win = some (winF false) ∧ (winF false).void = false ∧ (closeS true).ttu.pos = 0
    ∧ fixEnabled (closeS true) 127 = true ∧ 127 ∉ (winF false).done ∧ (fixRover (closeS true) 127).lost = true
    ∧ (fixRover (closeS false) 127).lost = false ∧ posState (closeS false) = 2 ∧ noBaseSet (closeS false) 0 false = false := by decide
def pausedS : State := { leadS with tick := 1001, fix := { leadS.fix with rovers := [(127, { paused := some 0 })] } }
theorem wit_filter_expired : (fixRover pausedS (127 : Fin 128)).paused = some 0 ∧ 0 + 1000 < pausedS.tick := by decide

theorem wit_cluster : (unit leadS 1 (8 : Fin 9)).out = false ∧ (unit leadS 1 (8 : Fin 9)).standby = false
    ∧ tiw (leadS.w Reg.TTU_WATCH_POS.TICK_IN_WATCH 45) = 45
    ∧ unitMayJoin (unitS 1 8 { out := true, passed := true }) 1 (8 : Fin 9) = true
    ∧ unitStable (unitS 1 8 { standby := true, stable := 1000000 }) 1 (8 : Fin 9) = true := by decide
/-! ### Witnesses: CHT and ASG -/

def seg1 : ChtSeg := { idx := 0, e0 := 0, n0 := 0, e1 := 1000, n1 := 0, width := 1000, tEnter := 0, tExit := 100, vMax := 1000 }
def segBytes : List Byte :=
  le 1 127 ++ le 3 0 ++ le 4 0 ++ le 4 0 ++ le 4 1000 ++ le 4 0 ++ le 2 1000 ++ le 2 0 ++ le 8 0 ++ le 8 100 ++ le 4 1000 ++ le 4 0
def buf1 : BufIn := { err := false, data := segBytes }
/-- Rover 127 heard FIXED, with the map open; the other rover with a corridor where `o`. -/
def chtS (o : Bool) : State :=
  let other : List (Nat × ChtRover) := if o then [(6, { segs := [seg1], cap := some seg1 })] else []
  { openMap leadS with cht := { leadS.cht with origin := some (0, 0, 0), rovers := other ++ [(127, { fixedAt := some 0 })] } }
theorem wit_reserve : bufOk (chtS false) 0 (48 * 1) buf1 = true ∧ (chtS false).cht.queue.length < 256
    ∧ (chtS false).cht.origin.isSome = true ∧ bufOk (chtS false) 0 (48 * 1) { buf1 with err := true } = false
    ∧ chtSt (chtS false) 127 = 0 ∧ chtSt ((chtS false).w Reg.CHT_ROVER.STATE 2 127) 127 ≠ 0
    ∧ chtHeld ((chtS false).w Reg.CHT_ROVER.STATE 4 127) 127 = true := by decide
def fullQS : State := { chtS false with cht := { leadS.cht with
  queue := List.replicate 256 { h := hd, rover := 127, mode := 0, segs := [], area := none, acc := 0, win := 0, done := 0 } } }
theorem wit_reserve_full : 256 ≤ fullQS.cht.queue.length ∧ bufOk fullQS 0 (48 * 1) buf1 = true := by decide +kernel
theorem wit_reserve_segments : segArray (chtS false) 127 1 buf1.data = some [seg1] := by decide +kernel

def req1 (mode : Nat) : ChtReq :=
  { h := hd, rover := 127, mode := mode, segs := [seg1], area := none, acc := 0, win := 0, done := 0 }
def slotS (o : Bool) (mode : Nat) : State := { chtS o with cht := { (chtS o).cht with queue := [req1 mode] } }
def judged (o : Bool) (mode : Nat) : Nat × List Byte × Nat := chtJudge (slotEnd (slotS o mode).start 4 use) (req1 mode) 0
theorem wit_slot_passes : (judged false 0).1 = stOk ∧ (judged false 0).2.2 - 0 ≤ min 9 4194304 ∧ (req1 0).area = none := by
  decide +kernel
theorem wit_slot_conflict : (judged true 0).1 = stConflict ∧ min 0 4194304 < (judged true 0).2.2 - 0 := by decide +kernel
/-- A staging area asked for by rover 127. -/
def reqArea : ChtReq := { req1 0 with segs := [], area := some { e := 0, n := 0, rad := 1000 } }
theorem wit_slot_area : (chtJudge (slotEnd ({ chtS false with cht := { (chtS false).cht with queue := [reqArea] } } : State).start 4 use) reqArea 0).1 = stOk
    ∧ reqArea.area = some { e := 0, n := 0, rad := 1000 } := by decide +kernel
theorem wit_slot_modes : Engines shadowS ∧ shadowS.mode = .shadow ∧ Engines (slotS true 0) ∧ (slotS true 0).mode ≠ .shadow ∧ leadS.cht.queue = [] := by
  simp only [Engines]; decide
theorem wit_slot_refuses : (judged false 1).1 ≠ stOk ∧ (judged false 1).1 ≠ stConflict := by decide +kernel

def pend1 : ChtPend := { mode := 0, segs := [seg1], tick := 5, h := hd }
def grantS (m : Mode) (pair tick : Nat) : State :=
  { (inMode m).w Reg.TWN_STATUS.PAIR_STATE pair with
    tick := tick, cht := { leadS.cht with rovers := [(127, { pend := some pend1 })] }, twn := { leadS.twn with ack1 := 5, ack8 := 5 } }
theorem wit_grant : (grantS .halt 3 5).leading = true ∧ (chtRover (grantS .lead 3 5) (127 : Fin 128)).pend = some pend1
    ∧ (chtRover (grantS .lead 3 5) (127 : Fin 128)).stages = [] ∧ (grantS .lead 3 5).tick ≤ pend1.tick
    ∧ (grantS .lead 4 6).solo = false ∧ (grantS .lead 4 6).inSync = false
    ∧ pend1.tick < (grantS .lead 3 6).tick ∧ (grantS .lead 3 6).inSync = true ∧ pend1.tick ≤ (grantS .lead 3 6).twn.ack1
    ∧ pend1.tick ≤ (grantS .lead 3 6).twn.ack8 ∧ (grantS .lead 5 6).twn.claimLeft ≠ 2
    ∧ { grantS .lead 3 6 with twn := { leadS.twn with ack1 := 5, ack8 := 4 } }.twn.ack8 < pend1.tick
    ∧ (grantS .lead 5 6).solo = true := by decide
def restS : State := { (leadS.w Reg.CHT_ROVER.STATE 2 127) with
  tick := 100000, cht := { leadS.cht with rovers := [(127, { segs := [seg1], cap := some seg1 })] } }
theorem wit_rest : (chtRover restS (127 : Fin 128)).cap = some seg1 ∧ chtSt restS (127 : Fin 128) = 2
    ∧ seg1.tExit + timeMargin restS < restS.tick ∧ restS.ttu.pos = 0 ∧ chtHeld restS (127 : Fin 128) = false := by decide

def auc1 : Auction := { h := hd, tag := 9, warm := false, addr := 0, len := 40 }
def aucS (a : Option Auction) (p : Option Auction) : State := { openMap leadS with asg := { leadS.asg with run := a, pend := p } }
theorem wit_auction_commands : Taken leadModes (aucS none none) ∧ inWindow (aucS none none) 8 40 = true ∧ (aucS none none).asg.run = none
    ∧ (aucS none none).asg.next = none ∧ (aucS (some auc1) (some auc1)).asg.run.isSome = true
    ∧ (aucS (some auc1) (some auc1)).asg.pend = some auc1 ∧ auc1.read = false
    ∧ (aucS (some auc1) none).asg.cancel = [] ∧ (aucS (some auc1) none).leading = true := by
  simp only [Taken]; decide
/-- A matrix of one task for rover 0. -/
def matrix1 : List Byte := le 1 1 ++ le 1 0 ++ le 2 1 ++ le 4 0 ++ le 16 1 ++ le 4 5 ++ le 4 0 ++ le 4 7 ++ le 4 0
theorem wit_matrix : (matrixOf auc1 matrix1).isSome = true ∧ matrixOf auc1 [] = none := by decide +kernel

/-- In a pair IN_SYNC, a matrix sent in tick 0 and acknowledged. -/
def ackedS : State := { (aucS (some { auc1 with read := true, sentAt := some 0 }) none).w Reg.TWN_STATUS.PAIR_STATE 3 with pending := [] }
theorem wit_auction_acked : ackedS.inSync = true ∧ ackedS.twn.items = [] ∧ ackedS.twn.carry = [] ∧ auc1.data = [] ∧ 0 ≤ ackedS.twn.lastRefl
    ∧ ackedS.asg.run = some { auc1 with read := true, sentAt := some 0 } ∧ ackedS.solo = false := by decide
def bidding : Auction := { auc1 with read := true, bidding := true, watches := 100000 }
def ended : Auction := { auc1 with read := true, bidding := true, ended := true }
def at99 (a : Auction) : State := (aucS (some a) none).w Reg.TTU_WATCH_POS.TICK_IN_WATCH 99
theorem wit_auction_runs : (aucS (some { auc1 with read := true }) none).solo = true ∧ (at99 ended).asg.drop = [] ∧ (at99 ended).asg.cancel = [] ∧ (at99 ended).asg.next = none ∧ (at99 ended).mode ≠ .shadow
    ∧ tiw (at99 ended) = 99 ∧ ended.ended = true ∧ bidding.ended = false ∧ bidding.bidding = true
    ∧ maxWatches (at99 bidding) ≤ bidding.watches ∧ (at99 bidding).asg.next = none
    ∧ ({ auc1 with read := true } : Auction).bidding = false := by decide

/-! ### Witnesses: PRF and POS -/

/-- Channel 511 on rover sink 127 behind channel 3, both at rest. -/
def boundS : State := { openMap leadS with prf := { leadS.prf with
  chans := [(3, { kind := 1, sink := 127 }), (511, { kind := 1, sink := 127 })], rovers := [(127, { chans := [3, 511] })] } }
theorem wit_bind : (prfCh leadS 511).kind = 0 ∧ (sinkChans leadS 1 127).length < 8 ∧ 511 ∉ sinkChans leadS 1 127
    ∧ (prfCh boundS 511).kind ≠ 0 ∧ (sinkChans boundS 1 127).head? = some 3 ∧ (prfCh boundS 3).state = 0
    ∧ (prfCh boundS 3).start = false := by decide

def parBytes : List Byte := List.replicate 40 0
def par1 : PrfPar := { vStart := 100, a1 := 100, vSplit := 200, a2 := 100, vCruise := 300, d2 := 100, d1 := 100, vStop := 100, target := 50 }
def ch1 (kind : Nat) : PrfCh := { kind := kind, sink := 0, par := par1 }
/-- Channel 5 alone on a sink: rover 0, or positioner 0. -/
def onlyS (kind : Nat) (v : PrfCh) : State := { openMap leadS with prf := { leadS.prf with
  chans := [(5, v)], rovers := if kind = 1 then [(0, { chans := [5] })] else [], poss := if kind = 2 then [(0, { chans := [5] })] else [] } }
theorem wit_profile : bufOk (onlyS 1 (ch1 1)) 0 40 { err := false, data := parBytes } = true
    ∧ bufOk leadS 8192 40 { err := false, data := parBytes } = false ∧ field parBytes 36 4 = 0
    ∧ (prfCh (onlyS 1 (ch1 1)) 5).kind ≠ 0 ∧ parOk 1 (parMerge par1 0 []) = true
    ∧ (prfSink (onlyS 1 (ch1 1)) 0).s ≤ (parMerge par1 0 []).target * mmS ∧ parOk 2 (parMerge par1 0 []) = true ∧ (prfCh (onlyS 2 (ch1 2)) 5).kind ≠ 1
    ∧ parOk 1 { parMerge par1 0 [] with target := stopTarget (onlyS 1 (ch1 1)) (ch1 1) (parMerge par1 0 []) (false && true) } = true
    ∧ chMoving (prfCh (onlyS 1 (ch1 1)) 5) = false ∧ (prfCh (onlyS 1 (ch1 1)) 5).armed = false := by decide +kernel

theorem wit_profile_slot : Engines (onlyS 1 (ch1 1)) ∧ (∀ p ∈ (onlyS 1 (ch1 1)).prf.rovers, ∀ c ∈ p.2.chans, c < 512)
    ∧ 0 ∈ (onlyS 1 (ch1 1)).prf.rovers.map (·.1) ∧ (prfSink (onlyS 1 (ch1 1)) 0).plan = []
    ∧ permitOnAir (onlyS 1 (ch1 1)) 0 = false ∧ ({ use with pending := true } : SlotUse).pending = true := by
  simp only [Engines]; decide

theorem wit_positioner_update : (posCh leadS (3 : Fin 4)).homing = none ∧ (posSink leadS (3 : Fin 4)).chans = []
    ∧ leadS.rb Reg.POS_CH.ENC_EN (3 : Fin 4) = false ∧ (posSink (onlyS 2 (ch1 2)) (0 : Fin 4)).chans = [5]
    ∧ (prfCh (onlyS 2 (ch1 2)) 5).staged = none ∧ (prfCh (onlyS 2 { ch1 2 with halt := true }) 5).state ≠ 7
    ∧ (prfCh (onlyS 2 { ch1 2 with start := true, par := { par1 with target := 0 } }) 5).par.target
      = posHere (onlyS 2 { ch1 2 with start := true, par := { par1 with target := 0 } }) (0 : Fin 4)
    ∧ par1.target ≠ posHere (onlyS 2 { ch1 2 with start := true }) (0 : Fin 4)
    ∧ (posSink (onlyS 2 { ch1 2 with start := true }) (0 : Fin 4)).acc + 100 * vWord par1.vStart < 2 ^ 48 := by decide

def posS : State :=
  let s := ((leadS.wb Reg.POS_CH.EN true 3).wb Reg.POS_CH.ENC_EN true 3).wb Reg.POS_CH.HOME_EN true 3
  { s with pos := { s.pos with chans := [(3, { en := true })] } }
theorem wit_drive : Taken leadModes posS ∧ posS.rb Reg.POS_CH.EN 3 = true ∧ posS.rb Reg.POS_CH.ENC_EN 3 = true ∧ posBusy posS 3 = false
    ∧ posS.rb Reg.POS_CH.SHORT 3 = false ∧ posHot posS = false ∧ posS.rb Reg.POS_CH.HOME_EN 3 = true ∧ (posCh posS 3).en = true
    ∧ bitAt 3 1 = true := by
  simp only [Taken]; decide

def homing4 : Homing :=
  { h := hd, dir := true, useIndex := true, fast := 100, slow := 100, offset := -2147483648, maxTravel := 1, phase := 4, travel := 5000000 }
def homeS (ph : Nat) : State := { posS with pos := { posS.pos with chans := [(3, { en := true, homing := some { homing4 with phase := ph } })] } }
/-- Positioner 3 runs in the positive direction under channel 5, its limit switches enabled as at reset, VMOT there. -/
def movingS : State :=
  let s := { posS with prf := { posS.prf with chans := [(5, { ch1 2 with sink := 3, state := 2 })], poss := [(3, { chans := [5], pos := true, vel := 65536 })] } }
  s.wb Reg.POS_SUPPLY.VMOT_OK true
theorem wit_switches : (posCh (homeS 4) (3 : Fin 4)).homing = some homing4 ∧ homing4.phase = 4 ∧ -2147483648 ≤ homing4.offset
    ∧ homing4.offset < 2147483648 ∧ (homeS 4).leading = true ∧ switchEn movingS (3 : Fin 4) (0 : Fin 3) = true
    ∧ switchEn (leadS.wb Reg.POS_CH.LIM_P_EN false 3) (3 : Fin 4) (0 : Fin 3) = false
    ∧ bitAt (movingS.r Reg.POS_CH.TRIPPED (3 : Fin 4)) (0 : Fin 3) = false
    ∧ bitAt (movingS.r Reg.POS_CH.SWITCH_CHATTER (3 : Fin 4)) (0 : Fin 3) = false
    ∧ posMoving movingS (3 : Fin 4) = some ((0 : Fin 3) == 0) ∧ (posCh movingS (3 : Fin 4)).homing = none
    ∧ ((posCh posS 3).encA = false ↔ (posCh posS 3).encB ≠ true) ∧ (posCh posS 3).encA ≠ true := by decide

def stallS : State :=
  let s := { movingS with pos := { movingS.pos with chans := [(3, { en := true, laLow := 100000, count := 1000000, run := true, tuning := true })] } }
  (s.w Reg.POS_CH.STALL_SRC 3 3).w Reg.POS_CH.LA_STATE 2 3
theorem wit_positioner_faults : (if homing4.phase = 1 then homing4.maxTravel else (homeS 4).r Reg.POS_CH.HOME_WINDOW 3) < homing4.travel
    ∧ posDriven stallS (posCh stallS (3 : Fin 4)) = true ∧ bitAt (stallS.r Reg.POS_CH.STALL_SRC (3 : Fin 4)) 0 = true
    ∧ max (stallS.r Reg.POS_CH.ENC_STALL (3 : Fin 4)) (stallS.r Reg.POS_CH.ENC_WARN (3 : Fin 4)) < (posDev stallS (3 : Fin 4)).natAbs
    ∧ bitAt (stallS.r Reg.POS_CH.STALL_SRC (3 : Fin 4)) 1 = true ∧ stallS.r Reg.POS_CH.LA_STATE (3 : Fin 4) = 2
    ∧ max 1 (stallS.r Reg.POS_CH.LA_COUNT (3 : Fin 4)) ≤ (posCh stallS (3 : Fin 4)).laLow
    ∧ (posCh stallS (3 : Fin 4)).run = true ∧ (posCh stallS (3 : Fin 4)).tuning = true
    ∧ (posCh stallS (3 : Fin 4)).last + stallS.r Reg.POS_CH.HOLD_DELAY (3 : Fin 4)
      ≤ ({ stallS with tick := 1000000 } : State).tick
    ∧ stallS.rb Reg.POS_TEMP.TEMP_WARN = false ∧ (stallS.wb Reg.POS_SUPPLY.VMOT_OK false).rb Reg.POS_SUPPLY.VMOT_OK = false := by
  decide +kernel
/-! ### Witnesses: LUV and SEC -/

def cfg1 : SlotCfg := { home := 1, ulMcs := 8, dlMcs := 4, ulN := 5, ulStart := 0, retry := 139, dlSlot := 76 }
theorem wit_slot_assignments : Taken leadModes leadS ∧ Machine.cfgOk leadS 127 (cfgBytes cfg1) = true ∧ field (cfgBytes cfg1) 4 1 ≠ 255
    ∧ Machine.cfgOk leadS 127 (cfgBytes { cfg1 with ulN := 1 }) = false := by
  simp only [Taken]; decide

/-- Transceiver 1 active in a tick of the watch, rover 127 on it with an assignment and `dl` segments to send. -/
def airS (t : Nat) (dl : List ChtSeg) (blocked : Bool) : State :=
  { (leadS.w Reg.LUV_HB_STATUS.ROLE 1 1).w Reg.TTU_WATCH_POS.TICK_IN_WATCH t with
    kvt := { leadS.kvt with volatile := true }
    luv := { leadS.luv with rovers := [(127, { cfg := some cfg1 })], busy := if blocked then [(1, true)] else [] }
    cht := { leadS.cht with rovers := [(127, { dl := dl })] } }
theorem wit_downlink : Engines (airS 40 [] false) ∧ slotsRun (airS 40 [] false) = true ∧ hbActive (airS 40 [] false) (1 : Fin 2) = true
    ∧ hbPlan (airS 40 [] false) (1 : Fin 2) = [] ∧ (hbPath (airS 40 [] false) (1 : Fin 2)).onAir = []
    ∧ luvRover (airS 40 [] false) 127 = { cfg := some cfg1 } ∧ slotRole (airS 40 [] false) = .downlink 30
    ∧ (airS 40 [] false).luv.rovers.find? (fun p => p.2.cfg.any fun c => c.home == 1 && c.dlSlot == 7 * (tiw (airS 40 [] false) - 30) + 6)
      = some (127, { cfg := some cfg1 })
    ∧ hbBlocked (airS 40 [] false) (1 : Fin 2) = false ∧ hbBlocked (airS 40 [] true) (1 : Fin 2) = true
    ∧ linkKeys (airS 40 [] false) 127 = true ∧ nextBurst (hbPath (airS 40 [] false) (1 : Fin 2)) = none := by
  simp only [Engines]; decide
theorem wit_bulk : slotRole (airS 45 [seg1] false) = .bulk ∧ hbBlocked (airS 45 [seg1] false) (1 : Fin 2) = false ∧ mget [] (airS 45 [seg1] false).luv.redo 1 = []
    ∧ (((bulkRovers (airS 45 [seg1] false) 1).filter fun r => decide (mget 0 (airS 45 [seg1] false).luv.turn 1 ≤ r))
      ++ bulkRovers (airS 45 [seg1] false) 1).head? = some 127 := by decide
def preS : State := { leadS with luv := { leadS.luv with pre := some { tick := 1, stop := 0, permit := 0, key := 0 } } }
theorem wit_beacon : Engines preS ∧ ∃ p, preS.luv.pre = some p ∧ p.tick = preS.tick + 1 := ⟨by simp only [Engines]; decide, _, rfl, rfl⟩

def cacS : State := leadS.w Reg.LUV_HB_STATUS.ROLE 2 1
theorem wit_radar : Awake cacS ∧ profileEu cacS = true ∧ cacS.r Reg.LUV_HB_STATUS.ROLE 1 ≠ 0 ∧ cacS.r Reg.LUV_HB_STATUS.ROLE 1 = 2
    ∧ (luvHb cacS (1 : Fin 2)).done ≤ cacS.tick ∧ (luvHb cacS (1 : Fin 2)).passed = false ∧ (unit cacS 2 (1 : Fin 2)).out = false := by
  simp only [Awake]; decide
theorem wit_transceiver_units : unitMayJoin (unitS 2 1 { out := true, passed := true }) 2 1 = true ∧ leadS.ttu.pos = 0
    ∧ profileEu (leadS.w Reg.LUV_CFG.PROFILE 1) = false
    ∧ (profileEu (unitS 2 1 { out := true, passed := true }) = true → (luvHb { (unitS 2 1 { out := true, passed := true }) with
        luv := { leadS.luv with hbs := [(1, { passed := true })] } } (1 : Fin 2)).passed = true) ∧ unitStable (unitS 2 1 { standby := true, stable := 65535 }) 2 1 = true := by decide
def beatS (full : Bool) : State :=
  { goS.wb Reg.LUV_CFG.LANTERN_HB_EN true with
    kvt := { leadS.kvt with gs := true }, tick := 10, luv := { leadS.luv with airTicks := if full then [10, 10] else [] } }
theorem wit_heartbeat : fleetLatch (beatS false) = false ∧ (beatS false).leading = true ∧ (beatS false).rb Reg.LUV_CFG.LANTERN_HB_EN = true
    ∧ (beatS false).paused = false ∧ (beatS false).kvt.gs = true ∧ (beatS false).tick % 10 = 0 ∧ lanternFits (beatS false) 35640000 = true
    ∧ armS.tick % 10 ≠ 0 := by decide
/-- No state of so many frames is written out: the limit holds 371,250 of them. -/
theorem wit_heartbeat_skipped (s : State) (hp : profileEu s = true) (hc : lanternCount s = 371250) : lanternFits s 35640000 = false := by
  simp [lanternFits, hp, hc]

/-- The first uplink slot of transceiver 1, with rover 127's windows. -/
def upS (w : List (Nat × SecWin)) : State :=
  { airS 2 [] false with kvt := { leadS.kvt with volatile := true }, sec := { leadS.sec with win := w } }
def up (seq : Nat) : UplinkRx := { hb := 1, slot := 0, kind := 0x11, rover := 127, frag := 0x10, keyId := 0, seq := seq, rstat := 0
                                   rsv := 0, tag := 0, err := 14400, payload := [] }
/-- The same frame with the tag of the session key. -/
def signed (s : State) (seq : Nat) : UplinkRx := { up seq with tag := uplinkTag s (up seq) false }
theorem uplinkTag_own_tag (s : State) (f : UplinkRx) (old : Bool) (x : Nat) :
    uplinkTag s { f with tag := x } old = uplinkTag s f old := rfl
theorem uplinkOk_signed (s : State) (f : UplinkRx) (hk : linkKeys s f.rover = true) :
    uplinkOk s { f with tag := uplinkTag s f false } false = true := by
  simp [uplinkOk, hk, uplinkTag_own_tag]
theorem uplink_checks_ignore_tag (s : State) (f : UplinkRx) (x : Nat) : headerOk { f with tag := x } = headerOk f
    ∧ slotOf s { f with tag := x } = slotOf s f ∧ rxLost s { f with tag := x } = rxLost s f := ⟨rfl, rfl, rfl⟩
theorem linkKeys_upS (w : List (Nat × SecWin)) : linkKeys (upS w) 127 = true := rfl
theorem wit_uplink_signed (seq : Nat) (w : List (Nat × SecWin)) : uplinkOk (upS w) (signed (upS w) seq) false = true
    ∧ headerOk (signed (upS w) seq) = headerOk (up seq) ∧ slotOf (upS w) (signed (upS w) seq) = slotOf (upS w) (up seq)
    ∧ (signed (upS w) seq).hb = (up seq).hb ∧ rxLost (upS w) (signed (upS w) seq) = rxLost (upS w) (up seq) := by
  have h := uplink_checks_ignore_tag (upS w) (up seq)
  unfold signed
  exact ⟨uplinkOk_signed (upS w) (up seq) (linkKeys_upS w), (h _).1, (h _).2.1, rfl, (h _).2.2⟩
/-- With the volatile keys zeroised no tag verifies. -/
theorem wit_uplink_unsigned : uplinkOk { upS [] with kvt := leadS.kvt } (up 1) false = false ∧ (352 ∉ (upS []).onceWatch) := by decide
theorem wit_uplink : (upS []).held = false ∧ (upS []).leading = true ∧ hbActive (upS []) (up 1).hb = true ∧ rxLost (upS []) (up 1) = false
    ∧ -2000 ≤ (up 1).err ∧ (up 1).err ≤ 14400 ∧ headerOk (up 1) = true ∧ slotOf (upS []) (up 1) = true
    ∧ headerOk { up 1 with kind := 0x10 } = false ∧ slotOf (upS []) { up 1 with slot := 6 } = false
    ∧ secEpoch (upS []) (up 1).keyId = some false ∧ secEpoch (upS []) 255 = none ∧ (upS []).kvt.volatile = true
    ∧ (354 ∉ (upS []).onceWatch) := by decide
theorem wit_windows : (secWin (upS []) false 127).h = none
    ∧ (secWin (upS [(127, { h := some 100, map := 1 })]) false 127).h = some 100
    ∧ (100 : Nat) < (up 101).seq ∧ 100 ≤ (up 37).seq + 63 ∧ bitAt 1 (100 - (up 37).seq) = false
    ∧ (up 100).seq ≤ 100 ∧ bitAt 1 (100 - (up 100).seq) = true ∧ (up 36).seq + 63 < 100 := by decide
def missS : State := leadS.w Reg.SEC_ROVER.MISS_WATCHES 3 127
theorem wit_lost : missS.held = false ∧ missS.running = true ∧ missS.ttu.pos = 0 ∧ missS.r Reg.SEC_ROVER.MISS_WATCHES (127 : Fin 128) = 3
    ∧ missS.rbit Reg.SEC_LOST.LOST (127 : Fin 128) = false := by decide
def oldS : State := { leadS with sec := { leadS.sec with old := some 3 } }
theorem wit_old_key : Awake oldS ∧ oldS.sec.left = 0 ∧ oldS.sec.old = some 3 := by simp only [Awake]; decide

/-! ### Witnesses: TWN -/

def frame1 (m : Mode) (epoch : Nat) : StatusIn :=
  { crcOk := true, mode := m, finished := true, tick := 0, epoch := epoch, stored := 0xFFFFFFFF, lastRefl := 0, phaseNs := 0
    timeState := 0, timeSrc := 0, uncert := 0, master := false, offset := 0, kcv := 0, gen := 0, keyEpoch := 0, stopClear := true, logs := [] }
def hoFirst : Handover := { h := hd, left := 2, role := 0, maint := false }
def hoLater : State := { pairS .lead with twn := { leadS.twn with handover := some hoFirst } }
theorem wit_role_set : Taken leadModes (pairS .lead) ∧ (pairS .lead).inSync = true ∧ (pairS .lead).twn.handover = none ∧ (hoLater).twn.handover = some hoFirst
    ∧ ((pairS .lead).wb Reg.TWN_STATUS.TIME_MASTER true).rb Reg.TWN_STATUS.TIME_MASTER = true ∧ leadS.inSync = false := by
  simp only [Taken]; decide
theorem wit_frames : leadS.held = false ∧ leadS.paused = false ∧ (frame1 .halt 1).crcOk = true ∧ (frame1 .halt 1).stored < 2 ^ 32
    ∧ leadS.leading = true ∧ leadS.r Reg.TWN_EPOCHS.LEAD_EPOCH < (frame1 .halt 1).epoch ∧ leadS.running = true ∧ leadS.pair ≠ 5
    ∧ (pairS .lead).inSync = true := by decide
/-- A lead of slot A in PAIRED_SILENT, listening. -/
def silentS : State := { (leadS.w Reg.TWN_STATUS.PAIR_STATE 4).wb Reg.TWN_CFG.ACK_LISTEN true with tick := leadS.r Reg.TWN_STATUS.SLOT }
theorem wit_listen_tick : listenTick silentS = true := by
  unfold listenTick
  rw [Bool.and_eq_true]
  exact ⟨by decide, by show (((0 ^^^ Config.slotStrap) % 2) % 2 == (0 ^^^ Config.slotStrap) % 2) = true; simp⟩
theorem wit_air : leadS.r Reg.TWN_EPOCHS.LEAD_EPOCH < 1 ∧ shadowS.r Reg.TWN_EPOCHS.LEAD_EPOCH = 0 ∧ listenTick leadS = false ∧ silentS.leading = true ∧ silentS.pair = 4 ∧ (0x5010 : Word).toNat % 65536 = 0x5010 := by decide

def flight1 : Flight := { tick := 5, cover := 5, items := [], digest := 77 }
def flyS (run : Nat) : State := { pairS .lead with twn := { leadS.twn with flight := [flight1], unackRun := run } }
theorem wit_stream : (flyS 9).held = false ∧ (flyS 9).leading = true ∧ (flyS 9).inSync = true ∧ (flyS 9).paused = false
    ∧ (flyS 9).twn.flight.find? (fun f => f.tick == 5) = some flight1 ∧ (flyS 9).twn.flight ≠ [] ∧ (flyS 8).twn.unackRun < 9
    ∧ 9 ≤ (flyS 9).twn.unackRun ∧ (pairS .shadow).mode = .shadow ∧ (pairS .shadow).inSync = true ∧ (pairS .shadow).twn.lastRefl < 1
    ∧ (0 : Nat) ≤ (pairS .shadow).twn.lastRefl ∧ (5 : Nat) ≠ (flyS 9).tick ∧ 5 = { flyS 9 with tick := 5 }.tick ∧ (pairS .shadow).mode ≠ .dead
    ∧ (pairS .shadow).paused = false
    ∧ (pairS .shadow).twn.unackRun < 9 ∧ 9 ≤ { pairS .shadow with twn := (flyS 9).twn }.twn.unackRun := by decide
def syncS (m : Mode) : State := (inMode m).w Reg.TWN_STATUS.PAIR_STATE 2
theorem wit_resync : (syncS .lead).pair = 2 ∧ (syncS .lead).ttu.pos = 0 ∧ (syncS .lead).paused = false ∧ (syncS .lead).leading = true
    ∧ (syncS .shadow).mode = .shadow := by decide

/-- A shadow whose peer is gone, or silent on the air, for a number of ticks. -/
def claimS (pair gone : Nat) (stale : Bool) : State :=
  { ((shadowS.w Reg.TWN_STATUS.PAIR_STATE pair).wb Reg.TWN_CFG.AIR_CLAIM_EN true).wb Reg.TWN_STATUS.STALE stale with
    twn := { shadowS.twn with silent := true, noBeacon := 2, goneTicks := gone, claim := some 4 } }
theorem wit_claims : (claimS 5 0 false).held = false ∧ (claimS 5 0 false).pair = 5 ∧ airDue (claimS 4 0 false) = true
    ∧ (claimS 5 0 false).paused = false ∧ (claimS 5 0 false).twn.handover.any (fun x => x.left == 1 && x.role == 0) = false
    ∧ (claimS 5 0 false).rb Reg.TWN_STATUS.STALE = false ∧ (claimS 5 1999 true).rb Reg.TWN_STATUS.STALE = true
    ∧ staleDue (claimS 5 1999 true) = false ∧ staleDue (claimS 5 2000 true) = true ∧ airDue shadowS = false
    ∧ (claimS 5 0 false).twn.claim = some 4 ∧ { (claimS 5 0 false).twn with claim := some 3 }.claim = some 3 ∧ (claimS 5 0 false).kvt.stored < 0xFFFFFFFF := by decide
/-- A module that has finished BOOT beside a peer in a mode. -/
def electS (pm : Nat) (key : Option (Nat × Nat)) : State :=
  { ((State.reset.w Reg.TWN_STATUS.PEER_MODE pm).w Reg.TWN_EPOCHS.STORED_EPOCH 1).wb Reg.KVT_STATUS.PEER_MATCH true with
    twn := { State.reset.twn with electing := true, peerFinished := true, waitTicks := 2000 }, kvt := { State.reset.kvt with active := key } }
theorem wit_elections : (electS 0 none).held = false ∧ (electS 0 none).mode = .boot ∧ (electS 0 none).twn.electing = true
    ∧ (electS 0 none).r Reg.TWN_STATUS.PEER_MODE = 0 ∧ (electS 0 none).twn.peerFinished = true
    ∧ (electS 0 none).r Reg.TWN_EPOCHS.PEER_EPOCH < (electS 0 none).r Reg.TWN_EPOCHS.STORED_EPOCH
    ∧ (electS 0 none).kvt.active = none ∧ (electS 0 (some (1, 1))).kvt.active ≠ none
    ∧ (electS 7 none).r Reg.TWN_STATUS.PEER_MODE = 7 ∧ 2000 ≤ (electS 7 none).twn.waitTicks
    ∧ (electS 3 none).r Reg.TWN_STATUS.PEER_MODE = 3 ∧ (electS 3 none).rb Reg.KVT_STATUS.PEER_MATCH = true := by decide
def ho1 (role : Nat) : Handover := { h := hd, left := 1, role := role, maint := false }
def hoS (m : Mode) (role : Nat) : State :=
  { inMode m with twn := { leadS.twn with handover := some (ho1 role), handoverNow := true, stepDown := true } }
theorem wit_handovers : (hoS .lead 0).leading = true ∧ (hoS .lead 0).twn.stepDown = true ∧ (hoS .lead 0).mode ≠ .dead
    ∧ (hoS .lead 0).twn.handover = some (ho1 0) ∧ (hoS .lead 0).twn.handoverNow = true ∧ (ho1 1).role = 1 ∧ (ho1 0).role = 0
    ∧ (∀ y ∈ ho1 0 :: (hoS .lead 0).twn.later, y.maint = false) ∧ (∀ y ∈ (hoS .lead 0).twn.later, y.role = (ho1 0).role)
    ∧ ¬ (∀ y ∈ { ho1 0 with maint := true } :: (hoS .lead 0).twn.later, y.maint = false) ∧ (hoS .shadow 0).mode = .shadow ∧ shadowS.leading = false := by decide

/-! ### Witnesses: CPL and CAN -/

/-- A user queue that holds one packet of one byte. -/
def poolS : State := { ((openMap leadS).wb Reg.CPL_Q.EXISTS true 1023) with
  cpl := { leadS.cpl with queues := [(1023, { pkts := [{ data := [1], tick := 0 }] })] } }
/-- Of a CPL_READ of two packets whose writes the link cuts after 30 bytes, the first is issued. -/
theorem wit_read_cut : cplReadCount [({ data := [1], tick := 0 } : Pkt), { data := [2], tick := 0 }] 2 (cutLen { hd with cut := some 30 } 64) = 1
    ∧ cutLen hd 64 = 64 ∧ hostReach { poolS with hst := { leadS.hst with linkUp := true, pcie := { bme := true } } } = true ∧ hostReach poolS = false := by decide
theorem wit_queues : Taken anyRunMode poolS ∧ queueSetBad poolS 1023 1 1 1 1 0 = false ∧ queueSetBad poolS 1024 1 1 1 1 0 = true
    ∧ poolS.rb Reg.CPL_Q.FIXED 1023 = false ∧ poolS.rb Reg.CPL_Q.FIXED 143 = true ∧ poolS.rb Reg.CPL_Q.EXISTS 1023 = true
    ∧ hostQueue 1023 = true ∧ inWindow poolS 0 65536 = true ∧ inWindow leadS (2 ^ 63) 65536 = false ∧ hostQueue 135 = false
    ∧ cplReadCount (cplQ poolS 1023).pkts 1 23 = 0 ∧ cplReadCount (cplQ poolS 1023).pkts 1 24 = 1 := by
  simp only [Taken]; decide

/-- A CAN FD record of 64 bytes without a deadline; a classic record with a deadline at tick 1. -/
def fd64 : List Byte := le 4 (2 ^ 29 + 0x1FFFFFFF) ++ le 1 3 ++ le 1 15 ++ le 26 0 ++ le 64 0
def late1 : List Byte := le 4 0x7FF ++ le 1 0 ++ le 1 8 ++ le 2 0 ++ le 8 1 ++ le 24 0
/-- Channel 3 in a state and an error state, with its buffer 2 in a state, offered. -/
def canS (m : Mode) (st err tx : Nat) (frame : List Byte) : State :=
  let s := ((openMap (inMode m)).wb Reg.CAN_CH_CFG.EN true 3).wb Reg.CAN_CH_CFG.FD_EN true 3
  let s := ((s.w Reg.CAN_CH_STATUS.STATE st 3).w Reg.CAN_CH_STATUS.ERR_STATE err 3).w Reg.CAN_TXB.STATE tx 3 2
  let s := s.w Reg.CAN_CH_CFG.TX_SRC 0 3
  { s with tick := 2, can := { s.can with chans := [(3, { offer := some (some 2), recov := true, bufs := [(2, { frame := frame, h := some hd })] })] } }
def run (tx : Nat) : State := canS .lead 1 0 tx fd64
theorem wit_can_send : Taken anyRunMode (run 0) ∧ bufOk (run 0) 0 (32 + recBytes fd64) { err := false, data := fd64 } = true
    ∧ recOk (run 0) 3 fd64 = true ∧ recOk (run 0) 3 [] = false ∧ (run 0).rb Reg.CAN_CH_CFG.EN 3 = true
    ∧ (run 0).r Reg.CPL_Q.PKTS (canTxQ 3) < (run 0).r Reg.CPL_Q.MAX_PKTS (canTxQ 3) ∧ canRoom (run 0) 3 96 = true
    ∧ canRoom ((run 0).w Reg.CPL_Q.MAX_CELLS 0 (canTxQ 3)) 3 96 = false
    ∧ canState (canS .lead 2 0 0 []) 3 = 2 ∧ bufOk (run 0) 0 96 { err := true, data := fd64 } = false := by
  simp only [Taken]; decide
theorem wit_can_control : busOff (canS .lead 1 2 0 []) 3 = true ∧ bitAt ((run 0).r Reg.STP_REPEAT.CAN_STOP_CH) 3 = false
    ∧ ¬ leadS.rb Reg.CAN_CH_CFG.EN 3 = true := by decide
theorem wit_buffers : Awake (run 0) ∧ bitAt ((run 0).r Reg.CAN_CH_CFG.TX_SRC (3 : Fin 4)) (2 : Fin 3) = false
    ∧ bitAt (((run 0).w Reg.CAN_CH_CFG.TX_SRC 7 3).r Reg.CAN_CH_CFG.TX_SRC (3 : Fin 4)) (2 : Fin 3) = true ∧ txState (run 0) 3 2 = 0
    ∧ txState (run 4) 3 2 = 4 ∧ (canBuf (run 4) (3 : Fin 4) (2 : Fin 3)).h = some hd ∧ (run 4).mode ≠ .shadow
    ∧ txState (run 3) 3 2 = 3 ∧ txLate (run 3) (canBuf (run 3) 3 2).frame = false
    ∧ txLate (canS .lead 1 0 3 late1) (canBuf (canS .lead 1 0 3 late1) 3 2).frame = true ∧ (canS .shadow 1 0 0 fd64).mode = .shadow
    ∧ recOk (run 0) 3 (padTo 96 fd64) = true := by simp only [Awake]; decide
theorem wit_bus : canState (run 1) (3 : Fin 4) = 1 ∧ busOff (run 1) (3 : Fin 4) = false ∧ (canCh (run 1) (3 : Fin 4)).offer = some (some 2)
    ∧ txState (run 1) 3 2 = 1 ∧ canSends (run 1) = true ∧ 15 ≤ ((run 1).w Reg.CAN_TXB.CLASH_RUN 15 3 2).r Reg.CAN_TXB.CLASH_RUN 3 2
    ∧ (run 1).r Reg.CAN_CH_STATUS.ERR_STATE (3 : Fin 4) = 0 ∧ (canCh (canS .lead 1 2 0 []) (3 : Fin 4)).recov = true
    ∧ txLate (canS .lead 1 0 1 late1) (canBuf (canS .lead 1 0 1 late1) 3 2).frame = true ∧ canState (run 1) 3 ≠ 2
    ∧ canState (canS .lead 2 0 0 []) (3 : Fin 4) = 2 ∧ canState (canS .lead 3 0 0 []) (3 : Fin 4) = 3
    ∧ (canCh (canS .lead 3 0 0 []) (3 : Fin 4)).keep = false := by decide
def stop1 : StopFrame := { rover := none, epoch := 0, tick := 2 }
def stopQ : State := { run 0 with can := { leadS.can with chans := [(3, { offer := some none, stop := [stop1], stopOn := some stop1 })] } }
theorem wit_stop_class : (canCh stopQ (3 : Fin 4)).offer = some none ∧ (canCh stopQ (3 : Fin 4)).stopOn = some stop1 ∧ canState stopQ 3 = 1
    ∧ busOff stopQ 3 = false ∧ ({ tec := 255, frames := 31, retries := 31 } : CanErrs).tec ≤ 255 ∧ 127 < ({ tec := 128, frames := 1, retries := 0 } : CanErrs).tec
    ∧ 255 < ({ tec := 256, frames := 1, retries := 0 } : CanErrs).tec := by decide
def rx1 : CanRx := { id := 5, ide := false, rtr := false, fdf := false, brs := false, esi := false, dlc := 8, data := [], sofAt := 0 }
def fltS (lock : Bool) : State := (((run 1).w Reg.CAN_FLT.DEST 1 3 31).w Reg.CAN_FLT.MAILBOX 31 3 31).wb Reg.CAN_MB.LOCK lock 3 31
theorem wit_filters : canFilter (run 1) (3 : Fin 4) rx1 = none ∧ canFilter (fltS true) (3 : Fin 4) rx1 = some 31
    ∧ (fltS true).r Reg.CAN_FLT.DEST (3 : Fin 4) 31 = 1 ∧ (fltS true).rb Reg.CAN_MB.LOCK (3 : Fin 4) 31 = true
    ∧ (fltS false).rb Reg.CAN_MB.LOCK (3 : Fin 4) 31 = false
    ∧ ((fltS true).wb Reg.CAN_MB.SHADOW_FULL true 3 31).rb Reg.CAN_MB.SHADOW_FULL (3 : Fin 4) (31 : Fin 32) = true := by decide
def wakeS : State := canS .lead 2 0 0 []
theorem wit_wake : canWakes wakeS (3 : Fin 4) .pattern = true ∧ canWakes wakeS (3 : Fin 4) .errors = false := by decide
def iso0 : State := { (run 1).wb Reg.CAN_CH_CFG.ISO_EN true 3 with
  tick := 250, can := { leadS.can with chans := [(3, { iso := 253 })] } }
def isoS : State := iso0.wb Reg.CAN_GLOBAL.ISO_AVAIL true
theorem wit_iso : canSends isoS = true ∧ isoOn isoS (3 : Fin 4) = true ∧ canState isoS (3 : Fin 4) = 1 ∧ (canCh isoS (3 : Fin 4)).iso < 254
    ∧ isoS.rb Reg.CAN_CH_ISO.CLAIMED (3 : Fin 4) = false ∧ (canCh isoS (3 : Fin 4)).isoAt + 250 ≤ isoS.tick := by
  refine ⟨by decide, ?_, (State.r_w_ne _ _ _ _ _ _ _ _ (by decide)).trans (by decide), by decide,
    (State.rb_w_ne _ _ _ _ _ _ _ _ (by decide)).trans (by decide), by decide⟩
  rw [isoOn, Bool.and_eq_true]
  exact ⟨State.rb_wb_same _ _ true 0 0 rfl, (State.rb_w_ne _ _ _ _ _ _ _ _ (by decide)).trans (by decide)⟩
theorem wit_controllers : (unit leadS 3 (4 : Fin 5)).out = false ∧ unitMayJoin (unitS 3 4 { out := true, passed := true }) 3 (4 : Fin 5) = true
    ∧ unitStable (unitS 3 4 { standby := true, stable := 65535 }) 3 (4 : Fin 5) = true := by decide
/-! ### Witnesses: GLT, LOG and KVT -/

def blk (i : Nat) : GltBlock := { idx := i, src := 4, decim := 0, flags := 0, seq := i, stamp := 0, n := 0, dropped := 0, t3 := i, per := 0, data := [] }
def cap1 (num flags : Nat) : GltCapture :=
  { num := num, mask := 1, flags := flags, base := 0, stamp := 0, tick := 0, from3 := 0, trig3 := 0, to3 := 0, first := [(7, (1, 1))] }
/-- Stream 7 with three blocks of a region of 1 MiB, a mark at the first, two captures, the trigger machine in a state. -/
def gltS (st : Nat) (valid lost : Bool) : State :=
  let s := (openMap leadS).w Reg.GLT_STATE.STATE st
  let s := (s.wb Reg.GLT_STREAM.MARK_VALID valid 7).wb Reg.GLT_STREAM.MARK_LOST lost 7
  { (s.w Reg.GLT_COND.TYPE 5 7).w Reg.GLT_COND.TYPE 4 6 with
    glt := { s.glt with
      streams := [(7, { seen := some (4, 1, 1), idx := 3, seq := 3, mem := [(0, some (blk 0)), (1, some (blk 1)), (2, some (blk 2))] })]
      caps := [cap1 0 64, cap1 1 0], started := 65536 } }
theorem wit_glt_reads : Taken anyRunMode (gltS 2 true false) ∧ inWindow (gltS 2 true false) 0 16777216 = true
    ∧ gltBad 0 7 0 0 (2 ^ 30 - 1) 0 16777216 0 = false ∧ gltBad 0 8 0 0 0 0 4096 0 = true
    ∧ (pairS .lead).inSync = true ∧ regionBlocks (gltStream (gltS 2 true false) 7) ≤ 256 * 4096 / 4096 ∧ 255 < regionBlocks (gltStream (gltS 2 true false) 7)
    ∧ (gltS 2 true false).rb Reg.GLT_STREAM.MARK_VALID 7 = true ∧ (gltS 2 false false).rb Reg.GLT_STREAM.MARK_VALID 7 = false
    ∧ (gltS 2 true true).rb Reg.GLT_STREAM.MARK_LOST 7 = true
    ∧ blocksFrom (gltStream (gltS 2 true false) 7) 0 (min 256 (gltSpan (gltStream (gltS 2 true false) 7) 0)) ≠ [] := by
  simp only [Taken]; decide
theorem wit_glt_captures : (gltS 2 true false).glt.caps.find? (fun c => c.num == 2) = none
    ∧ (gltS 2 true false).glt.caps.find? (fun c => c.num == 0) = some (cap1 0 64) ∧ bitAt (cap1 0 64).flags 3 = false
    ∧ bitAt (cap1 0 64).flags 6 = true ∧ bitAt (cap1 1 0).flags 6 = false
    ∧ (gltS 2 true false).glt.caps.dropWhile (fun c => c.num != 2) = [] ∧ (gltS 2 true false).glt.caps.dropWhile (fun c => c.num != 1) ≠ []
    ∧ gltPeer 0 { err := false, data := [0, 0, 0, 0, 0] } = some (stOk, 0, [])
    ∧ gltPeer 0 { err := false, data := [1, 0, 0, 0, 0] } = some (1, 0, []) := by decide +kernel
def sample0 : GltSample := { edges := [], samples := [], events := [], tick := true, cyc := 0 }
def mask (s : State) (x : GltSample) (f : Bool) : Nat := ((List.range 8).filter (fun c => condHits s x f c != [])).foldl (fun n c => n + 2 ^ c) 0
theorem wit_glt_trigger : mask (gltS 2 true false) sample0 false = 64 ∧ mask (gltS 2 true false) sample0 true = 192
    ∧ mask leadS sample0 true = 0 ∧ gltState (gltS 0 true false) = 0 ∧ gltState (gltS 1 true false) = 1 ∧ gltState (gltS 2 true false) = 2
    ∧ 3 ≤ gltState (gltS 3 true false) := by decide
def fillS (st : Nat) : State := (gltS st true false).w Reg.GLT_WINDOW.PRE_US 0
theorem wit_glt_ends : gltState (fillS 1) = 1 ∧ (fillS 1).glt.fill3 + (fillS 1).r Reg.GLT_WINDOW.PRE_US * 10000 * uNs ≤ nowT3 (fillS 1) 250000
    ∧ (fillS 3).glt.caps.getLast? = some (cap1 1 0) ∧ gltState (fillS 3) = 3 ∧ (cap1 1 0).to3 ≤ nowT3 (fillS 3) 0
    ∧ gltState ((fillS 4).w Reg.GLT_HOLD.HOLD 0) = 4 ∧ ((fillS 4).w Reg.GLT_HOLD.HOLD 0).rb Reg.GLT_CFG.HOLD_MODE = false
    ∧ (cap1 1 0).trig3 + ((fillS 4).w Reg.GLT_HOLD.HOLD 0).r Reg.GLT_HOLD.HOLD * 10000 * uNs ≤ nowT3 ((fillS 4).w Reg.GLT_HOLD.HOLD 0) 0
    ∧ backlog leadS ≤ 65536 := by decide
/-- No state with so many samples is written out: their bytes are a premise. -/
theorem wit_backlog (b : List Byte) (hb : b.length = 262145) (s : State)
    (hs : s.glt.streams = [(7, { stage := [{ t3 := 0, stamp := 0, per := 0, decim := 0, drop := 0, size := 1, data := b }] })]) :
    262144 < backlog s := by simp [backlog, hs, stageBytes, hb]

def lrec (dt : Nat) : LogRec :=
  { kind := .event, peer := false, seq := 0, source := 5, rep := 0, mode := 3, stamp := 0, tick := dt, lastDt := 0, data := [] }
/-- A Logbook with a record stored, and `q` waiting. -/
def bookS (latch : Bool) (q : List LogRec) : State :=
  { (openMap leadS).wb Reg.LOG_STATUS.LATCH_ONLY latch with log := { leadS.log with queue := q, blocks := [{ id := 0, recs := [lrec 0] }] } }
theorem wit_log_read : Taken anyRunMode (bookS false []) ∧ inWindow (bookS false []) 0 1048576 = true
    ∧ ¬ ((0 : Nat) ≠ 0 ∨ 1 < (1 : Nat) ∨ (0 : Nat) % 8 ≠ 0 ∨ (1048576 : Nat) % 8 ≠ 0 ∨ 1048576 < 256 ∨ 1048576 < (1048576 : Nat))
    ∧ (bookS false []).inSync = false ∧ logPeer { err := true, data := [] } = none
    ∧ logPeer { err := false, data := [1, 0, 0, 0] } = some ([], 1) ∧ (bookS true []).rb Reg.LOG_STATUS.LATCH_ONLY = true := by
  simp only [Taken]; decide
theorem wit_log_store : Awake (bookS false []) ∧ (bookS false []).log.queue = []
    ∧ (logLast (bookS false [lrec 100])).find? (fun r => logMerges (bookS false [lrec 100]) r (lrec 100)) = some (lrec 0)
    ∧ (logLast (bookS false [{ lrec 0 with source := 6 }])).find?
      (fun r => logMerges (bookS false [{ lrec 0 with source := 6 }]) r { lrec 0 with source := 6 }) = none
    ∧ (bookS false []).log.blocks ≠ [] ∧ (bookS false []).log.spares = 124 :: [125, 126, 127]
    ∧ ((bookS false []).log.blocks.any (fun k => k.id == 123) || (bookS false []).log.empty.contains 123) = true := by
  simp only [Awake]; decide

/-- A key record wrapped under the renewal key, generation 2; one under the install key. -/
def key1 (wrap : Nat) : List Byte := le 1 1 ++ le 1 wrap ++ le 6 0 ++ le 4 2 ++ le 148 0
def buf160 (wrap : Nat) : BufIn := { err := false, data := key1 wrap }
def kvtS (key : Option (Nat × Nat)) (c : Option KvtCommit) (m : Mode) : State :=
  { openMap (inMode m) with kvt := { leadS.kvt with active := key, commit := c } }
def commit1 : KvtCommit := { h := hd, tick := 0, lead := true }
theorem wit_key_load : Taken anyRunMode (kvtS none none .lead) ∧ bufOk (kvtS none none .lead) 0 160 (buf160 1) = true
    ∧ bufOk leadS (2 ^ 63) 160 (buf160 1) = false ∧ (kvtS none (some commit1) .lead).kvt.commit.isSome = true
    ∧ keyRecordBad (key1 1) = false ∧ keyRecordBad [] = true ∧ (kvtS none none .lead).mode ≠ .maintenance
    ∧ (kvtS none none .lead).kvt.active = none ∧ (kvtS none none .maintenance).mode = .maintenance := by
  simp only [Taken]; decide +kernel
/-- The fleet key 00 01 .. 1F, active with generation 1. -/
def keyS : State :=
  let s := kvtS (some (1, 9)) none .lead
  { s with kvt := { s.kvt with fk := (List.range 32).map (BitVec.ofNat 8) } }
/-- A record of generation 2 whose 40 bytes are the key of 32 bytes 11, wrapped under the renewal key of that fleet key. -/
def key7 : List Byte := le 1 1 ++ le 1 1 ++ le 2 0 ++ le 4 2484142593 ++ le 4 2 ++ le 100 0
  ++ le 40 1388712464436982724288688554091740576961636288719321533496687635962802450763868942981042652678176 ++ le 8 0
theorem wit_key_load_waits : keyS.kvt.commit = none ∧ keyRecordBad key7 = false ∧ field key7 1 1 = 1 ∧ field key7 8 4 ≠ 0
    ∧ keyS.kvt.active.any (fun a => decide (field key7 8 4 ≤ a.1)) = false := by decide +kernel
theorem wit_key_unwraps : keyUnwrap keyS key7 = some (List.replicate 32 17) := by decide +kernel
theorem wit_key_check : kcvOf (List.replicate 32 17) = field key7 4 4 := by decide +kernel
def load1 : KvtLoad := { h := hd, gen := 2, kcv := 0, key := [] }
def keyLoadS (written : Option Nat) (mask : Nat) : State :=
  { leadS with tick := 2, kvt := { leadS.kvt with loads := [load1], mask := mask, commit := some { commit1 with written := written, peer := some 0 } } }
def dueS : State := { maintS with tick := 1, kvt := { maintS.kvt with commit := some { commit1 with written := some 0 } } }
theorem wit_vault : leadS.kvt.commit = none ∧ keyEpoch leadS < 0xFFFFFFFF ∧ (1 : Word).toNat < 2 ∧ fleetLatch goS = false ∧ Awake goS
    ∧ (keyLoadS none 60000).kvt.loads = load1 :: [] ∧ (keyLoadS none 60000).mode ≠ .shadow ∧ leadS.kvt.loads = [] ∧ (keyLoadS (some 1) 0).kvt.loads ≠ []
    ∧ dueS.kvt.commit = some { commit1 with written := some 0 } ∧ kvtDue dueS { commit1 with written := some 0 } = true
    ∧ kvtDue (keyLoadS none 0) commit1 = false ∧ leadS.kvt.mask < 60000 ∧ 60000 ≤ (keyLoadS none 60000).kvt.mask ∧ maintS.held = false
    ∧ leadS.mode ≠ .maintenance ∧ leadS.mode ≠ .dead ∧ Awake dueS ∧ flashSpare leadS = true
    ∧ flashSpare (leadS.w Reg.SVC_SPARES.FLASH_SPARE 0) = false ∧ (kvtS none (some commit1) .lead).kvt.loads = [] ∧ commit1.written = none
    ∧ flashSpare (kvtS none (some commit1) .lead) = true := by simp only [Awake]; decide

/-! ### Witnesses: SVC and BOOT -/

theorem wit_unit_commands : unitCovered leadS 6 1 = true ∧ unitIsOut leadS 6 1 = false
    ∧ unitIsOut (unitS 3 4 { out := true }) 3 4 = true ∧ (unitS 3 4 { out := true }).mode = .lead ∧ (unit leadS 6 0).out = false
    ∧ pathActive (leadS.w Reg.SVC_STATUS.STOP_PATH 1) 0 = false ∧ (1 : Nat) < classCount 6
    ∧ unitIsOut leadS 3 4 = false := by decide
def bg (w : List BgWork) : BgIn := { usedUs := 120, pending := true, glt := [], work := w }
theorem wit_background : State.reset.held = false ∧ State.reset.mode = .boot ∧ leadS.paused = false ∧ (bg []).work = []
    ∧ (bg [.uncorrectable 7 none (.fatal true)]).work = [.uncorrectable 7 none (.fatal true)] := by decide
def testS (fault : Bool) (ret : List Handle) (tests : Nat) : State := unitS 2 0 { out := true, byFault := fault, ret := ret, tests := tests }
theorem wit_self_tests : (unit (testS true [] 2) 2 0).out = true ∧ (unit (testS true [] 2) 2 0).byFault = true
    ∧ leadS.rb Reg.SVC_CFG.RETEST_EN = true ∧ (unit (testS true [] 2) 2 0).tests < 3 ∧ ¬ (unit (testS true [] 3) 2 0).tests < 3
    ∧ (unit (testS false [hd] 0) 2 0).ret = [hd] ∧ (unit leadS 2 0).out = false
    ∧ (leadS.w Reg.TTU_WATCH_POS.TICK_IN_WATCH 50).r Reg.TTU_WATCH_POS.TICK_IN_WATCH = 50 ∧ (unit leadS 6 1).out = false
    ∧ (calUnits { leadS with tick := 100000 } 3).any (calOld { leadS with tick := 100000 } 3) = true
    ∧ bitAt (leadS.r Reg.SVC_STATUS.CAL_STALE) (3 : Fin 4) = false ∧ (calUnits leadS 3).any (calOld leadS 3) = false
    ∧ scrubDue { leadS with tick := 4000000 } 7 = true ∧ scrubDue leadS 7 = false := by decide
def telS : State := (leadS.w Reg.TTU_WATCH_POS.TICK_IN_WATCH 99).wb Reg.SVC_TEL.TEL_EN true
theorem wit_telemetry : telS.paused = false ∧ telS.rb Reg.SVC_TEL.TEL_EN = true ∧ telS.r Reg.TTU_WATCH_POS.TICK_IN_WATCH = 99 := by decide

/-- A file of 528 bytes without the magic of an image. -/
def noImage : List Byte := le 20 0 ++ le 4 16
theorem wit_image : inWindow (openMap leadS) 0 67109376 = true ∧ ¬ (67109376 < (67109376 : Nat)) ∧ ¬ ((528 : Nat) < 528)
    ∧ leadS.bt.load = none ∧ activating leadS = false ∧ (528 : Nat) = 512 + bodyLen noImage ∧ imageCheck leadS noImage ≠ 0 := by decide
/-- The header of an image for every hardware step; the keys its signature and tag verify under are open, as is the least SVN. -/
def image1 : List Byte := le 4 0x3149424D ++ le 4 1 ++ le 4 0 ++ le 4 65535 ++ le 4 0xFFFFFFFF ++ le 4 16 ++ le 488 0 ++ le 16 0
theorem wit_image_passes (h1 : bitAt (field image1 16 4) Config.hwStep = true) (h2 : imageSigOk image1 = true)
    (h3 : imageTagOk image1 = true) : imageCheck leadS image1 = 0 := by
  have hok : imageHeaderOk image1 = true := by decide +kernel
  have hs : field image1 12 4 = 65535 := by decide +kernel
  have hm : leadS.r Reg.BOOT_SLOT.SVN_MIN < 65536 := Nat.mod_lt _ (by decide)
  rw [imageCheck, hok, h1, h2, h3, hs, if_neg (by decide), if_neg (by decide), if_neg (by omega), if_neg (by decide), if_neg (by decide)]

def ctlS (m : Mode) (pair : Nat) (h : Option Handover) : State :=
  { ((inMode m).w Reg.TWN_STATUS.PAIR_STATE pair).w Reg.BOOT_STATUS.SLOT_STATE 2 with twn := { leadS.twn with handover := h } }
theorem wit_boot_control : (ctlS .lead 3 (some (ho1 0))).twn.handover ≠ none ∧ controlBusy (ctlS .lead 3 none) = false ∧ controlBusy (ctlS .lead 3 (some { ho1 0 with maint := true })) = true
    ∧ controlBusy (ctlS .lead 3 (some (ho1 0))) = false ∧ (ctlS .lead 3 none).inSync = true ∧ (ctlS .halt 0 none).inSync = false
    ∧ (ctlS .halt 0 none).mode = .halt ∧ (ctlS .lead 0 none).mode = .lead ∧ (ctlS .lead 3 (some (ho1 0))).leading = true
    ∧ (ctlS .maintenance 0 none).r Reg.BOOT_STATUS.SLOT_STATE = 2
    ∧ ((ctlS .maintenance 0 none).w Reg.BOOT_STATUS.SLOT_STATE 3).r Reg.BOOT_STATUS.SLOT_STATE ≠ 2
    ∧ Taken anyRunMode (ctlS .halt 0 none) := by simp only [Taken]; decide
def btS (b : BootState) : State := { maintS with bt := b }
theorem wit_boot_ends : (btS { saves := [(hd, [])] }).bt.saves = (hd, []) :: [] ∧ maintS.mode ≠ .dead ∧ maintS.mode ≠ .shadow
    ∧ (btS { load := some (hd, firstImage) }).bt.load = some (hd, firstImage) ∧ (btS { check := some hd }).bt.check = some hd
    ∧ (btS { pause := some (hd, some 7) }).bt.pause = some (hd, some 7) ∧ (btS {}).bt.heldEvts = [] ∧ (btS {}).mode = .maintenance
    ∧ (inMode .dead).mode = .dead ∧ leadS.bt.check = none ∧ leadS.bt.load = none ∧ leadS.bt.saves = [] := by decide

def bootIn : BootIn := { selfTest := true, slotOk := true, cfgOk := true, rec0 := 0, rec1 := 0, logBad := [], sealSet := true, tamperN := false }
def newS : State := { State.reset with bt := { State.reset.bt with slot := { firstImage with svn := 65535 } } }
theorem wit_power_up : newS.mode = .boot ∧ newS.bt.sealed = false ∧ newS.r Reg.BOOT_STATUS.STEP = 0 ∧ bootIn.selfTest = true
    ∧ newS.bt.slotBad = false ∧ bootIn.slotOk = true ∧ ¬ newS.bt.slot.svn < newS.r Reg.BOOT_SLOT.SVN_MIN
    ∧ { bootIn with slotOk := false }.slotOk = false :=
  ⟨rfl, rfl, by decide, rfl, rfl, rfl, by have : newS.r Reg.BOOT_SLOT.SVN_MIN < 65536 := Nat.mod_lt _ (by decide)
                                          show ¬ 65535 < _; omega, rfl⟩
def sealedS (cfg : Bool) : State :=
  { State.reset.wb Reg.BOOT_STATUS.CFG_DEFAULT cfg with
    bt := { State.reset.bt with sealed := true }, kvt := { State.reset.kvt with gs := true }
    stp := { State.reset.stp with armed := (List.range 8).map (fun k => (k, 0)) } }
theorem wit_boot_end : (sealedS false).mode = .boot ∧ (sealedS false).bt.sealed = true ∧ (sealedS false).r Reg.BOOT_STATUS.STEP ≠ 4
    ∧ ¬ armedTicks (sealedS false) < 8 ∧ (sealedS false).rb Reg.BOOT_CTRL.STAY = false
    ∧ (sealedS false).rb Reg.BOOT_STATUS.CFG_DEFAULT = false ∧ (sealedS true).rb Reg.BOOT_STATUS.CFG_DEFAULT = true := by decide
theorem wit_boundaries : (btS { reset := true }).bt.reset = true ∧ maintS.bt.reset = false ∧ (inMode .dead).bt.reset = false
    ∧ maintS.r Reg.TTU_WATCH_POS.TICK_IN_WATCH = 0 ∧ maintS.ttu.watchDone = false
    ∧ (leadS.w Reg.TTU_WATCH_POS.TICK_IN_WATCH 1).r Reg.TTU_WATCH_POS.TICK_IN_WATCH ≠ 0
    ∧ (hoS .lead 0).twn.handover = some (ho1 0) ∧ (ho1 0).left ≤ 1 ∧ 2 ≤ ({ ho1 0 with left := 2 } : Handover).left := by decide
theorem wit_tick_pending : ({ use with pending := true } : SlotUse).pending = true ∧ ({ State.reset with held := true } : State).held = true := ⟨rfl, rfl⟩
/-! ### Ill-formed commands are refused by WellFormed -/

def tick0 (use : SlotUse) (temp : Int) : TickIn :=
  { biasMa := 20, bands := [], vmotMv := 24000, drvTemp := temp, coilMa := [], paths := [], ttuUse := use }
theorem test_wf_takes : (Instr.ttuStepAmount hd (-(2 ^ 63)) 0).wf = true ∧ (Instr.stpStopRover hd 255 0).wf = true
    ∧ (Instr.ttuPulseArm hd 0 { sub := 65535, ns := 2 ^ 32 - 1, sec := 2 ^ 48 - 1 } 0).wf = true ∧ (Instr.hstWindow { use with held := 10000 }).wf = true
    ∧ (Instr.peerStop { rel with latNs := 2 ^ 32 - 1 }).wf = true ∧ (Instr.canFrameRx 3 { rx1 with id := 2047, dlc := 15 }).wf = true
    ∧ (Instr.ptpMessageRx 1 (.msg hdr1 (.announce gm1 65535))).wf = true ∧ (Instr.ptpMessageRx 1 (.msg hdr1 (.sync (-5) true 0))).wf = true
    ∧ (Instr.fixSolutionDone 127 ⟨500, 249999⟩).wf = true ∧ (Instr.tickBoundary (tick0 use (-32768))).wf = true
    ∧ (Instr.sxtSlot use ⟨[corr1], [meas]⟩).wf = true ∧ (Instr.navUnitDone 1023 (nav 0)).wf = true
    ∧ (Instr.uplinkFrameRx { up (2 ^ 48 - 1) with tag := 2 ^ 128 - 1 }).wf = true ∧ (Instr.ringEnSet .eq 15).wf = true
    ∧ (Instr.descReadDone true [List.replicate 32 0] [] 0).wf = true ∧ (Instr.luvSlotSet hd 127 (cfgBytes cfg1) 0).wf = true
    ∧ (Instr.captEdge 3 true 0).wf = true := by decide
theorem test_wf_fits : (Instr.stpStopRover hd 256 0).wf = false ∧ (Instr.hstNop { hd with idx := 65536 }).wf = false := by decide
theorem test_wf_fitsI : (Instr.ttuStepAmount hd (2 ^ 63) 0).wf = false ∧ (Instr.posDriveSetPos hd 0 0 (-(2 ^ 31) - 1) 0).wf = false := by decide
theorem test_wf_cycle : (Instr.gltForce 250000).wf = false := by decide
theorem test_wf_instant : (Instr.captEdge 3 true (2 * 1000000 * 65536)).wf = false := by decide
theorem test_wf_handle : (Instr.hstNop { hd with sq := 64 }).wf = false ∧ (Instr.hstNop { hd with cyc := 250000 }).wf = false := by decide
theorem test_wf_stamp : (Instr.ttuPulseArm hd 0 { sub := 65536, ns := 0, sec := 0 } 0).wf = false
    ∧ (Instr.ttuPulseArm hd 0 { sub := 0, ns := 0, sec := 2 ^ 48 } 0).wf = false := by decide
theorem test_wf_slot_use : (Instr.hstWindow { use with held := 10001 }).wf = false := by decide
theorem test_wf_release : (Instr.peerStop { rel with latNs := 2 ^ 32 }).wf = false ∧ (Instr.peerStop { rel with cyc := 250000 }).wf = false := by decide
theorem test_wf_can_frame : (Instr.canFrameRx 3 { rx1 with id := 2048 }).wf = false ∧ (Instr.canFrameRx 3 { rx1 with dlc := 16 }).wf = false := by
  decide
theorem test_wf_port_id : (Instr.ptpMessageRx 1 (.msg hdr1 (.delayResp 0 { clock := 2 ^ 64, port := 1 }))).wf = false
    ∧ (Instr.ptpMessageRx 1 (.msg hdr1 (.pdelayFollowUp 0 { clock := 1, port := 65536 }))).wf = false := by decide
theorem test_wf_dataset : (Instr.ptpMessageRx 1 (.msg hdr1 (.announce { gm1 with clockClass := 256 } 0))).wf = false
    ∧ (Instr.ptpMessageRx 1 (.msg hdr1 (.announce gm1 65536))).wf = false := by decide
theorem test_wf_ptp_header : (Instr.ptpMessageRx 1 (.msg { hdr1 with sdoId := 4096 } (.followUp 0))).wf = false
    ∧ (Instr.ptpMessageRx 1 (.msg { hdr1 with corr := 2 ^ 63 } (.followUp 0))).wf = false := by decide
theorem test_wf_ptp_message : (Instr.ptpMessageRx 1 (.msg hdr1 (.delayReq (2 * 1000000 * 65536)))).wf = false
    ∧ (Instr.ptpMessageRx 1 (.msg hdr1 (.pdelayReq 0 0 9))).wf = false := by decide
theorem test_wf_correlators : (Instr.sxtSlot use ⟨[{ corr1 with ch := 1024 }], []⟩).wf = false := by decide
theorem test_wf_measurements : (Instr.sxtSlot use ⟨[], [{ meas with ch := 1024 }]⟩).wf = false := by decide
theorem test_wf_navigation : (Instr.navUnitDone 0 { nav 0 with failMask := 2 ^ 32 }).wf = false
    ∧ (Instr.navUnitDone 0 { nav 0 with data := List.replicate 113 0 }).wf = false := by decide
theorem test_wf_boundary : (Instr.tickBoundary (tick0 { use with held := 10001 } 0)).wf = false
    ∧ (Instr.tickBoundary (tick0 use 32768)).wf = false := by decide
theorem test_wf_solution : (Instr.fixSolutionDone 127 ⟨500, 250000⟩).wf = false := by decide
theorem test_wf_uplink : (Instr.uplinkFrameRx (up (2 ^ 48))).wf = false ∧ (Instr.uplinkFrameRx { up 0 with tag := 2 ^ 128 }).wf = false := by decide
theorem test_wf_ring : (Instr.ringEnSet .eq 16).wf = false ∧ (Instr.ringEnSet .sq 64).wf = false := by decide
theorem test_wf_descriptor : (Instr.descReadDone true [List.replicate 31 0] [] 0).wf = false := by decide
theorem test_wf_slot_cfg : (Instr.luvSlotSet hd 127 ((cfgBytes cfg1).take 7) 0).wf = false
    ∧ (Instr.luvSlotRemove hd 127 (cfgBytes cfg1) 0).wf = false := by decide

/-! ### Checks -/

def nine : List Byte := [0x31, 0x32, 0x33, 0x34, 0x35, 0x36, 0x37, 0x38, 0x39]
/-- The published check values of CRC-32C (RFC 3720), of the CRC-16 of R358 and of CRC-24Q over the bytes "123456789". -/
theorem test_checks : crc32c nine = 0xE3069283 ∧ crc16 nine = 0x29B1 ∧ crc24q nine = 0xCDE703 := by decide +kernel

/-- Published vectors: AES-256 of FIPS 197, CMAC over no message of SP 800-38B, and the GCM tag of zero key, zero nonce and
nothing else. -/
theorem test_aes : aesBlock (aesKeys ((List.range 32).map (BitVec.ofNat 8))) 0x00112233445566778899aabbccddeeff = 0x8ea2b7ca516745bfeafc49904b496089 := by
  decide +kernel
theorem test_cmac : cmac (be 32 0x603deb1015ca71be2b73aef0857d77811f352c073b6108d72d9810a30914dff4) []
    = be 16 0x028962f61b7bf89efc6b551f4667d983 := by decide +kernel
theorem test_gcm : gcmTagOf (List.replicate 32 0) 0 [] [] = leNat (be 16 0x530f8afbc74536b9a963b4f1c4cb738b) := by decide +kernel

/-! ### The block: its queue, and commands of the table that no word spells -/

/-- What a command leaves, judged by p. -/
def after (i : Instr) (s : State) (p : State → Bool) : Bool :=
  match exec i s with
  | .next t => p t
  | _ => false
theorem test_idles : step leadS = .next leadS := rfl
theorem test_no_words : decodeTableWord 32 0 = none ∧ leadS.withFetchWord 32 0 = leadS := ⟨rfl, rfl⟩

/-! ### One command each; the expected values are computed by hand from the rules named -/

/-- R52: a step of 30 ms accepted in tick 10 of a watch that began at TB1 0 ends the watch after 70 ticks, where the
corrected TB1 reads 100 ms; a step of −30 ms ends it after 130. -/
theorem test_R52_closing_watch :
    after (.ttuStepAmount hd 30000000 0) { divS with ttu := { divS.ttu with pos := 10, tb1 := 10 * uTick } }
        (fun t => t.ttu.closing.map (·.n) == some 70) = true
    ∧ after (.ttuStepAmount hd (-30000000) 0) { divS with ttu := { divS.ttu with pos := 10, tb1 := 10 * uTick } }
        (fun t => t.ttu.closing.map (·.n) == some 130) = true := by decide +kernel
/-- R264: SCOPE 0 with the fleet latch clear is refused; R248: a stop while the latch is set is counted, and completes with OK. -/
theorem test_R264_resume_refused : after (.stpResumeFleet hd 0) goS (fun t => t.hst.compl.map (·.status) == [stResume]) = true := by decide +kernel
theorem test_R248_stop : after (.stpStopFleet hd 0) latchedS (fun t => fleetLatch t && t.hst.compl.map (·.status) == [stOk]) = true := by decide +kernel
/-- R301: SEQ 37 lies in the window of H = 100 (bit 63), SEQ 36 below it. -/
def taken (w : SecWin) (seq : Nat) : Nat × SecWin :=
  let r := secSequence (upS [(127, w)]) false 127 seq
  (r.1, secWin r.2 false 127)
theorem test_R301_window : taken { h := some 100, map := 1 } 37 = (1, { h := some 100, map := 2 ^ 63 + 1 })
    ∧ taken { h := some 100, map := 1 } 36 = (0, { h := some 100, map := 1 }) := by decide +kernel
/-- R372: MIN_CELLS above MAX_CELLS lies outside its range. -/
theorem test_R372_reserve : queueSetBad poolS 1023 0 131072 131073 1 0 = true ∧ queueSetBad poolS 1023 0 1 2 1 0 = true := by decide
/-- R301: the first frame under an empty window is accepted whatever its SEQ. -/
theorem test_R301_first : taken {} 7 = (1, { h := some 7, map := 1 }) := by decide +kernel
/-- R441: an occurrence within REPEAT_WIN watches of the record merges. -/
theorem test_R441_merges : after (.logRecordStore false none) (bookS false [lrec 100])
    (fun t => (logAll t).map (fun r => (r.rep, r.lastDt)) == [(1, 100)]) = true := by decide +kernel
/-- R493: in MAINTENANCE ENTER_MAINT completes with OK and changes no mode. -/
theorem test_R493_enter_maint : after (.enterMaint hd 0 0) maintS (fun t => t.mode == .maintenance && t.hst.compl.map (·.status) == [stOk]) = true := by
  decide +kernel

/-- Values outside the range of a clamped field (R87, R364, the tables of SXT and POS). -/
theorem test_clamped_fields : heldValue Reg.HST_SQ.SIZE_LOG2 2 = 4 ∧ heldValue Reg.SXT_ALLOC.ELEV_MASK 0xF6 = 0xFB
    ∧ heldValue Reg.ETH_P_CFG.LOG_SYNC 0x7000 = 1 ∧ heldValue Reg.POS_CH.HOLD_MA 0x01F40032 = 100
    ∧ heldValue Reg.STP_REPEAT.TGT_REPEAT 0 = 0 := by decide

end Sys2Proof.Machine.Tests
end

/-! PROOF. Every command answers a next state with the rest of the queue as it was (R3). -/

namespace Sys2Proof.Machine

open Sys2Proof

/-- The outcome is a next state with the queue of s. -/
def KeepsQueue (s : State) (o : Host.Outcome State Fault Refusal) : Prop := ∃ t, o = .next t ∧ t.pending = s.pending

theorem withOutAt_keepsQueue (s : State) (i : Option Nat) (f : State → State) : KeepsQueue s (withOutAt s i f) := by
  cases h : s.held with
  | true => exact ⟨_, withOutAt_held s i f h, rfl⟩
  | false => exact ⟨_, withOutAt_live s i f h, rfl⟩

theorem withOut_keepsQueue (s : State) (f : State → State) : KeepsQueue s (withOut s f) := withOutAt_keepsQueue s none f

theorem withBoundary_keepsQueue (s : State) (f : State → State) : KeepsQueue s (withBoundary s f) :=
  withOutAt_keepsQueue s (some 0) f

theorem exec_keepsQueue (c : Instr) (s : State) : KeepsQueue s (exec c s) := by
  unfold exec
  cases c
  case powerUp => exact ⟨_, rfl, rfl⟩
  case bootEnd | watchBoundary | clusterBack | clusterRestored | chtGrant | corridorRest | segmentFreed | roverLost
      | lanternHeartbeat | hbBack | hbRestored | oldKeyEnd | leadElection | tickAdopt | twnInSync | reflUnacked
      | twnClaim | twnStepDown | twnHandover | timeStepApply | ethPortBack | bankBack | bankRestored | canStopRepeat
      | canCtrlBack | canCtrlRestored | kvtCommitEffect | activateReturn => exact withBoundary_keepsQueue _ _
  case ttuLatch | gltForce | kvtHwinSave | registerWrite | tamper | stopInEdge | pairFault | peerStop | outReadbackFault
      | doorbellReadDone | doorbellReadFail | descReadDone | fixSolutionDone | radarDetect | captEdge | ppsEdge
      | ptpSyncTx | ptpDelayReqTx | ptpAnnounceTimeout | ethLinkChange | notchEngage | gltTrigger | gltFillDone
      | gltPostDone | gltHoldoffDone => exact withOutAt_keepsQueue _ _ _
  all_goals exact withOut_keepsQueue _ _

theorem step_cons (s : State) (c : Instr) (q : List Instr) (h : s.pending = c :: q) :
    step s = exec c { s with pending := q } := by
  simp only [step, h]

theorem step_nil (s : State) (h : s.pending = []) : step s = .next s := by
  simp only [step, h]

/-- Settles O1: both cases of the queue. -/
theorem aStepCarriesOutTheFirstWaitingCommand : Obligations.a_step_carries_out_the_first_waiting_command :=
  ⟨fun _ _ _ => step_cons _ _ _ rfl, step_nil⟩

/-- Settles O2: every command runs in one of three frames, or is POWER_UP, and each puts the queue back. -/
theorem everyStepTakesOneCommandAndKeepsTheRestInOrder :
    Obligations.every_step_takes_one_command_and_keeps_the_rest_in_order := by
  unfold Obligations.every_step_takes_one_command_and_keeps_the_rest_in_order
  intro s c q h
  rw [step_cons s c q h]
  exact exec_keepsQueue c { s with pending := q }

end Sys2Proof.Machine

/-! PROOF. Raisings and completions keep the register map in its canonical form (R9, R10). -/

namespace Sys2Proof.Machine

open Sys2Proof

theorem canonical_of_regs {s t : State} (h : s.canonical = true) (hr : t.regs = s.regs) : t.canonical = true := by
  unfold State.canonical at h ⊢
  rw [hr]; exact h

theorem State.w_canonical {s : State} (f : Field) (v i j : Nat) (h : s.canonical = true) :
    (s.w f v i j).canonical = true := State.w_regs_wf s f v i j h

theorem logPush_canonical {s : State} (r : LogRec) (h : s.canonical = true) : (logPush s r).canonical = true := by
  unfold logPush
  split
  · exact h
  · exact State.w_canonical _ _ _ _ h

theorem logNow_canonical {s : State} (k : LogKind) (src : Nat) (d : List Byte) (h : s.canonical = true) :
    (logNow s k src d).canonical = true :=
  logPush_canonical (s := s.fresh.2) _ h

theorem gltEvent_regs (s : State) (e d : Nat) : (gltEvent s e d).regs = s.regs := by
  unfold gltEvent; split <;> rfl

theorem raiseMark_canonical {s : State} (e d : Nat) (h : s.canonical = true) : (raiseMark s e d).canonical = true := by
  have hg : (gltEvent (s.wbit Reg.HST_EVT_PEND.PEND e true) e d).canonical = true :=
    canonical_of_regs (s := s.wbit Reg.HST_EVT_PEND.PEND e true) (State.w_canonical _ _ _ _ h) (gltEvent_regs _ _ _)
  unfold raiseMark
  dsimp only
  split
  · exact logNow_canonical _ _ _ hg
  · exact hg

theorem routeTo_canonical {s : State} (e d q : Nat) (h : s.canonical = true) : (routeTo s e d q).canonical = true := by
  unfold routeTo
  split
  · exact h
  · split
    · have hl : (s.inc Reg.HST_COUNTS.EVT_LOST).canonical = true := State.w_canonical _ _ _ _ h
      dsimp only
      split <;> exact hl
    · exact h

theorem raiseCore_canonical {s : State} (e d : Nat) (h : s.canonical = true) : (raiseCore s e d).canonical = true := by
  unfold raiseCore
  dsimp only
  split
  · exact routeTo_canonical _ _ _ (raiseMark_canonical e d h)
  · exact raiseMark_canonical e d h

theorem raise_canonical {s : State} (e d : Nat) (h : s.canonical = true) : (raise s e d).canonical = true := by
  have hc := raiseCore_canonical e d h
  unfold raise
  dsimp only
  split
  · exact hc
  · exact raiseCore_canonical (s := { raiseCore s e d with onceTick := _ }) 493 noDetail hc

theorem complete_canonical {s : State} (h : Handle) (st d : Nat) (hc : s.canonical = true) :
    (complete s h st d).canonical = true := canonical_of_regs hc (complete_regs s h st d)

/-- Settles O5: a raising and a completion change the register map by writes of fields alone. -/
theorem registerWritesInsideTheModuleKeepTheCanonicalForm :
    Obligations.register_writes_inside_the_module_keep_the_canonical_form := by
  unfold Obligations.register_writes_inside_the_module_keep_the_canonical_form
  intro s f v i j hc
  exact ⟨State.w_canonical f v i j hc, State.r_w_same s f v i j, fun g k l hk => State.r_w_ne s f g v i j k l hk,
    fun e d => raise_canonical e d hc, fun h st d => complete_canonical h st d hc⟩

end Sys2Proof.Machine

/-! PROOF. Events pending, refused writes, and the frames of a command that writes registers (R354, R517). -/

namespace Sys2Proof.Machine

open Sys2Proof

/-! ### Bits -/

theorem bitAt_eq_testBit (v i : Nat) : bitAt v i = v.testBit i := by
  rw [Nat.testBit_eq_decide_div_mod_eq]
  rfl

/-- Adding 2^i to a number whose bit i is clear sets that bit alone. -/
theorem testBit_add_two_pow (i : Nat) : ∀ (v j : Nat), v.testBit i = false →
    (v + 2 ^ i).testBit j = (decide (j = i) || v.testBit j) := by
  induction i with
  | zero =>
    intro v j h
    have hv : v % 2 = 0 := by simpa [Nat.testBit_zero] using h
    cases j with
    | zero => simp [Nat.testBit_zero]; omega
    | succ j => rw [Nat.testBit_succ, Nat.testBit_succ, show (v + 2 ^ 0) / 2 = v / 2 by omega]; simp
  | succ i ih =>
    intro v j h
    have hp : 2 ^ (i + 1) = 2 * 2 ^ i := Nat.pow_succ'
    cases j with
    | zero => simp [Nat.testBit_zero, hp]
    | succ j =>
      rw [Nat.testBit_succ] at h ⊢
      rw [show (v + 2 ^ (i + 1)) / 2 = v / 2 + 2 ^ i by omega, ih _ _ h, Nat.testBit_succ]
      simp

theorem testBit_setBit (v i j : Nat) : (setBit v i).testBit j = (decide (j = i) || v.testBit j) := by
  unfold setBit
  rw [bitAt_eq_testBit]
  split
  · rename_i hb
    by_cases hj : j = i
    · simp [hj, hb]
    · simp [hj]
  · rename_i hb
    exact testBit_add_two_pow i v j (by simpa using hb)

/-- A bit of a word after another, or the same, has been set in it. -/
theorem bitAt_setBit_mod (v i j w : Nat) (hj : j < w) :
    bitAt (setBit v i % 2 ^ w) j = (decide (j = i) || bitAt v j) := by
  rw [bitAt_eq_testBit, bitAt_eq_testBit, Nat.testBit_mod_two_pow, testBit_setBit]
  simp [hj]

/-! ### Pending events -/

theorem pendKey_ne {m n : Nat} (h : m ≠ n) : Reg.HST_EVT_PEND.PEND.key m 0 ≠ Reg.HST_EVT_PEND.PEND.key n 0 := by
  simp only [Field.key, Reg.HST_EVT_PEND.PEND, Field.idx, fld]
  omega

theorem pending_of_pend {s t : State} {e : Nat} (h : t.r Reg.HST_EVT_PEND.PEND (e / 32) = s.r Reg.HST_EVT_PEND.PEND (e / 32)) :
    pending t e = pending s e := by
  unfold pending State.rbit
  rw [h]

theorem pending_wbit (s : State) (e e' : Nat) :
    pending (s.wbit Reg.HST_EVT_PEND.PEND e true) e' = (decide (e' = e) || pending s e') := by
  unfold pending State.wbit
  by_cases hw : e' / 32 = e / 32
  · have hm : e' % 32 < 32 := Nat.mod_lt _ (by decide)
    have he : (e' % 32 = e % 32) = (e' = e) := by rw [eq_iff_iff]; omega
    unfold State.rbit
    rw [hw, State.r_w_same]
    simp only [if_true]
    rw [show Reg.HST_EVT_PEND.PEND.width = 32 from rfl, bitAt_setBit_mod _ _ _ _ hm]
    simp only [he]
  · have hne : e' ≠ e := fun h => hw (by rw [h])
    unfold State.rbit
    rw [State.r_w_ne _ _ _ _ _ _ _ _ (pendKey_ne hw)]
    simp [hne]

/-- A Logbook record writes no register but the count of records dropped. -/
theorem logNow_field (s : State) (kd : LogKind) (src : Nat) (d : List Byte) (g : Field) (k l : Nat)
    (h : g.key k l ≠ Reg.LOG_COUNTS.OVF_DROP.key 0 0) : (logNow s kd src d).r g k l = s.r g k l := by
  unfold logNow logPush
  dsimp only
  split
  · rfl
  · exact State.r_w_ne _ _ _ _ _ _ _ _ h

/-- Routing writes no register but the count of event records lost. -/
theorem routeTo_field (s : State) (e d q : Nat) (g : Field) (k l : Nat)
    (h : g.key k l ≠ Reg.HST_COUNTS.EVT_LOST.key 0 0) : (routeTo s e d q).r g k l = s.r g k l := by
  unfold routeTo
  split
  · rfl
  · split
    · dsimp only
      split <;> exact State.r_w_ne _ _ _ _ _ _ _ _ h
    · rfl

theorem pendKey_ne_counts {n : Nat} (h : n < 16) : Reg.HST_EVT_PEND.PEND.key n 0 ≠ Reg.LOG_COUNTS.OVF_DROP.key 0 0
    ∧ Reg.HST_EVT_PEND.PEND.key n 0 ≠ Reg.HST_COUNTS.EVT_LOST.key 0 0 := by
  simp only [Field.key, Reg.HST_EVT_PEND.PEND, Reg.LOG_COUNTS.OVF_DROP, Reg.HST_COUNTS.EVT_LOST, Field.idx, fld]
  omega

theorem raiseMark_sets_pending (s : State) (e d : Nat) {e' : Nat} (he : e' < 512) :
    pending (raiseMark s e d) e' = (decide (e' = e) || pending s e') := by
  rw [← pending_wbit]
  refine pending_of_pend ?_
  unfold raiseMark
  dsimp only
  split
  · rw [logNow_field _ _ _ _ _ _ _ (pendKey_ne_counts (by omega)).1, gltEvent_r]
  · exact gltEvent_r _ _ _ _ _ _

theorem raiseCore_sets_pending (s : State) (e d : Nat) {e' : Nat} (he : e' < 512) :
    pending (raiseCore s e d) e' = (decide (e' = e) || pending s e') := by
  rw [← raiseMark_sets_pending s e d he]
  unfold raiseCore
  dsimp only
  split
  · exact pending_of_pend (routeTo_field _ _ _ _ _ _ _ (pendKey_ne_counts (by omega)).2)
  · rfl

/-- A raising makes its event pending. -/
theorem raise_sets_pending (s : State) (e d : Nat) (he : e < 512) : pending (raise s e d) e = true := by
  have hc : pending (raiseCore s e d) e = true := by simp [raiseCore_sets_pending s e d he]
  unfold raise
  dsimp only
  split
  · exact hc
  · rw [raiseCore_sets_pending _ _ _ he]
    exact Bool.or_eq_true_iff.2 (Or.inr hc)

/-- A raising limited to one a tick makes its event pending where it is the first of the tick. -/
theorem raiseTick_sets_pending (s : State) (e d : Nat) (he : e < 512) (h : e ∉ s.onceTick) :
    pending (raiseTick s e d) e = true := by
  unfold raiseTick raiseTickKey
  rw [if_neg h]
  exact raise_sets_pending _ e d he

/-! ### Refused writes (R517) -/

/-- The keys of HST_REFUSED_WR. -/
def refusedKeys : List Nat := [Reg.HST_REFUSED_WR.OFFSET.key 0 0, Reg.HST_REFUSED_WR.VALID.key 0 0]

theorem refusedKeys_calm {k : Nat} (h : k ∈ refusedKeys) : k ∉ evtKeys := by
  revert h k
  decide

/-- What the host reads of a write of word a that counts as refused, in a tick in which the events `once` limits were
already raised. -/
def RefusedShown (once : List Nat) (a : Nat) (t : State) : Prop :=
  t.r Reg.HST_REFUSED_WR.OFFSET = a ∧ t.rb Reg.HST_REFUSED_WR.VALID = true ∧ (416 ∉ once → pending t 416 = true)

theorem refusedMark_shown (a : Nat) (s : State) (ha : a < 2 ^ 21) : RefusedShown s.onceTick a (refusedMark a s) := by
  have ho : Reg.HST_REFUSED_WR.OFFSET.key 0 0 ∉ evtKeys := refusedKeys_calm (by decide)
  have hv : Reg.HST_REFUSED_WR.VALID.key 0 0 ∉ evtKeys := refusedKeys_calm (by decide)
  have hne : Reg.HST_REFUSED_WR.OFFSET.key 0 0 ≠ Reg.HST_REFUSED_WR.VALID.key 0 0 := by decide
  unfold RefusedShown refusedMark
  refine ⟨?_, ?_, fun h => raiseTick_sets_pending _ 416 _ (by decide) (by simpa using h)⟩
  · rw [raiseTick_field _ _ _ _ _ _ (by decide) ho, State.wb, State.r_w_ne _ _ _ _ _ _ _ _ hne, State.r_w_same]
    exact Nat.mod_eq_of_lt ha
  · unfold State.rb
    rw [raiseTick_field _ _ _ _ _ _ (by decide) hv, State.wb, State.r_w_same]
    rfl

theorem refusedMark_eventsOnly (ks : List Nat) (a : Nat) (s : State) (h : ∀ k ∈ refusedKeys, k ∈ ks) :
    EventsOnly ks s (refusedMark a s) := by
  have ho : Reg.HST_REFUSED_WR.OFFSET.key 0 0 ∈ refusedKeys := by decide
  have hv : Reg.HST_REFUSED_WR.VALID.key 0 0 ∈ refusedKeys := by decide
  have h1 := (EventsOnly.rfl' ks s).w Reg.HST_REFUSED_WR.OFFSET a 0 0 (h _ ho)
  have h2 := h1.w Reg.HST_REFUSED_WR.VALID (b2n true) 0 0 (h _ hv)
  have h3 := h2.trans (raiseTick_eventsOnly ks _ 416 noDetail (by decide))
  unfold refusedMark State.wb
  exact h3

/-- A field below the window of HST reads the same after a write that counts as refused. -/
theorem refusedMark_r (a : Nat) (s : State) (f : Field) (i j : Nat) (h : f.key i j < 32 * 0xD0000) :
    (refusedMark a s).r f i j = s.r f i j := by
  refine (refusedMark_eventsOnly refusedKeys a s fun _ hk => hk).2.r f i j fun hm => ?_
  have : ∀ k ∈ refusedKeys ++ evtKeys, 32 * 0xD0000 ≤ k := by decide
  exact absurd (this _ hm) (by omega)

/-- What a write of word a leaves, counted as refused where b holds. -/
def refusedIf (b : Bool) (a : Nat) (s : State) : State := if b then refusedMark a s else s

theorem refusedIf_r (b : Bool) (a : Nat) (s : State) (f : Field) (i j : Nat) (h : f.key i j < 32 * 0xD0000) :
    (refusedIf b a s).r f i j = s.r f i j := by
  cases b with
  | false => rfl
  | true => exact refusedMark_r a s f i j h

@[simp] theorem refusedIf_cht (b : Bool) (a : Nat) (s : State) : (refusedIf b a s).cht = s.cht := by
  cases b with
  | false => rfl
  | true => exact raiseTick_cht _ _ _

theorem refusedIf_shown {b : Bool} {a : Nat} {s : State} (hb : b = true) (ha : a < 2 ^ 21) :
    RefusedShown s.onceTick a (refusedIf b a s) := by
  rw [refusedIf, if_pos hb]
  exact refusedMark_shown a s ha

theorem refusedIf_eventsOnly {ks : List Nat} {b : Bool} {a : Nat} {s t : State} (hb : b = true) (h : EventsOnly ks s t) :
    EventsOnly (ks ++ refusedKeys) s (refusedIf b a t) := by
  rw [refusedIf, if_pos hb]
  exact (h.mono fun k hk => List.mem_append_left _ hk).trans
    (refusedMark_eventsOnly _ a t fun k hk => List.mem_append_right _ hk)

/-! ### Frames of a command that writes registers -/

theorem RegsOnly.rfl' (ks : List Nat) (s : State) : RegsOnly ks s s := ⟨rfl, RegsKept.rfl' ks s⟩

theorem RegsOnly.w {ks : List Nat} {s t : State} (g : RegsOnly ks s t) (f : Field) (v i j : Nat) (h : f.key i j ∈ ks) :
    RegsOnly ks s (t.w f v i j) := by
  refine ⟨?_, g.2.w f v i j h⟩
  have hg := g.1
  rw [hg]; rfl

theorem RegsOnly.trans {ks : List Nat} {s t u : State} (h : RegsOnly ks s t) (k : RegsOnly ks t u) : RegsOnly ks s u := by
  refine ⟨?_, h.2.trans k.2⟩
  have hk := k.1
  have hh := h.1
  rw [hk, hh]

theorem RegsOnly.emit {ks : List Nat} {s t : State} (g : RegsOnly ks s t) (o : Out) : RegsOnly ks s (t.emit o) := by
  refine ⟨?_, g.2⟩
  have hg := g.1
  unfold State.emit
  rw [hg]

/-- What a command changes, seen from the state it was given. -/
theorem RegsOnly.frame {ks : List Nat} {s u : State} {i : Option Nat} (h : RegsOnly ks (s.start.atInst i) u) :
    RegsOnly ks s ((u.requeue s.pending).atInst s.inst) := by
  refine ⟨?_, h.2⟩
  have hu := h.1
  unfold State.requeue State.atInst at hu ⊢
  rw [hu]; rfl

theorem RegsOnly.eventsOnly {ks : List Nat} {s t : State} (h : RegsOnly ks s t) : EventsOnly ks s t := by
  refine ⟨?_, h.2.mono fun k hk => List.mem_append_left _ hk⟩
  have ht := h.1
  rw [ht]

theorem EventsOnly.frame {ks : List Nat} {s u : State} {i : Option Nat} (h : EventsOnly ks (s.start.atInst i) u) :
    EventsOnly ks s ((u.requeue s.pending).atInst s.inst) := by
  refine ⟨?_, h.2⟩
  have hu := h.1
  unfold State.requeue State.atInst at hu ⊢
  rw [hu]; rfl

end Sys2Proof.Machine

/-! PROOF. What a host write of a word does to its fields, and what it sets off (R9, R10, R406, R517). -/

namespace Sys2Proof.Machine

open Sys2Proof

/-! ### One field of a word (R9) -/

/-- The key of a field of a word. -/
def fieldKey (p : Field × Nat × Nat) : Nat := p.1.key p.2.1 p.2.2

/-- What a field of a word holds after word v is written to it, by its access code. -/
def fieldAfter (s : State) (v : Nat) (p : Field × Nat × Nat) : Nat :=
  let old := s.r p.1 p.2.1 p.2.2
  if p.1.acc.opens s.mode = false ∨ p.1.acc = .wo then old
  else if p.1.acc = .w1c then old - (old &&& p.1.part v) else heldValue p.1 v

theorem r_lt (s : State) (f : Field) (i j : Nat) : s.r f i j < 2 ^ f.width := Nat.mod_lt _ (Nat.two_pow_pos _)

theorem part_lt (f : Field) (v : Nat) : f.part v < 2 ^ f.width := Nat.mod_lt _ (Nat.two_pow_pos _)

theorem ofSigned_lt (w : Nat) (i : Int) : ofSigned w i < 2 ^ w := by
  have hp : (0 : Int) < ((2 ^ w : Nat) : Int) := by exact_mod_cast Nat.two_pow_pos w
  have h0 := Int.emod_nonneg i (ne_of_gt hp)
  have h1 := Int.emod_lt_of_pos i hp
  unfold ofSigned
  omega

/-- A field holds no more than its width. -/
theorem heldValue_lt (f : Field) (v : Nat) : heldValue f v < 2 ^ f.width := by
  unfold heldValue
  dsimp only
  split
  · exact lt_of_le_of_lt (Nat.min_le_left _ _) (part_lt f v)
  · split
    · exact part_lt f v
    · exact ofSigned_lt _ _

@[simp] theorem fieldWrite_mode (a v : Nat) (s : State) (p : Field × Nat × Nat) : (fieldWrite a v s p).mode = s.mode := by
  unfold fieldWrite
  dsimp only
  repeat' split
  all_goals rfl

/-- A write of a field writes its own register alone. -/
theorem fieldWrite_only (a v : Nat) (s : State) (p : Field × Nat × Nat) : RegsOnly [fieldKey p] s (fieldWrite a v s p) := by
  have hw (u : Nat) : RegsOnly [fieldKey p] s (s.w p.1 u p.2.1 p.2.2) :=
    (RegsOnly.rfl' _ s).w p.1 u p.2.1 p.2.2 (List.mem_singleton.2 rfl)
  unfold fieldWrite
  dsimp only
  split
  · exact .rfl' _ s
  · split
    · exact hw _
    · exact .rfl' _ s
    · split
      · exact .rfl' _ s
      · exact hw _

/-- A field written, in a word that holds no nanoseconds. -/
theorem fieldWrite_r (a v : Nat) (s : State) (p : Field × Nat × Nat) (ha : nsField a = false) :
    (fieldWrite a v s p).r p.1 p.2.1 p.2.2 = fieldAfter s v p := by
  unfold fieldWrite fieldAfter
  dsimp only
  cases ho : p.1.acc.opens s.mode with
  | false => simp
  | true =>
    rw [ha]
    have hc : s.r p.1 p.2.1 p.2.2 - (s.r p.1 p.2.1 p.2.2 &&& p.1.part v) < 2 ^ p.1.width :=
      lt_of_le_of_lt (Nat.sub_le _ _) (r_lt s _ _ _)
    cases hacc : p.1.acc <;> simp [Nat.mod_eq_of_lt hc, Nat.mod_eq_of_lt (heldValue_lt p.1 v)]

theorem fieldAfter_congr {s t : State} (v : Nat) (p : Field × Nat × Nat) (hm : t.mode = s.mode)
    (hr : t.r p.1 p.2.1 p.2.2 = s.r p.1 p.2.1 p.2.2) : fieldAfter t v p = fieldAfter s v p := by
  unfold fieldAfter
  rw [hm, hr]

/-! ### The fields of a word in turn -/

theorem foldl_fieldWrite_only (a v : Nat) (fs : List (Field × Nat × Nat)) :
    ∀ s : State, RegsOnly (fs.map fieldKey) s (fs.foldl (fieldWrite a v) s) := by
  induction fs with
  | nil => intro s; exact .rfl' _ s
  | cons p fs ih =>
    intro s
    have h1 := fieldWrite_only a v s p
    have h2 := ih (fieldWrite a v s p)
    exact RegsOnly.trans ⟨h1.1, h1.2.mono fun k hk => by simpa using Or.inl (List.mem_singleton.1 hk)⟩
      ⟨h2.1, h2.2.mono fun k hk => List.mem_cons_of_mem _ hk⟩

theorem foldl_fieldWrite_mode (a v : Nat) (fs : List (Field × Nat × Nat)) (s : State) :
    (fs.foldl (fieldWrite a v) s).mode = s.mode := by
  rw [(foldl_fieldWrite_only a v fs s).1]

/-- Each field of a word of distinct fields takes its own part. -/
theorem foldl_fieldWrite_r (a v : Nat) (ha : nsField a = false) (fs : List (Field × Nat × Nat)) :
    ∀ s : State, (fs.map fieldKey).Nodup → ∀ p ∈ fs,
      (fs.foldl (fieldWrite a v) s).r p.1 p.2.1 p.2.2 = fieldAfter s v p := by
  induction fs with
  | nil => intro s _ p hp; exact absurd hp List.not_mem_nil
  | cons q fs ih =>
    intro s hnd p hp
    rw [List.map_cons, List.nodup_cons] at hnd
    obtain ⟨hq, hnd⟩ := hnd
    rw [List.foldl_cons]
    rcases List.mem_cons.1 hp with rfl | hp
    · rw [(foldl_fieldWrite_only a v fs _).2.r _ _ _ hq]
      exact fieldWrite_r a v s p ha
    · rw [ih _ hnd p hp]
      refine fieldAfter_congr v p (fieldWrite_mode a v s q) ((fieldWrite_only a v s q).2.r _ _ _ fun hk => hq ?_)
      rw [← List.mem_singleton.1 hk]
      exact List.mem_map_of_mem hp

/-! ### A word of BAR0 (R10, R517) -/

/-- The fields of word a written with v, and what the write sets off where one of them is open. -/
def wordWritten (a v cyc : Nat) (s : State) : State :=
  let t := (wordFields a).foldl (fieldWrite a v) s
  if (wordFields a).any (fun p => p.1.acc.opens s.mode) then writeHook a v cyc s t else t

/-- What the write of a word of BAR0 leaves, counted as refused where a reserved bit is 1, a closed field would change or
the word has no field. -/
def wordLeft (a v cyc : Nat) (s : State) : State :=
  refusedIf (writeRefused a v s || (wordFields a).isEmpty) a (wordWritten a v cyc s)

/-- The write of a word of BAR0 below the MSI-X table, outside DEAD. -/
theorem hostWriteReg_bar0 {addr a : Nat} (v : Word) (cyc : Nat) (s : State) (haddr : addr / 4 * 4 = a) (hd : s.mode ≠ .dead)
    (ha : a < 0x1F0000) : hostWriteReg addr v cyc s = wordLeft a v.toNat cyc s := by
  unfold hostWriteReg bar0Write
  simp only [haddr, if_neg hd, if_pos (show a < 0x200000 by omega), if_neg (show ¬ 0x1F0000 ≤ a by omega)]
  rfl

theorem registerWrite_exec {addr a : Nat} (v : Word) (cyc : Nat) (s : State) (haddr : addr / 4 * 4 = a) (hh : s.held = false)
    (hd : s.mode ≠ .dead) (ha : a < 0x1F0000) : exec (.registerWrite addr v cyc) s
      = .next (((wordLeft a v.toNat cyc (s.start.atInst (some (cycU cyc)))).requeue s.pending).atInst s.inst) := by
  have hx : (s.start.atInst (some (cycU cyc))).mode ≠ .dead := hd
  show withOutAt s (some (cycU cyc)) (hostWriteReg addr v cyc) = _
  rw [withOutAt_live _ _ _ hh, hostWriteReg_bar0 v cyc _ haddr hx ha]

/-! ### Switch polarities (R406) -/

/-- The keys a switch of positioner n shows itself in. -/
def switchKeys (n : Nat) : List Nat := [Reg.POS_CH.STATE.key n 0, Reg.POS_CH.HOME_PHASE.key n 0,
  Reg.POS_CH.ENC_COVER.key n 0, Reg.POS_CH.TRIPPED.key n 0]

/-- From s to t nothing changes but what POS holds and those registers of positioner n. -/
def SwitchOnly (n : Nat) (s t : State) : Prop := t = { s with regs := t.regs, pos := t.pos } ∧ RegsKept (switchKeys n) s t

theorem SwitchOnly.rfl' (n : Nat) (s : State) : SwitchOnly n s s := ⟨rfl, .rfl' _ s⟩

theorem SwitchOnly.trans {n : Nat} {s t u : State} (h : SwitchOnly n s t) (k : SwitchOnly n t u) : SwitchOnly n s u := by
  refine ⟨?_, h.2.trans k.2⟩
  have hk := k.1
  have hh := h.1
  rw [hk, hh]

theorem setPosCh_switchOnly (s : State) (n : Nat) (v : PosCh) : SwitchOnly n s (setPosCh s n v) := by
  refine ⟨rfl, ?_⟩
  refine RegsKept.trans (t := { s with pos := (setPosCh s n v).pos }) (fun _ _ => rfl) ?_
  exact (((RegsKept.rfl' _ _).w Reg.POS_CH.STATE _ n 0 (by simp [switchKeys])).w Reg.POS_CH.HOME_PHASE _ n 0
    (by simp [switchKeys])).w Reg.POS_CH.ENC_COVER _ n 0 (by simp [switchKeys])

/-- A switch that trips in a module that does not lead halts nothing. -/
theorem switchTrip_switchOnly (n sw : Nat) (s : State) (hl : s.leading = false) : SwitchOnly n s (switchTrip n sw s) := by
  have hs := setPosCh_switchOnly s n { posCh s n with act := if bitAt (posCh s n).act sw then (posCh s n).act else setBit (posCh s n).act sw }
  unfold switchTrip
  dsimp only
  generalize setPosCh s n _ = t at hs
  split
  · exact hs
  · split
    · exact hs
    · have hw : SwitchOnly n t (t.wset Reg.POS_CH.TRIPPED sw true n) :=
        ⟨rfl, (RegsKept.rfl' _ t).w Reg.POS_CH.TRIPPED _ n 0 (by simp [switchKeys])⟩
      have hlt : (t.wset Reg.POS_CH.TRIPPED sw true n).leading = false := by
        rw [hs.1]; exact hl
      unfold switchActs
      simp only [hlt, Bool.not_false, if_true]
      exact hs.trans hw

theorem SwitchOnly.leading {n : Nat} {s t : State} (h : SwitchOnly n s t) : t.leading = s.leading := by
  unfold State.leading; rw [h.1]

/-- A switch input at rest follows a change of its polarity field. -/
def polarityFlip (n : Nat) (was : State) (pol : Field) (sw : Nat) (s : State) : State :=
  if was.rb pol n = s.rb pol n then s
  else if bitAt (posCh s n).act sw then setPosCh s n { posCh s n with act := clrBit (posCh s n).act sw }
  else switchTrip n sw s

theorem posHook_eq (n : Nat) (was s : State) : posHook n was s = polarityFlip n was Reg.POS_CH.HOME_POL 2
    (polarityFlip n was Reg.POS_CH.LIM_POL 1 (polarityFlip n was Reg.POS_CH.LIM_POL 0 s)) := rfl

theorem polarityFlip_switchOnly (n : Nat) (was : State) (pol : Field) (sw : Nat) (s : State) (hl : s.leading = false) :
    SwitchOnly n s (polarityFlip n was pol sw s) := by
  unfold polarityFlip
  split
  · exact .rfl' n s
  · split
    · exact setPosCh_switchOnly s n _
    · exact switchTrip_switchOnly n sw s hl

/-- Changed polarities in a module that does not lead change which switches are active and tripped. -/
theorem posHook_switchOnly (n : Nat) (was s : State) (hl : s.leading = false) : SwitchOnly n s (posHook n was s) := by
  have h0 := polarityFlip_switchOnly n was Reg.POS_CH.LIM_POL 0 s hl
  have h1 := polarityFlip_switchOnly n was Reg.POS_CH.LIM_POL 1 _ (h0.leading.trans hl)
  have h2 := polarityFlip_switchOnly n was Reg.POS_CH.HOME_POL 2 _ ((h0.trans h1).leading.trans hl)
  rw [posHook_eq]
  exact (h0.trans h1).trans h2

/-! ### Words from SXT to SEC (R9, R10, R517) -/

/-- The words of the positioners' switches. -/
def polarityWord (a : Nat) : Prop := 0x80100 ≤ a ∧ a < 0x80300 ∧ a % 0x80 = 0

theorem polarityWord_fields_rws : ∀ n < 4, ∀ p ∈ wordFields (0x80100 + 0x80 * n), p.1.acc = .rws := by decide +kernel

theorem nsField_eq_false {a : Nat} (h : 0x400 ≤ a) : nsField a = false := by
  simp [nsField, show a ≠ 0x210 by omega, show ¬ a < 0x400 by omega]

/-- A write of such a word sets off nothing beside its fields but for the origin and the switches. -/
theorem writeHook_plain {a : Nat} (v cyc : Nat) (was s : State) (h1 : 0x20000 ≤ a) (h2 : a < 0xC0000)
    (ho : ¬ (0x50010 ≤ a ∧ a ≤ 0x50028)) (hp : ¬ polarityWord a) : writeHook a v cyc was s = s := by
  unfold writeHook
  unfold polarityWord at hp
  rw [if_neg (by omega), if_neg (by omega), if_neg ho, if_neg (by omega), if_neg (by omega), if_neg hp, if_neg (by omega)]

theorem writeHook_polarity {a : Nat} (v cyc : Nat) (was s : State) (hp : polarityWord a) :
    writeHook a v cyc was s = posHook ((a - 0x80100) / 0x80) was s := by
  have hp' := hp
  unfold polarityWord at hp'
  unfold writeHook
  rw [if_neg (by omega), if_neg (by omega), if_neg (by omega), if_neg (by omega), if_neg (by omega), if_pos hp']

theorem not_leading_of_rws_open {s : State} (h : Access.rws.opens s.mode = true) : s.leading = false := by
  revert h
  unfold State.leading
  cases s.mode <;> decide

/-- Where a field of the switches' word is open, the module does not lead. -/
theorem not_leading_of_polarity_open {a : Nat} {s : State} (hp : polarityWord a)
    (h : (wordFields a).any (fun p => p.1.acc.opens s.mode) = true) : s.leading = false := by
  obtain ⟨ha, hlt, hm⟩ := hp
  obtain ⟨p, hpm, hopen⟩ := List.any_eq_true.1 h
  have haq : a = 0x80100 + 0x80 * ((a - 0x80100) / 0x80) := by omega
  rw [polarityWord_fields_rws ((a - 0x80100) / 0x80) (by omega) p (haq ▸ hpm)] at hopen
  exact not_leading_of_rws_open hopen

theorem switchKeys_above {n k : Nat} (h : k ∈ switchKeys n) : 32 * (0x80140 + 0x80 * n) ≤ k := by
  simp only [switchKeys, List.mem_cons, List.not_mem_nil, or_false, Field.key, Reg.POS_CH.STATE, Reg.POS_CH.HOME_PHASE,
    Reg.POS_CH.ENC_COVER, Reg.POS_CH.TRIPPED, Field.idx, fld] at h
  omega

/-- The fields of such a word keep what was written to them, and nothing is raised. -/
theorem wordWritten_fields {a : Nat} (v cyc : Nat) (s : State) (h1 : 0x20000 ≤ a) (h2 : a < 0xC0000)
    (ho : ¬ (0x50010 ≤ a ∧ a ≤ 0x50028)) : (wordWritten a v cyc s).onceTick = s.onceTick
    ∧ ∀ f i j, f.key i j < 32 * a + 32 →
      (wordWritten a v cyc s).r f i j = ((wordFields a).foldl (fieldWrite a v) s).r f i j := by
  have hfold := foldl_fieldWrite_only a v (wordFields a) s
  have hone : ((wordFields a).foldl (fieldWrite a v) s).onceTick = s.onceTick := by rw [hfold.1]
  unfold wordWritten
  dsimp only
  split
  · rename_i hopen
    by_cases hp : polarityWord a
    · have hl : ((wordFields a).foldl (fieldWrite a v) s).leading = false := by
        have := not_leading_of_polarity_open hp hopen
        unfold State.leading at this ⊢
        rw [foldl_fieldWrite_mode]; exact this
      have hk := posHook_switchOnly ((a - 0x80100) / 0x80) s _ hl
      rw [writeHook_polarity v cyc s _ hp]
      refine ⟨by rw [hk.1]; exact hone, fun f i j hf => hk.2.r f i j fun hm => ?_⟩
      have := switchKeys_above hm
      obtain ⟨ha, hlt, hm⟩ := hp
      omega
    · rw [writeHook_plain v cyc s _ h1 h2 ho hp]
      exact ⟨hone, fun _ _ _ _ => rfl⟩
  · exact ⟨hone, fun _ _ _ _ => rfl⟩

theorem wordWritten_plain {a : Nat} (v cyc : Nat) (s : State) (h1 : 0x20000 ≤ a) (h2 : a < 0xC0000)
    (ho : ¬ (0x50010 ≤ a ∧ a ≤ 0x50028)) (hp : ¬ polarityWord a) :
    RegsOnly ((wordFields a).map fieldKey) s (wordWritten a v cyc s) := by
  unfold wordWritten
  dsimp only
  rw [writeHook_plain v cyc s _ h1 h2 ho hp, ite_self]
  exact foldl_fieldWrite_only a v (wordFields a) s

/-! ### The words of the origin (R185) -/

/-- The keys of the origin in force. -/
def forceKeys : List Nat := [Reg.CHT_ORIGIN_CTRL.IN_FORCE.key 0 0, Reg.CHT_ORIGIN_CTRL.FROM_LEAD.key 0 0]

theorem originShow_kept (s : State) (o : Option (Int × Int × Int)) (b : Bool) : RegsKept forceKeys s (originShow s o b) :=
  ((RegsKept.rfl' _ s).w Reg.CHT_ORIGIN_CTRL.IN_FORCE _ 0 0 (by decide)).w Reg.CHT_ORIGIN_CTRL.FROM_LEAD _ 0 0 (by decide)

/-- The origin of a module's own registers follows from its seven fields. -/
theorem ownOrigin_congr {s t : State} (h : ∀ f : Field, 32 * 0x50010 ≤ f.key 0 0 → f.key 0 0 ≤ 32 * 0x50028 → t.r f = s.r f) :
    ownOrigin t = ownOrigin s := by
  unfold ownOrigin State.rb
  rw [h Reg.CHT_ORIGIN_CTRL.ORIGIN_VALID (by decide) (by decide), h Reg.CHT_ORIGIN_X.LO (by decide) (by decide),
    h Reg.CHT_ORIGIN_X.HI (by decide) (by decide), h Reg.CHT_ORIGIN_Y.LO (by decide) (by decide),
    h Reg.CHT_ORIGIN_Y.HI (by decide) (by decide), h Reg.CHT_ORIGIN_Z.LO (by decide) (by decide),
    h Reg.CHT_ORIGIN_Z.HI (by decide) (by decide)]

theorem ownOrigin_isSome (s : State) : (ownOrigin s).isSome = s.rb Reg.CHT_ORIGIN_CTRL.ORIGIN_VALID := by
  unfold ownOrigin
  cases s.rb Reg.CHT_ORIGIN_CTRL.ORIGIN_VALID <;> rfl

end Sys2Proof.Machine

/-! PROOF. Reads that latch and the latch writes of TTU (R56, R60, R82, R143, R314, R340). -/

namespace Sys2Proof.Machine

open Sys2Proof

/-! ### Reads that latch (R56, R82, R143, R314, R340) -/

/-- A read that latches, in a module that is neither held in reset nor in DEAD. -/
theorem latchRead_exec (f : State → State) (s : State) (hh : s.held = false) (hd : s.mode ≠ .dead) :
    withOut s (latchRead f) = .next (((f (s.start.atInst none)).requeue s.pending).atInst s.inst) := by
  rw [withOut_live _ _ hh, latchRead_live f (s.start.atInst none) hd]

/-- A read that returns a value and sets one register field changes nothing else. -/
theorem latchRead_one {c : Instr} {s : State} {g : State → State} {f : Field} {v out i : Nat}
    (hh : s.held = false) (hd : s.mode ≠ .dead) (hc : exec c s = withOut s (latchRead g))
    (hg : g (s.start.atInst none) = ((s.start.atInst none).w f v i).emit (.readData out)) :
    ∃ t, exec c s = .next t ∧ t.out = [.readData out] ∧ t.r f i = v % 2 ^ f.width ∧ RegsOnly [f.key i 0] s t := by
  rw [hc, latchRead_exec g s hh hd, hg]
  exact ⟨_, rfl, rfl, State.r_w_same (s.start.atInst none) f v i 0,
    (((RegsOnly.rfl' _ _).w f v i 0 (List.mem_singleton.2 rfl)).emit _).frame⟩

theorem obsPosLoRead_latches (s : State) (axis : Fin 3) (v : Int) (f : Field) (hh : s.held = false) (hd : s.mode ≠ .dead)
    (h : (axis, v, f) ∈ [((0 : Fin 3), s.obs.x, Reg.OBS_POS_X.HI), (1, s.obs.y, Reg.OBS_POS_Y.HI),
      (2, s.obs.z, Reg.OBS_POS_Z.HI)]) :
    ∃ t, exec (.obsPosLoRead axis) s = .next t ∧ t.out = [.readData (ofSigned 64 v % 2 ^ 32)]
      ∧ t.r f = ofSigned 64 v / 2 ^ 32 % 2 ^ f.width ∧ RegsOnly [f.key 0 0] s t := by
  simp only [List.mem_cons, Prod.mk.injEq, List.not_mem_nil, or_false] at h
  rcases h with ⟨rfl, rfl, rfl⟩ | ⟨rfl, rfl, rfl⟩ | ⟨rfl, rfl, rfl⟩ <;> exact latchRead_one hh hd rfl rfl

theorem lastReflRead_latches (s : State) (hh : s.held = false) (hd : s.mode ≠ .dead) :
    ∃ t, exec .lastReflRead s = .next t ∧ t.out = [.readData (s.r Reg.TWN_LAST_REFL.TICK_LO)]
      ∧ t.r Reg.TWN_LAST_REFL.TICK_HI = s.twn.lastRefl / 2 ^ 32 % 2 ^ 32
      ∧ RegsOnly [Reg.TWN_LAST_REFL.TICK_HI.key 0 0] s t := by
  have hlo : lastReflRead (s.start.atInst none) = ((s.start.atInst none).w Reg.TWN_LAST_REFL.TICK_HI
      (s.twn.lastRefl / 2 ^ 32)).emit (.readData (s.r Reg.TWN_LAST_REFL.TICK_LO)) := by
    unfold lastReflRead
    dsimp only
    rw [r_w_other _ Reg.TWN_LAST_REFL.TICK_HI Reg.TWN_LAST_REFL.TICK_LO _ _ rfl (by decide)]
    rfl
  exact latchRead_one hh hd rfl hlo

theorem rxHLoRead_latches (s : State) (r : Fin 128) (hh : s.held = false) (hd : s.mode ≠ .dead) :
    ∃ t, exec (.rxHLoRead r) s = .next t ∧ t.out = [.readData (s.r Reg.SEC_ROVER.RX_H_LO r)]
      ∧ t.r Reg.SEC_ROVER.RX_H_HI r = (secWin s false r).h.getD 0 / 2 ^ 32 % 2 ^ Reg.SEC_ROVER.RX_H_HI.width
      ∧ t.r Reg.SEC_ROVER.RX_MAP_LO r = (secWin s false r).map % 2 ^ 32
      ∧ t.r Reg.SEC_ROVER.RX_MAP_HI r = (secWin s false r).map / 2 ^ 32 % 2 ^ 32
      ∧ RegsOnly [Reg.SEC_ROVER.RX_H_HI.key r 0, Reg.SEC_ROVER.RX_MAP_LO.key r 0, Reg.SEC_ROVER.RX_MAP_HI.key r 0] s t := by
  have hHi (u : State) (g : Field) (v : Nat) := r_w_other u Reg.SEC_ROVER.RX_H_HI g v r
  have hMapLo (u : State) (g : Field) (v : Nat) := r_w_other u Reg.SEC_ROVER.RX_MAP_LO g v r
  have hMapHi (u : State) (g : Field) (v : Nat) := r_w_other u Reg.SEC_ROVER.RX_MAP_HI g v r
  refine ⟨_, latchRead_exec _ s hh hd, congrArg (fun d => [Out.readData d]) ?_, ?_, ?_, State.r_w_same _ _ _ _ _, ?_⟩
  · exact (hMapHi _ _ _ (by rfl) (by decide)).trans ((hMapLo _ _ _ (by rfl) (by decide)).trans
      (hHi _ _ _ (by rfl) (by decide)))
  · exact (hMapHi _ _ _ (by rfl) (by decide)).trans ((hMapLo _ _ _ (by rfl) (by decide)).trans (State.r_w_same _ _ _ _ _))
  · exact (hMapHi _ _ _ (by rfl) (by decide)).trans (State.r_w_same _ _ _ _ _)
  · exact (((((RegsOnly.rfl' _ _).w _ _ _ _ (by simp)).w _ _ _ _ (by simp)).w _ _ _ _ (by simp)).emit _).frame

/-! ### The latch registers of TTU (R56, R60) -/

theorem wordFields_ttuLatch : wordFields 0x240 = [(Reg.TTU_LATCH.LATCH, 0, 0)] := rfl
theorem wordFields_ttuBudgetClr : wordFields 0x88 = [(Reg.TTU_BUDGET_CLR.CLEAR, 0, 0)] := rfl

/-- A write of a word whose one field is the write-only bit 0 does what the bit sets off, and counts as refused where
another bit is 1. -/
theorem hostWriteReg_woBit (a : Nat) (f : Field) (v : Word) (cyc : Nat) (s : State) (hf : wordFields a = [(f, 0, 0)])
    (hacc : f.acc = .wo) (hl : f.lsb = 0) (hw : f.width = 1) (ha : a / 4 * 4 = a) (hlt : a < 0x100000) (hd : s.mode ≠ .dead) :
    hostWriteReg a v cyc s = refusedIf (decide (2 ≤ v.toNat)) a (writeHook a v.toNat cyc s s) := by
  have hopen : Access.wo.opens s.mode = true := by simpa [Access.opens] using hd
  have hpart : f.part v.toNat = v.toNat % 2 := by simp [Field.part, bitsOf, hl, hw]
  have hres : reservedBits a v.toNat = v.toNat - v.toNat % 2 := by
    have : ¬ 0x100100 ≤ a := by omega
    simp [reservedBits, hf, hpart, hl, this]
  have href : writeRefused a v.toNat s = decide (2 ≤ v.toNat) := by
    rw [Bool.eq_iff_iff]
    simp only [writeRefused, hres, hf, List.any_cons, List.any_nil, hacc, hopen, Bool.not_true, Bool.false_and,
      Bool.or_false, bne_iff_ne, decide_eq_true_eq]
    omega
  have hfold : wordWritten a v.toNat cyc s = writeHook a v.toNat cyc s s := by
    simp [wordWritten, hf, fieldWrite, hacc, hopen]
  have hemp : (wordFields a).isEmpty = false := by simp [hf]
  rw [hostWriteReg_bar0 v cyc s ha hd (by omega), wordLeft, href, hfold, hemp, Bool.or_false]

/-- The stamp registers of base n, as the stamp they hold. -/
def latchStamp (n : Nat) (t : State) : Nat :=
  stampOf (t.r Reg.TTU_TB_LATCH.SUB n) (t.r Reg.TTU_TB_LATCH.NS n)
    (t.r Reg.TTU_TB_LATCH.S_LO n + 2 ^ 32 * t.r Reg.TTU_TB_LATCH.S_HI n)

/-- The keys of the stamp registers of a base, and of all four. -/
def latchKeysOf (n : Nat) : List Nat := [Reg.TTU_TB_LATCH.SUB.key n 0, Reg.TTU_TB_LATCH.NS.key n 0,
  Reg.TTU_TB_LATCH.S_LO.key n 0, Reg.TTU_TB_LATCH.S_HI.key n 0]
def latchKeys : List Nat := (List.range 4).flatMap latchKeysOf

theorem ttuLatchBase_kept (s : State) (n u : Nat) : RegsOnly (latchKeysOf n) s (ttuLatchBase s n u) :=
  ((((RegsOnly.rfl' _ s).w Reg.TTU_TB_LATCH.SUB _ n 0 (by simp [latchKeysOf])).w Reg.TTU_TB_LATCH.NS _ n 0
    (by simp [latchKeysOf])).w Reg.TTU_TB_LATCH.S_LO _ n 0 (by simp [latchKeysOf])).w Reg.TTU_TB_LATCH.S_HI _ n 0
    (by simp [latchKeysOf])

/-- A stamp reads the same where its four registers do. -/
theorem latchStamp_kept {ks : List Nat} {s t : State} {n : Nat} (h : RegsKept ks s t) (hk : ∀ k ∈ latchKeysOf n, k ∉ ks) :
    latchStamp n t = latchStamp n s := by
  unfold latchStamp
  rw [h.r _ _ _ (hk _ (by simp [latchKeysOf])), h.r _ _ _ (hk _ (by simp [latchKeysOf])),
    h.r _ _ _ (hk _ (by simp [latchKeysOf])), h.r _ _ _ (hk _ (by simp [latchKeysOf]))]

theorem latchKeysOf_bounds {n k : Nat} (h : k ∈ latchKeysOf n) : 32 * (0x250 + 0x10 * n) ≤ k ∧ k < 32 * (0x260 + 0x10 * n) := by
  simp only [latchKeysOf, List.mem_cons, List.not_mem_nil, or_false, Field.key, Reg.TTU_TB_LATCH.SUB,
    Reg.TTU_TB_LATCH.NS, Reg.TTU_TB_LATCH.S_LO, Reg.TTU_TB_LATCH.S_HI, Field.idx, fld] at h
  omega

theorem latchStamp_latchBase_ne (s : State) {m n : Nat} (u : Nat) (h : m ≠ n) :
    latchStamp m (ttuLatchBase s n u) = latchStamp m s := by
  refine latchStamp_kept (ttuLatchBase_kept s n u).2 fun k hm hn => ?_
  have h1 := latchKeysOf_bounds hm
  have h2 := latchKeysOf_bounds hn
  omega

/-- The registers of a base hold a stamp of up to 2⁴⁸ s in full. -/
theorem latchStamp_latchBase (s : State) (n u : Nat) (hu : u < 2 ^ 48 * uSec) :
    latchStamp n (ttuLatchBase s n u) = u := by
  have hs (w : State) (g : Field) (v : Nat) := r_w_other w Reg.TTU_TB_LATCH.S_HI g v n
  have hl (w : State) (g : Field) (v : Nat) := r_w_other w Reg.TTU_TB_LATCH.S_LO g v n
  have hn (w : State) (g : Field) (v : Nat) := r_w_other w Reg.TTU_TB_LATCH.NS g v n
  have rSub : (ttuLatchBase s n u).r Reg.TTU_TB_LATCH.SUB n = u % 65536 % 2 ^ 16 :=
    (hs _ _ _ (by rfl) (by decide)).trans ((hl _ _ _ (by rfl) (by decide)).trans ((hn _ _ _ (by rfl) (by decide)).trans
      (State.r_w_same _ _ _ _ _)))
  have rNs : (ttuLatchBase s n u).r Reg.TTU_TB_LATCH.NS n = u / 65536 % 1000000000 % 2 ^ 32 :=
    (hs _ _ _ (by rfl) (by decide)).trans ((hl _ _ _ (by rfl) (by decide)).trans (State.r_w_same _ _ _ _ _))
  have rLo : (ttuLatchBase s n u).r Reg.TTU_TB_LATCH.S_LO n = u / uSec % 2 ^ 32 :=
    (hs _ _ _ (by rfl) (by decide)).trans (State.r_w_same _ _ _ _ _)
  have rHi : (ttuLatchBase s n u).r Reg.TTU_TB_LATCH.S_HI n = u / uSec / 2 ^ 32 % 2 ^ 16 := State.r_w_same _ _ _ _ _
  unfold latchStamp stampOf
  rw [rSub, rNs, rLo, rHi]
  unfold uSec uNs at *
  omega

theorem ttuLatch_only (v cyc : Nat) (s : State) : RegsOnly latchKeys s (ttuLatch v cyc s) := by
  have base : ∀ t n u, n < 4 → RegsOnly latchKeys t (ttuLatchBase t n u) := fun t n u hn =>
    ⟨(ttuLatchBase_kept t n u).1, (ttuLatchBase_kept t n u).2.mono fun k hk =>
      List.mem_flatMap.2 ⟨n, List.mem_range.2 hn, hk⟩⟩
  unfold ttuLatch
  split
  · exact (((base _ 0 _ (by decide)).trans (base _ 1 _ (by decide))).trans (base _ 2 _ (by decide))).trans
      (base _ 3 _ (by decide))
  · exact .rfl' _ _

/-- The four bases are latched on one cycle. -/
theorem latchStamp_ttuLatch (v cyc n : Nat) (s : State) (hv : v % 2 = 1) (hn : n < 3)
    (hu : s.tb n (cycU cyc) < 2 ^ 48 * uSec) : latchStamp n (ttuLatch v cyc s) = s.tb n (cycU cyc) := by
  unfold ttuLatch
  rw [if_pos hv]
  dsimp only
  rw [latchStamp_latchBase_ne _ _ (by omega)]
  interval_cases n
  · rw [latchStamp_latchBase_ne _ _ (by decide), latchStamp_latchBase_ne _ _ (by decide), latchStamp_latchBase _ _ _ hu]
  · rw [latchStamp_latchBase_ne _ _ (by decide), latchStamp_latchBase _ _ _ hu]
  · exact latchStamp_latchBase _ _ _ hu

theorem latchStamp_ttuLatch_tb3 (v cyc : Nat) (s : State) (hv : v % 2 = 1) (hu : s.tb 3 (cycU cyc) < 2 ^ 48 * uSec) :
    latchStamp 3 (ttuLatch v cyc s) = s.tb 3 (cycU cyc) / (4 * uNs) * (4 * uNs) := by
  unfold ttuLatch
  rw [if_pos hv]
  exact latchStamp_latchBase _ _ _ (lt_of_le_of_lt (Nat.div_mul_le_self _ _) hu)

/-- The keys of the budget counters of the 13 engines. -/
def budgetKeys : List Nat :=
  (List.range 13).flatMap fun e => [Reg.TTU_SLOT_USE.MAX_USE.key e 0, Reg.TTU_SLOT_OVR.OVR_COUNT.key e 0]

/-- The counters of one engine cleared. -/
def budgetClear (e : Nat) (s : State) : State := (s.w Reg.TTU_SLOT_USE.MAX_USE 0 e).w Reg.TTU_SLOT_OVR.OVR_COUNT 0 e

theorem budgetClear_only (e : Nat) (s : State) (he : e < 13) : RegsOnly budgetKeys s (budgetClear e s) := by
  have hk : ∀ k ∈ [Reg.TTU_SLOT_USE.MAX_USE.key e 0, Reg.TTU_SLOT_OVR.OVR_COUNT.key e 0], k ∈ budgetKeys :=
    fun k hk => List.mem_flatMap.2 ⟨e, List.mem_range.2 he, hk⟩
  exact ((RegsOnly.rfl' _ s).w _ _ _ _ (hk _ (by simp))).w _ _ _ _ (hk _ (by simp))

theorem budgetClear_zero (e d : Nat) (s : State)
    (h : d = e ∨ (s.r Reg.TTU_SLOT_USE.MAX_USE d = 0 ∧ s.r Reg.TTU_SLOT_OVR.OVR_COUNT d = 0)) :
    (budgetClear e s).r Reg.TTU_SLOT_USE.MAX_USE d = 0 ∧ (budgetClear e s).r Reg.TTU_SLOT_OVR.OVR_COUNT d = 0 := by
  have hm : Reg.TTU_SLOT_USE.MAX_USE.key d 0 ≠ Reg.TTU_SLOT_OVR.OVR_COUNT.key e 0 := by
    simp only [Field.key, Reg.TTU_SLOT_USE.MAX_USE, Reg.TTU_SLOT_OVR.OVR_COUNT, Field.idx, fld]; omega
  have ho : Reg.TTU_SLOT_OVR.OVR_COUNT.key d 0 ≠ Reg.TTU_SLOT_USE.MAX_USE.key e 0 := by
    simp only [Field.key, Reg.TTU_SLOT_USE.MAX_USE, Reg.TTU_SLOT_OVR.OVR_COUNT, Field.idx, fld]; omega
  unfold budgetClear
  by_cases hd : d = e
  · subst hd
    rw [State.r_w_ne _ _ _ _ _ _ _ _ hm, State.r_w_same, State.r_w_same]
    exact ⟨Nat.zero_mod _, Nat.zero_mod _⟩
  · have hmm : Reg.TTU_SLOT_USE.MAX_USE.key d 0 ≠ Reg.TTU_SLOT_USE.MAX_USE.key e 0 := by
      simp only [Field.key, Reg.TTU_SLOT_USE.MAX_USE, Field.idx, fld]; omega
    have hoo : Reg.TTU_SLOT_OVR.OVR_COUNT.key d 0 ≠ Reg.TTU_SLOT_OVR.OVR_COUNT.key e 0 := by
      simp only [Field.key, Reg.TTU_SLOT_OVR.OVR_COUNT, Field.idx, fld]; omega
    rw [State.r_w_ne _ _ _ _ _ _ _ _ hm, State.r_w_ne _ _ _ _ _ _ _ _ hmm, State.r_w_ne _ _ _ _ _ _ _ _ hoo,
      State.r_w_ne _ _ _ _ _ _ _ _ ho]
    exact h.resolve_left hd

theorem iter_budgetClear (n : Nat) (s : State) (hn : n ≤ 13) : RegsOnly budgetKeys s (iter budgetClear n s)
    ∧ ∀ e, e < n → (iter budgetClear n s).r Reg.TTU_SLOT_USE.MAX_USE e = 0
      ∧ (iter budgetClear n s).r Reg.TTU_SLOT_OVR.OVR_COUNT e = 0 := by
  induction n with
  | zero => exact ⟨.rfl' _ _, fun e he => absurd he (Nat.not_lt_zero e)⟩
  | succ n ih =>
    obtain ⟨hr, hz⟩ := ih (by omega)
    refine ⟨hr.trans (budgetClear_only n _ (by omega)), fun e he => budgetClear_zero n e _ ?_⟩
    rcases Nat.lt_succ_iff_lt_or_eq.1 he with h | h
    · exact Or.inr (hz e h)
    · exact Or.inl h

theorem ttuLatch_exec (v : Word) (cyc : Nat) (s : State) (hh : s.held = false) (hd : s.mode ≠ .dead) :
    exec (.ttuLatch v cyc) s = .next (((refusedIf (decide (2 ≤ v.toNat)) 0x240
      (ttuLatch v.toNat cyc (s.start.atInst (some (cycU cyc))))).requeue s.pending).atInst s.inst) := by
  have hx : (s.start.atInst (some (cycU cyc))).mode ≠ .dead := hd
  show withOutAt s (some (cycU cyc)) (hostWriteReg 0x240 v cyc) = _
  rw [withOutAt_live _ _ _ hh, hostWriteReg_woBit 0x240 _ v cyc _ wordFields_ttuLatch rfl rfl rfl rfl (by decide) hx]
  rfl

theorem ttuBudgetClr_exec (v : Word) (s : State) (hh : s.held = false) (hd : s.mode ≠ .dead) :
    exec (.ttuBudgetClr v) s = .next (((refusedIf (decide (2 ≤ v.toNat)) 0x88
      (ttuBudgetClr v.toNat (s.start.atInst none))).requeue s.pending).atInst s.inst) := by
  have hx : (s.start.atInst none).mode ≠ .dead := hd
  show withOut s (hostWriteReg 0x88 v 0) = _
  rw [withOut_live _ _ hh, hostWriteReg_woBit 0x88 _ v 0 _ wordFields_ttuBudgetClr rfl rfl rfl rfl (by decide) hx]
  rfl

theorem ttuBudgetClr_only (v : Nat) (s : State) : RegsOnly budgetKeys s (ttuBudgetClr v s) := by
  unfold ttuBudgetClr
  split
  · exact (iter_budgetClear 13 s (Nat.le_refl _)).1
  · exact .rfl' _ _

theorem ttuBudgetClr_zero (v : Nat) (s : State) (hv : v % 2 = 1) (e : Nat) (he : e < 13) :
    (ttuBudgetClr v s).r Reg.TTU_SLOT_USE.MAX_USE e = 0 ∧ (ttuBudgetClr v s).r Reg.TTU_SLOT_OVR.OVR_COUNT e = 0 := by
  unfold ttuBudgetClr
  rw [if_pos hv]
  exact (iter_budgetClear 13 s (Nat.le_refl _)).2 e he

theorem latchStamp_refusedIf (b : Bool) (a n : Nat) (s : State) (hn : n < 4) :
    latchStamp n (refusedIf b a s) = latchStamp n s := by
  have hk : ∀ k ∈ latchKeysOf n, k < 32 * 0xD0000 := fun k h => by have := (latchKeysOf_bounds h).2; omega
  unfold latchStamp
  rw [refusedIf_r _ _ _ _ _ _ (hk _ (by simp [latchKeysOf])), refusedIf_r _ _ _ _ _ _ (hk _ (by simp [latchKeysOf])),
    refusedIf_r _ _ _ _ _ _ (hk _ (by simp [latchKeysOf])), refusedIf_r _ _ _ _ _ _ (hk _ (by simp [latchKeysOf]))]

/-- What a write that changes registers alone changes, seen from the state its command was given: counted as refused or not. -/
theorem refusedIf_only {ks : List Nat} {a : Nat} {s g : State} {i : Option Nat} (b : Bool)
    (hg : RegsOnly ks (s.start.atInst i) g) (ha : a < 2 ^ 21) :
    (b = false → RegsOnly ks s (((refusedIf b a g).requeue s.pending).atInst s.inst))
    ∧ (b = true → EventsOnly (ks ++ refusedKeys) s (((refusedIf b a g).requeue s.pending).atInst s.inst)
      ∧ RefusedShown s.onceTick a (((refusedIf b a g).requeue s.pending).atInst s.inst)) := by
  have hone : g.onceTick = s.onceTick := by rw [hg.1]; rfl
  constructor
  · rintro rfl
    exact hg.frame
  · intro hb
    have hs := refusedIf_shown (s := g) hb ha
    rw [hone] at hs
    exact ⟨(refusedIf_eventsOnly hb hg.eventsOnly).frame, hs⟩

/-- A word with its bit 0 set is 1, or has another bit set. -/
theorem word_odd {v : Word} (hv : v.toNat % 2 = 1) :
    (v = 1 → decide (2 ≤ v.toNat) = false) ∧ (v ≠ 1 → decide (2 ≤ v.toNat) = true) := by
  constructor
  · rintro rfl; decide
  · intro h
    have : v.toNat ≠ 1 := fun h1 => h (BitVec.eq_of_toNat_eq h1)
    exact decide_eq_true (by omega)

/-- With the bit 0 such a write changes nothing, and counts as refused where another bit is 1. -/
theorem woBit_clear {c : Instr} {a : Nat} {s : State} {i : Option Nat} {v : Word}
    (hc : exec c s = .next (((refusedIf (decide (2 ≤ v.toNat)) a (s.start.atInst i)).requeue s.pending).atInst s.inst))
    (ha : a < 2 ^ 21) (hv : v.toNat % 2 = 0) :
    (v = 0 → exec c s = .next s.start)
    ∧ (v ≠ 0 → ∃ t, exec c s = .next t ∧ EventsOnly refusedKeys s t ∧ RefusedShown s.onceTick a t) := by
  constructor
  · rintro rfl
    exact hc
  · intro h
    have hne : v.toNat ≠ 0 := fun h0 => h (BitVec.eq_of_toNat_eq h0)
    exact ⟨_, hc, (refusedIf_only _ (.rfl' [] (s.start.atInst i)) ha).2 (decide_eq_true (by omega))⟩

/-- Settles O8: each read is one write of a held part, and each latch write sets its registers in a word with one
write-only bit. -/
theorem latchingReadsAndLatchWritesHoldOneMoment : Obligations.latching_reads_and_latch_writes_hold_one_moment := by
  unfold Obligations.latching_reads_and_latch_writes_hold_one_moment
  refine ⟨fun s hh hd => ⟨latchRead_one hh hd rfl rfl, latchRead_one hh hd rfl rfl,
    fun axis v f h => obsPosLoRead_latches s axis v f hh hd h, lastReflRead_latches s hh hd,
    fun r => rxHLoRead_latches s r hh hd, fun r => latchRead_one hh hd rfl rfl⟩, ?_⟩
  intro s v cyc hh hd stamp lkeys bkeys rkeys refused
  have hl := ttuLatch_exec v cyc s hh hd
  have hb := ttuBudgetClr_exec v s hh hd
  refine ⟨fun hv => ⟨_, hl, fun n hn hu => ?_, fun hu => ?_, ?_⟩, fun hv => ⟨_, hb, fun e he => ?_, ?_⟩, fun p hp hv => ?_⟩
  · exact (latchStamp_refusedIf _ _ n _ (by omega)).trans (latchStamp_ttuLatch _ cyc n _ hv hn hu)
  · exact (latchStamp_refusedIf _ _ 3 _ (by omega)).trans (latchStamp_ttuLatch_tb3 _ cyc _ hv hu)
  · obtain ⟨h1, h2⟩ := refusedIf_only (a := 0x240) (decide (2 ≤ v.toNat)) (ttuLatch_only v.toNat cyc (s.start.atInst (some (cycU cyc)))) (by decide)
    exact ⟨fun h => h1 ((word_odd hv).1 h), fun h => h2 ((word_odd hv).2 h)⟩
  · have hk : Reg.TTU_SLOT_USE.MAX_USE.key e 0 < 32 * 0xD0000 ∧ Reg.TTU_SLOT_OVR.OVR_COUNT.key e 0 < 32 * 0xD0000 := by
      simp only [Field.key, Reg.TTU_SLOT_USE.MAX_USE, Reg.TTU_SLOT_OVR.OVR_COUNT, Field.idx, fld]; omega
    obtain ⟨hm, ho⟩ := ttuBudgetClr_zero v.toNat (s.start.atInst none) hv e he
    exact ⟨(refusedIf_r _ _ _ _ _ _ hk.1).trans hm, (refusedIf_r _ _ _ _ _ _ hk.2).trans ho⟩
  · obtain ⟨h1, h2⟩ := refusedIf_only (a := 0x88) (decide (2 ≤ v.toNat)) (ttuBudgetClr_only v.toNat (s.start.atInst none)) (by decide)
    exact ⟨fun h => h1 ((word_odd hv).1 h), fun h => h2 ((word_odd hv).2 h)⟩
  · have hz : ¬ v.toNat % 2 = 1 := by omega
    simp only [List.mem_cons, List.not_mem_nil, or_false] at hp
    rcases hp with rfl | rfl
    · rw [ttuLatch, if_neg hz] at hl
      exact woBit_clear (a := 0x240) hl (by decide) hv
    · rw [ttuBudgetClr, if_neg hz] at hb
      exact woBit_clear (a := 0x88) hb (by decide) hv

end Sys2Proof.Machine

/-! PROOF. Writes of the words of the origin, and register writes field by field (R9, R10, R185, R517). -/

namespace Sys2Proof.Machine

open Sys2Proof

theorem originShow_inForce (s : State) (o : Option (Int × Int × Int)) (b : Bool) :
    (originShow s o b).rb Reg.CHT_ORIGIN_CTRL.IN_FORCE = o.isSome := by
  unfold originShow
  rw [State.wb, State.rb_w_ne _ _ _ _ _ _ _ _ (by decide)]
  exact State.rb_wb_same _ _ _ _ _ rfl

theorem originShow_fromLead (s : State) (o : Option (Int × Int × Int)) :
    (originShow s o false).rb Reg.CHT_ORIGIN_CTRL.FROM_LEAD = false := State.rb_wb_same _ _ _ _ _ rfl

/-- The fields of the words of the origin: distinct, one of them open in MAINTENANCE, and those open there RWS and no part
of the origin in force. -/
theorem originWord_fields : ∀ k < 7, ((wordFields (0x50010 + 4 * k)).map fieldKey).Nodup
    ∧ (wordFields (0x50010 + 4 * k)).any (fun p => p.1.acc.opens .maintenance) = true
    ∧ ∀ p ∈ wordFields (0x50010 + 4 * k), p.1.acc.opens .maintenance = true →
      p.1.acc = .rws ∧ fieldKey p ∉ forceKeys ∧ fieldKey p < 32 * 0xD0000 := by decide +kernel

/-- In MAINTENANCE a write of a word of the origin puts the origin of the module's own registers in force. -/
theorem wordWritten_origin {a : Nat} (v cyc : Nat) (s : State) (hm : s.mode = .maintenance)
    (ho : 0x50010 ≤ a ∧ a ≤ 0x50028) (hopen : (wordFields a).any (fun p => p.1.acc.opens .maintenance) = true) :
    wordWritten a v cyc s = originShow ((wordFields a).foldl (fieldWrite a v) s)
      (ownOrigin ((wordFields a).foldl (fieldWrite a v) s)) false := by
  have hf : ((wordFields a).foldl (fieldWrite a v) s).mode = .maintenance := (foldl_fieldWrite_mode a v _ s).trans hm
  unfold wordWritten writeHook
  rw [hm]
  dsimp only
  rw [if_pos hopen, if_neg (by omega), if_neg (by omega), if_pos ho, originOwn, hf]
  rfl

/-- What such a write shows: its open fields their part, and the origin in force that of the registers. -/
theorem origin_write_shows {a : Nat} (v cyc : Nat) (s : State) (hm : s.mode = .maintenance)
    (ho : 0x50010 ≤ a ∧ a ≤ 0x50028) (ha : a % 4 = 0) :
    let t := wordLeft a v cyc s
    (∀ p ∈ wordFields a, p.1.acc.opens s.mode = true → t.r p.1 p.2.1 p.2.2 = heldValue p.1 v)
      ∧ t.cht.origin = ownOrigin t ∧ t.rb Reg.CHT_ORIGIN_CTRL.IN_FORCE = t.rb Reg.CHT_ORIGIN_CTRL.ORIGIN_VALID
      ∧ t.rb Reg.CHT_ORIGIN_CTRL.FROM_LEAD = false := by
  have haq : a = 0x50010 + 4 * ((a - 0x50010) / 4) := by omega
  have hfs := originWord_fields ((a - 0x50010) / 4) (by omega)
  rw [← haq] at hfs
  obtain ⟨hnd, hopen, hrws⟩ := hfs
  intro t
  have hu := wordWritten_origin v cyc s hm ho hopen
  have hF := foldl_fieldWrite_r a v (nsField_eq_false (by omega)) (wordFields a) s hnd
  have ht : ∀ (f : Field) (i j : Nat), f.key i j < 32 * 0xD0000 → t.r f i j = (wordWritten a v cyc s).r f i j :=
    fun f i j h => refusedIf_r _ a _ f i j h
  have htc : t.cht = (wordWritten a v cyc s).cht := refusedIf_cht _ a _
  rw [hu] at ht htc
  generalize (wordFields a).foldl (fieldWrite a v) s = F at ht htc hF
  have hkeep : ∀ (f : Field) (i j : Nat), f.key i j < 32 * 0xD0000 → f.key i j ∉ forceKeys → t.r f i j = F.r f i j :=
    fun f i j h hk => (ht f i j h).trans ((originShow_kept F _ false).r f i j hk)
  have hown : ownOrigin t = ownOrigin F := ownOrigin_congr fun f hlo hhi => hkeep f 0 0 (by omega) fun hk => by
    have : ∀ k ∈ forceKeys, 32 * 0x50028 < k := by decide
    exact absurd (this _ hk) (by omega)
  refine ⟨fun p hp hpo => ?_, ?_, ?_, ?_⟩
  · obtain ⟨hacc, hk, hlt⟩ := hrws p hp (hm ▸ hpo)
    rw [hkeep p.1 p.2.1 p.2.2 hlt hk, hF p hp]
    simp [fieldAfter, hacc, hacc ▸ hpo]
  · rw [hown, htc]
    rfl
  · rw [← ownOrigin_isSome, hown, ← originShow_inForce F (ownOrigin F) false]
    unfold State.rb
    rw [ht _ _ _ (by decide)]
  · rw [← originShow_fromLead F (ownOrigin F)]
    unfold State.rb
    rw [ht _ _ _ (by decide)]

/-- What a write of a word from SXT to SEC shows: each field by its access code, nothing else where it is not refused, and the
refused write otherwise. -/
theorem word_write_shows {a : Nat} (v cyc : Nat) (s : State) (h1 : 0x20000 ≤ a) (h2 : a < 0xC0000)
    (ho : ¬ (0x50010 ≤ a ∧ a ≤ 0x50028)) (hnd : ((wordFields a).map fieldKey).Nodup)
    (hkeys : ∀ p ∈ wordFields a, fieldKey p < 32 * a + 32) :
    let t := wordLeft a v cyc s
    (∀ p ∈ wordFields a, t.r p.1 p.2.1 p.2.2 = fieldAfter s v p)
      ∧ (writeRefused a v s = false → wordFields a ≠ [] → ¬ polarityWord a → RegsOnly ((wordFields a).map fieldKey) s t)
      ∧ (writeRefused a v s = true ∨ wordFields a = [] → RefusedShown s.onceTick a t) := by
  intro t
  obtain ⟨hone, hfields⟩ := wordWritten_fields v cyc s h1 h2 ho
  refine ⟨fun p hp => ?_, fun hr hne hp => ?_, fun hr => ?_⟩
  · have hk := hkeys p hp
    calc t.r p.1 p.2.1 p.2.2 = (wordWritten a v cyc s).r p.1 p.2.1 p.2.2 :=
          refusedIf_r _ a _ _ _ _ (show fieldKey p < _ by omega)
      _ = ((wordFields a).foldl (fieldWrite a v) s).r p.1 p.2.1 p.2.2 := hfields _ _ _ hk
      _ = fieldAfter s v p := foldl_fieldWrite_r a v (nsField_eq_false (by omega)) _ s hnd p hp
  · have ht : t = wordWritten a v cyc s := by
      simp only [t, wordLeft, hr, List.isEmpty_eq_false_iff.2 hne]
      rfl
    rw [ht]
    exact wordWritten_plain v cyc s h1 h2 ho hp
  · rw [← hone]
    exact refusedIf_shown (by rcases hr with hr | hr <;> simp [hr]) (by omega)

theorem registerWrite_dead (addr : Nat) (v : Word) (cyc : Nat) (s : State) (hh : s.held = false) (hd : s.mode = .dead) :
    exec (.registerWrite addr v cyc) s = .next s.start := by
  have hx : (s.start.atInst (some (cycU cyc))).mode = .dead := hd
  show withOutAt s (some (cycU cyc)) (hostWriteReg addr v cyc) = _
  rw [withOutAt_live _ _ _ hh, hostWriteReg, if_pos hx]
  rfl

/-- Settles O25: the fields of a word in turn, then what the write sets off, then the refused write. -/
theorem registerWritesActFieldByField : Obligations.register_writes_act_field_by_field := by
  unfold Obligations.register_writes_act_field_by_field
  intro s addr cyc v hh a origin polarity
  have haddr : addr / 4 * 4 = a := rfl
  clear_value a
  refine ⟨registerWrite_dead addr v cyc s hh, fun hd h1 h2 ho hnd hkeys => ?_, fun hm ho => ?_⟩
  · have hx := registerWrite_exec v cyc s haddr hh hd (by omega)
    have hw := word_write_shows v.toNat cyc (s.start.atInst (some (cycU cyc))) h1 h2 ho hnd hkeys
    generalize wordLeft a v.toNat cyc (s.start.atInst (some (cycU cyc))) = u at hx hw
    obtain ⟨hfields, hplain, hrefused⟩ := hw
    exact ⟨_, hx, hfields, fun hr hne hp => (hplain hr hne hp).frame, hrefused⟩
  · have hd : s.mode ≠ .dead := by rw [hm]; decide
    have ha : a < 0x1F0000 := lt_of_le_of_lt ho.2 (by decide)
    have hx := registerWrite_exec v cyc s haddr hh hd ha
    have hw := origin_write_shows v.toNat cyc (s.start.atInst (some (cycU cyc))) hm ho (haddr ▸ Nat.mul_mod_left _ _)
    generalize wordLeft a v.toNat cyc (s.start.atInst (some (cycU cyc))) = u at hx hw
    exact ⟨_, hx, hw⟩

end Sys2Proof.Machine

/-! PROOF. What a change of a rover shows in Chart (R197 to R200). -/

namespace Sys2Proof.Machine

open Sys2Proof

/-! ### Bits of an array of words -/

theorem bitAt_clrBit_mod (v i w : Nat) : bitAt (clrBit v i % 2 ^ w) i = false := by
  rw [bitAt_eq_testBit, Nat.testBit_mod_two_pow]
  have hc : (clrBit v i).testBit i = false := by
    unfold clrBit
    rw [bitAt_eq_testBit]
    split
    · rename_i hb
      have hge := Nat.ge_two_pow_of_testBit hb
      rw [show v = 2 ^ i + (v - 2 ^ i) by omega, Nat.testBit_two_pow_add_eq] at hb
      simpa using hb
    · rename_i hb
      simpa using hb
  rw [hc, Bool.and_false]

/-- A bit set or cleared in an array of words is read back. -/
theorem State.rbit_wbit_same (s : State) (f : Field) (b : Nat) (on : Bool) (hw : f.width = 32) :
    (s.wbit f b on).rbit f b = on := by
  have hb : b % 32 < 32 := Nat.mod_lt _ (by decide)
  unfold State.rbit State.wbit
  rw [State.r_w_same, hw]
  cases on with
  | false => exact bitAt_clrBit_mod _ _ _
  | true => exact (bitAt_setBit_mod _ _ _ _ hb).trans (by simp)

/-- A bit of an array reads as before where its word does. -/
theorem RegsKept.rbit {ks : List Nat} {s t : State} (g : RegsKept ks s t) (f : Field) (b : Nat) (h : f.key (b / 32) 0 ∉ ks) :
    t.rbit f b = s.rbit f b := by
  unfold State.rbit
  rw [g.r f _ _ h]

theorem RegsKept.of_regs {ks : List Nat} {s t : State} (h : t.regs = s.regs) : RegsKept ks s t := fun _ _ => by rw [h]

theorem not_evtKey {k : Nat} (h : k < 32 * 0xD0000) : k ∉ evtKeys := fun hm => by
  have : ∀ k ∈ evtKeys, 32 * 0xD0000 ≤ k := by decide
  exact absurd (this k hm) (by omega)

/-! ### What Chart shows of a rover -/

/-- The keys a change of what Chart holds of rover r is shown in. -/
def roverKeys (r : Nat) : List Nat :=
  [Reg.CHT_STATUS.LIVE_SEGS.key 0 0, Reg.CHT_ROVER.N_SEG.key r 0, Reg.CHT_ROVER.PENDING.key r 0,
    Reg.CHT_ROVER.STAGED.key r 0, Reg.CHT_STAGE.E.key r 0, Reg.CHT_STAGE.N.key r 0, Reg.CHT_STAGE.RADIUS_MM.key r 0]

/-- From s to t nothing changes but what Chart holds, the registers listed and the event machinery. -/
def ChartOnly (ks : List Nat) (s t : State) : Prop :=
  t = { s with
    regs := t.regs, free := t.free, onceTick := t.onceTick, cht := t.cht
    log := { s.log with queue := t.log.queue }
    hst := { s.hst with evq := t.hst.evq, evOvf := t.hst.evOvf }
    glt := { s.glt with evts := t.glt.evts } } ∧ RegsKept (ks ++ evtKeys) s t

theorem ChartOnly.rfl' (ks : List Nat) (s : State) : ChartOnly ks s s := ⟨rfl, .rfl' _ s⟩

theorem ChartOnly.trans {ks : List Nat} {s t u : State} (h : ChartOnly ks s t) (k : ChartOnly ks t u) : ChartOnly ks s u := by
  refine ⟨?_, h.2.trans k.2⟩
  have hk := k.1
  have hh := h.1
  rw [hk, hh]

theorem ChartOnly.mono {ks ls : List Nat} {s t : State} (h : ChartOnly ks s t) (hs : ∀ k ∈ ks, k ∈ ls) : ChartOnly ls s t :=
  ⟨h.1, h.2.mono fun k hk => (List.mem_append.1 hk).elim (fun a => List.mem_append_left _ (hs k a))
    (fun a => List.mem_append_right _ a)⟩

theorem ChartOnly.w {ks : List Nat} {s t : State} (g : ChartOnly ks s t) (f : Field) (v i j : Nat) (h : f.key i j ∈ ks) :
    ChartOnly ks s (t.w f v i j) := by
  refine ⟨?_, g.2.w f v i j (List.mem_append_left _ h)⟩
  have hg := g.1
  rw [hg]; rfl

theorem ChartOnly.setCht {ks : List Nat} {s t : State} (g : ChartOnly ks s t) (c : ChtState) :
    ChartOnly ks s { t with cht := c } := by
  refine ⟨?_, g.2⟩
  have hg := g.1
  rw [hg]

theorem raise_chartOnly (ks : List Nat) (s : State) (e d : Nat) (he : e < 512) : ChartOnly ks s (raise s e d) := by
  refine ⟨?_, fun k hk => raise_keys s e d k he fun h => hk (List.mem_append_right _ h)⟩
  have h := raise_evtOnly s e d
  unfold EvtOnly at h
  rw [h]

theorem raiseTick_chartOnly (ks : List Nat) (s : State) (e d : Nat) (he : e < 512) : ChartOnly ks s (raiseTick s e d) := by
  refine ⟨?_, fun k hk => raiseTick_keys s e d k he fun h => hk (List.mem_append_right _ h)⟩
  have h := raiseTick_evtOnly s e d
  unfold EvtOnly at h
  rw [h]

theorem ChartOnly.mode {ks : List Nat} {s t : State} (h : ChartOnly ks s t) : t.mode = s.mode := by rw [h.1]

theorem setChtRover_only (s : State) (r : Nat) (v : ChtRover) : ChartOnly (roverKeys r) s (setChtRover s r v) := by
  unfold setChtRover
  extract_lets cht0 held live s1 s2 s3 s4 s5 high s6 cht6
  have h0 : ChartOnly (roverKeys r) s held := (ChartOnly.rfl' _ s).setCht _
  have h4 : ChartOnly (roverKeys r) s s4 := (((h0.w _ _ _ _ (by simp [roverKeys])).w _ _ _ _ (by simp [roverKeys])).w
    _ _ _ _ (by simp [roverKeys])).w _ _ _ _ (by simp [roverKeys])
  have harea (e n w : Nat) : ChartOnly (roverKeys r) s
      (((s4.w Reg.CHT_STAGE.E e r).w Reg.CHT_STAGE.N n r).w Reg.CHT_STAGE.RADIUS_MM w r) :=
    ((h4.w _ _ _ _ (by simp [roverKeys])).w _ _ _ _ (by simp [roverKeys])).w _ _ _ _ (by simp [roverKeys])
  have h5 : ChartOnly (roverKeys r) s s5 := by
    unfold s5
    split <;> exact harea _ _ _
  have h6 : ChartOnly (roverKeys r) s s6 := by
    unfold s6
    split
    · exact h5.trans (raise_chartOnly _ s5 169 _ (by decide))
    · exact h5
  exact h6.setCht _

theorem chtRover_congr {s t : State} (h : t.cht.rovers = s.cht.rovers) (r : Nat) : chtRover t r = chtRover s r := by
  unfold chtRover
  rw [h]

/-- Chart holds of a rover what it was replaced with. -/
@[simp] theorem chtRover_setChtRover (s : State) (r : Nat) (v : ChtRover) : chtRover (setChtRover s r v) r = v := by
  unfold setChtRover
  extract_lets cht0 held live s1 s2 s3 s4 s5 high s6 cht6
  have h0 : chtRover held r = v := mget_mput_same _ _ _ _
  have h5 : s5.cht = held.cht := by
    unfold s5
    split <;> rfl
  have h6 : s6.cht = held.cht := by
    unfold s6
    split
    · rw [raise_cht, h5]
    · exact h5
  exact (chtRover_congr (congrArg ChtState.rovers h6) r).trans h0

/-! ### The corridor state and the grant generation -/

/-- The keys a grant to rover r writes beside its corridor state and permit. -/
def grantKeys (r : Nat) : List Nat := roverKeys r ++ [Reg.CHT_GRANT_GEN.GEN.key 0 0, Reg.CHT_ROVER.GEN_GRANTED.key r 0]

/-- The corridor state of rover r and its word of permits lie apart from what is shown of a rover, from the grant
generation and its copy, and from the event machinery. -/
theorem chtKeys_apart (r : Nat) (hr : r < 128) (k : Nat) (hk : k = Reg.CHT_ROVER.STATE.key r 0 ∨ k = Reg.CHT_PERMIT.PERMIT.key (r / 32) 0) :
    k ∉ grantKeys r ++ evtKeys := by
  have hlt : k < 32 * 0xD0000 := by
    rcases hk with rfl | rfl <;>
    · simp only [Field.key, Reg.CHT_ROVER.STATE, Reg.CHT_PERMIT.PERMIT, Field.idx, fld]
      omega
  rw [List.mem_append]
  rintro (hm | hm)
  · simp only [grantKeys, roverKeys, List.cons_append, List.nil_append, List.mem_cons, List.not_mem_nil, or_false, Field.key, Reg.CHT_STATUS.LIVE_SEGS,
      Reg.CHT_ROVER.N_SEG, Reg.CHT_ROVER.PENDING, Reg.CHT_ROVER.STAGED, Reg.CHT_STAGE.E, Reg.CHT_STAGE.N,
      Reg.CHT_STAGE.RADIUS_MM, Reg.CHT_GRANT_GEN.GEN, Reg.CHT_ROVER.GEN_GRANTED, Reg.CHT_ROVER.STATE,
      Reg.CHT_PERMIT.PERMIT, Field.idx, fld] at hk hm
    omega
  · exact not_evtKey hlt hm

theorem setChtSt_st (s : State) {r v : Nat} (_h : r < 128) (hv : v < 8) : chtSt (setChtSt s r v) r = v := by
  have hne : Reg.CHT_ROVER.STATE.key r 0 ≠ Reg.CHT_PERMIT.PERMIT.key (r / 32) 0 := by
    simp only [Field.key, Reg.CHT_ROVER.STATE, Reg.CHT_PERMIT.PERMIT, Field.idx, fld]
    omega
  unfold setChtSt chtSt State.wbit
  rw [State.r_w_ne _ _ _ _ _ _ _ _ hne, State.r_w_same]
  exact Nat.mod_eq_of_lt hv

/-- The permit of a rover is set in GRANTED alone. -/
theorem setChtSt_permit (s : State) (r v : Nat) : (setChtSt s r v).rbit Reg.CHT_PERMIT.PERMIT r = (v == 2) :=
  State.rbit_wbit_same _ _ _ _ rfl

theorem genAdvance_only (s : State) : ChartOnly [Reg.CHT_GRANT_GEN.GEN.key 0 0] s (genAdvance s) := by
  unfold genAdvance
  split
  · exact .rfl' _ s
  · exact ((ChartOnly.rfl' _ s).w _ _ _ _ (by simp)).setCht _

theorem genAdvance_rovers (s : State) : (genAdvance s).cht.rovers = s.cht.rovers := by
  unfold genAdvance
  split <;> rfl

/-! ### Grants (R4, R198) -/

/-- A decision is granted in a later tick, alone after the boundary of a claim, or acknowledged by a shadow in step. -/
theorem grantDue_iff (s : State) (t : Nat) : grantDue s t = true ↔ t < s.tick ∧ ((s.solo = true ∧ s.twn.claimLeft ≠ 2)
    ∨ (s.inSync = true ∧ t ≤ s.twn.ack1 ∧ t ≤ s.twn.ack8)) := by
  simp [grantDue, and_assoc]

/-- Which segments rover r holds, and what it has no longer reserved, once corridor p is granted. -/
theorem grantCorridor_rover (s : State) (r : Nat) (p : ChtPend) (tick : Nat) :
    (chtRover (grantCorridor s r p tick) r).pend = none
    ∧ (chtRover (grantCorridor s r p tick) r).stages = (chtRover s r).stages
    ∧ (p.mode ≠ 1 → (chtRover (grantCorridor s r p tick) r).segs.length = p.segs.length) := by
  unfold grantCorridor
  dsimp only
  rw [chtRover_congr (s := setChtRover (setChtSt s r 2) r _) (by
    rw [raiseTick_cht, complete_cht]; exact genAdvance_rovers _), chtRover_setChtRover]
  refine ⟨rfl, rfl, fun h => ?_⟩
  simp [h]

theorem genAdvance_grantKeys (s : State) (r : Nat) : ChartOnly (grantKeys r) s (genAdvance s) :=
  (genAdvance_only s).mono fun k hk => List.mem_append_right _ (by rw [List.mem_singleton.1 hk]; simp)

theorem setChtRover_grantKeys (s : State) (r : Nat) (v : ChtRover) : ChartOnly (grantKeys r) s (setChtRover s r v) :=
  (setChtRover_only s r v).mono fun _ hk => List.mem_append_left _ hk

/-- From the setting of GRANTED on, a grant writes what is shown of the rover and the grant generation. -/
theorem grantCorridor_kept (s : State) (r : Nat) (p : ChtPend) (tick : Nat) :
    RegsKept (grantKeys r ++ evtKeys) (setChtSt s r 2) (grantCorridor s r p tick) := by
  unfold grantCorridor
  extract_lets v segs s1 s2 s3 s4
  have h4 : ChartOnly (grantKeys r) s1 s4 := ((setChtRover_grantKeys s1 r _).trans (genAdvance_grantKeys s2 r)).w
    Reg.CHT_ROVER.GEN_GRANTED _ r 0 (by simp [grantKeys])
  have h5 : RegsKept (grantKeys r ++ evtKeys) s4 (complete s4 p.h stOk) := .of_regs (complete_regs s4 p.h stOk 0)
  exact (h4.2.trans h5).trans (raiseTick_chartOnly _ _ 160 r (by decide)).2

theorem grantCorridor_st (s : State) {r : Nat} (hr : r < 128) (p : ChtPend) (tick : Nat) :
    chtSt (grantCorridor s r p tick) r = 2 ∧ (grantCorridor s r p tick).rbit Reg.CHT_PERMIT.PERMIT r = true := by
  have hk := grantCorridor_kept s r p tick
  exact ⟨(hk.r _ _ _ (chtKeys_apart r hr _ (Or.inl rfl))).trans (setChtSt_st s hr (by decide)),
    (hk.rbit _ _ (chtKeys_apart r hr _ (Or.inr rfl))).trans (setChtSt_permit s r 2)⟩

/-- GEN_GRANTED shows the grant generation of the boundary. -/
theorem grantCorridor_gen (s : State) {r : Nat} (hr : r < 128) (p : ChtPend) (tick : Nat) :
    (grantCorridor s r p tick).r Reg.CHT_ROVER.GEN_GRANTED r
      = (grantCorridor s r p tick).r Reg.CHT_GRANT_GEN.GEN % 2 ^ Reg.CHT_ROVER.GEN_GRANTED.width := by
  have hne : Reg.CHT_GRANT_GEN.GEN.key 0 0 ≠ Reg.CHT_ROVER.GEN_GRANTED.key r 0 := by
    simp only [Field.key, Reg.CHT_GRANT_GEN.GEN, Reg.CHT_ROVER.GEN_GRANTED, Field.idx, fld]
    omega
  have hlt : Reg.CHT_ROVER.GEN_GRANTED.key r 0 < 32 * 0xD0000 := by
    simp only [Field.key, Reg.CHT_ROVER.GEN_GRANTED, Field.idx, fld]
    omega
  unfold grantCorridor
  extract_lets v segs s1 s2 s3 s4
  rw [raiseTick_field _ _ _ _ _ _ (by decide) (not_evtKey hlt), raiseTick_field _ _ _ _ _ _ (by decide) (not_evtKey (by decide)),
    complete_r, complete_r, State.r_w_ne _ _ _ _ _ _ _ _ hne]
  exact State.r_w_same _ _ _ _ _

/-- The reservation granted completes with OK. -/
theorem grantCorridor_done (s : State) (r : Nat) (p : ChtPend) (tick : Nat) (hd : s.mode ≠ .dead) (hs : s.mode ≠ .shadow) :
    Done (grantCorridor s r p tick) p.h stOk 0 := by
  unfold grantCorridor
  extract_lets v segs s1 s2 s3 s4
  have hm : s4.mode = s.mode := ((setChtRover_grantKeys s1 r _).trans (genAdvance_grantKeys s2 r)).mode
  unfold Done
  rw [raiseTick_hst_compl, complete_running s4 p.h stOk 0 (hm ▸ hd) (hm ▸ hs)]
  exact ⟨_, List.getLast?_concat⟩

end Sys2Proof.Machine

/-! PROOF. Grants, REST and freed segments (R4, R187, R198). -/

namespace Sys2Proof.Machine

open Sys2Proof

theorem leading_mode {s : State} (h : s.leading = true) : s.running = true ∧ s.mode ≠ .shadow ∧ s.mode ≠ .dead := by
  revert h
  unfold State.leading State.running
  cases s.mode <;> decide

/-- A tick-boundary command of Chart in a leading module. -/
theorem chart_exec {c : Instr} {s : State} {f : State → State} (hh : s.held = false) (hl : s.leading = true)
    (hc : exec c s = withBoundary s fun s => if s.running then f s else s) :
    exec c s = .next (((f (s.start.atInst (some 0))).requeue s.pending).atInst s.inst) := by
  have hr : (s.start.atInst (some 0)).running = true := (leading_mode hl).1
  rw [hc, withBoundary, withOutAt_live _ _ _ hh, if_pos hr]

theorem chtTell_regs (s : State) (r : Nat) (c : ChtChange) : (chtTell s r c).regs = s.regs := reflect_regs _ _
theorem chtTell_cht (s : State) (r : Nat) (c : ChtChange) : (chtTell s r c).cht = s.cht := reflect_cht _ _
theorem chtTell_hst (s : State) (r : Nat) (c : ChtChange) : (chtTell s r c).hst = s.hst := reflect_hst _ _

theorem chtGrantStages_nil {s : State} {r : Nat} (h : (chtRover s r).stages = []) : chtGrantStages r s = s := by
  unfold chtGrantStages
  rw [h]
  rfl

/-- A reserved corridor whose grant is not due waits. -/
theorem chtGrant_waits {s : State} {r : Nat} {p : ChtPend} (hp : (chtRover s r).pend = some p)
    (hs : (chtRover s r).stages = []) (hd : grantDue s p.tick = false) : chtGrant r s = s := by
  unfold chtGrant chtGrantCorridor
  simp only [hp, hd, Bool.and_false, Bool.false_eq_true, if_false]
  exact chtGrantStages_nil hs

/-- A reserved corridor whose grant is due comes in force. -/
theorem chtGrant_due {s : State} {r : Nat} {p : ChtPend} (hp : (chtRover s r).pend = some p)
    (hs : (chtRover s r).stages = []) (hl : s.leading = true) (hd : grantDue s p.tick = true) :
    chtGrant r s = chtTell (grantCorridor s r p s.tick) r .granted := by
  obtain ⟨_, hm, _⟩ := leading_mode hl
  unfold chtGrant chtGrantCorridor
  simp only [hp, hd, bne_iff_ne.2 hm, Bool.and_self, if_true]
  refine chtGrantStages_nil ?_
  rw [chtRover_congr (congrArg ChtState.rovers (chtTell_cht _ _ _)), (grantCorridor_rover s r p s.tick).2.1]
  exact hs

/-- A GRANTED corridor past its last containment window goes to REST, unless a grant may come in force there. -/
theorem corridorRest_due {s : State} {r : Nat} {g : ChtSeg} (hl : s.leading = true) (hg : (chtRover s r).cap = some g)
    (hst : chtSt s r = 2) (ht : g.tExit + timeMargin s < s.tick)
    (hp : (chtRover s r).pend = none ∨ (chtRover s r).release ≠ []) :
    corridorRest r s = chtTell (chtRest s r) r .rested := by
  have hgrant : (if (chtRover s r).release.isEmpty then chtGrantCorridor r s else s) = s := by
    rcases hp with hp | hp
    · unfold chtGrantCorridor
      simp only [hp, ite_self]
    · rw [if_neg (by simpa using hp)]
  have hdue : restDue s r = true := by simp [restDue, hst, hg, ht]
  unfold corridorRest
  dsimp only
  rw [hgrant, hdue, bne_iff_ne.2 (leading_mode hl).2.1]
  rfl

theorem chtRest_st (s : State) {r : Nat} (hr : r < 128) :
    chtSt (chtRest s r) r = 3 ∧ (chtRest s r).rbit Reg.CHT_PERMIT.PERMIT r = false := by
  have hk := ((genAdvance_grantKeys (setChtSt s r 3) r).trans (raiseTick_chartOnly _ _ 166 r (by decide))).2
  exact ⟨(hk.r _ _ _ (chtKeys_apart r hr _ (Or.inl rfl))).trans (setChtSt_st s hr (by decide)),
    (hk.rbit _ _ (chtKeys_apart r hr _ (Or.inr rfl))).trans (setChtSt_permit s r 3)⟩

/-- At a watch boundary the segments whose windows have ended are freed. -/
theorem segmentFreed_segs {s : State} {r : Nat} (hl : s.leading = true) (hpos : s.ttu.pos = 0) (hh : chtHeld s r = false) :
    (chtRover (segmentFreed r s) r).segs
      = (chtRover s r).segs.filter fun g => decide (s.tick ≤ g.tExit + 2 * timeMargin s + 1) := by
  have hfree : (chtRover (segsFree s.tick r s) r).segs
      = (chtRover s r).segs.filter fun g => decide (s.tick ≤ g.tExit + 2 * timeMargin s + 1) := by
    unfold segsFree
    dsimp only
    rw [chtRover_setChtRover]
  unfold segmentFreed
  rw [if_neg (by simp [hpos, hh, (leading_mode hl).2.1])]
  dsimp only
  split
  · rename_i heq
    rw [← hfree, heq]
  · rw [chtRover_congr (congrArg ChtState.rovers (chtTell_cht _ _ _))]
    exact hfree

theorem grantDue_eq_false {s : State} {t : Nat} (h : s.tick ≤ t ∨ ((s.solo = false ∨ s.twn.claimLeft = 2)
    ∧ (s.inSync = false ∨ s.twn.ack1 < t ∨ s.twn.ack8 < t))) : grantDue s t = false := by
  rw [Bool.eq_false_iff, Ne, grantDue_iff]
  rintro ⟨hlt, ⟨hsolo, hclaim⟩ | ⟨hsync, h1, h8⟩⟩
  · rcases h with h | ⟨h | h, _⟩
    · omega
    · rw [hsolo] at h; exact absurd h (by decide)
    · exact hclaim h
  · rcases h with h | ⟨_, h | h⟩
    · omega
    · rw [hsync] at h; exact absurd h (by decide)
    · omega

/-- What the register window and Chart show of a rover once its corridor has been granted. -/
theorem chtTell_grantCorridor (s : State) {r : Nat} (hr : r < 128) (p : ChtPend) (hl : s.leading = true) :
    let t := chtTell (grantCorridor s r p s.tick) r .granted
    chtSt t r = 2 ∧ t.rbit Reg.CHT_PERMIT.PERMIT r = true ∧ (chtRover t r).pend = none ∧ Done t p.h stOk 0
      ∧ t.r Reg.CHT_ROVER.GEN_GRANTED r = t.r Reg.CHT_GRANT_GEN.GEN % 2 ^ Reg.CHT_ROVER.GEN_GRANTED.width
      ∧ (p.mode ≠ 1 → (chtRover t r).segs.length = p.segs.length) := by
  obtain ⟨_, hs, hd⟩ := leading_mode hl
  obtain ⟨hst, hpermit⟩ := grantCorridor_st s hr p s.tick
  obtain ⟨hpend, _, hsegs⟩ := grantCorridor_rover s r p s.tick
  have hgen := grantCorridor_gen s hr p s.tick
  have hdone := grantCorridor_done s r p s.tick hd hs
  generalize grantCorridor s r p s.tick = u at *
  intro t
  have hk : RegsKept [] u t := .of_regs (chtTell_regs u r .granted)
  have hc : chtRover t r = chtRover u r := chtRover_congr (congrArg ChtState.rovers (chtTell_cht u r .granted)) r
  refine ⟨(hk.r _ _ _ List.not_mem_nil).trans hst, (hk.rbit _ _ List.not_mem_nil).trans hpermit, by rw [hc]; exact hpend, ?_, ?_,
    by rw [hc]; exact hsegs⟩
  · unfold Done
    rw [chtTell_hst]
    exact hdone
  · rw [hk.r _ _ _ List.not_mem_nil, hk.r _ _ _ List.not_mem_nil]
    exact hgen

/-- Settles O39: a grant is made where `grantDue` holds and is then shown; REST and the freeing of segments follow their windows. -/
theorem noCorridorIsGrantedBeforeItIsAcknowledged : Obligations.no_corridor_is_granted_before_it_is_acknowledged := by
  unfold Obligations.no_corridor_is_granted_before_it_is_acknowledged
  intro s r hh hl
  have hl0 : (s.start.atInst (some 0)).leading = true := hl
  refine ⟨fun p hp hs => ⟨fun hn => ?_, fun hlt hack => ?_⟩, fun g hg hst ht hp => ?_, fun hpos hheld => ?_⟩
  · rw [chart_exec hh hl rfl, chtGrant_waits (s := s.start.atInst (some 0)) hp hs (grantDue_eq_false hn)]
    rfl
  · have hd : grantDue (s.start.atInst (some 0)) p.tick = true := (grantDue_iff _ _).2 ⟨hlt, hack⟩
    have hx := chart_exec (c := .chtGrant r) (f := chtGrant r) hh hl rfl
    rw [chtGrant_due (s := s.start.atInst (some 0)) hp hs hl0 hd] at hx
    have ht := chtTell_grantCorridor (s.start.atInst (some 0)) r.isLt p hl0
    generalize chtTell (grantCorridor (s.start.atInst (some 0)) r p (s.start.atInst (some 0)).tick) r .granted = u at hx ht
    exact ⟨_, hx, ht⟩
  · have hx := chart_exec (c := .corridorRest r) (f := corridorRest r) hh hl rfl
    rw [corridorRest_due (s := s.start.atInst (some 0)) hl0 hg hst ht hp] at hx
    obtain ⟨h3, hperm⟩ := chtRest_st (s.start.atInst (some 0)) r.isLt
    generalize chtRest (s.start.atInst (some 0)) r = u at hx h3 hperm
    have hk : RegsKept [] u (chtTell u r .rested) := .of_regs (chtTell_regs u r .rested)
    exact ⟨_, hx, (hk.r _ _ _ List.not_mem_nil).trans h3, (hk.rbit _ _ List.not_mem_nil).trans hperm⟩
  · exact ⟨_, chart_exec (f := segmentFreed r) hh hl rfl, segmentFreed_segs (s := s.start.atInst (some 0)) hl0 hpos hheld⟩

end Sys2Proof.Machine

/-! PROOF. Ring commands as a running module takes them (R347, R349, R352). -/

namespace Sys2Proof.Machine

open Sys2Proof

/-! ### Hand-over -/

/-- The state in which a subsystem takes a ring command: nothing put out yet, the command's instant, and the stream with
the descriptor noted. -/
def handed (s : State) (i : Option Nat) (xs : List ReflEntry) (n : Nat) : State :=
  { s with out := [], inst := i, twn := { s.twn with items := xs, seq := n } }

@[simp] theorem handed_mode (s : State) (i : Option Nat) (xs : List ReflEntry) (n : Nat) : (handed s i xs n).mode = s.mode := rfl
@[simp] theorem handed_inSync (s : State) (i : Option Nat) (xs : List ReflEntry) (n : Nat) :
    (handed s i xs n).inSync = s.inSync := rfl
@[simp] theorem handed_r (s : State) (i : Option Nat) (xs : List ReflEntry) (n : Nat) (f : Field) (k l : Nat) :
    (handed s i xs n).r f k l = s.r f k l := rfl

/-- A ring command taken in MAINTENANCE, LEAD or HALT reaches its subsystem. -/
theorem ring_exec {c : Instr} {s : State} {h : Handle} {d : List Byte × BufIn} {body : State → State}
    (hc : exec c s = withOut s (ringOp anyRunMode h d body)) (ht : Taken anyRunMode s) :
    ∃ i xs n, exec c s = .next (((body (handed s i xs n)).requeue s.pending).atInst s.inst) := by
  rw [hc, ringOp_taken anyRunMode h d body s ht (by decide)]
  generalize handleSent (s.start.atInst none) h d.1 = k
  unfold reflect
  split
  · exact ⟨some (cycU h.cyc), s.twn.items ++ [{ seq := s.twn.seq, tick := s.tick, item := .desc k d.1 d.2 }], s.twn.seq + 1, rfl⟩
  · exact ⟨some (cycU h.cyc), s.twn.items, s.twn.seq, rfl⟩

/-- A module that takes commands is neither in SHADOW nor in DEAD. -/
theorem taken_mode {s : State} (ht : Taken anyRunMode s) : s.mode ≠ .shadow ∧ s.mode ≠ .dead := by
  obtain ⟨_, hm, _, _⟩ := ht
  revert hm
  cases s.mode <;> decide

/-! ### Completions and acceptance -/

theorem r_of_regs {s t : State} (h : t.regs = s.regs) (f : Field) (i j : Nat) : t.r f i j = s.r f i j := by
  unfold State.r
  rw [h]

/-- A completion is due with the tick of fetch, wherever it is made. -/
theorem posted_complete {s v : State} {h : Handle} {st d : Nat} (hs : v.mode ≠ .shadow) (hd : v.mode ≠ .dead)
    (hf : fetchTick v h = fetchTick s h) (hc : v.hst.compl = s.hst.compl) : Posted s (complete v h st d) h st d := by
  unfold Posted
  rw [complete_running v h st d hd hs, hf, hc]

/-- Which commands are outstanding follows from HST alone. -/
theorem Outstanding.of_hst {s t u : State} {h : Handle} (ho : Outstanding s u h) (he : t.hst = u.hst) :
    Outstanding s t h := by
  unfold Outstanding
  rw [he]; exact ho

/-- The tick of fetch of a command follows from the commands under way, TWN and the tick. -/
theorem fetchTick_congr {s t : State} (h : Handle) (hs : t.hst.started = s.hst.started) (hw : t.twn = s.twn)
    (ht : t.tick = s.tick) : fetchTick t h = fetchTick s h := by
  unfold fetchTick State.now
  rw [hs, hw, ht]

theorem fetchTick_raise (s : State) (e d : Nat) (h : Handle) : fetchTick (raise s e d) h = fetchTick s h :=
  fetchTick_congr h (raise_hst_started s e d) (raise_twn s e d) (raise_tick s e d)

theorem accept_compl (s : State) (h : Handle) : (accept s h).hst.compl = s.hst.compl := by
  unfold accept startAt
  split <;> rfl

theorem outstanding_accept {s v : State} {h : Handle} (hc : v.hst.compl = s.hst.compl) : Outstanding s (accept v h) h :=
  ⟨(accept_compl v h).trans hc, accept_started v h⟩

/-- The other module carries the command out: it is outstanding, and it is noted with the status of a lost pair. -/
theorem peerWait_waits {s v : State} {h : Handle} (st d : Nat) (hc : v.hst.compl = s.hst.compl) :
    Outstanding s (peerWait v h st d) h ∧ (peerWait v h st d).regs = v.regs ∧ (peerWait v h st d).svc = v.svc
      ∧ (peerWait v h st d).bt = v.bt ∧ (peerWait v h st d).twn.peerCmds = v.twn.peerCmds ++ [(h, st, d)] := by
  exact ⟨outstanding_accept hc, accept_regs v h, accept_svc v h, accept_bt v h, rfl⟩

/-- Completions due stay due while others follow. -/
theorem completeAll_compl (hs : List Handle) (st d : Nat) : ∀ s : State, s.mode ≠ .shadow → s.mode ≠ .dead →
    (∀ x ∈ s.hst.compl, x ∈ (completeAll s hs st d).hst.compl)
      ∧ ∀ h ∈ hs, ∃ x ∈ (completeAll s hs st d).hst.compl, x.h = h ∧ x.status = st ∧ x.detail = d := by
  unfold completeAll
  induction hs with
  | nil => intro s _ _; exact ⟨fun x hx => hx, fun h hh => absurd hh List.not_mem_nil⟩
  | cons h hs ih =>
    intro s hsh hd
    obtain ⟨hkeep, hnew⟩ := ih (complete s h st d) (by rwa [complete_mode]) (by rwa [complete_mode])
    have hc : (complete s h st d).hst.compl = s.hst.compl ++ [{ h := h, ftick := fetchTick s h, status := st, detail := d }] :=
      posted_complete hsh hd rfl rfl
    rw [List.foldl_cons]
    refine ⟨fun x hx => hkeep x (hc ▸ List.mem_append_left _ hx), fun k hk => ?_⟩
    rcases List.mem_cons.1 hk with rfl | hk
    · exact ⟨_, hkeep _ (hc ▸ List.mem_append_right _ (List.mem_singleton.2 rfl)), rfl, rfl, rfl⟩
    · exact hnew k hk

theorem completeAll_svc (hs : List Handle) (st d : Nat) (s : State) : (completeAll s hs st d).svc = s.svc := by
  unfold completeAll
  induction hs generalizing s with
  | nil => rfl
  | cons h hs ih => rw [List.foldl_cons, ih, complete_svc]

end Sys2Proof.Machine

/-! PROOF. SVC_UNIT: OUT, RETURN and RESTORE of units (R476, R477). -/

namespace Sys2Proof.Machine

open Sys2Proof

/-- The fields of an SVC_UNIT that no unit allows. -/
def UnitFieldsWrong (s : State) (c i m rsv : Nat) : Prop :=
  rsv ≠ 0 ∨ 6 < c ∨ classCount c ≤ i ∨ 1 < m ∨ (m = 1 ∧ s.inSync = false)

/-- SVC_UNIT was refused, and nothing beside its completion changed. -/
def UnitRefused (s : State) (h : Handle) (t : State) : Prop := Posted s t h stUnit 0 ∧ t.regs = s.regs ∧ t.svc = s.svc

/-- SVC_UNIT waits for the result of the peer. -/
def UnitAtPeer (s : State) (h : Handle) (t : State) : Prop :=
  Outstanding s t h ∧ t.regs = s.regs ∧ t.svc = s.svc ∧ t.twn.peerCmds = s.twn.peerCmds ++ [(h, stUnit, 0)]

theorem svcUnit_wrong {s : State} {h : Handle} {c i m rsv : Nat} {bad : State → Bool} {act : State → State}
    (hw : UnitFieldsWrong s c i m rsv) : svcUnit h c i m rsv bad act s = complete s h stUnit := by
  unfold svcUnit
  rw [if_pos (by simpa [UnitFieldsWrong, or_assoc] using hw)]

/-- With its fields in order, SVC_UNIT goes to the peer or to a unit of this module. -/
theorem svcUnit_right {s : State} {h : Handle} {c i m rsv : Nat} {bad : State → Bool} {act : State → State}
    (hw : ¬ UnitFieldsWrong s c i m rsv) (hs : s.mode ≠ .shadow) : svcUnit h c i m rsv bad act s
      = if m = 1 then peerWait s h stUnit 0 else if bad s then complete s h stUnit else act (accept s h) := by
  unfold svcUnit
  rw [if_neg (by simpa [UnitFieldsWrong, or_assoc] using hw)]
  simp [hs]

/-- What SVC_UNIT answers: a refusal, the wait for the peer, or its action on a unit of this module. -/
theorem svcUnit_answers {cmd : Instr} {s : State} {h : Handle} {d : List Byte × BufIn} {c i m rsv : Nat} {bad : State → Bool}
    {act : State → State} (hc : exec cmd s = withOut s (ringOp anyRunMode h d (svcUnit h c i m rsv bad act)))
    (ht : Taken anyRunMode s) (hb : ∀ j xs n, bad (handed s j xs n) = bad s) :
    (UnitFieldsWrong s c i m rsv ∨ (m = 0 ∧ bad s = true) → ∃ t, exec cmd s = .next t ∧ UnitRefused s h t)
    ∧ (¬ UnitFieldsWrong s c i m rsv → m = 1 → ∃ t, exec cmd s = .next t ∧ UnitAtPeer s h t)
    ∧ (¬ UnitFieldsWrong s c i m rsv → m = 0 → bad s = false →
      ∃ u, Outstanding s u h ∧ u.regs = s.regs ∧ u.svc = s.svc
        ∧ exec cmd s = .next (((act u).requeue s.pending).atInst s.inst)) := by
  obtain ⟨j, xs, n, hx⟩ := ring_exec hc ht
  obtain ⟨hs, hd⟩ := taken_mode ht
  have hu : UnitFieldsWrong (handed s j xs n) c i m rsv ↔ UnitFieldsWrong s c i m rsv := Iff.rfl
  have hrefused (he : svcUnit h c i m rsv bad act (handed s j xs n) = complete (handed s j xs n) h stUnit) :
      ∃ t, exec cmd s = .next t ∧ UnitRefused s h t := by
    have hr : UnitRefused s h (complete (handed s j xs n) h stUnit) :=
      ⟨posted_complete (v := handed s j xs n) hs hd rfl rfl, complete_regs _ h stUnit 0, complete_svc _ h stUnit 0⟩
    rw [he] at hx
    generalize complete (handed s j xs n) h stUnit = v at hx hr
    exact ⟨_, hx, hr⟩
  refine ⟨fun hw => ?_, fun hw hm => ?_, fun hw hm hbad => ?_⟩
  · by_cases hf : UnitFieldsWrong s c i m rsv
    · exact hrefused (svcUnit_wrong (hu.2 hf))
    · obtain ⟨hm, hbad⟩ := hw.resolve_left hf
      exact hrefused (by rw [svcUnit_right (mt hu.1 hf) hs, if_neg (by omega), hb, if_pos hbad])
  · rw [svcUnit_right (mt hu.1 hw) hs, if_pos hm] at hx
    obtain ⟨ho, hr, hv, _, hp⟩ := peerWait_waits (s := s) (v := handed s j xs n) (h := h) stUnit 0 rfl
    generalize peerWait (handed s j xs n) h stUnit 0 = v at hx ho hr hv hp
    exact ⟨_, hx, ho, hr, hv, hp⟩
  · rw [svcUnit_right (mt hu.1 hw) hs, if_neg (by omega), hb, hbad] at hx
    exact ⟨_, outstanding_accept (v := handed s j xs n) rfl, accept_regs _ h, accept_svc _ h, hx⟩

theorem unit_congr {s t : State} (h : t.svc.units = s.svc.units) (c i : Nat) : unit t c i = unit s c i := by
  unfold unit
  rw [h]

@[simp] theorem unit_setUnit (s : State) (c i : Nat) (u : UnitSt) : unit (setUnit s c i u) c i = u :=
  mget_mput_same _ _ _ _

@[simp] theorem unit_frame (s : State) (q : List Instr) (k : Option Nat) (c i : Nat) :
    unit ((s.requeue q).atInst k) c i = unit s c i := rfl

/-- OUT is noted in its unit and, for the next boundary, where its class keeps what goes out. -/
theorem svcOut_notes (s : State) (h : Handle) (c i : Nat) :
    (svcOut h c i s).hst = s.hst ∧ (svcOut h c i s).regs = s.regs
      ∧ unit (svcOut h c i s) c i = { unit s c i with outPend := (unit s c i).outPend ++ [h] } := by
  have hu : unit (svcOut h c i s) c i
      = unit (setUnit s c i { unit s c i with outPend := (unit s c i).outPend ++ [h] }) c i := by
    unfold svcOut
    split <;> rfl
  rw [hu, unit_setUnit]
  unfold svcOut
  split <;> exact ⟨rfl, rfl, rfl⟩

theorem svcUnitOut_answers {s : State} (h : Handle) (c i m rsv : Nat) (ht : Taken anyRunMode s) :
    let u := unit s c i
    (UnitFieldsWrong s c i m rsv ∨ (m = 0 ∧ (unitIsOut s c i || !unitCovered s c i) = true) →
      ∃ t, exec (.svcUnitOut h c i m rsv) s = .next t ∧ UnitRefused s h t)
    ∧ (¬ UnitFieldsWrong s c i m rsv → m = 1 → ∃ t, exec (.svcUnitOut h c i m rsv) s = .next t ∧ UnitAtPeer s h t)
    ∧ (¬ UnitFieldsWrong s c i m rsv → m = 0 → (unitIsOut s c i || !unitCovered s c i) = false →
      ∃ t, exec (.svcUnitOut h c i m rsv) s = .next t ∧ Outstanding s t h ∧ t.regs = s.regs
        ∧ unit t c i = { u with outPend := u.outPend ++ [h] }) := by
  have hb (j xs n) : (unitIsOut (handed s j xs n) c i || !unitCovered (handed s j xs n) c i)
      = (unitIsOut s c i || !unitCovered s c i) := rfl
  obtain ⟨hwrong, hpeer, hown⟩ := svcUnit_answers (cmd := .svcUnitOut h c i m rsv) rfl ht hb
  refine ⟨hwrong, hpeer, fun hw hm hbad => ?_⟩
  obtain ⟨v, ho, hr, hv, hx⟩ := hown hw hm hbad
  obtain ⟨hhst, hregs, hunit⟩ := svcOut_notes v h c i
  generalize svcOut h c i v = w at hx hhst hregs hunit
  rw [unit_congr (congrArg SvcState.units hv)] at hunit
  exact ⟨_, hx, ho.of_hst hhst, hregs.trans hr, hunit⟩

theorem svcUnitReturn_answers {s : State} (h : Handle) (c i m rsv : Nat) (ht : Taken anyRunMode s) :
    let u := unit s c i
    (UnitFieldsWrong s c i m rsv ∨ (m = 0 ∧ unitIsOut s c i = false) →
      ∃ t, exec (.svcUnitReturn h c i m rsv) s = .next t ∧ UnitRefused s h t)
    ∧ (¬ UnitFieldsWrong s c i m rsv → m = 1 → ∃ t, exec (.svcUnitReturn h c i m rsv) s = .next t ∧ UnitAtPeer s h t)
    ∧ (¬ UnitFieldsWrong s c i m rsv → m = 0 → unitIsOut s c i = true →
      ∃ t, exec (.svcUnitReturn h c i m rsv) s = .next t ∧ Outstanding s t h ∧ t.regs = s.regs
        ∧ unit t c i = { u with out := true, ret := u.ret ++ [h], passed := u.passed && u.ret != [] }) := by
  have hb (j xs n) : (!unitIsOut (handed s j xs n) c i) = !unitIsOut s c i := rfl
  obtain ⟨hwrong, hpeer, hown⟩ := svcUnit_answers (cmd := .svcUnitReturn h c i m rsv) rfl ht hb
  refine ⟨fun hw => hwrong (hw.imp_right fun hi => ⟨hi.1, by rw [hi.2]; rfl⟩), hpeer, fun hw hm hout => ?_⟩
  obtain ⟨v, ho, hr, hv, hx⟩ := hown hw hm (by rw [hout]; rfl)
  unfold svcReturn at hx
  rw [unit_congr (congrArg SvcState.units hv)] at hx
  exact ⟨_, hx, ho.of_hst rfl, hr, by rw [unit_frame, unit_setUnit]⟩

theorem svcUnitRestore_answers {s : State} (h : Handle) (c i m rsv : Nat) (ht : Taken anyRunMode s) :
    let bad := (c != 6 || i != 0 || (unit s 6 0).out || pathActive s 0)
    (UnitFieldsWrong s c i m rsv ∨ (m = 0 ∧ bad = true) →
      ∃ t, exec (.svcUnitRestore h c i m rsv) s = .next t ∧ UnitRefused s h t)
    ∧ (¬ UnitFieldsWrong s c i m rsv → m = 1 → ∃ t, exec (.svcUnitRestore h c i m rsv) s = .next t ∧ UnitAtPeer s h t)
    ∧ (¬ UnitFieldsWrong s c i m rsv → m = 0 → bad = false →
      ∃ t, exec (.svcUnitRestore h c i m rsv) s = .next t ∧ Outstanding s t h ∧ t.regs = s.regs
        ∧ t.svc = { s.svc with restore := s.svc.restore ++ [h] }) := by
  intro bad
  have hb (j xs n) : (c != 6 || i != 0 || (unit (handed s j xs n) 6 0).out || pathActive (handed s j xs n) 0) = bad := rfl
  obtain ⟨hwrong, hpeer, hown⟩ := svcUnit_answers (cmd := .svcUnitRestore h c i m rsv) rfl ht hb
  refine ⟨hwrong, hpeer, fun hw hm hbad => ?_⟩
  obtain ⟨v, ho, hr, hv, hx⟩ := hown hw hm hbad
  exact ⟨_, hx, ho.of_hst rfl, hr, congrArg (fun v : SvcState => { v with restore := v.restore ++ [h] }) hv⟩

end Sys2Proof.Machine

/-! PROOF. What Glint's drain changes in the background window (R421, R422, R428, R430). -/

namespace Sys2Proof.Machine

open Sys2Proof

/-- From s to t nothing changes but Glint, the event machinery and registers from the block of HST on. -/
def GlintOnly (s t : State) : Prop :=
  t = { s with
    regs := t.regs, free := t.free, onceTick := t.onceTick, onceWatch := t.onceWatch, glt := t.glt
    log := { s.log with queue := t.log.queue }
    hst := { s.hst with evq := t.hst.evq, evOvf := t.hst.evOvf } }
  ∧ ∀ k, k < 32 * 0xD0000 → mget 0 t.regs k = mget 0 s.regs k

theorem GlintOnly.rfl' (s : State) : GlintOnly s s := ⟨rfl, fun _ _ => rfl⟩

theorem GlintOnly.trans {s t u : State} (h : GlintOnly s t) (k : GlintOnly t u) : GlintOnly s u := by
  refine ⟨?_, fun i hi => (k.2 i hi).trans (h.2 i hi)⟩
  have hk := k.1
  have hh := h.1
  rw [hk, hh]

/-- A register field below the block of HST reads as before. -/
theorem GlintOnly.r {s t : State} (h : GlintOnly s t) (f : Field) (i j : Nat) (hk : f.key i j < 32 * 0xD0000) :
    t.r f i j = s.r f i j := by
  unfold State.r
  rw [h.2 _ hk]

theorem w_glintOnly (s : State) (f : Field) (v i j : Nat) (h : 0xD0000 ≤ f.off) : GlintOnly s (s.w f v i j) := by
  refine ⟨rfl, fun k hk => mget_mput_ne 0 s.regs _ fun e => ?_⟩
  unfold Field.key at e
  omega

theorem setGlt_glintOnly (s : State) (g : GltState) : GlintOnly s { s with glt := g } := ⟨rfl, fun _ _ => rfl⟩

theorem raise_glintOnly (s : State) (e d : Nat) (he : e < 512) : GlintOnly s (raise s e d) := by
  refine ⟨?_, fun k hk => raise_keys s e d k he (not_evtKey hk)⟩
  have h := raise_evtOnly s e d
  unfold EvtOnly at h
  rw [h]

theorem raiseWatch_glintOnly (s : State) (e d : Nat) (he : e < 512) : GlintOnly s (raiseWatch s e d) := by
  refine ⟨?_, fun k hk => raiseWatch_keys s e d k he (not_evtKey hk)⟩
  have h := raiseWatch_evtOnly s e d
  unfold EvtOnly at h
  rw [h]

theorem foldl_glintOnly {α : Type} (f : State → α → State) (h : ∀ s a, GlintOnly s (f s a)) (l : List α) :
    ∀ s : State, GlintOnly s (l.foldl f s) := by
  induction l with
  | nil => intro s; exact .rfl' s
  | cons a l ih => intro s; exact (h s a).trans (ih _)

theorem iter_glintOnly (f : Nat → State → State) (h : ∀ n s, GlintOnly s (f n s)) (n : Nat) :
    ∀ s : State, GlintOnly s (iter f n s) := by
  induction n with
  | zero => intro s; exact .rfl' s
  | succ n ih => intro s; exact (ih s).trans (h n _)

/-! ### Blocks -/

theorem setGltStream_glintOnly (s : State) (k : Nat) (v : GltStream) : GlintOnly s (setGltStream s k v) :=
  setGlt_glintOnly s _

theorem gltClose_glintOnly (s : State) (k : Nat) : GlintOnly s (gltClose s k) := by
  unfold gltClose
  dsimp only
  split
  · exact .rfl' s
  · exact (setGltStream_glintOnly s k _).trans (w_glintOnly _ _ _ _ _ (by decide))

theorem gltDrop_glintOnly (s : State) (k n : Nat) : GlintOnly s (gltDrop s k n) := by
  have h1 := setGltStream_glintOnly s k { gltStream s k with drop := (gltStream s k).drop + n }
  unfold gltDrop
  dsimp only
  refine (h1.trans ?_).trans (raiseWatch_glintOnly _ 499 _ (by decide))
  exact (setGlt_glintOnly _ _).trans (w_glintOnly _ Reg.GLT_STREAM.DROPPED _ k 0 (by decide))

/-- The mark of a stream that a new block passes is lost. -/
theorem markLost_glintOnly (s : State) (k : Nat) :
    GlintOnly s (raise ((s.wb Reg.GLT_STREAM.MARK_VALID false k).wb Reg.GLT_STREAM.MARK_LOST true k) 498 k) :=
  ((w_glintOnly s _ _ k 0 (by decide)).trans (w_glintOnly _ _ _ k 0 (by decide))).trans (raise_glintOnly _ 498 k (by decide))

theorem gltOpen_glintOnly {s t : State} {k : Nat} {c : GltChunk} (h : gltOpen s k c = some t) : GlintOnly s t := by
  unfold gltOpen at h
  dsimp only at h
  split at h
  · exact absurd h (by simp)
  · rw [← Option.some.inj h]
    refine GlintOnly.trans ?_ ((setGlt_glintOnly _ _).trans (setGltStream_glintOnly _ k _))
    split
    · exact markLost_glintOnly s k
    · exact .rfl' s

theorem gltPos_glintOnly (s : State) (k : Nat) (b : GltBlock) (c : GltChunk) (m : Nat) : GlintOnly s (gltPos s k b c m) :=
  setGlt_glintOnly s _

theorem gltWrite_glintOnly (k n : Nat) : ∀ (c : GltChunk) (s : State), GlintOnly s (gltWrite k n c s) := by
  induction n with
  | zero => intro c s; exact .rfl' s
  | succ n ih =>
    intro c s
    unfold gltWrite
    extract_lets total v s1 opened
    split
    · exact .rfl' s
    have h1 : GlintOnly s s1 := by
      unfold s1
      split
      · split
        · exact gltClose_glintOnly s k
        · exact .rfl' s
      · exact .rfl' s
    clear_value s1
    have hopen : ∀ u, opened = some u → GlintOnly s1 u := by
      intro u hu
      unfold opened at hu
      split at hu
      · rw [← Option.some.inj hu]; exact .rfl' s1
      · exact gltOpen_glintOnly hu
    clear_value opened
    cases opened with
    | none =>
      exact h1.trans ((w_glintOnly s1 Reg.GLT_STREAM.MARK_HELD _ k 0 (by decide)).trans (gltDrop_glintOnly _ k total))
    | some u =>
      have h2 := h1.trans (hopen u rfl)
      dsimp only
      split
      · exact h2
      · exact ((h2.trans (gltPos_glintOnly _ k _ c _)).trans ((setGltStream_glintOnly _ k _).trans
          (w_glintOnly _ Reg.GLT_STREAM.MARK_HELD _ k 0 (by decide)))).trans (ih _ _)

/-! ### Staging and drain -/

theorem stageIn_glintOnly (s : State) (k at_ ph decim size per : Nat) (data : List Byte) :
    GlintOnly s (stageIn s k at_ ph decim size per data) := by
  unfold stageIn
  extract_lets all step kept room keep lost skip c v s1 v1 s3
  have h1 : GlintOnly s s1 := by
    unfold s1
    split
    · exact .rfl' s
    · exact setGltStream_glintOnly s k _
  have h3 : GlintOnly s s3 := h1.trans (setGltStream_glintOnly s1 k _)
  split
  · exact h3
  · exact h3.trans (gltDrop_glintOnly s3 k lost)

theorem recordsIn_glintOnly (k size n : Nat) : ∀ (b : List Byte) (s : State), GlintOnly s (recordsIn k size n b s) := by
  induction n with
  | zero =>
    intro b s
    unfold recordsIn
    split
    · exact .rfl' s
    · exact gltDrop_glintOnly s k _
  | succ n ih =>
    intro b s
    unfold recordsIn
    split
    · exact .rfl' s
    · exact (stageIn_glintOnly s k _ _ _ _ _ _).trans (ih _ _)

theorem samplesIn_glintOnly (s : State) (x : GltIn) : GlintOnly s (samplesIn s x) := by
  unfold samplesIn
  dsimp only
  split
  · exact .rfl' s
  · split
    · exact .rfl' s
    · split
      · exact recordsIn_glintOnly _ _ _ _ s
      · exact stageIn_glintOnly s _ _ _ _ _ _ _

theorem eventsIn_glintOnly (k : Nat) (s : State) : GlintOnly s (eventsIn k s) := by
  unfold eventsIn
  split
  · exact foldl_glintOnly _ (fun s (e : Nat × List Byte) => stageIn_glintOnly s k e.1 0 0 16 0 e.2) _ s
  · exact .rfl' s

theorem drainStream_glintOnly (k n : Nat) : ∀ (m : Nat) (s : State), GlintOnly s (drainStream k n m s).2 := by
  induction n with
  | zero => intro m s; exact .rfl' s
  | succ n ih =>
    intro m s
    unfold drainStream
    dsimp only
    split
    · exact .rfl' s
    · split
      · exact .rfl' s
      · exact ((setGltStream_glintOnly s k _).trans (gltWrite_glintOnly k _ _ _)).trans (ih _ _)

theorem iter_drain_glintOnly (n : Nat) (p : Nat × State) :
    GlintOnly p.2 (iter (fun k (p : Nat × State) => drainStream k (p.1 + 1) p.1 p.2) n p).2 := by
  induction n with
  | zero => exact .rfl' p.2
  | succ n ih => exact ih.trans (drainStream_glintOnly n _ _ _)

theorem markLevel_glintOnly (s : State) (k : Nat) : GlintOnly s (markLevel s k) := by
  unfold markLevel
  dsimp only
  split
  · split
    · exact .rfl' s
    · exact setGltStream_glintOnly s k _
  · split
    · exact setGltStream_glintOnly s k _
    · split
      · exact setGltStream_glintOnly s k _
      · exact .rfl' s

/-- Glint's part of the background window. -/
theorem gltWindow_glintOnly (xs : List GltIn) (s : State) : GlintOnly s (gltWindow xs s) := by
  unfold gltWindow
  split
  · exact setGlt_glintOnly s _
  · extract_lets s1 s2 g s3
    have h1 : GlintOnly s s1 := foldl_glintOnly _ samplesIn_glintOnly xs s
    have h2 : GlintOnly s s2 := h1.trans (iter_glintOnly _ eventsIn_glintOnly 8 s1)
    have h3 : GlintOnly s s3 := h2.trans (setGlt_glintOnly s2 _)
    have h4 := h3.trans (iter_drain_glintOnly 8 (shareBytes s3, s3))
    generalize iter _ 8 (shareBytes s3, s3) = p at h4 ⊢
    refine h4.trans (iter_glintOnly _ (fun k t => ?_) 8 p.2)
    split
    · exact markLevel_glintOnly t k
    · exact .rfl' t

end Sys2Proof.Machine

/-! PROOF. Entry into DEAD, and the background window (R27, R44, R45, R280, R321, R496). -/

namespace Sys2Proof.Machine

open Sys2Proof

/-! ### Entry into DEAD (R496) -/

/-- From s to t the mode, what BOOT holds and the drivers energised stay. -/
def DriversKept (s t : State) : Prop :=
  t.mode = s.mode ∧ t.bt = s.bt ∧ t.r Reg.STP_STATE.OUT_ON = s.r Reg.STP_STATE.OUT_ON

theorem DriversKept.rfl' (s : State) : DriversKept s s := ⟨rfl, rfl, rfl⟩

theorem DriversKept.trans {s t u : State} (h : DriversKept s t) (k : DriversKept t u) : DriversKept s u :=
  ⟨k.1.trans h.1, k.2.1.trans h.2.1, k.2.2.trans h.2.2⟩

theorem w_driversKept (s : State) (f : Field) (v i j : Nat) (h : Reg.STP_STATE.OUT_ON.key 0 0 ≠ f.key i j) :
    DriversKept s (s.w f v i j) := ⟨rfl, rfl, State.r_w_ne _ _ _ _ _ _ _ _ h⟩

theorem iter_driversKept (f : Nat → State → State) (n : Nat) (s : State) (h : ∀ k < n, ∀ t, DriversKept t (f k t)) :
    DriversKept s (iter f n s) := by
  induction n with
  | zero => exact .rfl' s
  | succ n ih => exact (ih fun k hk => h k (by omega)).trans (h n (by omega) _)

theorem bridgesDark_driversKept (s : State) : DriversKept s (bridgesDark s) := by
  refine iter_driversKept _ 4 s fun n hn t => ?_
  have hp (c : PosState) : DriversKept t { t with pos := c } := ⟨rfl, rfl, rfl⟩
  have hs (u : State) (v : Nat) : DriversKept u (u.w Reg.POS_CH.STATE v n) := w_driversKept u _ v n 0 (by
    simp only [Field.key, Reg.POS_CH.STATE, Reg.STP_STATE.OUT_ON, Field.idx, fld]; omega)
  have he (u : State) (v : Nat) : DriversKept u (u.w Reg.POS_CH.ENC_COVER v n) := w_driversKept u _ v n 0 (by
    simp only [Field.key, Reg.POS_CH.ENC_COVER, Reg.STP_STATE.OUT_ON, Field.idx, fld]; omega)
  exact (hp _).trans ((hs _ _).trans (he _ _))

theorem mget_filter (p : Nat → Bool) (m : List (Nat × Nat)) {k : Nat} (h : p k = true) :
    mget 0 (m.filter fun x => p x.1) k = mget 0 m k := by
  induction m with
  | nil => rfl
  | cons x m ih =>
    obtain ⟨j, v⟩ := x
    cases hj : p j with
    | true => simp [hj, mget, ih]
    | false =>
      have hne : j ≠ k := fun e => by rw [← e, hj] at h; exact absurd h (by decide)
      simp [hj, mget, ih, hne]

/-- Sextant stopping its slot clears the states of its channels alone. -/
theorem sxtRun_driversKept (s : State) (h : s.slots = false) : DriversKept s (sxtRun s) := by
  unfold sxtRun
  split
  · exact .rfl' s
  · rw [if_neg (by rw [h]; decide)]
    refine ⟨rfl, rfl, ?_⟩
    unfold State.r
    rw [mget_filter (fun k => !chStateKey k) s.regs (by decide)]

/-- DEAD is entered with no engine running and without BOOT_MODE_CHANGE. -/
theorem enterMode_dead (s : State) (h : s.mode ≠ .dead) : DriversKept { s with mode := .dead } (enterMode s .dead) := by
  unfold enterMode
  rw [if_neg h]
  extract_lets s1 t s2 s3 s4 s5
  have h1 : DriversKept { s with mode := .dead } s1 :=
    (w_driversKept _ _ _ 0 0 (by decide)).trans (sxtRun_driversKept _ rfl)
  have h4 : DriversKept { s with mode := .dead } s4 :=
    (DriversKept.trans (t := s2) h1 (w_driversKept s2 Reg.STP_STATE.HALT _ 0 0 (by decide))).trans
      (w_driversKept s3 Reg.TWN_STATUS.ROLE _ 0 0 (by decide))
  have hr : s4.running = false := by
    unfold State.running
    rw [h4.1]
    rfl
  have h5 : s5 = s4 := if_neg (by rw [hr]; decide)
  rw [if_pos (Or.inr rfl), h5]
  exact h4

theorem ethDown_mode (s : State) : (ethDown s).mode = s.mode := by
  simp only [ethDown, iter, State.w_mode, State.wb_mode]

/-- A module that enters DEAD shows the cause given and energises no STOP_OUT. -/
theorem enterDead_shows (s : State) (cause source : Nat) (h : s.mode ≠ .dead) : (enterDead s cause source).mode = .dead
    ∧ (enterDead s cause source).bt.cause = cause ∧ (enterDead s cause source).r Reg.STP_STATE.OUT_ON = 0 := by
  unfold enterDead
  rw [if_neg (by simpa using h)]
  extract_lets s1 data s2 b s3 s4 s5 s6 s7
  have h1 : s1.mode = s.mode := ethDown_mode s
  clear_value s1
  have h2 : s2.mode = s.mode := (logNow_mode s1 .fault source data).trans h1
  clear_value s2
  have hm : s5.mode ≠ .dead := fun hd => h (h2.symm.trans hd)
  have hc : s5.bt.cause = cause := rfl
  have h4 : s4.r Reg.STP_STATE.OUT_ON = 0 := State.r_w_same s3 Reg.STP_STATE.OUT_ON 0 0 0
  have ho : s5.r Reg.STP_STATE.OUT_ON = 0 := (r_of_regs (s := s4) rfl _ _ _).trans h4
  clear_value s5
  have h6 : DriversKept { s5 with mode := .dead } s6 := (enterMode_dead s5 hm).trans (bridgesDark_driversKept _)
  clear_value s6
  obtain ⟨hmode, hbt, hr⟩ := h6
  have h7 : s7.r Reg.STP_STATE.OUT_ON = s6.r Reg.STP_STATE.OUT_ON := State.r_w_ne s6 _ _ _ 0 0 0 0 (by decide)
  exact ⟨hmode, (congrArg BootState.cause hbt).trans hc, h7.trans (hr.trans ho)⟩

/-! ### The window (R44, R45) -/

/-- A field beside MAX_USE reads as before a use of a slot is measured. -/
theorem slotUsed_r (s : State) (e held : Nat) (f : Field) (h : f.key 0 0 ≠ Reg.TTU_SLOT_USE.MAX_USE.key e 0) :
    (slotUsed s e held).r f = s.r f := by
  unfold slotUsed
  dsimp only
  split
  · exact State.r_w_ne _ _ _ _ _ _ _ _ h
  · rfl

theorem overrun_r (s : State) (e : Nat) (f : Field) (ho : f.key 0 0 ≠ Reg.TTU_BUDGET_STATUS.OVR.key 0 0)
    (hc : f.key 0 0 ≠ Reg.TTU_SLOT_OVR.OVR_COUNT.key e 0) (hv : f.key 0 0 ∉ evtKeys) : (overrun s e).r f = s.r f := by
  unfold overrun
  extract_lets new s1 v s2 key n s3
  have h2 : s2.r f = s.r f := State.r_w_ne s _ _ _ _ _ _ _ ho
  have h3 : s3.r f = s2.r f := by
    unfold s3
    split
    · rfl
    · exact State.r_w_ne s2 _ _ _ _ _ _ _ hc
  split
  · exact (raise_field _ _ _ _ _ _ (by decide) hv).trans (h3.trans h2)
  · exact h3.trans h2

/-- From s to t the mode, LUV and TWN stay. -/
def ModeAirPairKept (s t : State) : Prop := t.mode = s.mode ∧ t.luv = s.luv ∧ t.twn = s.twn

theorem ModeAirPairKept.trans {s t u : State} (h : ModeAirPairKept s t) (k : ModeAirPairKept t u) : ModeAirPairKept s u :=
  ⟨k.1.trans h.1, k.2.1.trans h.2.1, k.2.2.trans h.2.2⟩

theorem raise_modeAirPair (s : State) (e d : Nat) : ModeAirPairKept s (raise s e d) :=
  ⟨raise_mode s e d, raise_luv s e d, raise_twn s e d⟩

theorem GlintOnly.modeAirPair {s t : State} (h : GlintOnly s t) : ModeAirPairKept s t := by
  obtain ⟨h, _⟩ := h
  exact ⟨by rw [h], by rw [h], by rw [h]⟩

theorem slotUsed_modeAirPair (s : State) (e held : Nat) : ModeAirPairKept s (slotUsed s e held) := by
  unfold slotUsed
  dsimp only
  split <;> exact ⟨rfl, rfl, rfl⟩

theorem overrun_modeAirPair (s : State) (e : Nat) : ModeAirPairKept s (overrun s e) := by
  unfold overrun
  extract_lets new s1 v s2 key n s3
  have h3 : ModeAirPairKept s s3 := by
    unfold s3
    split <;> exact ⟨rfl, rfl, rfl⟩
  split
  · exact h3.trans (raise_modeAirPair s3 1 _)
  · exact h3

theorem bgUsed_modeAirPair (s : State) (w : BgIn) : ModeAirPairKept s (bgUsed s w) := by
  unfold bgUsed
  extract_lets s1 s2 s3 n s4 v s5
  have h1 : ModeAirPairKept s s1 := slotUsed_modeAirPair s 12 _
  have h2 : ModeAirPairKept s s2 := by
    unfold s2
    split
    · exact h1.trans (overrun_modeAirPair s1 12)
    · exact h1
  have h5 : ModeAirPairKept s s5 := h2.trans ⟨rfl, rfl, rfl⟩
  split
  · exact h5.trans (raise_modeAirPair s5 3 _)
  · exact h5

/-- What the end of a background window shows: the time used and the ticks in a row that ended with work pending. -/
theorem bgUsed_shows (s : State) (w : BgIn) :
    (bgUsed s w).r Reg.TTU_BG_USED.USED_US = min w.usedUs 127
    ∧ (bgUsed s w).r Reg.TTU_BG_USED.BACKLOG_TICKS
      = (if w.pending then min 65535 (s.r Reg.TTU_BG_USED.BACKLOG_TICKS + 1) else 0) := by
  unfold bgUsed
  extract_lets s1 s2 s3 n s4 v s5
  have h2 : s2.r Reg.TTU_BG_USED.BACKLOG_TICKS = s.r Reg.TTU_BG_USED.BACKLOG_TICKS := by
    have h1 := slotUsed_r s 12 (10 * w.usedUs) Reg.TTU_BG_USED.BACKLOG_TICKS (by decide)
    unfold s2
    split
    · exact (overrun_r s1 12 _ (by decide) (by decide) (not_evtKey (by decide))).trans h1
    · exact h1
  have hn : n = if w.pending then min 65535 (s.r Reg.TTU_BG_USED.BACKLOG_TICKS + 1) else 0 := by
    rw [← h2, ← State.r_w_ne s2 Reg.TTU_BG_USED.USED_US Reg.TTU_BG_USED.BACKLOG_TICKS (min w.usedUs 127) 0 0 0 0 (by decide)]
  have hlt : n < 2 ^ 16 := by
    rw [hn]
    split <;> omega
  have hu : s5.r Reg.TTU_BG_USED.USED_US = min w.usedUs 127 := by
    have h4 : s4.r Reg.TTU_BG_USED.USED_US = s3.r Reg.TTU_BG_USED.USED_US := State.r_w_ne s3 _ _ _ 0 0 0 0 (by decide)
    have h3 : s3.r Reg.TTU_BG_USED.USED_US = min w.usedUs 127 % 2 ^ 7 := State.r_w_same s2 _ _ 0 0
    exact h4.trans (h3.trans (Nat.mod_eq_of_lt (by omega)))
  have hb : s5.r Reg.TTU_BG_USED.BACKLOG_TICKS = n :=
    (State.r_w_same s3 Reg.TTU_BG_USED.BACKLOG_TICKS n 0 0).trans (Nat.mod_eq_of_lt hlt)
  rw [← hn]
  clear_value s5
  split
  · exact ⟨(raise_field _ _ _ _ _ _ (by decide) (not_evtKey (by decide))).trans hu,
      (raise_field _ _ _ _ _ _ (by decide) (not_evtKey (by decide))).trans hb⟩
  · exact ⟨hu, hb⟩

/-- The tables due for flash are stored where a spare block is left, and nothing else of them changes. -/
def bgStored (s : State) : State :=
  if flashSpare s then
    let s := luvStore (ephSecond s)
    { s with twn := { s.twn with flashEpoch := s.r Reg.TWN_EPOCHS.STORED_EPOCH } }
  else s

theorem bgStored_shows (s : State) : (bgStored s).mode = s.mode ∧ (bgStored s).regs = s.regs
    ∧ (flashSpare s = true → (bgStored s).luv.dirty = false ∧ (bgStored s).twn.flashEpoch = s.r Reg.TWN_EPOCHS.STORED_EPOCH) := by
  unfold bgStored
  by_cases hf : flashSpare s = true
  · rw [if_pos hf]
    have he : (ephSecond s).mode = s.mode ∧ (ephSecond s).regs = s.regs := ⟨rfl, rfl⟩
    have hspare : flashSpare (ephSecond s) = true := hf
    generalize ephSecond s = u at he hspare
    have hl : (luvStore u).mode = u.mode ∧ (luvStore u).regs = u.regs ∧ (luvStore u).luv.dirty = false := by
      unfold luvStore
      cases hd : u.luv.dirty with
      | true => rw [hspare]; exact ⟨rfl, rfl, rfl⟩
      | false => exact ⟨rfl, rfl, hd⟩
    obtain ⟨hm, hr, hd⟩ := hl
    exact ⟨hm.trans he.1, hr.trans he.2, fun _ => ⟨hd, r_of_regs (hr.trans he.2) _ _ _⟩⟩
  · rw [if_neg hf]
    exact ⟨rfl, rfl, fun h => absurd h hf⟩

/-- A window without work to do drains Glint and stores what is due. -/
theorem bgWindow_idle (w : BgIn) (s : State) (hb : s.mode ≠ .boot) (hd : s.mode ≠ .dead) (hp : s.paused = false)
    (hw : w.work = []) : bgWindow w s = bgUsed (gltWindow w.glt (bgStored s)) w := by
  unfold bgWindow bgStored
  simp [hb, hd, hp, hw]

/-- A fatal word leaves the module in DEAD with cause 0x04, and the window ends with it. -/
theorem bgWindow_fatal (w : BgIn) (s : State) (hb : s.mode ≠ .boot) (hd : s.mode ≠ .dead) (hp : s.paused = false)
    (m : Fin 8) (chart : Bool) (hw : w.work = [.uncorrectable m none (.fatal chart)]) :
    (bgWindow w s).mode = .dead ∧ (bgWindow w s).bt.cause = 4 ∧ (bgWindow w s).r Reg.STP_STATE.OUT_ON = 0 := by
  have hdead : (eccLost s m none (.fatal chart)).mode = .dead ∧ (eccLost s m none (.fatal chart)).bt.cause = 4
      ∧ (eccLost s m none (.fatal chart)).r Reg.STP_STATE.OUT_ON = 0 := enterDead_shows _ 4 _ hd
  have hx : bgWindow w s = eccLost s m none (.fatal chart) := by
    unfold bgWindow
    simp [hb, hd, hp, hw, bgWork, hdead.1]
  rwa [hx]

theorem backgroundWindow_answers (s : State) (w : BgIn) :
    (s.held = false → s.mode = .boot ∨ s.mode = .dead ∨ s.paused = true → exec (.backgroundWindow w) s = .next s.start)
    ∧ (Awake s → s.paused = false →
      (w.work = [] → ∃ t, exec (.backgroundWindow w) s = .next t ∧ t.r Reg.TTU_BG_USED.USED_US = min w.usedUs 127
        ∧ t.r Reg.TTU_BG_USED.BACKLOG_TICKS = (if w.pending then min 65535 (s.r Reg.TTU_BG_USED.BACKLOG_TICKS + 1) else 0)
        ∧ t.mode = s.mode
        ∧ (flashSpare s = true → t.luv.dirty = false ∧ t.twn.flashEpoch = s.r Reg.TWN_EPOCHS.STORED_EPOCH))
      ∧ ∀ (m : Fin 8) (chart : Bool), w.work = [.uncorrectable m none (.fatal chart)] →
        ∃ t, exec (.backgroundWindow w) s = .next t ∧ t.mode = .dead ∧ t.bt.cause = 4 ∧ t.r Reg.STP_STATE.OUT_ON = 0) := by
  have hexec (hh : s.held = false) :
      exec (.backgroundWindow w) s = .next (((bgWindow w (s.start.atInst none)).requeue s.pending).atInst s.inst) :=
    withOut_live s (bgWindow w) hh
  refine ⟨fun hh hm => ?_, fun ⟨hh, hb, hd⟩ hp => ⟨fun hw => ?_, fun m chart hw => ?_⟩⟩
  · have hx : bgWindow w (s.start.atInst none) = s.start.atInst none := by
      unfold bgWindow
      have hp : (s.start.atInst none).paused = s.paused := rfl
      rw [if_pos (by simpa [hp, or_assoc] using hm)]
    rw [hexec hh, hx]
    rfl
  · have hx := bgWindow_idle w (s.start.atInst none) hb hd hp hw
    obtain ⟨hm, hr, hs⟩ := bgStored_shows (s.start.atInst none)
    generalize bgStored (s.start.atInst none) = u at hx hm hr hs
    have hg := gltWindow_glintOnly w.glt u
    generalize gltWindow w.glt u = g at hx hg
    have hback : g.r Reg.TTU_BG_USED.BACKLOG_TICKS = s.r Reg.TTU_BG_USED.BACKLOG_TICKS :=
      (hg.r _ _ _ (by decide)).trans (r_of_regs hr _ _ _)
    obtain ⟨hused, hbl⟩ := bgUsed_shows g w
    obtain ⟨hmode, hluv, htwn⟩ := hg.modeAirPair.trans (bgUsed_modeAirPair g w)
    rw [hback] at hbl
    have hx' := hexec hh
    rw [hx] at hx'
    generalize bgUsed g w = v at hx' hused hbl hmode hluv htwn
    exact ⟨_, hx', hused, hbl, hmode.trans hm, fun hf => ⟨(congrArg LuvState.dirty hluv).trans (hs hf).1,
      (congrArg TwnState.flashEpoch htwn).trans (hs hf).2⟩⟩
  · have hx := hexec hh
    have hf := bgWindow_fatal w (s.start.atInst none) hb hd hp m chart hw
    generalize bgWindow w (s.start.atInst none) = v at hx hf
    exact ⟨_, hx, hf⟩

end Sys2Proof.Machine

/-! PROOF. Late scrub passes, stale calibrations, self-tests, stop paths and telemetry (R470, R472, R475 to R478). -/

namespace Sys2Proof.Machine

open Sys2Proof

/-- A bit set in a field as wide as the word it stands in is read back. -/
theorem bitAt_wset (s : State) (f : Field) (b i : Nat) (hb : b < f.width) : bitAt ((s.wset f b true i).r f i) b = true := by
  unfold State.wset
  rw [State.r_w_same, if_pos rfl, bitAt_setBit_mod _ _ _ _ hb]
  simp

/-! ### Late passes and calibrations -/

/-- A late scrub pass sets its bit and raises SVC_SCRUB_LATE. -/
theorem scrubLate_shows (s : State) (m : Nat) (hm : m < 8) :
    let t := raise ({ s with svc := { s.svc with late := s.svc.late ++ [m] } }.wset Reg.SVC_STATUS.SCRUB_LATE m true) 480 m
    bitAt (t.r Reg.SVC_STATUS.SCRUB_LATE) m = true ∧ pending t 480 = true
      ∧ t.svc = { s.svc with late := s.svc.late ++ [m] }
      ∧ RegsKept (Reg.SVC_STATUS.SCRUB_LATE.key 0 0 :: evtKeys) s t := by
  have hset := bitAt_wset { s with svc := { s.svc with late := s.svc.late ++ [m] } } Reg.SVC_STATUS.SCRUB_LATE m 0 hm
  have hkept : RegsKept (Reg.SVC_STATUS.SCRUB_LATE.key 0 0 :: evtKeys) s
      ({ s with svc := { s.svc with late := s.svc.late ++ [m] } }.wset Reg.SVC_STATUS.SCRUB_LATE m true) :=
    RegsKept.w (.of_regs rfl) _ _ 0 0 (by simp)
  have hsvc : ({ s with svc := { s.svc with late := s.svc.late ++ [m] } }.wset Reg.SVC_STATUS.SCRUB_LATE m true).svc
      = { s.svc with late := s.svc.late ++ [m] } := rfl
  generalize { s with svc := { s.svc with late := s.svc.late ++ [m] } }.wset Reg.SVC_STATUS.SCRUB_LATE m true = u
    at hset hkept hsvc
  refine ⟨?_, raise_sets_pending u 480 m (by decide), (raise_svc u 480 m).trans hsvc, hkept.trans fun k hk => ?_⟩
  · rw [raise_field u 480 m _ _ _ (by decide) (by decide)]
    exact hset
  · exact raise_keys u 480 m k (by decide) fun h => hk (List.mem_cons_of_mem _ h)

theorem scrubLate_answers {s : State} (ha : Awake s) (m : Fin 8) :
    (scrubDue s m = true → ∃ t, exec (.scrubLate m) s = .next t ∧ bitAt (t.r Reg.SVC_STATUS.SCRUB_LATE) m = true
      ∧ pending t 480 = true ∧ t.svc = { s.svc with late := s.svc.late ++ [m.val] }
      ∧ RegsKept (Reg.SVC_STATUS.SCRUB_LATE.key 0 0 :: evtKeys) s t)
    ∧ (scrubDue s m = false → exec (.scrubLate m) s = .next s.start) := by
  have hx : exec (.scrubLate m) s = _ := awake_exec (scrubLate m) s ha
  have hdue : scrubDue (s.start.atInst none) m = scrubDue s m := rfl
  unfold scrubLate at hx
  rw [hdue] at hx
  refine ⟨fun h => ?_, fun h => ?_⟩
  · rw [if_pos h] at hx
    have hs := scrubLate_shows (s.start.atInst none) m m.isLt
    generalize raise _ 480 m = v at hx hs
    exact ⟨_, hx, hs⟩
  · rw [h] at hx
    exact hx

/-- A stale calibration sets its bit and raises SVC_CAL_STALE. -/
theorem calStale_shows (s : State) (k : Nat) (hk : k < 4) :
    let t := raise (s.wset Reg.SVC_STATUS.CAL_STALE k true) 481
    bitAt (t.r Reg.SVC_STATUS.CAL_STALE) k = true ∧ pending t 481 = true
      ∧ EventsOnly [Reg.SVC_STATUS.CAL_STALE.key 0 0] s t := by
  have hset := bitAt_wset s Reg.SVC_STATUS.CAL_STALE k 0 hk
  have honly : EventsOnly [Reg.SVC_STATUS.CAL_STALE.key 0 0] s (s.wset Reg.SVC_STATUS.CAL_STALE k true) :=
    (EventsOnly.rfl' _ s).w _ _ 0 0 (by simp)
  generalize s.wset Reg.SVC_STATUS.CAL_STALE k true = u at hset honly
  refine ⟨?_, raise_sets_pending u 481 _ (by decide), honly.trans (raise_eventsOnly _ u 481 _ (by decide))⟩
  rw [raise_field u 481 _ _ _ _ (by decide) (by decide)]
  exact hset

theorem calStale_answers {s : State} (ha : Awake s) (k : Fin 4) :
    let due := (calUnits s k).any (calOld s k) = true ∧ bitAt (s.r Reg.SVC_STATUS.CAL_STALE) k = false
    (due → ∃ t, exec (.calStale k) s = .next t ∧ bitAt (t.r Reg.SVC_STATUS.CAL_STALE) k = true ∧ pending t 481 = true
      ∧ EventsOnly [Reg.SVC_STATUS.CAL_STALE.key 0 0] s t)
    ∧ (¬ due → exec (.calStale k) s = .next s.start) := by
  intro due
  have hx : exec (.calStale k) s = _ := awake_exec (calStale k) s ha
  have hdue : ((calUnits (s.start.atInst none) k).any (calOld (s.start.atInst none) k)
      && !bitAt ((s.start.atInst none).r Reg.SVC_STATUS.CAL_STALE) k) = true ↔ due := by
    show ((calUnits s k).any (calOld s k) && !bitAt (s.r Reg.SVC_STATUS.CAL_STALE) k) = true ↔ due
    simp [due]
  unfold calStale at hx
  refine ⟨fun h => ?_, fun h => ?_⟩
  · rw [if_pos (hdue.2 h)] at hx
    obtain ⟨hbit, hpend, honly⟩ := calStale_shows (s.start.atInst none) k k.isLt
    generalize raise _ 481 = v at hx hbit hpend honly
    exact ⟨_, hx, hbit, hpend, honly.frame⟩
  · rw [if_neg (mt hdue.1 h)] at hx
    exact hx

/-! ### Self-tests of units (R477) -/

/-- A unit out by a fault is tested again: retests are enabled, and it has had fewer than three. -/
def RetestDue (s : State) (u : UnitSt) : Prop := u.byFault = true ∧ s.rb Reg.SVC_CFG.RETEST_EN = true ∧ u.tests < 3

/-- The outcome of a self-test, by its unit. -/
theorem unitTested_eq (s : State) (c i : Nat) (pass : Bool) :
    let u := unit s c i
    (u.out = false → unitTested s c i pass = s)
    ∧ (u.out = true → (u.ret = [] → RetestDue s u) → pass = true → unitTested s c i pass = setUnit s c i { u with passed := true })
    ∧ (u.out = true → u.ret = [] → RetestDue s u → pass = false →
      unitTested s c i pass = setUnit s c i { u with tests := u.tests + 1 })
    ∧ (u.out = true → u.ret = [] → ¬ RetestDue s u → unitTested s c i pass = s)
    ∧ (u.out = true → u.ret ≠ [] → pass = false →
      unitTested s c i pass = completeAll (setUnit s c i { u with ret := [] }) u.ret stUnit 1) := by
  intro u
  have hagain : (u.byFault && s.rb Reg.SVC_CFG.RETEST_EN && decide (u.tests < 3)) = true ↔ RetestDue s u := by
    simp [RetestDue, and_assoc]
  have hx : unitTested s c i pass = if !u.out then s
      else if u.ret ≠ [] then
        if pass then setUnit s c i { u with passed := true } else completeAll (setUnit s c i { u with ret := [] }) u.ret stUnit 1
      else if u.byFault && s.rb Reg.SVC_CFG.RETEST_EN && decide (u.tests < 3) then
        if pass then setUnit s c i { u with passed := true } else setUnit s c i { u with tests := u.tests + 1 }
      else s := rfl
  rw [hx]
  clear_value u
  refine ⟨fun ho => ?_, fun ho hr hp => ?_, fun ho hr ha hp => ?_, fun ho hr ha => ?_, fun ho hr hp => ?_⟩
  · simp [ho]
  · by_cases hret : u.ret = []
    · simp [ho, hret, hp, hagain.2 (hr hret)]
    · simp [ho, hret, hp]
  · simp [ho, hr, hp, hagain.2 ha]
  · rw [ho, hr, if_neg (by decide), if_neg (by simp), if_neg (mt hagain.1 ha)]
  · simp [ho, hr, hp]

theorem unitRetest_answers {s : State} (ha : Awake s) (c i : Nat) (pass : Bool) :
    let u := unit s c i
    (u.out = false → exec (.unitRetest c i pass) s = .next s.start)
    ∧ (u.out = true → (u.ret = [] → RetestDue s u) → pass = true →
      exec (.unitRetest c i pass) s = .next (setUnit s.start c i { u with passed := true }))
    ∧ (u.out = true → u.ret = [] → RetestDue s u → pass = false →
      exec (.unitRetest c i pass) s = .next (setUnit s.start c i { u with tests := u.tests + 1 }))
    ∧ (u.out = true → u.ret = [] → ¬ RetestDue s u → exec (.unitRetest c i pass) s = .next s.start)
    ∧ (u.out = true → u.ret ≠ [] → pass = false → ∃ t, exec (.unitRetest c i pass) s = .next t
      ∧ unit t c i = { u with ret := [] }
      ∧ (s.mode ≠ .shadow → ∀ h ∈ u.ret, ∃ x ∈ t.hst.compl, x.h = h ∧ x.status = stUnit ∧ x.detail = 1)) := by
  intro u
  have hx : exec (.unitRetest c i pass) s = _ := awake_exec (fun s => unitTested s c i pass) s ha
  have hu : unit (s.start.atInst none) c i = u := rfl
  have heq := unitTested_eq (s.start.atInst none) c i pass
  rw [hu] at heq
  obtain ⟨hin, hpassed, hfailed, hstays, hreturn⟩ := heq
  refine ⟨fun ho => ?_, fun ho hr hp => ?_, fun ho hr hd hp => ?_, fun ho hr hd => ?_, fun ho hr hp => ?_⟩
  · rw [hx, hin ho]; rfl
  · rw [hx, hpassed ho hr hp]; rfl
  · rw [hx, hfailed ho hr hd hp]; rfl
  · rw [hx, hstays ho hr hd]; rfl
  · rw [hreturn ho hr hp] at hx
    have hset := unit_setUnit (s.start.atInst none) c i { u with ret := [] }
    have hmode : (setUnit (s.start.atInst none) c i { u with ret := [] }).mode = s.mode := rfl
    generalize setUnit (s.start.atInst none) c i { u with ret := [] } = v at hx hset hmode
    refine ⟨_, hx, (unit_congr (congrArg SvcState.units (completeAll_svc u.ret stUnit 1 v)) c i).trans hset, fun hs => ?_⟩
    exact (completeAll_compl u.ret stUnit 1 v (hmode ▸ hs) (hmode ▸ ha.2.2)).2

/-! ### Stop paths and telemetry (R475, R478) -/

/-- Units noted to go out at the next boundary. -/
def noteOuts (s : State) (xs : List (Nat × Nat × Bool)) : State := { s with svc := { s.svc with outs := s.svc.outs ++ xs } }

/-- A stop path in service that fails its self-test is noted for the next boundary. -/
theorem pathTest_inService (s : State) (p : Nat) (pass : Bool) (h : (unit s 6 p).out = false) :
    pathTest pass s p = noteOuts s (if pass then [] else [(6, p, true)]) := by
  unfold pathTest noteOuts
  rw [h]
  cases pass with
  | false => rfl
  | true => simp

theorem stopPathSelfTest_answers {s : State} (ha : Awake s) (a b : Bool) :
    (s.r Reg.TTU_WATCH_POS.TICK_IN_WATCH ≠ 50 → exec (.stopPathSelfTest a b) s = .next s.start)
    ∧ (s.r Reg.TTU_WATCH_POS.TICK_IN_WATCH = 50 → (unit s 6 0).out = false → (unit s 6 1).out = false →
      exec (.stopPathSelfTest a b) s = .next { s with out := [], svc := { s.svc with
        outs := s.svc.outs ++ (if a then [] else [(6, 0, true)]) ++ (if b then [] else [(6, 1, true)]) } }) := by
  obtain ⟨hh, hb, hd⟩ := ha
  have hx : exec (.stopPathSelfTest a b) s = _ := withOut_live s (pathTests a b) hh
  unfold pathTests at hx
  refine ⟨fun ht => ?_, fun ht h0 h1 => ?_⟩
  · rw [if_pos (by simp [ht])] at hx
    exact hx
  · rw [if_neg (by simp [hb, hd, ht]), pathTest_inService (s.start.atInst none) 0 a h0,
      pathTest_inService (noteOuts (s.start.atInst none) _) 1 b h1] at hx
    exact hx

/-- The telemetry record is formed in tick 99, where it is enabled and no ACTIVATE pause is in progress. -/
theorem telForm_eq (x : TelIn) (s : State) (hb : s.mode ≠ .boot) (hd : s.mode ≠ .dead) : telForm x s
    = if s.paused = false ∧ s.rb Reg.SVC_TEL.TEL_EN = true ∧ s.r Reg.TTU_WATCH_POS.TICK_IN_WATCH = 99
      then { s with svc := { s.svc with tel := some (telBytes s x) } } else s := by
  unfold telForm
  cases hp : s.paused with
  | true => simp
  | false =>
    cases he : s.rb Reg.SVC_TEL.TEL_EN with
    | false => simp
    | true =>
      by_cases h : s.r Reg.TTU_WATCH_POS.TICK_IN_WATCH = 99
      · simp [h, hb, hd]
      · simp [h]

theorem telemetry_answers {s : State} (ha : Awake s) (x : TelIn) :
    let due := s.paused = false ∧ s.rb Reg.SVC_TEL.TEL_EN = true ∧ s.r Reg.TTU_WATCH_POS.TICK_IN_WATCH = 99
    exec (.telemetry x) s
      = .next (if due then { s with out := [], svc := { s.svc with tel := some (telBytes s x) } } else s.start) := by
  intro due
  obtain ⟨hh, hb, hd⟩ := ha
  have hx : exec (.telemetry x) s = _ := withOut_live s (telForm x) hh
  have he := telForm_eq x (s.start.atInst none) hb hd
  by_cases h : due
  · rw [he.trans (if_pos h)] at hx
    rw [if_pos h]
    exact hx
  · rw [he.trans (if_neg h)] at hx
    rw [if_neg h]
    exact hx

end Sys2Proof.Machine

/-! PROOF. BOOT_IMAGE_LOAD (R486, R490). -/

namespace Sys2Proof.Machine

open Sys2Proof

/-- The fields of a BOOT_IMAGE_LOAD that are refused before its buffer is read. -/
def ImageFieldsBad (m addr len rsv : Nat) : Prop :=
  rsv ≠ 0 ∨ 1 < m ∨ addr % 8 ≠ 0 ∨ len < 528 ∨ 67109376 < len

/-- A command of BOOT ended, and neither registers nor what BOOT holds changed. -/
def BootEnded (s : State) (h : Handle) (st d : Nat) (t : State) : Prop := Posted s t h st d ∧ t.bt = s.bt ∧ t.regs = s.regs

theorem bootEnded_complete {s : State} {h : Handle} {j : Option Nat} {xs : List ReflEntry} {n : Nat} (ht : Taken anyRunMode s)
    (st d : Nat) : BootEnded s h st d (complete (handed s j xs n) h st d) := by
  obtain ⟨hs, hd⟩ := taken_mode ht
  exact ⟨posted_complete (v := handed s j xs n) hs hd rfl rfl, complete_bt _ h st d, complete_regs _ h st d⟩

/-! ### The rows before an image is checked -/

section
variable {s : State} (h : Handle) {m addr len rsv : Nat} {buf : BufIn} (hs : s.mode ≠ .shadow)
include hs

theorem bootImageLoad_outside (hw : inWindow s addr len = false) :
    bootImageLoad h m addr len rsv buf s = complete s h stBuffer := by
  unfold bootImageLoad
  simp [hs, hw]

theorem bootImageLoad_bad (hw : inWindow s addr len = true) (hb : ImageFieldsBad m addr len rsv) :
    bootImageLoad h m addr len rsv buf s = complete s h stImage 0 := by
  unfold bootImageLoad
  rw [if_neg (by simp [hs]), if_neg (by simp [hw]), if_pos (by simpa [ImageFieldsBad, or_assoc] using hb)]

/-- With its fields in order the image goes to the module it is for. -/
theorem bootImageLoad_right (hw : inWindow s addr len = true) (hb : ¬ ImageFieldsBad m addr len rsv) :
    bootImageLoad h m addr len rsv buf s
      = if m = 1 then if s.inSync then peerWait s h stImage 8 else complete s h stImage 8
        else if buf.err then complete s h stBuffer else imageLoad h len buf.data s := by
  unfold bootImageLoad
  rw [if_neg (by simp [hs]), if_neg (by simp [hw]), if_neg (by simpa [ImageFieldsBad, or_assoc] using hb)]

end

/-! ### An image for this module -/

/-- An image accepted: the slot is written from now on. -/
def imageStarted (h : Handle) (i : ImageInfo) (s : State) : State :=
  ({ s with bt := { s.bt with load := some (h, i), slotBad := true } }.w Reg.BOOT_STATUS.SLOT_STATE 4).w
    Reg.BOOT_LOAD.PROGRESS 0

theorem imageStarted_shows (h : Handle) (i : ImageInfo) (s : State) :
    (imageStarted h i s).hst = s.hst ∧ (imageStarted h i s).bt = { s.bt with load := some (h, i), slotBad := true }
      ∧ (imageStarted h i s).r Reg.BOOT_STATUS.SLOT_STATE = 4 ∧ (imageStarted h i s).r Reg.BOOT_LOAD.PROGRESS = 0 :=
  ⟨rfl, rfl, (State.r_w_ne _ _ _ _ 0 0 0 0 (by decide)).trans (State.r_w_same _ Reg.BOOT_STATUS.SLOT_STATE 4 0 0),
    State.r_w_same _ Reg.BOOT_LOAD.PROGRESS 0 0 0⟩

section
variable {s : State} (h : Handle) {len : Nat} {b : List Byte}

theorem imageLoad_occupied (hl : s.bt.load ≠ none ∨ activating s = true) :
    imageLoad h len b s = complete s h stImage 0 := by
  unfold imageLoad
  rw [if_pos (by rwa [Bool.or_eq_true, Option.isSome_iff_ne_none])]

variable (hl : s.bt.load = none) (ha : activating s = false)
include hl ha

theorem imageLoad_length (hlen : len ≠ 512 + bodyLen b) : imageLoad h len b s = complete s h stImage 9 := by
  unfold imageLoad
  rw [if_neg (by simp [hl, ha]), if_pos hlen]

/-- An image of the length its header gives is checked. -/
theorem imageLoad_checked (hlen : len = 512 + bodyLen b) : imageLoad h len b s
      = if imageCheck s b ≠ 0 then complete (raise s 510) h stImage (imageCheck s b)
        else accept (imageStarted h (imageInfo b) s) h := by
  unfold imageLoad
  rw [if_neg (by simp [hl, ha]), if_neg (by simp [hlen])]
  rfl

end

/-- An image that fails a check completes with the check's number, and E510 is raised. -/
theorem imageFailed_shows {s u : State} (h : Handle) (d : Nat) (hs : u.mode ≠ .shadow) (hd : u.mode ≠ .dead)
    (hf : fetchTick u h = fetchTick s h) (hh : u.hst = s.hst) (hb : u.bt = s.bt) :
    let t := complete (raise u 510) h stImage d
    Posted s t h stImage d ∧ t.bt = s.bt ∧ pending t 510 = true := by
  refine ⟨posted_complete (by rwa [raise_mode]) (by rwa [raise_mode]) (by rw [fetchTick_raise, hf]) ?_, ?_, ?_⟩
  · rw [raise_hst_compl, hh]
  · rw [complete_bt, raise_bt, hb]
  · exact (pending_of_pend (complete_r _ _ _ _ _ _ _)).trans (raise_sets_pending u 510 _ (by decide))

theorem imageAccepted_shows {s u : State} (h : Handle) (i : ImageInfo) (hh : u.hst = s.hst) (hb : u.bt = s.bt) :
    let t := accept (imageStarted h i u) h
    Outstanding s t h ∧ t.bt = { s.bt with load := some (h, i), slotBad := true }
      ∧ t.r Reg.BOOT_STATUS.SLOT_STATE = 4 ∧ t.r Reg.BOOT_LOAD.PROGRESS = 0 := by
  obtain ⟨hhst, hbt, hslot, hprog⟩ := imageStarted_shows h i u
  generalize imageStarted h i u = v at hhst hbt hslot hprog
  refine ⟨outstanding_accept (by rw [hhst, hh]), ?_, ?_, ?_⟩
  · rw [accept_bt, hbt, hb]
  · rw [r_of_regs (accept_regs v h), hslot]
  · rw [r_of_regs (accept_regs v h), hprog]

/-- BOOT_IMAGE_LOAD by the rows of R490. -/
theorem bootImageLoad_answers {s : State} (h : Handle) (m addr len rsv : Nat) (buf : BufIn) (ht : Taken anyRunMode s) :
    let c : Instr := .bootImageLoad h m addr len rsv buf
    let bad := ImageFieldsBad m addr len rsv
    let own := inWindow s addr len = true ∧ ¬ bad ∧ m = 0 ∧ buf.err = false
    (inWindow s addr len = false → ∃ t, exec c s = .next t ∧ BootEnded s h stBuffer 0 t)
    ∧ (inWindow s addr len = true → bad → ∃ t, exec c s = .next t ∧ BootEnded s h stImage 0 t)
    ∧ (inWindow s addr len = true → ¬ bad → m = 1 →
      (s.inSync = false → ∃ t, exec c s = .next t ∧ BootEnded s h stImage 8 t)
      ∧ (s.inSync = true → ∃ t, exec c s = .next t ∧ Outstanding s t h ∧ t.bt = s.bt))
    ∧ (inWindow s addr len = true → ¬ bad → m = 0 → buf.err = true → ∃ t, exec c s = .next t ∧ BootEnded s h stBuffer 0 t)
    ∧ (own → s.bt.load ≠ none ∨ activating s = true → ∃ t, exec c s = .next t ∧ BootEnded s h stImage 0 t)
    ∧ (own → s.bt.load = none → activating s = false →
      (len ≠ 512 + bodyLen buf.data → ∃ t, exec c s = .next t ∧ BootEnded s h stImage 9 t)
      ∧ (len = 512 + bodyLen buf.data →
        (imageCheck s buf.data ≠ 0 → ∃ t, exec c s = .next t ∧ Posted s t h stImage (imageCheck s buf.data) ∧ t.bt = s.bt
          ∧ pending t 510 = true)
        ∧ (imageCheck s buf.data = 0 → ∃ t, exec c s = .next t ∧ Outstanding s t h
          ∧ t.bt = { s.bt with load := some (h, imageInfo buf.data), slotBad := true }
          ∧ t.r Reg.BOOT_STATUS.SLOT_STATE = 4 ∧ t.r Reg.BOOT_LOAD.PROGRESS = 0))) := by
  intro c bad own
  obtain ⟨j, xs, n, hx⟩ := ring_exec (c := c) rfl ht
  obtain ⟨hs, hd⟩ := taken_mode ht
  have hsu : (handed s j xs n).mode ≠ .shadow := hs
  have hends (st d : Nat) (he : bootImageLoad h m addr len rsv buf (handed s j xs n) = complete (handed s j xs n) h st d) :
      ∃ t, exec c s = .next t ∧ BootEnded s h st d t := by
    have hb : BootEnded s h st d (complete (handed s j xs n) h st d) := bootEnded_complete ht st d
    rw [he] at hx
    generalize complete (handed s j xs n) h st d = v at hx hb
    exact ⟨_, hx, hb⟩
  have hown (ho : own) : bootImageLoad h m addr len rsv buf (handed s j xs n) = imageLoad h len buf.data (handed s j xs n) := by
    obtain ⟨hw, hb, hm, he⟩ := ho
    rw [bootImageLoad_right h hsu hw hb, if_neg (by omega), if_neg (by simp [he])]
  refine ⟨fun hw => hends _ _ (bootImageLoad_outside h hsu hw), fun hw hb => hends _ _ (bootImageLoad_bad h hsu hw hb),
    fun hw hb hm => ⟨fun hi => hends _ _ ?_, fun hi => ?_⟩, fun hw hb hm he => hends _ _ ?_,
    fun ho hl => hends _ _ ((hown ho).trans (imageLoad_occupied h hl)),
    fun ho hl ha => ⟨fun hlen => hends _ _ ((hown ho).trans (imageLoad_length h hl ha hlen)), fun hlen => ?_⟩⟩
  · rw [bootImageLoad_right h hsu hw hb, if_pos hm, if_neg (by simp [hi])]
  · rw [bootImageLoad_right h hsu hw hb, if_pos hm, if_pos (by simpa using hi)] at hx
    obtain ⟨hout, _, _, hbt, _⟩ := peerWait_waits (s := s) (v := handed s j xs n) (h := h) stImage 8 rfl
    generalize peerWait (handed s j xs n) h stImage 8 = v at hx hout hbt
    exact ⟨_, hx, hout, hbt⟩
  · rw [bootImageLoad_right h hsu hw hb, if_neg (by omega), if_pos he]
  · have hc' : imageCheck (handed s j xs n) buf.data = imageCheck s buf.data := rfl
    rw [hown ho, imageLoad_checked (s := handed s j xs n) h hl ha hlen, hc'] at hx
    refine ⟨fun hc => ?_, fun hc => ?_⟩
    · have hf := imageFailed_shows (s := s) (u := handed s j xs n) h (imageCheck s buf.data) hs hd rfl rfl rfl
      rw [if_pos hc] at hx
      generalize complete (raise (handed s j xs n) 510) h stImage _ = v at hx hf
      exact ⟨_, hx, hf⟩
    · have hi := imageAccepted_shows (s := s) (u := handed s j xs n) h (imageInfo buf.data) rfl rfl
      rw [if_neg (by simp [hc])] at hx
      generalize accept _ h = v at hx hi
      exact ⟨_, hx, hi⟩

end Sys2Proof.Machine

/-! PROOF. The BOOT_CONTROL commands (R489, R491 to R497). -/

namespace Sys2Proof.Machine

open Sys2Proof

/-- A BOOT_CONTROL command was refused with a DETAIL, and nothing beside its completion changed. -/
def ControlRefused (s : State) (h : Handle) (d : Nat) (t : State) : Prop :=
  Posted s t h stActivate d ∧ t.bt = s.bt ∧ t.regs = s.regs ∧ t.modeNext = s.modeNext

/-- A BOOT_CONTROL command waits for the result of the peer. -/
def ControlAtPeer (s : State) (h : Handle) (lost : Nat × Nat) (t : State) : Prop :=
  Outstanding s t h ∧ t.bt = s.bt ∧ t.twn.peerCmds = s.twn.peerCmds ++ [(h, lost)]

/-! ### The checks all BOOT_CONTROL commands share -/

/-- BOOT_CONTROL in a module that takes commands, in the order of its checks. -/
theorem bootControl_eq {s : State} (h : Handle) (m rsv : Nat) (lost : Nat × Nat) (body : State → State) (hs : s.mode ≠ .shadow) :
    bootControl h m rsv lost body s = if rsv ≠ 0 ∨ 1 < m then complete s h stActivate 0
      else if controlBusy s then complete s h stActivate 7
      else if m = 1 then if s.inSync then peerWait s h lost.1 lost.2 else complete s h stActivate 8
      else body s := by
  unfold bootControl
  simp [hs]

/-- A BOOT_CONTROL command is for this module and passes the shared checks. -/
def ControlMine (m rsv : Nat) (s : State) : Prop := rsv = 0 ∧ m = 0 ∧ controlBusy s = false

/-- What the shared checks of a BOOT_CONTROL command give, and where its own rows decide. -/
def ControlAnswers (c : Instr) (h : Handle) (m rsv : Nat) (lost : Nat × Nat) (s : State) : Prop :=
  (rsv ≠ 0 ∨ 1 < m → ∃ t, exec c s = .next t ∧ ControlRefused s h 0 t)
  ∧ (rsv = 0 ∧ m ≤ 1 ∧ controlBusy s = true → ∃ t, exec c s = .next t ∧ ControlRefused s h 7 t)
  ∧ (rsv = 0 ∧ m = 1 ∧ controlBusy s = false → s.inSync = false → ∃ t, exec c s = .next t ∧ ControlRefused s h 8 t)
  ∧ (rsv = 0 ∧ m = 1 ∧ controlBusy s = false → s.inSync = true → ∃ t, exec c s = .next t ∧ ControlAtPeer s h lost t)

/-- A command that ends in the state a completion leaves was refused with its DETAIL. -/
theorem controlRefused_of_complete {s v : State} {c : Instr} (h : Handle) (j : Option Nat) (xs : List ReflEntry) (n d : Nat)
    (ht : Taken anyRunMode s) (hx : exec c s = .next ((v.requeue s.pending).atInst s.inst))
    (hv : v = complete (handed s j xs n) h stActivate d) : ∃ t, exec c s = .next t ∧ ControlRefused s h d t := by
  obtain ⟨hs, hd⟩ := taken_mode ht
  have he : ControlRefused s h d v := by
    rw [hv]
    exact ⟨posted_complete (v := handed s j xs n) hs hd rfl rfl, complete_bt _ h _ d, complete_regs _ h _ d,
      complete_modeNext _ h _ d⟩
  exact ⟨_, hx, he⟩

section
variable {c : Instr} {s : State} {h : Handle} {d : List Byte × BufIn} {m rsv : Nat} {lost : Nat × Nat}
  {f body : State → State} (hc : exec c s = withOut s (ringOp anyRunMode h d f))
  (hf : ∀ u : State, u.mode ≠ .shadow → f u = bootControl h m rsv lost body u) (ht : Taken anyRunMode s)
include hc hf ht

theorem bootControl_answers : ControlAnswers c h m rsv lost s := by
  obtain ⟨j, xs, n, hx⟩ := ring_exec hc ht
  have hsu : (handed s j xs n).mode ≠ .shadow := (taken_mode ht).1
  have hbusy : controlBusy (handed s j xs n) = controlBusy s := rfl
  have heq := bootControl_eq h m rsv lost body hsu
  rw [hbusy, handed_inSync] at heq
  rw [hf _ hsu] at hx
  have href (k : Nat) := controlRefused_of_complete h j xs n k ht hx
  refine ⟨fun hw => href 0 ?_, fun ⟨hr, hm, hb⟩ => href 7 ?_, fun ⟨hr, hm, hb⟩ hi => href 8 ?_, fun ⟨hr, hm, hb⟩ hi => ?_⟩
  · rw [heq, if_pos hw]
  · rw [heq, if_neg (by omega), if_pos hb]
  · rw [heq, if_neg (by omega), if_neg (by simp [hb]), if_pos hm, if_neg (by simp [hi])]
  · obtain ⟨ho, _, _, hbt, hp⟩ := peerWait_waits (s := s) (v := handed s j xs n) (h := h) lost.1 lost.2 rfl
    rw [heq, if_neg (by omega), if_neg (by simp [hb]), if_pos hm, if_pos hi] at hx
    generalize peerWait (handed s j xs n) h lost.1 lost.2 = v at hx ho hbt hp
    exact ⟨_, hx, ho, hbt, hp⟩

/-- A BOOT_CONTROL command for this module that passes the shared checks is decided by its own rows. -/
theorem bootControl_own (hm : ControlMine m rsv s) :
    ∃ j xs n, exec c s = .next (((body (handed s j xs n)).requeue s.pending).atInst s.inst) := by
  obtain ⟨j, xs, n, hx⟩ := ring_exec hc ht
  have hsu : (handed s j xs n).mode ≠ .shadow := (taken_mode ht).1
  have hbusy : controlBusy (handed s j xs n) = controlBusy s := rfl
  obtain ⟨hr, hm0, hb⟩ := hm
  rw [hf _ hsu, bootControl_eq h m rsv lost body hsu, hbusy, if_neg (by omega), if_neg (by simp [hb]), if_neg (by omega)] at hx
  exact ⟨j, xs, n, hx⟩

end

/-! ### ENTER_MAINT (R493) -/

theorem bootEnterMaint_eq (h : Handle) (m rsv : Nat) (u : State) (hs : u.mode ≠ .shadow) :
    bootEnterMaint h m rsv u = bootControl h m rsv (stOk, 0) (enterMaint h) u := by
  unfold bootEnterMaint
  rw [if_neg (by simp [hs])]

section
variable {s v : State} {c : Instr} (h : Handle) (j : Option Nat) (xs : List ReflEntry) (n : Nat) (b : BootState)
  (hx : exec c s = .next ((v.requeue s.pending).atInst s.inst))
include hx

/-- A command done at once: it completes with OK, with what it notes in BOOT and the mode for the next boundary. -/
theorem done_of_complete (ht : Taken anyRunMode s) (k : Option Mode)
    (hv : v = complete { handed s j xs n with modeNext := k, bt := b } h stOk) :
    ∃ t, exec c s = .next t ∧ Posted s t h stOk 0 ∧ t.regs = s.regs ∧ t.bt = b ∧ t.mode = s.mode ∧ t.modeNext = k := by
  obtain ⟨hs, hd⟩ := taken_mode ht
  have hp : Posted s v h stOk 0 ∧ v.regs = s.regs ∧ v.bt = b ∧ v.mode = s.mode ∧ v.modeNext = k := by
    rw [hv]
    exact ⟨posted_complete (v := { handed s j xs n with modeNext := k, bt := b }) hs hd rfl rfl, complete_regs _ h _ _,
      complete_bt _ h _ _, complete_mode _ h _ _, complete_modeNext _ h _ _⟩
  exact ⟨_, hx, hp⟩

/-- A command accepted: it is outstanding, with what it notes in BOOT. -/
theorem noted_of_accept (hv : v = accept { handed s j xs n with bt := b } h) :
    ∃ t, exec c s = .next t ∧ Outstanding s t h ∧ t.regs = s.regs ∧ t.bt = b := by
  have ho : Outstanding s v h ∧ v.regs = s.regs ∧ v.bt = b := by
    rw [hv]
    exact ⟨outstanding_accept rfl, accept_regs _ h, accept_bt _ h⟩
  exact ⟨_, hx, ho⟩

end

section
variable {s : State} (j : Option Nat) (xs : List ReflEntry) (n : Nat) (x : Handover)

/-- A handover agreed while another is waits behind it. -/
theorem handoverAgree_later (h : s.twn.handover ≠ none) :
    let t := handoverAgree x (handed s j xs n)
    Outstanding s t x.h ∧ t.twn = { s.twn with items := t.twn.items, seq := t.twn.seq, later := s.twn.later ++ [x] } := by
  have hn : ¬ (handed s j xs n).twn.handover.isNone = true := by simpa [handed] using h
  unfold handoverAgree
  rw [if_neg hn]
  refine ⟨outstanding_accept rfl, ?_⟩
  rw [accept_twn]
  rfl

theorem handoverAgree_first (h : s.twn.handover = none) :
    let t := handoverAgree x (handed s j xs n)
    Outstanding s t x.h ∧ t.twn.handover = some x := by
  have hn : (handed s j xs n).twn.handover.isNone = true := by simp [handed, h]
  unfold handoverAgree
  rw [if_pos hn]
  refine ⟨outstanding_accept rfl, ?_⟩
  rw [accept_twn]

end

/-- ENTER_MAINT of a module that leads in a pair in step agrees a handover. -/
theorem enterMaint_handover {s : State} (h : Handle) (hl : s.leading = true) (hi : s.inSync = true) :
    enterMaint h s = handoverAgree { h := h, left := 2, role := 0, maint := true } s := by
  have hm : s.mode = .lead ∨ s.mode = .halt := by simpa [State.leading] using hl
  unfold enterMaint
  rcases hm with hm | hm <;> rw [hm] <;> exact if_pos hi

theorem enterMaint_maintenance {s : State} (h : Handle) (hm : s.mode = .maintenance) : enterMaint h s = complete s h stOk := by
  unfold enterMaint
  rw [hm]

theorem enterMaint_halt {s : State} (h : Handle) (hm : s.mode = .halt) (hi : s.inSync = false) :
    enterMaint h s = complete { s with modeNext := some .maintenance } h stOk := by
  simp [enterMaint, hm, hi]

theorem enterMaint_lead {s : State} (h : Handle) (hm : s.mode = .lead) (hi : s.inSync = false) :
    enterMaint h s = complete s h stActivate 2 := by
  unfold enterMaint
  rw [hm, hi]
  rfl

theorem enterMaint_answers {s : State} (h : Handle) (m rsv : Nat) (ht : Taken anyRunMode s) :
    let c : Instr := .enterMaint h m rsv
    ControlAnswers c h m rsv (stOk, 0) s
    ∧ (ControlMine m rsv s →
      (s.mode = .lead → s.inSync = false → ∃ t, exec c s = .next t ∧ ControlRefused s h 2 t)
      ∧ (s.leading = true → s.inSync = true → s.twn.handover ≠ none → ∃ t, exec c s = .next t ∧ Outstanding s t h
        ∧ t.twn
          = { s.twn with items := t.twn.items, seq := t.twn.seq, later := s.twn.later ++ [{ h := h, left := 2, role := 0, maint := true }] })
      ∧ (s.leading = true → s.inSync = true → s.twn.handover = none → ∃ t, exec c s = .next t ∧ Outstanding s t h
        ∧ t.twn.handover = some { h := h, left := 2, role := 0, maint := true })
      ∧ (s.mode = .maintenance → ∃ t, exec c s = .next t ∧ Posted s t h stOk 0 ∧ t.bt = s.bt ∧ t.mode = s.mode)
      ∧ (s.mode = .halt → s.inSync = false → ∃ t, exec c s = .next t ∧ Posted s t h stOk 0
        ∧ t.modeNext = some .maintenance ∧ t.mode = s.mode)) := by
  intro c
  have hc : exec c s = withOut s (ringOp anyRunMode h (descOf c) (bootEnterMaint h m rsv)) := rfl
  have hf := fun u hu => bootEnterMaint_eq h m rsv u hu
  refine ⟨bootControl_answers hc hf ht, fun hm => ?_⟩
  obtain ⟨j, xs, n, hx⟩ := bootControl_own hc hf ht hm
  refine ⟨fun hl hi => controlRefused_of_complete h j xs n 2 ht hx (enterMaint_lead (s := handed s j xs n) h hl hi),
    fun hl hi hn => ?_, fun hl hi hn => ?_, fun hl => ?_, fun hl hi => ?_⟩
  · have hl' := handoverAgree_later j xs n { h := h, left := 2, role := 0, maint := true } hn
    rw [enterMaint_handover (s := handed s j xs n) h hl hi] at hx
    generalize handoverAgree _ (handed s j xs n) = v at hx hl'
    exact ⟨_, hx, hl'⟩
  · have hl' := handoverAgree_first j xs n { h := h, left := 2, role := 0, maint := true } hn
    rw [enterMaint_handover (s := handed s j xs n) h hl hi] at hx
    generalize handoverAgree _ (handed s j xs n) = v at hx hl'
    exact ⟨_, hx, hl'⟩
  · obtain ⟨t, ht, hp, _, hb, hmd, _⟩ := done_of_complete h j xs n s.bt hx ht s.modeNext
      (enterMaint_maintenance (s := handed s j xs n) h hl)
    exact ⟨t, ht, hp, hb, hmd⟩
  · obtain ⟨t, ht, hp, _, _, hmd, hnext⟩ := done_of_complete h j xs n s.bt hx ht (some .maintenance)
      (enterMaint_halt (s := handed s j xs n) h hl hi)
    exact ⟨t, ht, hp, hnext, hmd⟩

/-! ### LEAVE_MAINT, ACTIVATE, SAVE_CONFIG and RESET (R485, R491, R492, R494) -/

section
variable {s : State} (h : Handle) (m rsv : Nat) (ht : Taken anyRunMode s)
include ht

/-- A command for MAINTENANCE alone is refused with DETAIL 2 in every other mode. -/
theorem maintOnly_answers {c : Instr} {d : List Byte × BufIn} {body act : State → State}
    (hc : exec c s = withOut s (ringOp anyRunMode h d (bootControl h m rsv (stActivate, 8) body)))
    (hb : ∀ u, body u = if u.mode == .maintenance then act u else complete u h stActivate 2) :
    ControlAnswers c h m rsv (stActivate, 8) s
    ∧ (ControlMine m rsv s → (s.mode ≠ .maintenance → ∃ t, exec c s = .next t ∧ ControlRefused s h 2 t)
      ∧ (s.mode = .maintenance → ∃ j xs n, exec c s = .next (((act (handed s j xs n)).requeue s.pending).atInst s.inst))) := by
  refine ⟨bootControl_answers hc (fun _ _ => rfl) ht, fun hm => ?_⟩
  obtain ⟨j, xs, n, hx⟩ := bootControl_own hc (fun _ _ => rfl) ht hm
  refine ⟨fun hl => controlRefused_of_complete h j xs n 2 ht hx ?_, fun hl => ⟨j, xs, n, ?_⟩⟩
  · rw [hb, if_neg (by simpa using hl)]
  · rw [hb, if_pos (by simpa using hl)] at hx
    exact hx

theorem leaveMaint_answers :
    let c : Instr := .leaveMaint h m rsv
    ControlAnswers c h m rsv (stActivate, 8) s
    ∧ (ControlMine m rsv s → (s.mode ≠ .maintenance → ∃ t, exec c s = .next t ∧ ControlRefused s h 2 t)
      ∧ (s.mode = .maintenance → ∃ t, exec c s = .next t ∧ Posted s t h stOk 0 ∧ t.regs = s.regs
        ∧ t.bt = { s.bt with leave := true })) := by
  obtain ⟨hshared, hown⟩ := maintOnly_answers (c := .leaveMaint h m rsv) h m rsv ht rfl fun _ => rfl
  refine ⟨hshared, fun hm => ⟨(hown hm).1, fun hl => ?_⟩⟩
  obtain ⟨j, xs, n, hx⟩ := (hown hm).2 hl
  obtain ⟨t, ht, hp, hr, hb, _⟩ := done_of_complete h j xs n { s.bt with leave := true } hx ht s.modeNext rfl
  exact ⟨t, ht, hp, hr, hb⟩

theorem bootControlReset_answers :
    let c : Instr := .bootControlReset h m rsv
    ControlAnswers c h m rsv (stActivate, 8) s
    ∧ (ControlMine m rsv s → (s.mode ≠ .maintenance → ∃ t, exec c s = .next t ∧ ControlRefused s h 2 t)
      ∧ (s.mode = .maintenance → ∃ t, exec c s = .next t ∧ Posted s t h stOk 0 ∧ t.regs = s.regs
        ∧ t.bt = { s.bt with reset := true })) := by
  obtain ⟨hshared, hown⟩ := maintOnly_answers (c := .bootControlReset h m rsv) h m rsv ht rfl fun _ => rfl
  refine ⟨hshared, fun hm => ⟨(hown hm).1, fun hl => ?_⟩⟩
  obtain ⟨j, xs, n, hx⟩ := (hown hm).2 hl
  obtain ⟨t, ht, hp, hr, hb, _⟩ := done_of_complete h j xs n { s.bt with reset := true } hx ht s.modeNext rfl
  exact ⟨t, ht, hp, hr, hb⟩

theorem saveConfig_answers :
    let c : Instr := .saveConfig h m rsv
    ControlAnswers c h m rsv (stActivate, 8) s
    ∧ (ControlMine m rsv s → (s.mode ≠ .maintenance → ∃ t, exec c s = .next t ∧ ControlRefused s h 2 t)
      ∧ (s.mode = .maintenance → ∃ t, exec c s = .next t ∧ Outstanding s t h ∧ t.regs = s.regs
        ∧ t.bt = { s.bt with saves := s.bt.saves ++ [(h, cfgTake s)] })) := by
  obtain ⟨hshared, hown⟩ := maintOnly_answers (c := .saveConfig h m rsv) h m rsv ht rfl fun _ => rfl
  refine ⟨hshared, fun hm => ⟨(hown hm).1, fun hl => ?_⟩⟩
  obtain ⟨j, xs, n, hx⟩ := (hown hm).2 hl
  exact noted_of_accept h j xs n { s.bt with saves := s.bt.saves ++ [(h, cfgTake s)] } hx rfl

/-- ACTIVATE by the rows of R494. -/
theorem activate_answers :
    let c : Instr := .activate h m rsv
    ControlAnswers c h m rsv (peerStays, 0) s
    ∧ (ControlMine m rsv s → (s.mode = .lead → ∃ t, exec c s = .next t ∧ ControlRefused s h 2 t)
      ∧ (s.mode = .halt → s.inSync = true → ∃ t, exec c s = .next t ∧ ControlRefused s h 6 t)
      ∧ (s.mode = .maintenance ∨ (s.mode = .halt ∧ s.inSync = false) →
        (s.r Reg.BOOT_STATUS.SLOT_STATE ≠ 2 → ∃ t, exec c s = .next t ∧ ControlRefused s h 4 t)
        ∧ (s.r Reg.BOOT_STATUS.SLOT_STATE = 2 → ∃ t, exec c s = .next t ∧ Outstanding s t h ∧ t.regs = s.regs
          ∧ t.bt = { s.bt with check := some h }))) := by
  intro c
  have hc : exec c s
    = withOut s (ringOp anyRunMode h (descOf c) (bootControl h m rsv (peerStays, 0) (activate h))) := rfl
  refine ⟨bootControl_answers hc (fun _ _ => rfl) ht, fun hm => ?_⟩
  obtain ⟨j, xs, n, hx⟩ := bootControl_own hc (fun _ _ => rfl) ht hm
  have hrefused (k : Nat) := controlRefused_of_complete h j xs n k ht hx
  have hfree (hl : s.mode = .maintenance ∨ (s.mode = .halt ∧ s.inSync = false)) : activate h (handed s j xs n)
      = if s.r Reg.BOOT_STATUS.SLOT_STATE ≠ 2 then complete (handed s j xs n) h stActivate 4
        else accept { handed s j xs n with bt := { s.bt with check := some h } } h := by
    unfold activate
    rw [handed_mode, handed_inSync, handed_r]
    rcases hl with hl | ⟨hl, hi⟩
    · rw [if_neg (by simp [hl]), if_neg (by simp [hl])]
      rfl
    · rw [if_neg (by simp [hl]), if_neg (by simp [hi])]
      rfl
  refine ⟨fun hl => hrefused 2 ?_, fun hl hi => hrefused 6 ?_, fun hl => ⟨fun hv => hrefused 4 ?_, fun hv => ?_⟩⟩
  · exact if_pos (by simpa using hl)
  · unfold activate
    rw [handed_mode, handed_inSync, if_neg (by simp [hl]), if_pos (by simp [hl, hi])]
  · rw [hfree hl, if_pos hv]
  · exact noted_of_accept h j xs n _ hx ((hfree hl).trans (if_neg (by simpa using hv)))

end

end Sys2Proof.Machine

/-! PROOF. The ends of SAVE_CONFIG, an image load and ACTIVATE, and a lockstep mismatch (R21, R490, R491, R495). -/

namespace Sys2Proof.Machine

open Sys2Proof

/-- A command taken by a module that is not in DEAD. -/
theorem notDead_exec {s : State} (f : State → State) (i : Option Nat) (hh : s.held = false) (hd : s.mode ≠ .dead) :
    withOutAt s i (fun s => notDead s f) = .next (((f (s.start.atInst i)).requeue s.pending).atInst s.inst) := by
  rw [withOutAt_live _ _ _ hh, notDead_live f (s.start.atInst i) hd]

/-- A command ends after a raising: its completion is due unless a shadow finds it written, and its event is pending. -/
theorem complete_raise_shows {s v : State} (h : Handle) (e st d : Nat) (he : e < 512) (hm : v.mode = s.mode)
    (hd : s.mode ≠ .dead) (hh : v.hst = s.hst) (hf : fetchTick v h = fetchTick s h) :
    let t := complete (raise v e) h st d
    (s.mode ≠ .shadow → Posted s t h st d) ∧ pending t e = true ∧ t.bt = v.bt ∧ t.mode = s.mode
      ∧ ∀ f : Field, f.key 0 0 ∉ evtKeys → t.r f = v.r f := by
  refine ⟨fun hs => posted_complete ?_ ?_ ?_ ?_, ?_, ?_, ?_, fun f hk => ?_⟩
  · rwa [raise_mode, hm]
  · rwa [raise_mode, hm]
  · rw [fetchTick_raise, hf]
  · rw [raise_hst_compl, hh]
  · exact (pending_of_pend (complete_r _ _ _ _ _ _ _)).trans (raise_sets_pending v e _ he)
  · rw [complete_bt, raise_bt]
  · rw [complete_mode, raise_mode, hm]
  · rw [complete_r, raise_field v e _ f 0 0 he hk]

/-! ### SAVE_CONFIG -/

theorem configSaveDone_answers {s : State} (hh : s.held = false) :
    (s.bt.saves = [] → exec .configSaveDone s = .next s.start)
    ∧ (∀ h c rest, s.bt.saves = (h, c) :: rest → s.mode ≠ .dead → ∃ t, exec .configSaveDone s = .next t
      ∧ t.bt = { s.bt with saves := rest, cfg := some c } ∧ pending t 511 = true ∧ (s.mode ≠ .shadow → Posted s t h stOk 0)) := by
  have hx : exec .configSaveDone s = _ := withOut_live s configSaved hh
  have hb : (s.start.atInst none).bt = s.bt := rfl
  unfold configSaved at hx
  rw [hb] at hx
  refine ⟨fun hs => ?_, fun h c rest hs hd => ?_⟩
  · rw [hs] at hx
    exact hx
  · rw [hs] at hx
    obtain ⟨hp, hpend, hbt, _, _⟩ := complete_raise_shows (s := s)
      (v := { s.start.atInst none with bt := { s.bt with saves := rest, cfg := some c } }) h 511 stOk 0 (by decide) rfl hd rfl rfl
    dsimp only at hx
    generalize complete _ h stOk = w at hx hp hpend hbt
    exact ⟨_, hx, hbt, hpend, hp⟩

/-! ### Lockstep -/

theorem lockstepMismatch_answers {s : State} (hh : s.held = false) :
    (s.mode = .dead → exec .lockstepMismatch s = .next s.start)
    ∧ (s.mode ≠ .dead → ∃ t, exec .lockstepMismatch s = .next t ∧ t.mode = .dead ∧ t.bt.cause = 3
      ∧ t.r Reg.STP_STATE.OUT_ON = 0) := by
  have hx : exec .lockstepMismatch s = _ := withOut_live s lockstep hh
  unfold lockstep at hx
  refine ⟨fun hd => ?_, fun hd => ?_⟩
  · have he : enterDead (s.start.atInst none) 3 508 = s.start.atInst none := if_pos (by simp [hd])
    rw [he] at hx
    exact hx
  · have he := enterDead_shows (s.start.atInst none) 3 508 hd
    generalize enterDead (s.start.atInst none) 3 508 = v at hx he
    exact ⟨_, hx, he⟩

/-! ### Images -/

/-- The slot written and read back. -/
def slotValid (i : ImageInfo) (s : State) : State :=
  (((({ s with bt := { s.bt with load := none, slot := i, slotBad := false } }.w Reg.BOOT_SLOT.SLOT_VERSION i.version).w
    Reg.BOOT_SLOT.SLOT_SVN i.svn).w Reg.BOOT_STATUS.SLOT_STATE 2).w Reg.BOOT_LOAD.PROGRESS 100)

theorem slotValid_shows (i : ImageInfo) (s : State) :
    (slotValid i s).r Reg.BOOT_STATUS.SLOT_STATE = 2 ∧ (slotValid i s).r Reg.BOOT_LOAD.PROGRESS = 100
    ∧ (slotValid i s).r Reg.BOOT_SLOT.SLOT_VERSION = i.version % 2 ^ 32
    ∧ (slotValid i s).r Reg.BOOT_SLOT.SLOT_SVN = i.svn % 2 ^ 16 := by
  have hne (u : State) (f g : Field) (v : Nat) (h : g.key 0 0 ≠ f.key 0 0) : (u.w f v).r g = u.r g :=
    State.r_w_ne u f g v 0 0 0 0 h
  unfold slotValid
  refine ⟨?_, State.r_w_same _ Reg.BOOT_LOAD.PROGRESS 100 0 0, ?_, ?_⟩
  · rw [hne _ _ _ _ (by decide)]
    exact State.r_w_same _ Reg.BOOT_STATUS.SLOT_STATE 2 0 0
  · rw [hne _ _ _ _ (by decide), hne _ _ _ _ (by decide), hne _ _ _ _ (by decide)]
    exact State.r_w_same _ Reg.BOOT_SLOT.SLOT_VERSION _ 0 0
  · rw [hne _ _ _ _ (by decide), hne _ _ _ _ (by decide)]
    exact State.r_w_same _ Reg.BOOT_SLOT.SLOT_SVN _ 0 0

/-- The slot whose image could not be written. -/
def slotInvalid (b : BootState) (s : State) : State := { s with bt := b }.w Reg.BOOT_STATUS.SLOT_STATE 3

theorem slotInvalid_state (b : BootState) (s : State) : (slotInvalid b s).r Reg.BOOT_STATUS.SLOT_STATE = 3 :=
  State.r_w_same _ Reg.BOOT_STATUS.SLOT_STATE 3 0 0

theorem slotValid_kept (h : Handle) (i : ImageInfo) (s : State) :
    (slotValid i s).mode = s.mode ∧ (slotValid i s).hst = s.hst ∧ fetchTick (slotValid i s) h = fetchTick s h
      ∧ (slotValid i s).bt = { s.bt with load := none, slot := i, slotBad := false } := by
  refine ⟨?_, ?_, fetchTick_congr h ?_ ?_ ?_, ?_⟩ <;> simp only [slotValid, State.w_mode, State.w_hst, State.w_twn,
    State.w_tick, State.w_bt]

theorem imageWriteDone_answers {s : State} (hh : s.held = false) (hd : s.mode ≠ .dead) (ok : Bool) :
    (s.bt.load = none → exec (.imageWriteDone ok) s = .next s.start)
    ∧ ∀ h i, s.bt.load = some (h, i) → ∃ t, exec (.imageWriteDone ok) s = .next t
      ∧ t.r Reg.BOOT_STATUS.SLOT_STATE = (if ok then 2 else 3) ∧ pending t (if ok then 509 else 510) = true
      ∧ t.bt = (if ok then { s.bt with load := none, slot := i, slotBad := false } else { s.bt with load := none })
      ∧ (ok = true → t.r Reg.BOOT_LOAD.PROGRESS = 100 ∧ t.r Reg.BOOT_SLOT.SLOT_VERSION = i.version % 2 ^ 32
        ∧ t.r Reg.BOOT_SLOT.SLOT_SVN = i.svn % 2 ^ 16)
      ∧ (s.mode ≠ .shadow → Posted s t h (if ok then stOk else stImage) (if ok then 0 else 6)) := by
  have hx : exec (.imageWriteDone ok) s = _ := notDead_exec (imageWritten ok) none hh hd
  have hb : (s.start.atInst none).bt = s.bt := rfl
  unfold imageWritten at hx
  rw [hb] at hx
  refine ⟨fun hl => ?_, fun h i hl => ?_⟩
  · rw [hl] at hx
    exact hx
  · rw [hl] at hx
    cases ok with
    | true =>
      obtain ⟨hstate, hprog, hver, hsvn⟩ := slotValid_shows i (s.start.atInst none)
      obtain ⟨hm, hh, hf, hb⟩ := slotValid_kept h i (s.start.atInst none)
      obtain ⟨hp, hpend, hbt, _, hr⟩ := complete_raise_shows (s := s) h 509 stOk 0 (by decide) hm hd hh hf
      have hx' : exec (.imageWriteDone true) s
        = .next (((complete (raise (slotValid i (s.start.atInst none)) 509) h stOk).requeue s.pending).atInst s.inst) := hx
      rw [← hr _ (by decide)] at hstate hprog hver hsvn
      generalize complete _ h stOk = w at hx' hp hpend hbt hstate hprog hver hsvn
      exact ⟨_, hx', hstate, hpend, hbt.trans hb, fun _ => ⟨hprog, hver, hsvn⟩, hp⟩
    | false =>
      have hstate := slotInvalid_state { s.bt with load := none } (s.start.atInst none)
      obtain ⟨hp, hpend, hbt, _, hr⟩ := complete_raise_shows (s := s) (v := slotInvalid { s.bt with load := none } (s.start.atInst none))
        h 510 stImage 6 (by decide) rfl hd rfl rfl
      have hx' : exec (.imageWriteDone false) s = .next (((complete (raise (slotInvalid { s.bt with load := none }
        (s.start.atInst none)) 510) h stImage 6).requeue s.pending).atInst s.inst) := hx
      rw [← hr _ (by decide)] at hstate
      generalize complete _ h stImage 6 = w at hx' hp hpend hbt hstate
      exact ⟨_, hx', hstate, hpend, hbt, fun h => absurd h (by decide), hp⟩

/-! ### ACTIVATE -/

theorem activateCheckDone_answers {s : State} (hh : s.held = false) (hd : s.mode ≠ .dead) (ok : Bool) :
    (s.bt.check = none → exec (.activateCheckDone ok) s = .next s.start)
    ∧ ∀ h, s.bt.check = some h →
      (ok = true → exec (.activateCheckDone ok) s
        = .next { s with out := [], bt := { s.bt with check := none, pause := some (h, none) } })
      ∧ (ok = false → ∃ t, exec (.activateCheckDone ok) s = .next t ∧ t.bt = { s.bt with check := none, slotBad := true }
        ∧ t.r Reg.BOOT_STATUS.SLOT_STATE = 3 ∧ pending t 510 = true ∧ (s.mode ≠ .shadow → Posted s t h stActivate 5)) := by
  have hx : exec (.activateCheckDone ok) s = _ := notDead_exec (activateChecked ok) none hh hd
  have hb : (s.start.atInst none).bt = s.bt := rfl
  unfold activateChecked at hx
  rw [hb] at hx
  refine ⟨fun hc => ?_, fun h hc => ⟨fun hok => ?_, fun hok => ?_⟩⟩
  · rw [hc] at hx
    exact hx
  · rw [hc, hok] at hx
    rw [hok]
    exact hx
  · rw [hc, hok] at hx
    rw [hok]
    have hstate := slotInvalid_state { s.bt with check := none, slotBad := true } (s.start.atInst none)
    obtain ⟨hp, hpend, hbt, _, hr⟩ := complete_raise_shows (s := s)
      (v := slotInvalid { s.bt with check := none, slotBad := true } (s.start.atInst none)) h 510 stActivate 5 (by decide) rfl hd rfl rfl
    have hx' : exec (.activateCheckDone false) s = .next (((complete (raise (slotInvalid { s.bt with check := none, slotBad := true }
      (s.start.atInst none)) 510) h stActivate 5).requeue s.pending).atInst s.inst) := hx
    rw [← hr _ (by decide)] at hstate
    generalize complete _ h stActivate 5 = w at hx' hp hpend hbt hstate
    exact ⟨_, hx', hbt, hstate, hpend, hp⟩

/-- The new image runs: the pause is over, and the registers show it. -/
def imageRuns (n : Nat) (s : State) : State :=
  let i := s.bt.slot
  let s := { s with bt := { s.bt with pause := none, running := i, heldEvts := [] } }
  let s := ((s.wb Reg.BOOT_STATUS.PAUSE false).w Reg.BOOT_TIMES.PAUSE_MS n).w Reg.HST_ID_FW.FW_VERSION i.version
  ((s.w Reg.BOOT_STATUS.SLOT_STATE 1).w Reg.BOOT_STATUS.LAST_RESET 3).wb Reg.CAN_GLOBAL.ISO_AVAIL i.iso

theorem imageRuns_shows (n : Nat) (s : State) :
    (imageRuns n s).paused = false ∧ (imageRuns n s).r Reg.BOOT_STATUS.LAST_RESET = 3
    ∧ (imageRuns n s).r Reg.BOOT_STATUS.SLOT_STATE = 1 ∧ (imageRuns n s).r Reg.BOOT_TIMES.PAUSE_MS = n % 2 ^ 16 := by
  have hne (u : State) (f g : Field) (v : Nat) (h : g.key 0 0 ≠ f.key 0 0) : (u.w f v).r g = u.r g :=
    State.r_w_ne u f g v 0 0 0 0 h
  unfold State.paused imageRuns State.rb State.wb
  dsimp only
  refine ⟨?_, ?_, ?_, ?_⟩
  · rw [hne _ _ _ _ (by decide), hne _ _ _ _ (by decide), hne _ _ _ _ (by decide), hne _ _ _ _ (by decide),
      hne _ _ _ _ (by decide), State.r_w_same]
    rfl
  · rw [hne _ _ _ _ (by decide)]
    exact State.r_w_same _ Reg.BOOT_STATUS.LAST_RESET 3 0 0
  · rw [hne _ _ _ _ (by decide), hne _ _ _ _ (by decide)]
    exact State.r_w_same _ Reg.BOOT_STATUS.SLOT_STATE 1 0 0
  · rw [hne _ _ _ _ (by decide), hne _ _ _ _ (by decide), hne _ _ _ _ (by decide), hne _ _ _ _ (by decide)]
    exact State.r_w_same _ Reg.BOOT_TIMES.PAUSE_MS n 0 0

theorem imageRuns_kept (h : Handle) (n : Nat) (s : State) :
    (imageRuns n s).mode = s.mode ∧ (imageRuns n s).hst = s.hst ∧ fetchTick (imageRuns n s) h = fetchTick s h
      ∧ (imageRuns n s).bt = { s.bt with pause := none, running := s.bt.slot, heldEvts := [] } := by
  refine ⟨?_, ?_, fetchTick_congr h ?_ ?_ ?_, ?_⟩ <;> simp only [imageRuns, State.w_mode, State.wb_mode, State.w_hst,
    State.wb_hst, State.w_twn, State.wb_twn, State.w_tick, State.wb_tick, State.w_bt, State.wb_bt]

/-- The return of an ACTIVATE in MAINTENANCE with no event held back. -/
theorem activateReturn_maintenance {s : State} {h : Handle} {n : Nat} (hp : s.bt.pause = some (h, some n))
    (hm : s.mode = .maintenance) (he : s.bt.heldEvts = []) :
    activateReturn true s = complete (imageRuns n s) h stOk n := by
  have hmode : (complete (imageRuns n s) h stOk n).mode = .maintenance := (complete_mode _ h stOk n).trans hm
  have hx : activateReturn true s
      = (let u := complete (imageRuns n s) h stOk n
         let v := if u.running then svnRaise u else u
         if v.mode == .shadow then resync v else if v.mode == .halt then freezeAll v else v) := by
    unfold activateReturn
    rw [hp, he]
    rfl
  rw [hx]
  dsimp only
  generalize complete (imageRuns n s) h stOk n = u at hmode ⊢
  have hr : u.running = false := by
    unfold State.running
    rw [hmode]
    rfl
  simp [hr, hmode]

/-- What such a return leaves: its completion with the ticks of the pause, and the registers of the new image. -/
theorem imageRuns_completed {s : State} (h : Handle) (n : Nat) (hm : s.mode = .maintenance) (he : s.bt.heldEvts = []) :
    let t := complete (imageRuns n s) h stOk n
    Posted s t h stOk n ∧ t.mode = s.mode ∧ t.bt = { s.bt with pause := none, running := s.bt.slot }
      ∧ t.paused = false ∧ t.r Reg.BOOT_STATUS.LAST_RESET = 3 ∧ t.r Reg.BOOT_STATUS.SLOT_STATE = 1
      ∧ t.r Reg.BOOT_TIMES.PAUSE_MS = n % 2 ^ 16 := by
  obtain ⟨hpause, hreset, hslot, hms⟩ := imageRuns_shows n s
  obtain ⟨hmode, hhst, hfetch, hbt⟩ := imageRuns_kept h n s
  generalize imageRuns n s = u at hpause hreset hslot hms hmode hhst hfetch hbt
  have hr (f : Field) : (complete u h stOk n).r f = u.r f := complete_r _ _ _ _ _ _ _
  refine ⟨posted_complete ?_ ?_ hfetch (by rw [hhst]), ?_, ?_, ?_, ?_, ?_, ?_⟩
  · rw [hmode, hm]; decide
  · rw [hmode, hm]; decide
  · rw [complete_mode, hmode]
  · rw [complete_bt, hbt, ← he]
  · unfold State.paused State.rb at hpause ⊢
    rw [hr]; exact hpause
  · rw [hr, hreset]
  · rw [hr, hslot]
  · rw [hr, hms]

theorem activateReturn_answers {s : State} (hh : s.held = false) (hd : s.mode ≠ .dead) (started : Bool) :
    ((∀ h n, s.bt.pause ≠ some (h, some n)) → exec (.activateReturn started) s = .next s.start)
    ∧ ∀ h n, s.bt.pause = some (h, some n) →
      (started = false → ∃ t, exec (.activateReturn started) s = .next t ∧ t.mode = .dead ∧ t.bt.cause = 0x0A)
      ∧ (started = true → s.mode = .maintenance → s.bt.heldEvts = [] → ∃ t, exec (.activateReturn started) s = .next t
        ∧ Posted s t h stOk n ∧ t.mode = s.mode ∧ t.bt = { s.bt with pause := none, running := s.bt.slot }
        ∧ t.paused = false ∧ t.r Reg.BOOT_STATUS.LAST_RESET = 3 ∧ t.r Reg.BOOT_STATUS.SLOT_STATE = 1
        ∧ t.r Reg.BOOT_TIMES.PAUSE_MS = n % 2 ^ 16) := by
  have hx : exec (.activateReturn started) s = _ := notDead_exec (activateReturn started) (some 0) hh hd
  refine ⟨fun hp => ?_, fun h n hp => ⟨fun hs => ?_, fun hs hm he => ?_⟩⟩
  · have hn : activateReturn started (s.start.atInst (some 0)) = s.start.atInst (some 0) := by
      unfold activateReturn
      split
      · rename_i h n hpn
        exact absurd hpn (hp h n)
      · rfl
    rw [hn] at hx
    exact hx
  · subst hs
    obtain ⟨hmode, hcause, _⟩ := enterDead_shows (s.start.atInst (some 0)) 0x0A 508 hd
    have hn : activateReturn false (s.start.atInst (some 0)) = enterDead (s.start.atInst (some 0)) 0x0A 508 := by
      have hp' : (s.start.atInst (some 0)).bt.pause = some (h, some n) := hp
      unfold activateReturn
      rw [hp']
      rfl
    rw [hn] at hx
    generalize enterDead _ 0x0A 508 = v at hx hmode hcause
    exact ⟨_, hx, hmode, hcause⟩
  · subst hs
    have hdone := imageRuns_completed (s := s.start.atInst (some 0)) h n hm he
    rw [activateReturn_maintenance (s := s.start.atInst (some 0)) hp hm he] at hx
    generalize complete _ h stOk n = v at hx hdone
    exact ⟨_, hx, hdone⟩

end Sys2Proof.Machine

/-! PROOF. Services, images and BOOT_CONTROL together (R27, R44, R470 to R478, R490 to R497). -/

namespace Sys2Proof.Machine

open Sys2Proof

/-- Settles O59: SVC_UNIT, the window and the self-tests, images, BOOT_CONTROL and the ends of its commands, each by its own
lemma. -/
theorem serviceUnitsImagesAndBootCommands : Obligations.service_units_images_and_boot_commands := by
  unfold Obligations.service_units_images_and_boot_commands
  intro s
  refine ⟨fun h c i m rsv ht => ⟨svcUnitOut_answers h c i m rsv ht, svcUnitReturn_answers h c i m rsv ht,
      svcUnitRestore_answers h c i m rsv ht⟩, backgroundWindow_answers s,
    fun ha => ⟨scrubLate_answers ha, calStale_answers ha, unitRetest_answers ha, stopPathSelfTest_answers ha, telemetry_answers ha⟩,
    fun h m addr len rsv buf ht => bootImageLoad_answers h m addr len rsv buf ht, fun h m rsv ht => ?_, fun hh => ?_⟩
  · obtain ⟨⟨eWrong, eBusy, eLost, ePeer⟩, eOwn⟩ := enterMaint_answers h m rsv ht
    obtain ⟨⟨lWrong, lBusy, lLost, lPeer⟩, lOwn⟩ := leaveMaint_answers h m rsv ht
    obtain ⟨⟨aWrong, aBusy, aLost, aPeer⟩, aOwn⟩ := activate_answers h m rsv ht
    obtain ⟨⟨sWrong, sBusy, sLost, sPeer⟩, sOwn⟩ := saveConfig_answers h m rsv ht
    obtain ⟨⟨rWrong, rBusy, rLost, rPeer⟩, rOwn⟩ := bootControlReset_answers h m rsv ht
    refine ⟨⟨eWrong, eBusy, eLost, ePeer, fun hm => (eOwn hm).1, fun hm => (eOwn hm).2.1⟩,
      ⟨lWrong, lBusy, lLost, lPeer, fun hm => (lOwn hm).1⟩,
      ⟨aWrong, aBusy, aLost, aPeer, fun hm => (aOwn hm).1, fun hm => (aOwn hm).2.1, fun hm hl => ((aOwn hm).2.2 hl).1⟩,
      ⟨sWrong, sBusy, sLost, sPeer, fun hm => (sOwn hm).1⟩, ⟨rWrong, rBusy, rLost, rPeer, fun hm => (rOwn hm).1⟩,
      fun hr hm hb => ?_⟩
    have hown : ControlMine m rsv s := ⟨hr, hm, hb⟩
    obtain ⟨_, _, eFirst, eMaint, eHalt⟩ := eOwn hown
    exact ⟨fun hl => ⟨eMaint hl, (lOwn hown).2 hl, (sOwn hown).2 hl, (rOwn hown).2 hl⟩, eHalt, eFirst,
      fun hl => ((aOwn hown).2.2 hl).2⟩
  · obtain ⟨saveNone, saveDone⟩ := configSaveDone_answers hh
    obtain ⟨lockDead, lockLive⟩ := lockstepMismatch_answers hh
    exact ⟨saveNone, saveDone, lockDead, fun hd => ⟨lockLive hd, imageWriteDone_answers hh hd, activateCheckDone_answers hh hd,
      activateReturn_answers hh hd⟩⟩

end Sys2Proof.Machine

/-! PROOF. Steps of TB1: where their closing watch ends, and their application (R52, R53, R68, R74, R77). -/

namespace Sys2Proof.Machine

open Sys2Proof

/-! ### What TTU leaves alone while it judges its sources (R63 to R68) -/

/-- From s to t the mode, the tick, BOOT, the pair, TB1, TB3, the watch and the step pending stay. -/
def BasesKept (s t : State) : Prop :=
  t.mode = s.mode ∧ t.tick = s.tick ∧ t.bt = s.bt ∧ t.twn = s.twn ∧ t.ttu.tb1 = s.ttu.tb1 ∧ t.ttu.tb3 = s.ttu.tb3
    ∧ t.ttu.watchDone = s.ttu.watchDone ∧ t.ttu.stepAmt = s.ttu.stepAmt

theorem BasesKept.rfl' (s : State) : BasesKept s s := ⟨rfl, rfl, rfl, rfl, rfl, rfl, rfl, rfl⟩

theorem BasesKept.trans {s t u : State} (h : BasesKept s t) (k : BasesKept t u) : BasesKept s u := by
  unfold BasesKept at *
  simp only [k, h, and_self]

theorem raise_basesKept (s : State) (e d : Nat) : BasesKept s (raise s e d) := by
  simp only [BasesKept, raise_mode, raise_tick, raise_bt, raise_twn, raise_ttu, and_self]

theorem w_basesKept (s : State) (f : Field) (v i j : Nat) : BasesKept s (s.w f v i j) := .rfl' s

theorem ttuTakeOffset_basesKept (s : State) (o : Int) : BasesKept s (ttuTakeOffset s o) := .rfl' s

theorem ttuLossNow_basesKept (s : State) : BasesKept s (ttuLossNow s) := .rfl' s

/-- A condition on the state chooses between it and a change that keeps the bases. -/
theorem ite_basesKept (s : State) (c : Prop) [Decidable c] (f : State → State) (h : BasesKept s (f s)) :
    BasesKept s (if c then f s else s) := by
  split
  · exact h
  · exact .rfl' s

theorem ttuSetState_basesKept (s : State) (v : Nat) : BasesKept s (ttuSetState s v) := by
  unfold ttuSetState
  split
  · exact .rfl' s
  · extract_lets s1 s2 s3
    have h2 : BasesKept s s2 := ite_basesKept s1 (v = 3 ∨ v = 4) ttuDiscReset (.rfl' s1)
    exact (h2.trans (raise_basesKept s2 6 _)).trans (ite_basesKept s3 (v = 4) (raise · 9) (raise_basesKept s3 9 _))

theorem ttuOffsetRule_basesKept (s : State) (watch : Bool) (i : Nat) : BasesKept s (ttuOffsetRule s watch i) := by
  unfold ttuOffsetRule
  extract_lets o s1 s2 _ s3 s4
  have h2 : BasesKept s s2 := .rfl' s
  split
  · exact BasesKept.trans (t := s3) h2 (ttuSetState_basesKept s3 2)
  · exact (h2.trans (ite_basesKept s2 (ttuState s2 = 1 ∨ ttuState s2 = 2) ttuLossNow (ttuLossNow_basesKept s2))).trans
      (ttuSetState_basesKept s4 4)

theorem ttuLost_basesKept (s : State) (watch : Bool) : BasesKept s (ttuLost s watch) := by
  unfold ttuLost
  extract_lets s1
  have h1 : BasesKept s s1 := (w_basesKept s _ 3 0 0).trans (raise_basesKept _ 7 _)
  split
  · exact (h1.trans (raise_basesKept s1 8 _)).trans (ttuOffsetRule_basesKept _ _ _)
  · split
    · exact h1
    · exact (h1.trans (ttuLossNow_basesKept s1)).trans (ttuSetState_basesKept _ 3)

theorem ttuAfterStep_basesKept (s : State) : BasesKept s (ttuAfterStep s) := by
  unfold ttuAfterStep
  extract_lets cur o s1
  have h1 : BasesKept s s1 := ttuTakeOffset_basesKept s o
  split
  · split
    · exact ttuOffsetRule_basesKept s _ _
    · exact .rfl' s
  · split
    · exact ttuLost_basesKept s _
    · split
      · exact BasesKept.trans (t := { s1 with ttu := { s1.ttu with goodRun := 0 } }) h1 (ttuSetState_basesKept _ 2)
      · split
        · exact (h1.trans (ttuLossNow_basesKept s1)).trans (ttuSetState_basesKept _ 4)
        · exact h1

/-! ### An accepted step (R52) -/

theorem pulseMarkTb0_closing (s : State) :
    (pulseMarkTb0 s).ttu.closing = s.ttu.closing ∧ (pulseMarkTb0 s).ttu.stepAmt = s.ttu.stepAmt := by
  unfold pulseMarkTb0
  generalize 4 = n
  induction n with
  | zero => exact ⟨rfl, rfl⟩
  | succ n ih =>
    rw [iter]
    split
    · exact ih
    · exact ih

/-- The closing watch of an accepted step has the length R52 gives, as whole ticks and a stretch. -/
theorem ttuAcceptStep_closing (s : State) (amt : Int) :
    let e := closingLength (s.ttu.tb1 - s.ttu.pos * uTick) amt s.ttu.pos
    ∃ c, (ttuAcceptStep s amt).ttu.closing = some c ∧ (ttuAcceptStep s amt).ttu.stepAmt = some amt
      ∧ c.n = e / uTick ∧ c.extra = e % uTick := by
  unfold ttuAcceptStep
  extract_lets _ p e n extra s1 c _ s2 s3 _ _ s4
  refine ⟨c, ?_, ?_, rfl, rfl⟩ <;> split
  · split
    · rfl
    · exact (pulseMarkTb0_closing s4).1
  · rfl
  · split
    · rfl
    · exact (pulseMarkTb0_closing s4).2
  · rfl

/-! ### The step is applied (R52, R74, R77) -/

theorem iter_basesKept (f : Nat → State → State) (h : ∀ k s, BasesKept s (f k s)) (n : Nat) (s : State) :
    BasesKept s (iter f n s) := by
  induction n with
  | zero => exact .rfl' s
  | succ n ih => exact ih.trans (h n _)

theorem pulseStep_basesKept (s : State) (n : Nat) (amt : Int) (old : Nat) : BasesKept s (pulseStep s n amt old) := .rfl' s

theorem ttuSetCapt_basesKept (s : State) (n : Nat) (c : CaptSt) : BasesKept s (ttuSetCapt s n c) := .rfl' s

theorem ttuOffsetsMove_basesKept (s : State) (amt : Int) : BasesKept s (ttuOffsetsMove s amt) := .rfl' s

theorem ttuShowOffset_basesKept (s : State) (o : Int) : BasesKept s (ttuShowOffset s o) := .rfl' s

/-- A step due moves TB1 by its amount, never below 0, and is no longer pending. -/
theorem ttuStepApply_due {s : State} {amt : Int} (ha : s.ttu.stepAmt = some amt) (hd : s.ttu.stepDue = true) :
    (ttuStepApply s).ttu.tb1 = ((s.ttu.tb1 : Int) + amt).toNat ∧ (ttuStepApply s).ttu.stepAmt = none := by
  unfold ttuStepApply
  split
  · rename_i hn
    exact absurd (ha.symm.trans hn) (by simp)
  rename_i a hs
  obtain rfl : amt = a := Option.some.inj (ha.symm.trans hs)
  rw [if_pos hd]
  extract_lets old1 old2 _ s1 s2 _ s3 _ g s4 s5 s6 s7 s8
  have h4 : s4.ttu.tb1 = ((s.ttu.tb1 : Int) + amt).toNat ∧ s4.ttu.stepAmt = none := ⟨rfl, rfl⟩
  have h5 : BasesKept s4 s5 := iter_basesKept _ (fun n u => ite_basesKept u _ (fun u => pulseStep u n amt _)
    (pulseStep_basesKept u n amt _)) 4 s4
  have h6 : BasesKept s5 s6 := iter_basesKept _ (fun n u => ttuSetCapt_basesKept u n _) 4 s5
  have h7 : BasesKept s6 s7 := raise_basesKept s6 4 _
  have h8 : BasesKept s7 s8 := ttuOffsetsMove_basesKept s7 amt
  clear_value s4 s5 s6 s7 s8
  have hend : BasesKept s8 (if s8.twn.follows then ttuShowOffset s8 (s8.ttu.offset - amt) else ttuAfterStep s8) := by
    split
    · exact ttuShowOffset_basesKept s8 _
    · exact ttuAfterStep_basesKept s8
  obtain ⟨_, _, _, _, htb1, _, _, hstep⟩ := h5.trans (h6.trans (h7.trans (h8.trans hend)))
  exact ⟨htb1.trans h4.1, hstep.trans h4.2⟩

/-- Settles O10: the length of the closing watch is the least R52 allows, and the step due is added to TB1. -/
theorem anAcceptedStepEndsItsWatchAtTheFirstInstantR52Allows :
    Obligations.an_accepted_step_ends_its_watch_at_the_first_instant_R52_allows := by
  unfold Obligations.an_accepted_step_ends_its_watch_at_the_first_instant_R52_allows
  refine ⟨fun s amt hp _ => ?_, fun s amt hh ha hd h0 => ?_⟩
  · obtain ⟨c, hc, hs, hn, hx⟩ := ttuAcceptStep_closing s amt
    have he : c.n * uTick + c.extra = closingLength (s.ttu.tb1 - s.ttu.pos * uTick) amt s.ttu.pos := by
      rw [hn, hx, Nat.mul_comm]
      exact Nat.div_add_mod _ _
    obtain ⟨hwhole, h42, h2, hlt, hleast⟩ := closingLength_spec (s.ttu.tb1 - s.ttu.pos * uTick) amt s.ttu.pos
    refine ⟨c, hc, hs, ?_⟩
    rw [he]
    generalize closingLength (s.ttu.tb1 - s.ttu.pos * uTick) amt s.ttu.pos = e at hwhole h42 h2 hlt hleast
    have hbound : max (42 * uTick) ((s.ttu.pos + 2) * uTick) ≤ 101 * uTick :=
      max_le (Nat.mul_le_mul_right _ (by decide)) (Nat.mul_le_mul_right _ (by omega))
    refine ⟨⟨?_, h42, h2⟩, hx ▸ Nat.mod_lt _ (by decide), fun e' h => hleast e' ?_ h.2.1 h.2.2, ?_⟩
    · rw [← Int.natCast_add]; exact hwhole
    · rw [Int.natCast_add]; exact h.1
    · calc e < max (42 * uTick) ((s.ttu.pos + 2) * uTick) + 100 * uTick := hlt
        _ ≤ 101 * uTick + 100 * uTick := Nat.add_le_add_right hbound _
        _ = 201 * uTick := rfl
  · have hx : exec .timeStepApply s = _ := withOutAt_live s (some 0) ttuStepApply hh
    obtain ⟨htb1, hstep⟩ := ttuStepApply_due (s := s.start.atInst (some 0)) ha hd
    generalize ttuStepApply (s.start.atInst (some 0)) = v at hx htb1 hstep
    refine ⟨_, hx, ?_, hstep⟩
    have : (v.ttu.tb1 : Int) = ((s.ttu.tb1 : Int) + amt).toNat := congrArg Nat.cast htb1
    exact this.trans (Int.toNat_of_nonneg h0)

end Sys2Proof.Machine

/-! PROOF. The plans of the rovers in the profile slot (R49, R237, R239). -/

namespace Sys2Proof.Machine

open Sys2Proof

/-! ### What a rover's planning leaves alone -/

/-- What a sink shows of its plan: its first tick, whether the rover is held at rest, and the points. -/
def planOf (k : PrfSink) : Nat × Bool × List (Int × Nat) := (k.planAt, k.held, k.plan)

/-- The registers the permits on the air are read from (R249). -/
def permitKeys : List Nat := Reg.STP_STATE.FLEET.key 0 0
  :: (List.range 4).flatMap fun n => [Reg.CHT_PERMIT.PERMIT.key n 0, Reg.STP_TSTOP.TSTOP.key n 0]

/-- From s to t the mode, the tick and the permits on the air stay, and so do the plans of the sinks in p. -/
def PlansKept (p : Nat → Prop) (s t : State) : Prop :=
  t.mode = s.mode ∧ t.tick = s.tick ∧ (∀ k ∈ permitKeys, mget 0 t.regs k = mget 0 s.regs k)
    ∧ ∀ q, p q → planOf (prfSink t q) = planOf (prfSink s q)

/-- No plan changes. -/
abbrev AllPlansKept : State → State → Prop := PlansKept fun _ => True

theorem PlansKept.trans {p : Nat → Prop} {s t u : State} (h : PlansKept p s t) (k : PlansKept p t u) : PlansKept p s u :=
  ⟨k.1.trans h.1, k.2.1.trans h.2.1, fun i hi => (k.2.2.1 i hi).trans (h.2.2.1 i hi), fun q hq => (k.2.2.2 q hq).trans (h.2.2.2 q hq)⟩

theorem PlansKept.rfl' (p : Nat → Prop) (s : State) : PlansKept p s s := ⟨rfl, rfl, fun _ _ => rfl, fun _ _ => rfl⟩

theorem PlansKept.weaken {p : Nat → Prop} {s t : State} (h : AllPlansKept s t) : PlansKept p s t :=
  ⟨h.1, h.2.1, h.2.2.1, fun q _ => h.2.2.2 q trivial⟩

theorem PlansKept.plan {s t : State} (h : AllPlansKept s t) (q : Nat) : planOf (prfSink t q) = planOf (prfSink s q) :=
  h.2.2.2 q trivial

theorem PlansKept.permit {p : Nat → Prop} {s t : State} (h : PlansKept p s t) {r : Nat} (hr : r < 128) :
    permitOnAir t r = permitOnAir s r := by
  obtain ⟨hm, _, hk, _⟩ := h
  have hf : Reg.STP_STATE.FLEET.key 0 0 ∈ permitKeys := List.mem_cons_self
  have hw (f : Field) (h : f.key (r / 32) 0 ∈ permitKeys) : t.rbit f r = s.rbit f r := by
    unfold State.rbit State.r
    rw [hk _ h]
  have hmem (k : Nat) (h : k ∈ [Reg.CHT_PERMIT.PERMIT.key (r / 32) 0, Reg.STP_TSTOP.TSTOP.key (r / 32) 0]) : k ∈ permitKeys :=
    List.mem_cons_of_mem _ (List.mem_flatMap.2 ⟨r / 32, List.mem_range.2 (by omega), h⟩)
  unfold permitOnAir State.rb State.r
  rw [hm, hk _ hf, hw _ (hmem _ (by simp)), hw _ (hmem _ (by simp))]

theorem PlansKept.foldl {p : Nat → Prop} {α : Type} (f : State → α → State) (h : ∀ s a, PlansKept p s (f s a)) (l : List α)
    (s : State) : PlansKept p s (l.foldl f s) := by
  induction l generalizing s with
  | nil => exact .rfl' p s
  | cons a l ih => exact (h s a).trans (ih _)

theorem w_allPlansKept (s : State) (f : Field) (v i j : Nat) (h : f.key i j ∉ permitKeys) : AllPlansKept s (s.w f v i j) :=
  ⟨rfl, rfl, fun _ hk => mget_mput_ne 0 s.regs _ fun e => h (e ▸ hk), fun _ _ => rfl⟩

theorem evtKeys_not_permit : ∀ k ∈ permitKeys, k ∉ evtKeys := by decide

theorem raise_allPlansKept (s : State) (e d : Nat) (he : e < 512) : AllPlansKept s (raise s e d) :=
  ⟨raise_mode s e d, raise_tick s e d, fun k hk => raise_keys s e d k he (evtKeys_not_permit k hk),
    fun q _ => by unfold prfSink; rw [raise_prf]⟩

theorem raiseTick_allPlansKept (s : State) (e d : Nat) (he : e < 512) : AllPlansKept s (raiseTick s e d) :=
  ⟨raiseTick_mode s e d, raiseTick_tick s e d, fun k hk => raiseTick_keys s e d k he (evtKeys_not_permit k hk),
    fun q _ => by unfold prfSink; rw [raiseTick_prf]⟩

theorem setPrfCh_allPlansKept (s : State) (c : Nat) (v : PrfCh) : AllPlansKept s (setPrfCh s c v) := .rfl' _ s

theorem prfSink_setPrfSink_same (s : State) (r : Nat) (v : PrfSink) : prfSink (setPrfSink s r v) r = v :=
  mget_mput_same _ _ _ _

theorem prfSink_setPrfSink_ne (s : State) {r q : Nat} (v : PrfSink) (h : q ≠ r) :
    prfSink (setPrfSink s r v) q = prfSink s q := mget_mput_ne _ _ _ h

/-- A sink takes a new state: no other sink's plan changes. -/
theorem setPrfSink_plansKept (s : State) (r : Nat) (v : PrfSink) : PlansKept (· ≠ r) s (setPrfSink s r v) :=
  ⟨rfl, rfl, fun _ _ => rfl, fun _ hq => by rw [prfSink_setPrfSink_ne s v hq]⟩

/-- Its own plan does not either where the new state has the same. -/
theorem setPrfSink_allPlansKept (s : State) (r : Nat) (v : PrfSink) (h : planOf v = planOf (prfSink s r)) :
    AllPlansKept s (setPrfSink s r v) := by
  refine ⟨rfl, rfl, fun _ _ => rfl, fun q _ => ?_⟩
  by_cases hq : q = r
  · rw [hq, prfSink_setPrfSink_same, h]
  · rw [prfSink_setPrfSink_ne s v hq]

theorem setSinkChans_allPlansKept (s : State) (kind k : Nat) (cs : List Nat) : AllPlansKept s (setSinkChans s kind k cs) := by
  unfold setSinkChans
  split
  · exact .rfl' _ s
  · exact setPrfSink_allPlansKept s k _ rfl

theorem prfDirty_allPlansKept (s : State) (c : Nat) : AllPlansKept s (prfDirty s c) := by
  unfold prfDirty
  split <;> exact .rfl' _ s

theorem prfNumber_allPlansKept (s : State) (kind k : Nat) : AllPlansKept s (prfNumber s kind k) :=
  PlansKept.foldl _ (fun u c => (setPrfCh_allPlansKept u c _).trans (prfDirty_allPlansKept _ c)) _ s

theorem prfFree_allPlansKept (s : State) (c : Nat) : AllPlansKept s (prfFree s c) :=
  ((setSinkChans_allPlansKept s _ _ _).trans (setPrfCh_allPlansKept _ c _)).trans (prfDirty_allPlansKept _ c)

theorem prfHandover_allPlansKept (s : State) (kind k : Nat) : AllPlansKept s (prfHandover s kind k) := by
  unfold prfHandover
  split
  · exact .rfl' _ s
  · dsimp only
    split
    · split
      · exact ((prfFree_allPlansKept s _).trans (setSinkChans_allPlansKept _ _ _ _)).trans (prfNumber_allPlansKept _ _ _)
      · exact .rfl' _ s
    · exact .rfl' _ s

theorem prfClamped_allPlansKept (s : State) (c : Nat) : AllPlansKept s (prfClamped s c) :=
  (w_allPlansKept s Reg.PRF_COUNTS.CLAMP_COUNT _ 0 0 (by decide)).trans (raise_allPlansKept _ 225 c (by decide))

/-- A flag of a channel is no bit of a permit: those start their words. -/
theorem prfDone_key (c : Nat) : Reg.PRF_CH.DONE.key c 0 ∉ permitKeys := fun h => by
  have hall : ∀ k ∈ permitKeys, k % 32 = 0 := by decide
  have := hall _ h
  simp only [Field.key, Reg.PRF_CH.DONE, Field.idx, fld] at this
  omega

theorem prfDone_allPlansKept (s : State) (c : Nat) : AllPlansKept s (prfDone s c) := by
  unfold prfDone
  have h : AllPlansKept s (s.wb Reg.PRF_CH.DONE true c) := w_allPlansKept s _ _ c 0 (prfDone_key c)
  dsimp only
  split
  · exact h.trans (raiseTick_allPlansKept _ 224 c (by decide))
  · exact h

theorem exitLate_allPlansKept (r c : Nat) (m : List MapSeg) (x : Int) (ticks : Nat → Bool) (s : State) :
    AllPlansKept s (exitLate r c m x ticks s) := by
  refine PlansKept.foldl _ (fun u g => ?_) _ s
  extract_lets k u1 _
  have h1 : AllPlansKept u u1 := setPrfSink_allPlansKept u r _ rfl
  have h2 : AllPlansKept u1 _ := setPrfCh_allPlansKept u1 c { prfCh u1 c with late := true }
  exact (h1.trans h2).trans ((w_allPlansKept _ Reg.PRF_COUNTS.EXIT_LATE_COUNT _ 0 0 (by decide)).trans
    (raise_allPlansKept _ 226 c (by decide)))

/-! ### Points (R237, R239) -/

/-- From s to t sink r's plan grows by the points given, no other plan changes. -/
def PlanGrows (r : Nat) (s t : State) (new : List (Int × Nat)) : Prop :=
  PlansKept (· ≠ r) s t
    ∧ planOf (prfSink t r) = ((prfSink s r).planAt, (prfSink s r).held, (prfSink s r).plan ++ new)

/-- A point put after changes that touch no plan. -/
theorem planGrows_of_set {r : Nat} {s u : State} (h : AllPlansKept s u) (v : PrfSink) (p : Int × Nat)
    (hv : planOf v = ((prfSink s r).planAt, (prfSink s r).held, (prfSink s r).plan ++ [p])) :
    PlanGrows r s (setPrfSink u r v) [p] :=
  ⟨(PlansKept.weaken h).trans (setPrfSink_plansKept u r v), by rw [prfSink_setPrfSink_same, hv]⟩

/-- A new point is one more of the plan, with speed 0 while the channel is held. -/
theorem prfPoint_grows (r : Nat) (m : List MapSeg) (granted hold : Bool) (t : Nat) (s : State) :
    ∃ p : Int × Nat, PlanGrows r s (prfPoint r m granted hold t s) [p] ∧ (hold = true → p.2 = 0) := by
  unfold prfPoint
  extract_lets k put
  split
  · exact ⟨(k.s, 0), planGrows_of_set (.rfl' _ s) _ _ rfl, fun _ => rfl⟩
  rename_i c _
  extract_lets s1 k1 v b v1 k2 v2 o _ s2 s3 s4
  have h1 : AllPlansKept s s1 := exitLate_allPlansKept r c m k.s _ s
  have hk1 : planOf k1 = planOf k := h1.plan r
  have hk2 : planOf k2 = planOf k := by
    unfold k2
    split <;> exact hk1
  have hput (k' : PrfSink) (ds : Nat) (s0 : Int) (h : planOf k' = planOf k) :
      planOf { k' with plan := k'.plan ++ [(s0, ds)] } = (k.planAt, k.held, k.plan ++ [(s0, ds)]) := by
    simp only [planOf, Prod.mk.injEq] at h ⊢
    obtain ⟨ha, hh, hp⟩ := h
    exact ⟨ha, hh, by rw [hp]⟩
  split
  · exact ⟨(k2.s, 0), planGrows_of_set (h1.trans (setPrfCh_allPlansKept s1 c v2)) _ _ (hput { k2 with v := 0 } 0 _ hk2), fun _ => rfl⟩
  rename_i hmove
  have h3 : AllPlansKept s s3 := by
    have h2 : AllPlansKept s s2 := h1.trans (setPrfCh_allPlansKept s1 c _)
    unfold s3
    split
    · exact h2.trans (prfClamped_allPlansKept s2 c)
    · exact h2
  have h4 : AllPlansKept s s4 := by
    unfold s4
    split
    · exact h3.trans (prfDone_allPlansKept s3 c)
    · exact h3
  refine ⟨(k2.s, o.ds), planGrows_of_set h4 _ _ (hput { k2 with s := o.s, v := o.v, tgt := o.tgt } _ _ hk2), fun hh => ?_⟩
  rw [hh] at hmove
  exact absurd rfl hmove

theorem prfPoints_plansKept (r : Nat) (m : List MapSeg) (granted hold : Bool) (last n : Nat) (s : State) :
    PlansKept (· ≠ r) s (prfPoints r m granted hold last n s) := by
  induction n generalizing s with
  | zero => exact .rfl' _ s
  | succ n ih =>
    unfold prfPoints
    dsimp only
    split
    · exact .rfl' _ s
    · obtain ⟨_, hg, _⟩ := prfPoint_grows r m granted hold ((prfSink s r).planAt + (prfSink s r).plan.length) s
      exact hg.1.trans (ih _)

/-- Points are added up to tick `last`, all with speed 0 while the channel is held. -/
theorem prfPoints_fill (r : Nat) (m : List MapSeg) (granted hold : Bool) (last n : Nat) (s : State)
    (hlen : (prfSink s r).planAt + (prfSink s r).plan.length ≤ last + 1)
    (hn : last + 1 ≤ (prfSink s r).planAt + (prfSink s r).plan.length + n) :
    ∃ new, PlanGrows r s (prfPoints r m granted hold last n s) new
      ∧ (prfSink s r).planAt + (prfSink s r).plan.length + new.length = last + 1 ∧ (hold = true → ∀ p ∈ new, p.2 = 0) := by
  have hdone : PlanGrows r s s [] := ⟨.rfl' _ s, by rw [List.append_nil]; rfl⟩
  induction n generalizing s with
  | zero => exact ⟨[], hdone, by simpa using Nat.le_antisymm hlen hn, fun _ _ h => absurd h List.not_mem_nil⟩
  | succ n ih =>
    unfold prfPoints
    dsimp only
    split
    · exact ⟨[], hdone, by simp only [List.length_nil]; omega, fun _ _ h => absurd h List.not_mem_nil⟩
    rename_i hlt
    obtain ⟨p, ⟨hkept, hplan⟩, hp0⟩ := prfPoint_grows r m granted hold ((prfSink s r).planAt + (prfSink s r).plan.length) s
    generalize prfPoint r m granted hold ((prfSink s r).planAt + (prfSink s r).plan.length) s = u at hkept hplan
    simp only [planOf, Prod.mk.injEq] at hplan
    obtain ⟨hat, hheld, hpl⟩ := hplan
    have hl : (prfSink u r).plan.length = (prfSink s r).plan.length + 1 := by rw [hpl, List.length_append]; rfl
    obtain ⟨new, ⟨hkept', hplan'⟩, hsum, hz⟩ := ih u (by omega) (by omega) ⟨.rfl' _ u, by rw [List.append_nil]; rfl⟩
    refine ⟨p :: new, ⟨hkept.trans hkept', ?_⟩, ?_, fun hh x hx => ?_⟩
    · rw [hplan', hat, hheld, hpl, List.append_assoc]; rfl
    · rw [List.length_cons]; omega
    · rcases List.mem_cons.1 hx with rfl | hx
      · exact hp0 hh
      · exact hz hh x hx

/-! ### The pass of one rover (R237, R239) -/

/-- The corridor in s of a rover leaves the plan of its sink as it was. -/
theorem roverMap_plan (s : State) (r : Nat) : planOf (roverMap s r).2 = planOf (prfSink s r) := by
  unfold roverMap
  dsimp only
  split <;> rfl

/-- The plan moved to the current tick: at rest where it has run out. -/
def shifted (tick : Nat) (k : PrfSink) : PrfSink :=
  if k.plan.isEmpty || decide (k.planAt + k.plan.length ≤ tick) then { k with plan := List.replicate 120 (k.s, 0), planAt := tick }
  else { k with plan := k.plan.drop (tick - k.planAt), planAt := k.planAt + (tick - k.planAt) }

/-- The changes accepted of a sink's channels take effect. -/
def stageChans (r : Nat) (m : List MapSeg) (s : State) (cs : List Nat) : State :=
  cs.foldl (fun s c =>
    let v := prfCh s c
    let k := prfSink s r
    let moving := k.chans.head? == some c
    let (cl, v) := prfStage v true (if moving then k.v else 0)
      (fun p => roverLimit (chtSt s r == 2) m (s.tick + 120) k.s p - k.s)
      (fun p x => brakeFits 1 1 k.v (p.vStop * 1000) (p.vSplit * 1000) p.d2 p.d1 x)
    let s := setPrfCh s c v
    if cl then prfClamped s c else s) s

/-- A rover held at rest is reported once. -/
def heldReport (held : Bool) (c : Option Nat) (s : State) : State :=
  match held, c with
  | true, some c => if s.rb Reg.PRF_CH.HELD c then s else raiseTick s 228 c
  | _, _ => s

/-- A rover whose permit has returned is anchored at x. -/
def anchored (r : Nat) (m : List MapSeg) (x : Int) (s : State) : State :=
  let k := prfSink s r
  let s := setPrfSink s r { k with plan := k.plan.take 1 ++ List.replicate 120 (x, 0), s := x, v := 0, tgt := none }
  match k.chans.head? with
  | some c =>
    let s := setPrfCh s c { prfCh s c with clamp := false, holdV := false, toTgt := false }
    exitLate r c m x (fun t => decide (s.tick < t) && decide (t ≤ s.tick + 120)) s
  | none => s

/-- The pass of a rover before its points. -/
def roverReady (r : Nat) (s : State) : State :=
  let (m, k) := roverMap s r
  stageChans r m (prfHandover (setPrfSink s r (shifted s.tick k)) 1 r) (shifted s.tick k).chans

/-- Where a rover's permit returns, and whether it is held at rest. -/
def roverAnchor (r : Nat) (m : List MapSeg) (s : State) : Option Int :=
  if permitOnAir s r && (prfSink s r).held then prfAnchor s r m (prfSink s r) else none
def roverHeld (r : Nat) (m : List MapSeg) (s : State) : Bool :=
  !permitOnAir s r || ((prfSink s r).held && (roverAnchor r m s).isNone)

theorem prfRover_eq (r : Nat) (s : State) : prfRover r s =
    (let m := (roverMap s r).1
     let u := roverReady r s
     let k := prfSink u r
     let v := setPrfSink (heldReport (roverHeld r m u) k.chans.head? u) r { k with held := roverHeld r m u }
     let w := prfPoints r m (chtSt v r == 2) (roverHeld r m u || (roverAnchor r m u).isSome) (v.tick + 120) 121 v
     match roverAnchor r m u with
     | none => w
     | some x => anchored r m x w) := rfl

theorem stageChans_allPlansKept (r : Nat) (m : List MapSeg) (s : State) (cs : List Nat) : AllPlansKept s (stageChans r m s cs) := by
  refine PlansKept.foldl _ (fun u c => ?_) cs s
  dsimp only
  generalize prfStage _ true _ _ _ = p
  split
  · exact (setPrfCh_allPlansKept u c _).trans (prfClamped_allPlansKept _ c)
  · exact setPrfCh_allPlansKept u c _

theorem heldReport_allPlansKept (held : Bool) (c : Option Nat) (s : State) : AllPlansKept s (heldReport held c s) := by
  unfold heldReport
  split
  · split
    · exact .rfl' _ s
    · exact raiseTick_allPlansKept s 228 _ (by decide)
  · exact .rfl' _ s

theorem anchored_plan (r : Nat) (m : List MapSeg) (x : Int) (s : State) :
    PlansKept (· ≠ r) s (anchored r m x s)
    ∧ planOf (prfSink (anchored r m x s) r)
      = ((prfSink s r).planAt, (prfSink s r).held, (prfSink s r).plan.take 1 ++ List.replicate 120 (x, 0)) := by
  unfold anchored
  extract_lets k u
  have hu : PlansKept (· ≠ r) s u := setPrfSink_plansKept s r _
  have hp : planOf (prfSink u r) = (k.planAt, k.held, k.plan.take 1 ++ List.replicate 120 (x, 0)) := by
    rw [prfSink_setPrfSink_same]; rfl
  clear_value u
  split
  · rename_i c _
    have hk : AllPlansKept u (exitLate r c m x _ (setPrfCh u c _)) :=
      (setPrfCh_allPlansKept u c { prfCh u c with clamp := false, holdV := false, toTgt := false }).trans
        (exitLate_allPlansKept r c m x (fun t => decide (u.tick < t) && decide (t ≤ u.tick + 120)) _)
    exact ⟨hu.trans hk.weaken, (hk.plan r).trans hp⟩
  · exact ⟨hu, hp⟩

theorem roverReady_plan (r : Nat) (s : State) : PlansKept (· ≠ r) s (roverReady r s)
    ∧ planOf (prfSink (roverReady r s) r) = planOf (shifted s.tick (roverMap s r).2) := by
  have h := (prfHandover_allPlansKept (setPrfSink s r (shifted s.tick (roverMap s r).2)) 1 r).trans
    (stageChans_allPlansKept r (roverMap s r).1 _ (shifted s.tick (roverMap s r).2).chans)
  exact ⟨(setPrfSink_plansKept s r _).trans h.weaken, (h.plan r).trans (by rw [prfSink_setPrfSink_same])⟩

/-- A plan that the slot of this tick completes: it has run out, or ends before tick + 120, or there, and then at rest where
the permit is off the air. -/
def PlanDue (tick : Nat) (on : Bool) (k : PrfSink) : Prop :=
  k.plan = [] ∨ k.planAt ≤ tick ∧ (k.planAt + k.plan.length ≤ tick + 120
    ∨ k.planAt + k.plan.length = tick + 121 ∧ (on = false → k.plan.getLast?.map (·.2) = some 0))

/-- A plan from this tick to tick + 120, held and ending at rest where the permit is off the air. -/
def Planned (tick : Nat) (on : Bool) (k : PrfSink) : Prop :=
  k.planAt = tick ∧ k.plan.length = 121 ∧ (on = false → k.held = true ∧ k.plan.getLast?.map (·.2) = some 0)

theorem Planned.due {tick : Nat} {on : Bool} {k : PrfSink} (h : Planned tick on k) : PlanDue tick on k := by
  obtain ⟨hat, hlen, hoff⟩ := h
  exact .inr ⟨hat.le, .inr ⟨by omega, fun ho => (hoff ho).2⟩⟩

/-- Two sinks of one plan. -/
theorem PlanDue.congr {tick : Nat} {on : Bool} {k l : PrfSink} (h : PlanDue tick on k) (e : planOf l = planOf k) :
    PlanDue tick on l := by
  simp only [planOf, Prod.mk.injEq] at e
  obtain ⟨ha, _, hp⟩ := e
  unfold PlanDue
  rw [ha, hp]; exact h

theorem Planned.congr {tick : Nat} {on : Bool} {k l : PrfSink} (h : Planned tick on k) (e : planOf l = planOf k) :
    Planned tick on l := by
  simp only [planOf, Prod.mk.injEq] at e
  obtain ⟨ha, hh, hp⟩ := e
  unfold Planned
  rw [ha, hh, hp]; exact h

/-- A due plan moved to the current tick has 1 to 121 points, and of 121 the last is the one it ended with. -/
theorem shifted_of_due {tick : Nat} {on : Bool} {k : PrfSink} (h : PlanDue tick on k) :
    (shifted tick k).planAt = tick ∧ 0 < (shifted tick k).plan.length ∧ (shifted tick k).plan.length ≤ 121
      ∧ ((shifted tick k).plan.length = 121 → on = false → (shifted tick k).plan.getLast?.map (·.2) = some 0) := by
  unfold shifted
  split
  · refine ⟨rfl, ?_⟩
    simp
  · rename_i hne
    have hne' : k.plan ≠ [] ∧ tick < k.planAt + k.plan.length := by simpa using hne
    obtain ⟨hnil, hlt⟩ := hne'
    rcases h with h | ⟨hat, h⟩
    · exact absurd h hnil
    · have hlen : (k.plan.drop (tick - k.planAt)).length = k.plan.length - (tick - k.planAt) := List.length_drop
      refine ⟨Nat.add_sub_cancel' hat, ?_, ?_, fun hl ho => ?_⟩ <;> dsimp only at *
      · omega
      · omega
      · rcases h with h | ⟨_, hlast⟩
        · omega
        · rw [List.getLast?_drop, if_neg (by omega)]
          exact hlast ho

/-- What the pass of a rover has when it begins to add points: the plan moved to this tick, and HELD as the permit says. -/
theorem roverReady_held (r : Nat) (m : List MapSeg) (s : State) :
    let u := roverReady r s
    let v := setPrfSink (heldReport (roverHeld r m u) (prfSink u r).chans.head? u) r { prfSink u r with held := roverHeld r m u }
    PlansKept (· ≠ r) s v
      ∧ planOf (prfSink v r) = ((shifted s.tick (roverMap s r).2).planAt, roverHeld r m u, (shifted s.tick (roverMap s r).2).plan) := by
  intro u v
  obtain ⟨hkept, hplan⟩ := roverReady_plan r s
  have hr := heldReport_allPlansKept (roverHeld r m u) (prfSink u r).chans.head? u
  refine ⟨(hkept.trans hr.weaken).trans (setPrfSink_plansKept _ r _), ?_⟩
  rw [prfSink_setPrfSink_same]
  simp only [planOf, Prod.mk.injEq] at hplan ⊢
  exact ⟨hplan.1, trivial, hplan.2.2⟩

/-- A plan of 121 points, old ones and then new ones, held with the last at rest where the permit is off the air. -/
theorem planned_points {tick : Nat} {old new : List (Int × Nat)} {held on : Bool} {k : PrfSink}
    (hk : planOf k = (tick, held, old ++ new)) (hlen : old.length + new.length = 121)
    (hoff : on = false → held = true ∧ (old.length = 121 → old.getLast?.map (·.2) = some 0) ∧ ∀ p ∈ new, p.2 = 0) :
    Planned tick on k := by
  simp only [planOf, Prod.mk.injEq] at hk
  obtain ⟨hat, hheld, hp⟩ := hk
  refine ⟨hat, by rw [hp, List.length_append, hlen], fun ho => ?_⟩
  obtain ⟨hh, hlast, hnew⟩ := hoff ho
  refine ⟨hheld.trans hh, ?_⟩
  rw [hp, List.getLast?_append]
  cases hn : new.getLast? with
  | none =>
    have : new = [] := List.getLast?_eq_none_iff.1 hn
    subst this
    exact hlast (by simpa using hlen)
  | some p => exact congrArg some (hnew p (List.mem_of_getLast? hn))

/-- The points of a rover's pass: those of its due plan, then new ones up to tick + 120. -/
theorem prfPoints_complete {r : Nat} {m : List MapSeg} {granted hold held on : Bool} {tick : Nat} {k : PrfSink} {v : State}
    (hdue : PlanDue tick on k) (hpv : planOf (prfSink v r) = ((shifted tick k).planAt, held, (shifted tick k).plan))
    (ht : v.tick = tick) :
    ∃ new, planOf (prfSink (prfPoints r m granted hold (v.tick + 120) 121 v) r) = (tick, held, (shifted tick k).plan ++ new)
      ∧ (shifted tick k).plan.length + new.length = 121 ∧ (hold = true → ∀ p ∈ new, p.2 = 0) := by
  obtain ⟨hat, hpos, hle, _⟩ := shifted_of_due hdue
  simp only [planOf, Prod.mk.injEq] at hpv
  obtain ⟨hat', hheld, hpl⟩ := hpv
  have hs : (prfSink v r).planAt + (prfSink v r).plan.length = tick + (shifted tick k).plan.length :=
    congrArg₂ (· + ·) (hat'.trans hat) (congrArg List.length hpl)
  obtain ⟨new, ⟨_, hplan⟩, hsum, hz⟩ := prfPoints_fill r m granted hold (v.tick + 120) 121 v (by omega) (by omega)
  refine ⟨new, ?_, by omega, hz⟩
  rw [hplan, hat', hat, hheld, hpl]

/-- The pass of a rover plans no other one, and completes its own plan. -/
theorem prfRover_plans (r : Nat) (s : State) : PlansKept (· ≠ r) s (prfRover r s)
    ∧ (r < 128 → PlanDue s.tick (permitOnAir s r) (prfSink s r) → Planned s.tick (permitOnAir s r) (prfSink (prfRover r s) r)) := by
  rw [prfRover_eq]
  extract_lets m u k v w
  have hu : PlansKept (· ≠ r) s u := (roverReady_plan r s).1
  obtain ⟨hv, hpv⟩ := roverReady_held r m s
  have hw : PlansKept (· ≠ r) s w := hv.trans (prfPoints_plansKept r m _ _ _ 121 v)
  have hfill (hdue : PlanDue s.tick (permitOnAir s r) (prfSink s r)) := prfPoints_complete (m := m) (granted := chtSt v r == 2)
    (hold := roverHeld r m u || (roverAnchor r m u).isSome) (hdue.congr (roverMap_plan s r)) hpv hv.2.1
  split
  · rename_i ha
    refine ⟨hw, fun hr hdue => ?_⟩
    obtain ⟨new, hplan, hlen, hz⟩ := hfill hdue
    refine planned_points hplan hlen fun ho => ?_
    have hheld : roverHeld r m u = true := by
      unfold roverHeld
      rw [hu.permit hr, ho]
      rfl
    exact ⟨hheld, fun h => (shifted_of_due (hdue.congr (roverMap_plan s r))).2.2.2 h ho, hz (by rw [hheld]; rfl)⟩
  · rename_i x ha
    obtain ⟨hx, hpx⟩ := anchored_plan r m x w
    refine ⟨hw.trans hx, fun hr hdue => ?_⟩
    obtain ⟨new, hplan, hlen, _⟩ := hfill hdue
    obtain ⟨_, hpos, _, _⟩ := shifted_of_due (hdue.congr (roverMap_plan s r))
    simp only [planOf, Prod.mk.injEq] at hplan
    obtain ⟨hat, hheld, hp⟩ := hplan
    rw [hat, hheld] at hpx
    have hone : ((prfSink w r).plan.take 1).length = 1 := by
      rw [hp, List.length_take, List.length_append]; omega
    refine planned_points hpx (by rw [hone, List.length_replicate]) fun ho => ?_
    have hnone : roverAnchor r m u = none := by
      unfold roverAnchor
      rw [hu.permit hr, ho]
      rfl
    rw [hnone] at ha
    exact absurd ha (by simp)

/-! ### The slot (R49, R237) -/

/-- A plan completed stays so while other rovers, or its own once more, are planned. -/
theorem prfRovers_keep {on : Bool} {r : Nat} (hr : r < 128) (l : List Nat) (s : State) (hon : permitOnAir s r = on)
    (h : Planned s.tick on (prfSink s r)) : Planned s.tick on (prfSink (l.foldl (fun s q => prfRover q s) s) r) := by
  induction l generalizing s with
  | nil => exact h
  | cons q l ih =>
    obtain ⟨hkept, hown⟩ := prfRover_plans q s
    have hq : Planned s.tick on (prfSink (prfRover q s) r) := by
      by_cases hrq : r = q
      · subst hrq
        rw [← hon] at h ⊢
        exact hown hr h.due
      · exact h.congr (hkept.2.2.2 r hrq)
    have := ih (prfRover q s) ((hkept.permit hr).trans hon) (by rw [hkept.2.1]; exact hq)
    rwa [hkept.2.1] at this

theorem prfRovers_plan {r : Nat} (hr : r < 128) (l : List Nat) (s : State) (hmem : r ∈ l)
    (h : PlanDue s.tick (permitOnAir s r) (prfSink s r)) :
    Planned s.tick (permitOnAir s r) (prfSink (l.foldl (fun s q => prfRover q s) s) r) := by
  induction l generalizing s with
  | nil => exact absurd hmem List.not_mem_nil
  | cons q l ih =>
    obtain ⟨hkept, hown⟩ := prfRover_plans q s
    have ht : (prfRover q s).tick = s.tick := hkept.2.1
    have hp : permitOnAir (prfRover q s) r = permitOnAir s r := hkept.permit hr
    by_cases hrq : r = q
    · subst hrq
      have := prfRovers_keep hr l (prfRover r s) hp (by rw [ht]; exact hown hr h)
      rwa [ht] at this
    · have := ih (prfRover q s) ((List.mem_cons.1 hmem).resolve_left hrq)
        (by rw [ht, hp]; exact h.congr (hkept.2.2.2 r hrq))
      rwa [ht, hp] at this

theorem prfRovers_mode (l : List Nat) (s : State) : (l.foldl (fun s q => prfRover q s) s).mode = s.mode := by
  induction l generalizing s with
  | nil => rfl
  | cons q l ih => exact (ih _).trans (prfRover_plans q s).1.1

theorem prfShow_kept (position : Nat → Int) (s : State) (c : Nat) :
    (prfShow position s c).mode = s.mode ∧ (prfShow position s c).prf = s.prf := by
  unfold prfShow
  simp only [State.w_mode, State.wb_mode, State.wi_mode, State.w_prf, State.wb_prf, State.wi_prf, and_self]

/-- Latching the channels into the registers changes registers, and the list of channels to be latched. -/
theorem prfLatch_kept (s : State) : (prfLatch s).mode = s.mode ∧ ∀ r, prfSink (prfLatch s) r = prfSink s r := by
  have hfold (position : Nat → Int) (l : List Nat) (u : State) :
      (l.foldl (prfShow position) u).mode = u.mode ∧ (l.foldl (prfShow position) u).prf = u.prf := by
    induction l generalizing u with
    | nil => exact ⟨rfl, rfl⟩
    | cons c l ih =>
      obtain ⟨hm, hp⟩ := prfShow_kept position u c
      obtain ⟨hm', hp'⟩ := ih (prfShow position u c)
      rw [List.foldl_cons]
      exact ⟨hm'.trans hm, hp'.trans hp⟩
  unfold prfLatch
  extract_lets position bound dirty _ u
  obtain ⟨hm, hp⟩ := hfold position (bound ++ dirty) { s with prf := { s.prf with dirty := [] } }
  change u.mode = s.mode at hm
  have hr : u.prf.rovers = s.prf.rovers := by rw [show u.prf = _ from hp]
  clear_value u
  exact ⟨hm, fun r => congrArg (fun l => mget ({} : PrfSink) l r) hr⟩

/-- A slot that ends in time has its use measured, and nothing more. -/
theorem slotEnd_done (s : State) (e : Nat) (use : SlotUse) (h : use.pending = false) : slotEnd s e use = slotUsed s e use.held := by
  unfold slotEnd
  rw [h]
  rfl

/-- Work of an engine of fixed cost still pending at the end of its slot leads to DEAD with cause 0x05. -/
theorem slotEnd_fault (s : State) (e : Nat) (use : SlotUse) (h : use.pending = true) (hf : fixedCost e = true) (hd : s.mode ≠ .dead) :
    (slotEnd s e use).mode = .dead ∧ (slotEnd s e use).bt.cause = 0x05 := by
  unfold slotEnd
  rw [h, hf]
  have hm : (raise (note (overrun (slotUsed s e use.held) e) 2 (le 1 e)) 2).mode = s.mode := by
    rw [raise_mode, note, logNow_mode, (overrun_modeAirPair _ e).1, (slotUsed_modeAirPair s e _).1]
  obtain ⟨hmode, hcause, _⟩ := enterDead_shows _ 0x05 0 (hm.symm ▸ hd)
  exact ⟨hmode, hcause⟩

theorem slotUsed_allPlansKept (s : State) (e held : Nat) (he : e < 13) : AllPlansKept s (slotUsed s e held) := by
  have hk : Reg.TTU_SLOT_USE.MAX_USE.key e 0 ∉ permitKeys := by
    revert he
    revert e
    decide
  unfold slotUsed
  dsimp only
  split
  · exact PlansKept.trans (t := { s with ttu := _ }) (.rfl' _ s) (w_allPlansKept _ _ _ e 0 hk)
  · exact .rfl' _ s

theorem prfSlot_fault (s : State) (use : SlotUse) (h : use.pending = true) (hd : s.mode ≠ .dead) :
    (prfSlot use s).mode = .dead ∧ (prfSlot use s).bt.cause = 5 := by
  have hend := slotEnd_fault s 6 use h rfl hd
  unfold prfSlot
  dsimp only
  rw [if_pos (by simpa using hend.1)]
  exact hend

theorem prfSlot_plans (s : State) (use : SlotUse) (h : use.pending = false) (hd : s.mode ≠ .dead) :
    (prfSlot use s).mode = s.mode ∧ ∀ r ∈ s.prf.rovers.map (·.1), r < 128 →
      PlanDue s.tick (permitOnAir s r) (prfSink s r) → Planned s.tick (permitOnAir s r) (prfSink (prfSlot use s) r) := by
  have hu : AllPlansKept s (slotUsed s 6 use.held) := slotUsed_allPlansKept s 6 _ (by decide)
  have hrov : (slotUsed s 6 use.held).prf = s.prf := by
    unfold slotUsed
    dsimp only
    split <;> rfl
  unfold prfSlot
  rw [slotEnd_done s 6 use h]
  generalize slotUsed s 6 use.held = u at hu hrov
  dsimp only
  rw [if_neg (by simpa [hu.1] using hd), hrov]
  obtain ⟨hm, hsink⟩ := prfLatch_kept ((s.prf.rovers.map (·.1) ++ (u.cht.rovers.map (·.1)).filter fun r =>
    !(s.prf.rovers.any fun p => p.1 == r)).foldl (fun s r => prfRover r s) u)
  refine ⟨hm.trans ((prfRovers_mode _ u).trans hu.1), fun r hr hlt hdue => ?_⟩
  rw [hsink, ← hu.2.1, ← hu.permit hlt]
  refine prfRovers_plan hlt _ u (List.mem_append_left _ hr) ?_
  rw [hu.2.1, hu.permit hlt]
  exact hdue.congr (hu.plan r)

/-- Settles O44: the slot of fixed cost, and the pass of each rover, which fills its plan up to tick + 120. -/
theorem theProfileSlotPlansAndHolds : Obligations.the_profile_slot_plans_and_holds := by
  unfold Obligations.the_profile_slot_plans_and_holds
  intro s use he _
  have hx : exec (.prfSlot use) s = _ := engines_exec (prfSlot use) s he
  have hd : (s.start.atInst none).mode ≠ .dead := fun hm => by
    have hs : s.slots = true := he.2
    unfold State.slots State.running at hs
    rw [show s.mode = .dead from hm] at hs
    simp at hs
  refine ⟨fun hp => ?_, fun hp => ?_⟩
  · have hf := prfSlot_fault (s.start.atInst none) use hp hd
    generalize prfSlot use (s.start.atInst none) = v at hx hf
    exact ⟨_, hx, hf⟩
  · obtain ⟨hm, hplans⟩ := prfSlot_plans (s.start.atInst none) use hp hd
    generalize prfSlot use (s.start.atInst none) = v at hx hm hplans
    refine ⟨_, hx, hm, fun r hr hlt hk => ?_⟩
    obtain ⟨hat, hlen, hoff⟩ := hplans r hr hlt (hk.imp_right fun h => ⟨h.1, .inl h.2⟩)
    exact ⟨hat, hlen, hoff⟩

end Sys2Proof.Machine

/-! PROOF. Events pending stay pending while a stop is released (R248, R255 to R259, R354). -/

namespace Sys2Proof.Machine

open Sys2Proof

/-- From s to t no event ceases to be pending. -/
def PendStay (s t : State) : Prop := ∀ e < 512, pending s e = true → pending t e = true

theorem PendStay.rfl' (s : State) : PendStay s s := fun _ _ h => h

theorem PendStay.trans {s t u : State} (h : PendStay s t) (k : PendStay t u) : PendStay s u :=
  fun e he hp => k e he (h e he hp)

theorem PendStay.of_regs {s t : State} (h : t.regs = s.regs) : PendStay s t := fun _ _ hp => by
  rw [pending_of_pend (r_of_regs h _ _ _)]
  exact hp

/-- A write outside the registers of HST. -/
theorem w_pendStay (s : State) (f : Field) (v i j : Nat) (h : blockOf (f.key i j) ≠ 0xD) : PendStay s (s.w f v i j) :=
  fun e he hp => by
    rw [pending_of_pend (State.r_w_ne _ _ _ _ _ _ _ _ fun hk => h ?_)]
    · exact hp
    · rw [← hk]
      simp only [blockOf, Field.key, Reg.HST_EVT_PEND.PEND, Field.idx, fld]
      omega

theorem raise_pendStay (s : State) (e d : Nat) : PendStay s (raise s e d) := fun e' he hp => by
  have hc : pending (raiseCore s e d) e' = true := by
    rw [raiseCore_sets_pending s e d he, hp, Bool.or_true]
  unfold raise
  dsimp only
  split
  · exact hc
  · rw [raiseCore_sets_pending _ _ _ he]
    exact Bool.or_eq_true_iff.2 (.inr hc)

theorem raiseTick_pendStay (s : State) (e d : Nat) : PendStay s (raiseTick s e d) := by
  unfold raiseTick raiseTickKey
  split
  · exact .rfl' s
  · exact PendStay.trans (t := { s with onceTick := s.onceTick ++ [e] }) (.of_regs rfl) (raise_pendStay _ e d)

theorem stpRaise_pendStay (s : State) (e d : Nat) : PendStay s (stpRaise s e d) := by
  unfold stpRaise
  split
  · exact .of_regs rfl
  · split
    · exact raiseTick_pendStay s e d
    · exact raise_pendStay s e d

theorem reflect_pendStay (s : State) (i : ReflItem) : PendStay s (reflect s i) := .of_regs (reflect_regs s i)

theorem iter_pendStay (f : Nat → State → State) (n : Nat) (h : ∀ k < n, ∀ s, PendStay s (f k s)) (s : State) :
    PendStay s (iter f n s) := by
  induction n with
  | zero => exact .rfl' s
  | succ n ih => exact (ih fun k hk => h k (by omega)).trans (h n (by omega) _)

theorem foldl_pendStay {α : Type} (f : State → α → State) (h : ∀ s a, PendStay s (f s a)) (l : List α) (s : State) :
    PendStay s (l.foldl f s) := by
  induction l generalizing s with
  | nil => exact .rfl' s
  | cons a l ih => exact (h s a).trans (ih _)

/-! ### The data path a burst cuts (R288) -/

theorem secSent_pendStay (s : State) : PendStay s (secSent s) := by
  unfold secSent
  split
  · exact PendStay.trans (t := { s with sec := { s.sec with switch := false } }) (.of_regs rfl) (raise_pendStay _ _ _)
  · exact .rfl' s

theorem nextGroupSeq_pendStay (s : State) (hb : Nat) (h : hb < 2) : PendStay s (nextGroupSeq s hb).2 := by
  unfold nextGroupSeq setGroupSeq
  dsimp only
  refine ((w_pendStay s _ _ _ _ ?_).trans (w_pendStay _ _ _ _ _ ?_)).trans (reflect_pendStay _ _) <;>
    interval_cases hb <;> decide

theorem elBegin_pendStay (hb : Nat) (s : State) (e : LuvEl) (h : hb < 2) : PendStay s (elBegin hb s e).2 := by
  unfold elBegin
  split
  · exact (nextGroupSeq_pendStay s hb h).trans (secSent_pendStay _)
  · exact (nextGroupSeq_pendStay s hb h).trans (secSent_pendStay _)
  · exact .rfl' s

/-- An element that ends goes on the air and into what LUV and Chart hold: no register changes. -/
theorem elEnd_regs (hb : Nat) (s : State) (e : LuvEl) : (elEnd hb s e).regs = s.regs := by
  unfold elEnd
  extract_lets u
  have hu : u.regs = s.regs := by
    unfold u
    split <;> rfl
  split
  · exact hu
  · exact hu

theorem elsUpTo_pendStay (hb t : Nat) (h : hb < 2) (es : List LuvEl) (s : State) : PendStay s (elsUpTo hb t es s).2 := by
  induction es generalizing s with
  | nil => exact .rfl' s
  | cons e es ih =>
    unfold elsUpTo
    split
    · exact ih s
    have hbegin : PendStay s (if e.start < t && !e.begun then elBegin hb (s.atInst (some (cycU e.start))) e else (e, s)).2 := by
      split
      · exact PendStay.trans (t := s.atInst (some (cycU e.start))) (.of_regs rfl) (elBegin_pendStay hb _ e h)
      · exact .rfl' s
    dsimp only
    generalize (if e.start < t && !e.begun then elBegin hb (s.atInst (some (cycU e.start))) e else (e, s)) = p at hbegin ⊢
    obtain ⟨e', u⟩ := p
    have hu : PendStay s (u.atInst s.inst) := hbegin.trans (.of_regs rfl)
    dsimp only
    generalize u.atInst s.inst = u at hu
    split
    · exact hu.trans ((PendStay.of_regs (elEnd_regs hb u e')).trans (ih _))
    · exact hu.trans (ih _)

theorem luvFlush_pendStay (s : State) (hb t : Nat) (h : hb < 2) : PendStay s (luvFlush s hb t) := by
  unfold luvFlush
  exact (elsUpTo_pendStay hb t h _ s).trans (.of_regs rfl)

theorem preempted_pendStay (s : State) (hb : Nat) (e : LuvEl) : PendStay s (preempted s hb e) := by
  unfold preempted
  extract_lets u q _
  have hu : PendStay s u := w_pendStay s _ _ 0 0 (by decide)
  split
  · refine PendStay.trans ?_ (raiseTick_pendStay _ _ _)
    exact hu
  · exact hu

theorem luvCut_pendStay (s : State) (hb a b : Nat) (h : hb < 2) : PendStay s (luvCut s hb a b) := by
  unfold luvCut
  extract_lets _ u v p cut head rest w
  have hv : PendStay u v := luvFlush_pendStay u hb a h
  exact (PendStay.trans (t := u) (.of_regs rfl) hv).trans
    (PendStay.trans (t := w) (.of_regs rfl) (foldl_pendStay _ (fun s e => preempted_pendStay s hb e) cut w))

/-! ### Bursts, the lantern link and CAN (R255 to R259) -/

theorem burstAllowed_pendStay (s : State) (hb cyc : Nat) : PendStay s (burstAllowed s hb cyc).2 := by
  unfold burstAllowed
  split
  · exact .rfl' s
  · split
    · split
      · exact (w_pendStay s _ _ 0 0 (by decide)).trans (raise_pendStay _ _ _)
      · exact .of_regs rfl
    · exact .rfl' s

theorem setHbPath_regs (s : State) (hb : Nat) (p : HbPath) : (setHbPath s hb p).regs = s.regs := by
  unfold setHbPath
  split <;> rfl

theorem setHbPath_pendStay (s : State) (hb : Nat) (p : HbPath) : PendStay s (setHbPath s hb p) := .of_regs (setHbPath_regs s hb p)

theorem markSent_pendStay (s : State) (fs : List (Option Nat)) : PendStay s (markSent s fs) := by
  unfold markSent
  refine foldl_pendStay _ (fun s f => ?_) fs s
  cases f <;> exact .of_regs rfl

theorem burstStart_pendStay (s : State) (hb start : Nat) (fs : List (Option Nat)) (rest : HbPath) (e : Nat) (h : hb < 2) :
    PendStay s (burstStart s hb start fs rest e) := by
  unfold burstStart
  extract_lets n i u done
  have ha : PendStay s (burstAllowed u hb n).2 := PendStay.trans (t := u) (.of_regs rfl) (burstAllowed_pendStay u hb n)
  generalize burstAllowed u hb n = p at ha
  obtain ⟨b, v⟩ := p
  cases b with
  | false => exact (ha.trans (setHbPath_pendStay v hb _)).trans (.of_regs rfl)
  | true =>
    have hc := ha.trans ((luvCut_pendStay v hb start (start + n) h).trans (setHbPath_pendStay _ hb
      { rest with onAir := fs, endCyc := start + n }))
    dsimp only
    refine PendStay.trans ((hc.trans ?_).trans (markSent_pendStay _ fs)) (.of_regs rfl)
    split
    · exact secSent_pendStay _
    · exact .rfl' _

theorem burstAdvance_pendStay (hb t e : Nat) (h : hb < 2) (n : Nat) (s : State) : PendStay s (burstAdvance hb t e n s) := by
  induction n generalizing s with
  | zero => exact .rfl' s
  | succ n ih =>
    unfold burstAdvance
    split
    · exact .rfl' s
    · split
      · exact (burstStart_pendStay s hb _ _ _ _ h).trans (ih _)
      · exact .rfl' s

theorem burstRelease_pendStay (s : State) (hb cyc : Nat) (f : Option Nat) (e : Nat) (h : hb < 2) :
    PendStay s (burstRelease s hb cyc f e) := by
  have ha := burstAdvance_pendStay hb cyc e h 32 s
  unfold burstRelease
  dsimp only
  split
  · split
    · exact ha.trans (burstStart_pendStay _ hb _ _ _ _ h)
    · exact ha.trans (setHbPath_pendStay _ _ _)
  · split
    · exact ha.trans (setHbPath_pendStay _ _ _)
    · exact ha.trans (burstStart_pendStay _ hb _ _ _ _ h)

theorem lanternAir_pendStay (s : State) (cyc sync : Nat) (b : List Byte) : PendStay s (lanternAir s cyc sync b) := by
  have hcut : PendStay s (if cyc < s.luv.lanEnd then s.emit (.lanternCut cyc) else s) := by
    split <;> exact .of_regs rfl
  unfold lanternAir
  dsimp only
  generalize (if cyc < s.luv.lanEnd then s.emit (.lanternCut cyc) else s) = u at hcut ⊢
  refine hcut.trans ?_
  split
  · exact PendStay.trans (t := { u with luv := { u.luv with lanEnd := cyc + lanternCyc, airTicks := _ } }) (.of_regs rfl)
      ((w_pendStay _ _ _ 0 0 (by decide)).trans (.of_regs rfl))
  · exact .of_regs rfl

theorem lanternStop_pendStay (s : State) (c e l : Nat) : PendStay s (lanternStop s c e l) := by
  unfold lanternStop lanternSkip
  split
  · exact .rfl' s
  · split
    · dsimp only
      refine PendStay.trans ?_ (lanternAir_pendStay _ _ _ _)
      split
      · exact secSent_pendStay s
      · exact .rfl' s
    · exact (w_pendStay s _ _ 0 0 (by decide)).trans (raise_pendStay _ _ _)

theorem canStopPut_pendStay (s : State) (c : Nat) (f : StopFrame) (hc : c < 4) : PendStay s (canStopPut s c f) := by
  unfold canStopPut
  extract_lets q u q' v w
  have hu : PendStay s u := by
    unfold u
    split
    · exact w_pendStay s _ _ c 0 (by interval_cases c <;> decide)
    · exact .rfl' s
  exact (hu.trans (PendStay.of_regs (t := w) rfl)).trans ((w_pendStay w Reg.CAN_STOPV.DEPTH _ c 0 (by interval_cases c <;> decide)).trans
    (w_pendStay _ Reg.CAN_CH_STATUS.RESTRICTED _ c 0 (by interval_cases c <;> decide)))

theorem canStopAll_pendStay (s : State) (f : StopFrame) : PendStay s (canStopAll s f) := by
  unfold canStopAll
  refine iter_pendStay _ 4 (fun c hc u => ?_) s
  split
  · exact canStopPut_pendStay u c f hc
  · exact .rfl' u

theorem releaseFrames_pendStay (s : State) (rover : Option Nat) (rel : RelIn) : PendStay s (releaseFrames s rover rel) := by
  unfold releaseFrames
  split
  · exact .rfl' s
  · rename_i e _
    extract_lets u v w x
    have hu : PendStay s u := by
      unfold u
      split
      · exact stpRaise_pendStay s _ _
      · exact .rfl' s
    have hw : PendStay s w := hu.trans ((burstRelease_pendStay u 0 rel.cyc rover e (by decide)).trans
      (burstRelease_pendStay v 1 rel.cyc rover e (by decide)))
    have hx : PendStay w x := by
      unfold x
      split
      · exact lanternStop_pendStay w _ _ _
      · exact .rfl' w
    exact (hw.trans hx).trans (canStopAll_pendStay _ _)

end Sys2Proof.Machine

/-! PROOF. What a request for a stop leaves alone, and the latch it sets (R248, R265). -/

namespace Sys2Proof.Machine

open Sys2Proof

/-- The blocks of STP, LUV, SEC and CAN. -/
def stopBlock (b : Nat) : Bool := airBlock b || b == 9

/-- From s to t the mode, the doorbell reads outstanding, what FIX holds and the registers outside STP, LUV, SEC, CAN and the
event machinery stay, and events pending stay so. -/
structure RequestKept (s t : State) : Prop where
  mode : t.mode = s.mode
  dbReads : t.hst.dbReads = s.hst.dbReads
  fix : t.fix = s.fix
  regs : ∀ k, k ∉ evtKeys → stopBlock (blockOf k) = false → mget 0 t.regs k = mget 0 s.regs k
  pend : PendStay s t

theorem RequestKept.rfl' (s : State) : RequestKept s s := ⟨rfl, rfl, rfl, fun _ _ _ => rfl, .rfl' s⟩

theorem RequestKept.trans {s t u : State} (h : RequestKept s t) (k : RequestKept t u) : RequestKept s u :=
  ⟨k.mode.trans h.mode, k.dbReads.trans h.dbReads, k.fix.trans h.fix, fun i a b => (k.regs i a b).trans (h.regs i a b),
    h.pend.trans k.pend⟩

theorem RequestKept.of_regs {s t : State} (hm : t.mode = s.mode) (hd : t.hst.dbReads = s.hst.dbReads) (hf : t.fix = s.fix)
    (hr : t.regs = s.regs) : RequestKept s t := ⟨hm, hd, hf, fun _ _ _ => by rw [hr], .of_regs hr⟩

theorem RequestKept.of_air {s t : State} (h : AirOnly s t) (p : PendStay s t) : RequestKept s t := by
  refine ⟨by rw [h.1], by rw [h.1], by rw [h.1], fun k hk hb => h.2 k hk ?_, p⟩
  simp only [stopBlock, Bool.or_eq_false_iff] at hb
  exact hb.1

/-- A write of a register of STP. -/
theorem w_requestKept (s : State) (f : Field) (v i j : Nat) (h : blockOf (f.key i j) = 9) : RequestKept s (s.w f v i j) := by
  refine ⟨rfl, rfl, rfl, fun k _ hb => mget_mput_ne 0 s.regs _ fun hk => ?_, w_pendStay s f v i j (by rw [h]; decide)⟩
  rw [hk, h] at hb
  exact absurd hb (by decide)

theorem stpRaise_requestKept (s : State) (e d : Nat) (he : e < 512) : RequestKept s (stpRaise s e d) :=
  .of_air (stpRaise_airOnly s e d he) (stpRaise_pendStay s e d)

theorem reflect_requestKept (s : State) (i : ReflItem) : RequestKept s (reflect s i) :=
  .of_air (reflect_airOnly s i) (reflect_pendStay s i)

theorem complete_requestKept (s : State) (h : Handle) (st d : Nat) : RequestKept s (complete s h st d) :=
  .of_regs (complete_mode s h st d) (by rw [complete_only]) (by rw [complete_only]) (complete_regs s h st d)

theorem foldl_requestKept {α : Type} (f : State → α → State) (h : ∀ s a, RequestKept s (f s a)) (l : List α) (s : State) :
    RequestKept s (l.foldl f s) := by
  induction l generalizing s with
  | nil => exact .rfl' s
  | cons a l ih => exact (h s a).trans (ih _)

theorem cancelResumes_requestKept (s : State) (rover : Option Nat) : RequestKept s (cancelResumes s rover) := by
  unfold cancelResumes
  extract_lets hit _ u
  exact RequestKept.trans (t := u) (.of_regs rfl rfl rfl rfl) (foldl_requestKept _ (fun v p => complete_requestKept v p.h _ _) hit u)

/-! ### The fleet latch -/

/-- A request changes nothing of the latch but by setting it: both frames of what follows. -/
def LatchKept (s t : State) : Prop := RequestKept s t ∧ t.r Reg.STP_STATE.FLEET = s.r Reg.STP_STATE.FLEET

theorem LatchKept.rfl' (s : State) : LatchKept s s := ⟨.rfl' s, rfl⟩

theorem LatchKept.trans {s t u : State} (h : LatchKept s t) (k : LatchKept t u) : LatchKept s u :=
  ⟨h.1.trans k.1, k.2.trans h.2⟩

theorem LatchKept.of_air {s t : State} (h : AirOnly s t) (p : PendStay s t) : LatchKept s t :=
  ⟨.of_air h p, h.r _ _ _ (by decide) (by decide)⟩

theorem w_latchKept (s : State) (f : Field) (v i j : Nat) (h : blockOf (f.key i j) = 9)
    (hne : Reg.STP_STATE.FLEET.key 0 0 ≠ f.key i j) : LatchKept s (s.w f v i j) :=
  ⟨w_requestKept s f v i j h, State.r_w_ne _ _ _ _ _ _ _ _ hne⟩

theorem stpLast_latchKept (s : State) (src : Nat) (rover : Option Nat) (lat : Nat) : LatchKept s (stpLast s src rover lat) :=
  (((((w_latchKept s Reg.STP_LAST.TICK_LO _ 0 0 (by decide) (by decide)).trans
    (w_latchKept _ Reg.STP_LAST.TICK_HI _ 0 0 (by decide) (by decide))).trans
    (w_latchKept _ Reg.STP_LAST.SOURCE _ 0 0 (by decide) (by decide))).trans
    (w_latchKept _ Reg.STP_LAST.ROVER _ 0 0 (by decide) (by decide))).trans
    (w_latchKept _ Reg.STP_LAST.LAT_NS _ 0 0 (by decide) (by decide)))

theorem outsRelease_latchKept (s : State) : LatchKept s (outsRelease s) := by
  unfold outsRelease
  generalize 4 = n
  induction n with
  | zero => exact .rfl' s
  | succ n ih =>
    refine ih.trans ?_
    rw [iter]
    split
    · exact .rfl' _
    · exact w_latchKept _ Reg.STP_STATE.OUT_ON _ 0 0 (by decide) (by decide)

theorem release_latchKept (s : State) (src : Nat) (rover : Option Nat) (rel : RelIn) : LatchKept s (release s src rover rel) := by
  unfold release
  extract_lets u _ v w x
  have hv : LatchKept s v := by
    refine (stpLast_latchKept s src rover rel.latNs).trans ?_
    unfold v
    split
    · exact ⟨.of_regs rfl rfl rfl rfl, rfl⟩
    · exact ⟨.of_regs rfl rfl rfl rfl, rfl⟩
  have hw : LatchKept s w := hv.trans (.of_air (releaseFrames_airOnly v rover rel) (releaseFrames_pendStay v rover rel))
  have hx : LatchKept s x := by
    unfold x
    split
    · exact hw.trans (outsRelease_latchKept w)
    · exact hw
  split
  · exact hx.trans ⟨.of_regs rfl rfl rfl rfl, rfl⟩
  · exact hx

theorem fleetSame_latchKept (s : State) (src cyc : Nat) : LatchKept s (fleetSame s src cyc) := by
  unfold fleetSame
  extract_lets was u v
  split
  · have hu : LatchKept s u := w_latchKept s _ _ 0 0 (by decide) (by decide)
    have hv : LatchKept s v := by
      unfold v
      split
      · exact hu.trans (w_latchKept u _ _ 0 0 (by decide) (by decide))
      · exact hu
    split
    · exact hv.trans ⟨.of_regs rfl rfl rfl rfl, rfl⟩
    · exact hv
  · exact .rfl' s

theorem breachSame_latchKept (s : State) (src r : Nat) : LatchKept s (breachSame s src r) := by
  unfold breachSame
  split
  · exact w_latchKept s _ _ 0 0 (by decide) (by decide)
  · exact .rfl' s

/-- What a request does before it meets its latch. -/
def requestSeen (s : State) (src : Nat) (rover : Option Nat) : State :=
  let s := s.wset Reg.STP_SRC_SEEN.SEEN src true
  let again := s.stp.resumes.any (fun p => p.rover == rover)
  let s := cancelResumes s rover
  if again then reflect s (.latch rover src) else s

theorem requestSeen_requestKept (s : State) (src : Nat) (rover : Option Nat) : RequestKept s (requestSeen s src rover) := by
  unfold requestSeen
  extract_lets u again v
  have hv : RequestKept s v := (w_requestKept s Reg.STP_SRC_SEEN.SEEN _ 0 0 (by decide)).trans (cancelResumes_requestKept u rover)
  split
  · exact hv.trans (reflect_requestKept v _)
  · exact hv

theorem requestStop_fleet (s : State) (src : Nat) (rel : RelIn) (hb : s.mode ≠ .boot) (hd : s.mode ≠ .dead) :
    requestStop s src none rel = (let s := requestSeen s src none
      if fleetLatch s then fleetSame (s.inc Reg.STP_COUNTS.REPEAT_COUNT) src rel.cyc
      else
        let s := (s.wb Reg.STP_STATE.FLEET true).w Reg.STP_STATE.SOURCE src
        let s := release (s.inc Reg.STP_COUNTS.FLEET_COUNT) src none rel
        reflect (stpRaise s 288) (.latch none src)) := by
  unfold requestStop
  rw [if_neg (by simp [hb, hd])]
  rfl

theorem requestStop_rover (s : State) (src r : Nat) (rel : RelIn) (hb : s.mode ≠ .boot) (hd : s.mode ≠ .dead) :
    requestStop s src (some r) rel = (let s := requestSeen s src (some r)
      if tgtLatch s r then breachSame (s.inc Reg.STP_COUNTS.REPEAT_COUNT) src r
      else
        let s := s.wbit Reg.STP_TSTOP.TSTOP r true
        let s := release (s.inc Reg.STP_COUNTS.TGT_COUNT) src (some r) rel
        reflect (stpRaise s 289 r) (.latch (some r) src)) := by
  unfold requestStop
  rw [if_neg (by simp [hb, hd])]
  rfl

theorem reflect_stpRaise_latchKept (s : State) (e d : Nat) (i : ReflItem) (he : e < 512) : LatchKept s (reflect (stpRaise s e d) i) :=
  (LatchKept.of_air (stpRaise_airOnly s e d he) (stpRaise_pendStay s e d)).trans
    (.of_air (reflect_airOnly _ i) (reflect_pendStay _ i))

/-- A request for a fleet stop leaves the fleet latch set. -/
theorem requestStop_fleet_latches (s : State) (src : Nat) (rel : RelIn) (hb : s.mode ≠ .boot) (hd : s.mode ≠ .dead) :
    RequestKept s (requestStop s src none rel) ∧ fleetLatch (requestStop s src none rel) = true := by
  have hlatch {u t : State} (h : LatchKept u t) (hu : fleetLatch u = true) : fleetLatch t = true := by
    unfold fleetLatch State.rb at hu ⊢
    rw [h.2]; exact hu
  rw [requestStop_fleet s src rel hb hd]
  have hs := requestSeen_requestKept s src none
  generalize requestSeen s src none = u at hs
  extract_lets _ v w
  split
  · rename_i hu
    have h : LatchKept u (fleetSame (u.inc Reg.STP_COUNTS.REPEAT_COUNT) src rel.cyc) := (w_latchKept u Reg.STP_COUNTS.REPEAT_COUNT _ 0 0 (by decide) (by decide)).trans
      (fleetSame_latchKept _ src rel.cyc)
    exact ⟨hs.trans h.1, hlatch h hu⟩
  · have hset : fleetLatch (u.wb Reg.STP_STATE.FLEET true) = true := State.rb_wb_same u _ true 0 0 rfl
    have h : LatchKept (u.wb Reg.STP_STATE.FLEET true) (reflect (stpRaise w 288) (.latch none src)) :=
      ((w_latchKept _ Reg.STP_STATE.SOURCE _ 0 0 (by decide) (by decide)).trans
        ((w_latchKept v Reg.STP_COUNTS.FLEET_COUNT _ 0 0 (by decide) (by decide)).trans (release_latchKept _ src none rel))).trans
        (reflect_stpRaise_latchKept w 288 _ _ (by decide))
    exact ⟨(hs.trans (w_requestKept u Reg.STP_STATE.FLEET _ 0 0 (by decide))).trans h.1, hlatch h hset⟩

theorem requestStop_rover_kept (s : State) (src r : Nat) (rel : RelIn) (hr : r < 128) (hb : s.mode ≠ .boot) (hd : s.mode ≠ .dead) :
    RequestKept s (requestStop s src (some r) rel) := by
  have hkey : blockOf (Reg.STP_TSTOP.TSTOP.key (r / 32) 0) = 9 := by
    have : r / 32 < 4 := by omega
    interval_cases r / 32 <;> decide
  rw [requestStop_rover s src r rel hb hd]
  have hs := requestSeen_requestKept s src (some r)
  generalize requestSeen s src (some r) = u at hs
  extract_lets _ v w
  split
  · exact (hs.trans (w_requestKept u Reg.STP_COUNTS.REPEAT_COUNT _ 0 0 (by decide))).trans (breachSame_latchKept _ src r).1
  · exact (((hs.trans (w_requestKept u Reg.STP_TSTOP.TSTOP _ (r / 32) 0 hkey)).trans
      (w_requestKept v Reg.STP_COUNTS.TGT_COUNT _ 0 0 (by decide))).trans (release_latchKept _ src (some r) rel).1).trans
      (reflect_stpRaise_latchKept w 289 r _ (by decide)).1

theorem requestStopAt_eq (s : State) (src : Nat) (rover : Option Nat) (cyc : Nat) :
    requestStopAt s src rover cyc = requestStop (relAt s cyc).2 src rover (relAt s cyc).1 := rfl

theorem relAt_requestKept (s : State) (cyc : Nat) : RequestKept s (relAt s cyc).2 := .of_regs rfl rfl rfl rfl

theorem requestStopAt_fleet_latches (s : State) (src cyc : Nat) (hb : s.mode ≠ .boot) (hd : s.mode ≠ .dead) :
    RequestKept s (requestStopAt s src none cyc) ∧ fleetLatch (requestStopAt s src none cyc) = true := by
  rw [requestStopAt_eq]
  obtain ⟨h, hl⟩ := requestStop_fleet_latches (relAt s cyc).2 src (relAt s cyc).1 hb hd
  exact ⟨(relAt_requestKept s cyc).trans h, hl⟩

theorem requestStopAt_rover_kept (s : State) (src r cyc : Nat) (hr : r < 128) (hb : s.mode ≠ .boot) (hd : s.mode ≠ .dead) :
    RequestKept s (requestStopAt s src (some r) cyc) := by
  rw [requestStopAt_eq]
  exact (relAt_requestKept s cyc).trans (requestStop_rover_kept (relAt s cyc).2 src r (relAt s cyc).1 hr hb hd)

end Sys2Proof.Machine

/-! PROOF. Doorbell reads (R46, R357 to R360): issued at a sample point, counted when they fail, taken entry by entry. -/

namespace Sys2Proof.Machine

open Sys2Proof

theorem raise_requestKept (s : State) (e d : Nat) (he : e < 512) : RequestKept s (raise s e d) :=
  ⟨raise_mode s e d, by rw [raise_evtOnly s e d], by rw [raise_evtOnly s e d], fun k hk _ => raise_keys s e d k he hk, raise_pendStay s e d⟩

theorem raiseTick_requestKept (s : State) (e d : Nat) (he : e < 512) : RequestKept s (raiseTick s e d) :=
  ⟨raiseTick_mode s e d, by rw [raiseTick_evtOnly s e d], by rw [raiseTick_evtOnly s e d], fun k hk _ => raiseTick_keys s e d k he hk, raiseTick_pendStay s e d⟩

/-- A register outside the event machinery and the blocks a stop writes reads the same. -/
theorem RequestKept.r {s t : State} (h : RequestKept s t) (f : Field) (i j : Nat) (he : f.key i j ∉ evtKeys)
    (hb : stopBlock (blockOf (f.key i j)) = false) : t.r f i j = s.r f i j := by
  unfold State.r; rw [h.regs _ he hb]

/-! ### A read that fails (row 1 of R360) -/

/-- What a failed read counts. -/
def dbFailCounted (s : State) : State :=
  (raiseTick (s.inc Reg.HST_COUNTS.DB_READ_FAIL) 418).w Reg.HST_DB_STATUS.FAIL_RUN (min (s.r Reg.HST_DB_STATUS.FAIL_RUN + 1) 8)

theorem dbFail_eq (cyc : Nat) (s : State) : dbFail cyc s =
    if s.r Reg.HST_DB_STATUS.FAIL_RUN = 7 then
      if (raise (dbFailCounted s) 419).rb Reg.HST_DB_CFG.LOSS_STOP then requestStopAt (raise (dbFailCounted s) 419) 4 none cyc
      else raise (dbFailCounted s) 419
    else dbFailCounted s := rfl

theorem dbFailCounted_dbReads (s : State) : (dbFailCounted s).hst.dbReads = s.hst.dbReads := by
  change (raiseTick (s.inc Reg.HST_COUNTS.DB_READ_FAIL) 418).hst.dbReads = _
  rw [raiseTick_evtOnly]
  rfl

theorem dbFailCounted_mode (s : State) : (dbFailCounted s).mode = s.mode := raiseTick_mode _ _ _

theorem dbFailCounted_readFail (s : State) : (dbFailCounted s).r Reg.HST_COUNTS.DB_READ_FAIL
    = satInc Reg.HST_COUNTS.DB_READ_FAIL.width (s.r Reg.HST_COUNTS.DB_READ_FAIL) := by
  unfold dbFailCounted
  rw [State.r_w_ne _ _ _ _ _ _ _ _ (by decide), raiseTick_field _ _ _ _ _ _ (by decide) (by decide), State.inc, State.r_w_same]
  refine Nat.mod_eq_of_lt ?_
  unfold satInc
  split
  · assumption
  have : 0 < 2 ^ Reg.HST_COUNTS.DB_READ_FAIL.width := Nat.two_pow_pos _
  omega

theorem dbFailCounted_failRun (s : State) :
    (dbFailCounted s).r Reg.HST_DB_STATUS.FAIL_RUN = min (s.r Reg.HST_DB_STATUS.FAIL_RUN + 1) 8 := by
  unfold dbFailCounted
  rw [State.r_w_same]
  exact Nat.mod_eq_of_lt (show min _ 8 < 16 by omega)

theorem dbFailCounted_lossStop (s : State) : (dbFailCounted s).rb Reg.HST_DB_CFG.LOSS_STOP = s.rb Reg.HST_DB_CFG.LOSS_STOP := by
  unfold State.rb dbFailCounted
  rw [State.r_w_ne _ _ _ _ _ _ _ _ (by decide), raiseTick_field _ _ _ _ _ _ (by decide) (by decide), State.inc,
    State.r_w_ne _ _ _ _ _ _ _ _ (by decide)]

/-- After the counting a failed read at most raises HST_DB_LOST and requests a stop; the eighth in a row does the first,
and with LOSS_STOP the second. -/
theorem dbFail_after (cyc : Nat) (s : State) (hb : s.mode ≠ .boot) (hd : s.mode ≠ .dead) :
    RequestKept (dbFailCounted s) (dbFail cyc s)
      ∧ (s.r Reg.HST_DB_STATUS.FAIL_RUN = 7 → pending (dbFail cyc s) 419 = true
        ∧ (s.rb Reg.HST_DB_CFG.LOSS_STOP = true → fleetLatch (dbFail cyc s) = true)) := by
  rw [dbFail_eq]
  rw [← dbFailCounted_mode s] at hb hd
  have hloss := dbFailCounted_lossStop s
  generalize dbFailCounted s = u at *
  have hr := raise_requestKept u 419 noDetail (by decide)
  have hp : pending (raise u 419) 419 = true := raise_sets_pending u 419 _ (by decide)
  have hl : (raise u 419).rb Reg.HST_DB_CFG.LOSS_STOP = s.rb Reg.HST_DB_CFG.LOSS_STOP := by
    unfold State.rb at hloss ⊢
    rw [raise_field _ _ _ _ _ _ (by decide) (by decide), hloss]
  split
  case isFalse h => exact ⟨.rfl' u, fun h' => absurd h' h⟩
  case isTrue =>
    split
    · obtain ⟨hk, hf⟩ := requestStopAt_fleet_latches (raise u 419) 4 cyc (by rwa [hr.1]) (by rwa [hr.1])
      exact ⟨hr.trans hk, fun _ => ⟨hk.pend 419 (by decide) hp, fun _ => hf⟩⟩
    · rename_i hno
      exact ⟨hr, fun _ => ⟨hp, fun hy => absurd (hl.trans hy) hno⟩⟩

/-- A failed read is counted. -/
theorem dbFail_counts (cyc : Nat) (s : State) (hb : s.mode ≠ .boot) (hd : s.mode ≠ .dead) :
    (dbFail cyc s).hst.dbReads = s.hst.dbReads
      ∧ (dbFail cyc s).r Reg.HST_COUNTS.DB_READ_FAIL
        = satInc Reg.HST_COUNTS.DB_READ_FAIL.width (s.r Reg.HST_COUNTS.DB_READ_FAIL)
      ∧ (dbFail cyc s).r Reg.HST_DB_STATUS.FAIL_RUN = min (s.r Reg.HST_DB_STATUS.FAIL_RUN + 1) 8 := by
  obtain ⟨hk, _⟩ := dbFail_after cyc s hb hd
  exact ⟨hk.dbReads.trans (dbFailCounted_dbReads s), (hk.r _ _ _ (by decide) (by decide)).trans (dbFailCounted_readFail s),
    (hk.r _ _ _ (by decide) (by decide)).trans (dbFailCounted_failRun s)⟩

/-! ### One entry of the block -/

/-- From s to t mode, reads outstanding and all registers stay but those of requests for stops and those listed. -/
def DoorKept (ks : List Nat) (s t : State) : Prop :=
  t.mode = s.mode ∧ t.hst.dbReads = s.hst.dbReads
    ∧ ∀ k, k ∉ evtKeys → stopBlock (blockOf k) = false → k ∉ ks → mget 0 t.regs k = mget 0 s.regs k

theorem DoorKept.rfl' (ks : List Nat) (s : State) : DoorKept ks s s := ⟨rfl, rfl, fun _ _ _ _ => rfl⟩

theorem DoorKept.trans {ks : List Nat} {s t u : State} (h : DoorKept ks s t) (k : DoorKept ks t u) : DoorKept ks s u :=
  ⟨k.1.trans h.1, k.2.1.trans h.2.1, fun i a b c => (k.2.2 i a b c).trans (h.2.2 i a b c)⟩

theorem DoorKept.mono {ks ls : List Nat} {s t : State} (h : DoorKept ks s t) (hs : ks ⊆ ls) : DoorKept ls s t :=
  ⟨h.1, h.2.1, fun i a b c => h.2.2 i a b fun hi => c (hs hi)⟩

theorem DoorKept.of_request {s t : State} (ks : List Nat) (h : RequestKept s t) : DoorKept ks s t :=
  ⟨h.mode, h.dbReads, fun k a b _ => h.regs k a b⟩

theorem DoorKept.r {ks : List Nat} {s t : State} (h : DoorKept ks s t) (f : Field) (i j : Nat) (he : f.key i j ∉ evtKeys)
    (hb : stopBlock (blockOf (f.key i j)) = false) (hk : f.key i j ∉ ks) : t.r f i j = s.r f i j := by
  unfold State.r; rw [h.2.2 _ he hb hk]

theorem w_doorKept {ks : List Nat} (s : State) (f : Field) (v i : Nat) (h : f.key i 0 ∈ ks) : DoorKept ks s (s.w f v i) :=
  ⟨rfl, rfl, fun _ _ _ hk => mget_mput_ne 0 s.regs _ fun he => hk (he ▸ h)⟩

theorem dbIndex_doorKept {ks : List Nat} (e : Nat) (k : RingKind) (prod cons v : Nat) (take : Field) (s : State)
    (h : take.key e 0 ∈ ks) : DoorKept ks s (dbIndex k e prod cons v take s) := by
  unfold dbIndex
  split
  · split
    · split
      · exact .rfl' ks s
      · exact ⟨rfl, rfl, fun _ _ _ _ => rfl⟩
    · exact w_doorKept s take v e h
  · exact .rfl' ks s

/-- Requests for the stops of several rovers, one after the other. -/
theorem requestStopAt_rovers_kept (cyc : Nat) (l : List Nat) (hl : ∀ r ∈ l, r < 128) (s : State) (hb : s.mode ≠ .boot)
    (hd : s.mode ≠ .dead) : RequestKept s (l.foldl (fun s r => requestStopAt s 4 (some r) cyc) s) := by
  induction l generalizing s with
  | nil => exact .rfl' s
  | cons r l ih =>
    have h := requestStopAt_rover_kept s 4 r cyc (hl r (List.mem_cons_self ..)) hb hd
    exact h.trans (ih (fun q hq => hl q (List.mem_cons_of_mem _ hq)) _ (by rwa [h.1]) (by rwa [h.1]))

/-- A stop field that changes raises its event and requests its stops. -/
theorem dbStopField_requestKept (e v cyc : Nat) (s : State) (h16 : 16 ≤ e) (h24 : e ≤ 24) (hb : s.mode ≠ .boot) (hd : s.mode ≠ .dead) :
    RequestKept s (dbStopField e v cyc s) := by
  unfold dbStopField
  extract_lets old known _ u _ w x
  have hw : RequestKept s w := by
    have hu : RequestKept s u := by
      unfold u
      split
      · exact .of_regs rfl rfl rfl rfl
      · exact .of_regs rfl rfl rfl rfl
    unfold w
    split
    · exact hu
    · exact hu.trans (.of_regs rfl rfl rfl rfl)
  clear_value w
  have hx : RequestKept s x := hw.trans (raise_requestKept w 424 _ (by decide))
  clear_value x
  split
  · split
    · exact hx.trans (requestStopAt_fleet_latches x 4 cyc (by rwa [hx.1]) (by rwa [hx.1])).1
    · refine hx.trans (requestStopAt_rovers_kept cyc _ (fun r hr => ?_) x (by rwa [hx.1]) (by rwa [hx.1]))
      unfold tgtChanged at hr
      obtain ⟨b, hmem, rfl⟩ := List.mem_map.1 hr
      have := List.mem_range.1 (List.mem_filter.1 hmem).1
      omega
  · exact hw

/-- Entry e of the block passes its check. -/
def entryOk (block : List Byte) (e : Nat) : Prop :=
  crc16 (le 1 e ++ ((block.drop (8 * e)).take 8).take 6) = field ((block.drop (8 * e)).take 8) 6 2

/-- The first index of entry e of the block, that of its SQ. -/
def entryPi (block : List Byte) (e : Nat) : Nat := field ((block.drop (8 * e)).take 8) 0 2

theorem leNat_lt (l : List Byte) : leNat l < 256 ^ l.length := by
  induction l with
  | nil => simp [leNat]
  | cons b l ih =>
    have := b.isLt
    simp only [leNat, List.length_cons, pow_succ]
    omega

theorem entryPi_lt (block : List Byte) (e : Nat) : entryPi block e < 2 ^ 16 := by
  refine lt_of_lt_of_le (leNat_lt _) ?_
  calc 256 ^ _ ≤ 256 ^ 2 := Nat.pow_le_pow_right (by decide) (List.length_take_le _ _)
    _ = 2 ^ 16 := by decide

/-- What an entry that passed its check does after the index of its SQ. -/
def dbEntryRest (block : List Byte) (cyc e : Nat) (s : State) : State :=
  let b := (block.drop (8 * e)).take 8
  let s := dbIndex .cq e (s.r Reg.HST_CQ.PI e) (field b 2 2) (field b 2 2) Reg.HST_CQ.DB_CI s
  if e < 16 then dbIndex .eq e (s.r Reg.HST_EQ.PI e) (field b 4 2) (field b 4 2) Reg.HST_EQ.DB_CI s
  else if e ≤ 24 then dbStopField e (field b 4 2) cyc s
  else s

theorem dbEntry_of_ok {block : List Byte} {e : Nat} (cyc : Nat) (s : State) (h : entryOk block e) : dbEntry block cyc e s =
    dbEntryRest block cyc e (dbIndex .sq e (entryPi block e) (s.r Reg.HST_SQ.FETCH_CI e) (entryPi block e) Reg.HST_SQ.DB_PI s) := by
  unfold dbEntry
  exact if_neg (not_not_intro h)

theorem dbEntry_of_not_ok {block : List Byte} {e : Nat} (cyc : Nat) (s : State) (h : ¬ entryOk block e) :
    dbEntry block cyc e s = raiseTick (s.inc Reg.HST_COUNTS.DB_CHECK_FAIL) 417 := if_pos h

/-- The registers entry e of the block writes after the index of its SQ, beside those of the requests it makes. -/
def restKeys (e : Nat) : List Nat := [Reg.HST_CQ.DB_CI.key e 0, Reg.HST_EQ.DB_CI.key e 0]

/-- The registers entry e of the block writes beside those of the requests it makes. -/
def entryKeys (e : Nat) : List Nat := Reg.HST_COUNTS.DB_CHECK_FAIL.key 0 0 :: Reg.HST_SQ.DB_PI.key e 0 :: restKeys e

theorem dbEntryRest_kept (block : List Byte) (cyc e : Nat) (s : State) (hb : s.mode ≠ .boot) (hd : s.mode ≠ .dead) :
    DoorKept (restKeys e) s (dbEntryRest block cyc e s) := by
  unfold dbEntryRest
  extract_lets b u
  have hu : DoorKept (restKeys e) s u := dbIndex_doorKept e .cq _ _ _ Reg.HST_CQ.DB_CI s (by simp [restKeys])
  clear_value u
  split
  · exact hu.trans (dbIndex_doorKept e .eq _ _ _ Reg.HST_EQ.DB_CI u (by simp [restKeys]))
  · split
    · exact hu.trans (.of_request _ (dbStopField_requestKept e _ cyc u (by omega) (by omega) (by rwa [hu.1]) (by rwa [hu.1])))
    · exact hu

theorem dbEntry_kept (block : List Byte) (cyc e : Nat) (s : State) (hb : s.mode ≠ .boot) (hd : s.mode ≠ .dead) :
    DoorKept (entryKeys e) s (dbEntry block cyc e s) := by
  by_cases h : entryOk block e
  · rw [dbEntry_of_ok cyc s h]
    have hq := dbIndex_doorKept (ks := entryKeys e) e .sq (entryPi block e) (s.r Reg.HST_SQ.FETCH_CI e) (entryPi block e)
      Reg.HST_SQ.DB_PI s (by simp [entryKeys])
    exact hq.trans ((dbEntryRest_kept block cyc e _ (by rwa [hq.1]) (by rwa [hq.1])).mono (by simp [entryKeys, restKeys]))
  · rw [dbEntry_of_not_ok cyc s h]
    exact (w_doorKept s Reg.HST_COUNTS.DB_CHECK_FAIL _ 0 (by simp [entryKeys])).trans
      (.of_request _ (raiseTick_requestKept _ 417 noDetail (by decide)))

/-! ### Registers of the SQs beside those an entry writes -/

/-- Keys of the words of the SQs are none of the event machinery. -/
theorem sqKey_calm {k : Nat} (lo : 32 * 0xD1000 ≤ k) (hi : k < 32 * 0xD2000) : k ∉ evtKeys ∧ stopBlock (blockOf k) = false := by
  constructor
  · intro hm
    have h : ∀ k ∈ evtKeys, k < 32 * 0xD1000 ∨ 32 * 0xD2000 ≤ k := by decide
    have := h k hm
    omega
  · have : blockOf k = 0xD := by unfold blockOf; omega
    rw [this]
    decide

/-- A field of SQ i but DB_PI stays whatever entry is treated, and DB_PI where the entry is that of another SQ. -/
theorem sqKey_kept {e i k : Nat} (he : e < 64) (lo : 32 * (0xD1000 + 0x20 * i) ≤ k) (hi : k < 32 * (0xD1000 + 0x20 * i + 0x20))
    (h : k ≠ Reg.HST_SQ.DB_PI.key e 0) (hi64 : i < 64) : k ∉ entryKeys e := by
  simp only [entryKeys, restKeys, List.mem_cons, List.not_mem_nil, or_false, not_or]
  refine ⟨?_, h, ?_, ?_⟩ <;>
    simp only [Field.key, Field.idx, fld, Reg.HST_COUNTS.DB_CHECK_FAIL, Reg.HST_CQ.DB_CI, Reg.HST_EQ.DB_CI] <;> omega

/-- Entries leave a field of an SQ alone that lies at the DB_PI of none of them. -/
theorem dbEntry_sq_r (block : List Byte) (cyc e : Nat) (s : State) (hb : s.mode ≠ .boot) (hd : s.mode ≠ .dead) (he : e < 64)
    (f : Field) (i : Nat) (hi : i < 64) (lo : 32 * (0xD1000 + 0x20 * i) ≤ f.key i 0)
    (up : f.key i 0 < 32 * (0xD1000 + 0x20 * i + 0x20)) (hne : f.key i 0 ≠ Reg.HST_SQ.DB_PI.key e 0) :
    (dbEntry block cyc e s).r f i = s.r f i := by
  obtain ⟨hc, hs⟩ := sqKey_calm (k := f.key i 0) (by omega) (by omega)
  exact (dbEntry_kept block cyc e s hb hd).r f i 0 hc hs (sqKey_kept he lo up hne hi)

/-- An entry that passes its check takes its index for an active SQ, where it does not run ahead further than the ring. -/
theorem dbEntry_takes (block : List Byte) (cyc e : Nat) (s : State) (hb : s.mode ≠ .boot) (hd : s.mode ≠ .dead) (he : e < 64)
    (hok : entryOk block e) (ha : s.rb Reg.HST_SQ.ACTIVE e = true)
    (hlen : (entryPi block e + 65536 - s.r Reg.HST_SQ.FETCH_CI e) % 65536 ≤ ringLen s .sq e) :
    (dbEntry block cyc e s).r Reg.HST_SQ.DB_PI e = entryPi block e := by
  rw [dbEntry_of_ok cyc s hok]
  have hw : dbIndex .sq e (entryPi block e) (s.r Reg.HST_SQ.FETCH_CI e) (entryPi block e) Reg.HST_SQ.DB_PI s
      = s.w Reg.HST_SQ.DB_PI (entryPi block e) e := by
    unfold dbIndex
    rw [if_pos (show ringServes s .sq e = true from ha), if_neg (by omega)]
  rw [hw]
  obtain ⟨hc, hs⟩ := sqKey_calm (k := Reg.HST_SQ.DB_PI.key e 0) (by simp only [Field.key, Field.idx, fld, Reg.HST_SQ.DB_PI]; omega)
    (by simp only [Field.key, Field.idx, fld, Reg.HST_SQ.DB_PI]; omega)
  rw [(dbEntryRest_kept block cyc e (s.w Reg.HST_SQ.DB_PI (entryPi block e) e) hb hd).r _ _ _ hc hs, State.r_w_same]
  · exact Nat.mod_eq_of_lt (entryPi_lt block e)
  · simp only [restKeys, List.mem_cons, List.not_mem_nil, or_false, not_or, Field.key, Field.idx, fld, Reg.HST_SQ.DB_PI,
      Reg.HST_CQ.DB_CI, Reg.HST_EQ.DB_CI]
    omega

/-- An entry that fails its check leaves the index of its SQ. -/
theorem dbEntry_refuses (block : List Byte) (cyc e : Nat) (s : State) (he : e < 64) (hok : ¬ entryOk block e) :
    (dbEntry block cyc e s).r Reg.HST_SQ.DB_PI e = s.r Reg.HST_SQ.DB_PI e := by
  obtain ⟨hc, _⟩ := sqKey_calm (k := Reg.HST_SQ.DB_PI.key e 0) (by simp only [Field.key, Field.idx, fld, Reg.HST_SQ.DB_PI]; omega)
    (by simp only [Field.key, Field.idx, fld, Reg.HST_SQ.DB_PI]; omega)
  rw [dbEntry_of_not_ok cyc s hok, raiseTick_field _ _ _ _ _ _ (by decide) hc, State.inc, State.r_w_ne]
  simp only [Field.key, Field.idx, fld, Reg.HST_SQ.DB_PI, Reg.HST_COUNTS.DB_CHECK_FAIL]
  omega

/-! ### The whole block -/

/-- The state after the first n entries of the block. -/
def dbEntries (block : List Byte) (cyc n : Nat) (s : State) : State := iter (dbEntry block cyc) n s

theorem dbEntries_succ (block : List Byte) (cyc n : Nat) (s : State) :
    dbEntries block cyc (n + 1) s = dbEntry block cyc n (dbEntries block cyc n s) := rfl

theorem dbEntries_mode (block : List Byte) (cyc n : Nat) (s : State) (hb : s.mode ≠ .boot) (hd : s.mode ≠ .dead) :
    (dbEntries block cyc n s).mode = s.mode := by
  induction n with
  | zero => rfl
  | succ n ih => exact (dbEntry_kept block cyc n (dbEntries block cyc n s) (by rwa [ih]) (by rwa [ih])).1.trans ih

theorem dbEntries_dbReads (block : List Byte) (cyc n : Nat) (s : State) (hb : s.mode ≠ .boot) (hd : s.mode ≠ .dead) :
    (dbEntries block cyc n s).hst.dbReads = s.hst.dbReads := by
  induction n with
  | zero => rfl
  | succ n ih =>
    have hm := dbEntries_mode block cyc n s hb hd
    exact (dbEntry_kept block cyc n (dbEntries block cyc n s) (by rwa [hm]) (by rwa [hm])).2.1.trans ih

theorem dbEntries_failRun (block : List Byte) (cyc n : Nat) (s : State) (hb : s.mode ≠ .boot) (hd : s.mode ≠ .dead) :
    (dbEntries block cyc n s).r Reg.HST_DB_STATUS.FAIL_RUN = s.r Reg.HST_DB_STATUS.FAIL_RUN := by
  induction n with
  | zero => rfl
  | succ n ih =>
    have hm := dbEntries_mode block cyc n s hb hd
    refine ((dbEntry_kept block cyc n (dbEntries block cyc n s) (by rwa [hm]) (by rwa [hm])).r _ _ _ (by decide) (by decide) ?_).trans ih
    simp only [entryKeys, restKeys, List.mem_cons, List.not_mem_nil, or_false, not_or, Field.key, Field.idx, fld, Reg.HST_SQ.DB_PI,
      Reg.HST_CQ.DB_CI, Reg.HST_EQ.DB_CI, Reg.HST_DB_STATUS.FAIL_RUN, Reg.HST_COUNTS.DB_CHECK_FAIL]
    omega

/-- Entries m to n - 1 leave a field of an SQ alone that lies at the DB_PI of none of them. -/
theorem dbEntries_sq_r (block : List Byte) (cyc m n : Nat) (hmn : m ≤ n) (s : State) (hb : s.mode ≠ .boot) (hd : s.mode ≠ .dead)
    (hn : n ≤ 64) (f : Field) (i : Nat) (hi : i < 64) (lo : 32 * (0xD1000 + 0x20 * i) ≤ f.key i 0)
    (up : f.key i 0 < 32 * (0xD1000 + 0x20 * i + 0x20)) (hne : ∀ e, m ≤ e → e < n → f.key i 0 ≠ Reg.HST_SQ.DB_PI.key e 0) :
    (dbEntries block cyc n s).r f i = (dbEntries block cyc m s).r f i := by
  induction n, hmn using Nat.le_induction with
  | base => rfl
  | succ n hmn ih =>
    have hm := dbEntries_mode block cyc n s hb hd
    rw [dbEntries_succ, dbEntry_sq_r block cyc n _ (by rwa [hm]) (by rwa [hm]) (by omega) f i hi lo up (hne n hmn (by omega))]
    exact ih (by omega) fun e h1 h2 => hne e h1 (by omega)

theorem dbPi_key_ne {e i : Nat} (h : i ≠ e) : Reg.HST_SQ.DB_PI.key i 0 ≠ Reg.HST_SQ.DB_PI.key e 0 := by
  simp only [Field.key, Field.idx, fld, Reg.HST_SQ.DB_PI]
  omega

/-- The index of SQ i after the block is that after entry i. -/
theorem dbEntries_pi (block : List Byte) (cyc i : Nat) (hi : i < 64) (s : State) (hb : s.mode ≠ .boot) (hd : s.mode ≠ .dead) :
    (dbEntries block cyc 64 s).r Reg.HST_SQ.DB_PI i
      = (dbEntry block cyc i (dbEntries block cyc i s)).r Reg.HST_SQ.DB_PI i :=
  dbEntries_sq_r block cyc (i + 1) 64 (by omega) s hb hd (by omega) Reg.HST_SQ.DB_PI i hi
    (by simp only [Field.key, Field.idx, fld, Reg.HST_SQ.DB_PI]; omega)
    (by simp only [Field.key, Field.idx, fld, Reg.HST_SQ.DB_PI]; omega) fun e h _ => dbPi_key_ne (by omega)

/-- Where the entry of an active SQ passes its check and its index does not run ahead too far, the block's index is taken. -/
theorem dbEntries_takes (block : List Byte) (cyc i : Nat) (hi : i < 64) (s : State) (hb : s.mode ≠ .boot) (hd : s.mode ≠ .dead)
    (hok : entryOk block i) (ha : s.rb Reg.HST_SQ.ACTIVE i = true)
    (hlen : (entryPi block i + 65536 - s.r Reg.HST_SQ.FETCH_CI i) % 65536 ≤ ringLen s .sq i) :
    (dbEntries block cyc 64 s).r Reg.HST_SQ.DB_PI i = entryPi block i := by
  have hm := dbEntries_mode block cyc i s hb hd
  have hkept (f : Field) (lo : 32 * (0xD1000 + 0x20 * i) ≤ f.key i 0) (up : f.key i 0 < 32 * (0xD1000 + 0x20 * i + 0x20))
      (hne : ∀ e, f.key i 0 ≠ Reg.HST_SQ.DB_PI.key e 0) : (dbEntries block cyc i s).r f i = s.r f i :=
    dbEntries_sq_r block cyc 0 i (by omega) s hb hd (by omega) f i hi lo up fun e _ _ => hne e
  have hact := hkept Reg.HST_SQ.ACTIVE (by simp only [Field.key, Field.idx, fld, Reg.HST_SQ.ACTIVE]; omega)
    (by simp only [Field.key, Field.idx, fld, Reg.HST_SQ.ACTIVE]; omega)
    (fun e => by simp only [Field.key, Field.idx, fld, Reg.HST_SQ.ACTIVE, Reg.HST_SQ.DB_PI]; omega)
  have hci := hkept Reg.HST_SQ.FETCH_CI (by simp only [Field.key, Field.idx, fld, Reg.HST_SQ.FETCH_CI]; omega)
    (by simp only [Field.key, Field.idx, fld, Reg.HST_SQ.FETCH_CI]; omega)
    (fun e => by simp only [Field.key, Field.idx, fld, Reg.HST_SQ.FETCH_CI, Reg.HST_SQ.DB_PI]; omega)
  have hsize := hkept Reg.HST_SQ.SIZE_LOG2 (by simp only [Field.key, Field.idx, fld, Reg.HST_SQ.SIZE_LOG2]; omega)
    (by simp only [Field.key, Field.idx, fld, Reg.HST_SQ.SIZE_LOG2]; omega)
    (fun e => by simp only [Field.key, Field.idx, fld, Reg.HST_SQ.SIZE_LOG2, Reg.HST_SQ.DB_PI]; omega)
  rw [dbEntries_pi block cyc i hi s hb hd]
  refine dbEntry_takes block cyc i _ (by rwa [hm]) (by rwa [hm]) hi hok ?_ ?_
  · unfold State.rb
    rw [hact]
    exact ha
  · rw [hci]
    unfold ringLen ringLog2
    rw [hsize]
    exact hlen

/-- Where the entry of an SQ fails its check, the index of that SQ stays. -/
theorem dbEntries_refuses (block : List Byte) (cyc i : Nat) (hi : i < 64) (s : State) (hb : s.mode ≠ .boot) (hd : s.mode ≠ .dead)
    (hok : ¬ entryOk block i) : (dbEntries block cyc 64 s).r Reg.HST_SQ.DB_PI i = s.r Reg.HST_SQ.DB_PI i := by
  rw [dbEntries_pi block cyc i hi s hb hd, dbEntry_refuses block cyc i _ hi hok]
  exact dbEntries_sq_r block cyc 0 i (by omega) s hb hd (by omega) Reg.HST_SQ.DB_PI i hi
    (by simp only [Field.key, Field.idx, fld, Reg.HST_SQ.DB_PI]; omega)
    (by simp only [Field.key, Field.idx, fld, Reg.HST_SQ.DB_PI]; omega) fun e _ h => dbPi_key_ne (by omega)

/-- The state whose read is taken off those outstanding, FAIL_RUN cleared. -/
def dbTaken (s : State) : State :=
  { s with hst := { s.hst with dbReads := s.hst.dbReads - 1 } }.w Reg.HST_DB_STATUS.FAIL_RUN 0

theorem doorbellDone_eq {s : State} (block : List Byte) (cyc : Nat) (h0 : s.hst.dbReads ≠ 0) (hs : sampling s = true) :
    doorbellDone block cyc s = (dbEntries block cyc 64 (dbTaken s)).wb Reg.HST_DB_STATUS.REF_TAKEN
      (decide ((dbEntries block cyc 64 (dbTaken s)).hst.dbSeen.length = 9)) := by
  unfold doorbellDone
  rw [if_neg (by simp [h0, hs])]
  rfl

theorem doorbellFail_eq {s : State} (cyc : Nat) (h0 : s.hst.dbReads ≠ 0) (hs : sampling s = true) :
    doorbellFail cyc s = dbFail cyc { s with hst := { s.hst with dbReads := s.hst.dbReads - 1 } } := by
  unfold doorbellFail
  rw [if_neg (by simp [h0, hs])]

/-- A module that samples is neither in BOOT nor dead. -/
theorem sampling_mode {s : State} (h : sampling s = true) : s.mode ≠ .boot ∧ s.mode ≠ .dead := by
  unfold sampling at h
  simp only [Bool.and_eq_true, bne_iff_ne] at h
  obtain ⟨⟨⟨hb, hd⟩, _⟩, _⟩ := h
  exact ⟨hb, hd⟩

theorem sqKey_ne_dbStatus {f : Field} {i : Nat} (g : Field) (hg : g.key 0 0 < 32 * 0xD1000) (lo : 32 * 0xD1000 ≤ f.key i 0) :
    f.key i 0 ≠ g.key 0 0 := by omega

/-- A completed read clears FAIL_RUN and takes the block entry by entry. -/
theorem doorbellDone_takes {s : State} (block : List Byte) (cyc : Nat) (h0 : s.hst.dbReads ≠ 0) (hs : sampling s = true) :
    (doorbellDone block cyc s).hst.dbReads = s.hst.dbReads - 1 ∧ (doorbellDone block cyc s).r Reg.HST_DB_STATUS.FAIL_RUN = 0
      ∧ ∀ i, i < 64 →
        (entryOk block i → s.rb Reg.HST_SQ.ACTIVE i = true →
          (entryPi block i + 65536 - s.r Reg.HST_SQ.FETCH_CI i) % 65536 ≤ ringLen s .sq i →
          (doorbellDone block cyc s).r Reg.HST_SQ.DB_PI i = entryPi block i)
        ∧ (¬ entryOk block i → (doorbellDone block cyc s).r Reg.HST_SQ.DB_PI i = s.r Reg.HST_SQ.DB_PI i) := by
  obtain ⟨hb, hd⟩ := sampling_mode hs
  rw [doorbellDone_eq block cyc h0 hs]
  have hsq (f : Field) (i : Nat) (lo : 32 * 0xD1000 ≤ f.key i 0) : (dbTaken s).r f i = s.r f i :=
    State.r_w_ne _ _ _ _ _ _ _ _ (sqKey_ne_dbStatus Reg.HST_DB_STATUS.FAIL_RUN (by decide) lo)
  refine ⟨dbEntries_dbReads block cyc 64 (dbTaken s) hb hd, ?_, fun i hi => ?_⟩
  · rw [State.wb, State.r_w_ne _ _ _ _ _ _ _ _ (by decide), dbEntries_failRun block cyc 64 (dbTaken s) hb hd]
    exact State.r_w_same _ _ _ _ _
  · have hpi (u : State) (v : Bool) : (u.wb Reg.HST_DB_STATUS.REF_TAKEN v).r Reg.HST_SQ.DB_PI i = u.r Reg.HST_SQ.DB_PI i :=
      State.r_w_ne _ _ _ _ _ _ _ _ (sqKey_ne_dbStatus Reg.HST_DB_STATUS.REF_TAKEN (by decide)
        (by simp only [Field.key, Field.idx, fld, Reg.HST_SQ.DB_PI]; omega))
    refine ⟨fun hok ha hlen => ?_, fun hok => ?_⟩
    · rw [hpi]
      refine dbEntries_takes block cyc i hi (dbTaken s) hb hd hok ?_ ?_
      · unfold State.rb
        rw [hsq _ _ (by simp only [Field.key, Field.idx, fld, Reg.HST_SQ.ACTIVE]; omega)]
        exact ha
      · unfold ringLen ringLog2
        rw [hsq _ _ (by simp only [Field.key, Field.idx, fld, Reg.HST_SQ.FETCH_CI]; omega),
          hsq _ _ (by simp only [Field.key, Field.idx, fld, Reg.HST_SQ.SIZE_LOG2]; omega)]
        exact hlen
    · rw [hpi, dbEntries_refuses block cyc i hi (dbTaken s) hb hd hok]
      exact hsq _ _ (by simp only [Field.key, Field.idx, fld, Reg.HST_SQ.DB_PI]; omega)

/-! ### The commands -/

theorem doorbellSample_issues {s : State} (hs : sampling s = true) (hlink : s.hst.linkUp = true) (hbme : s.hst.pcie.bme = true)
    (hwin : inWindow s (dbAddr s) 512 = true) : doorbellSample s =
      { s.emit (.hostRead (dbAddr s) 512) with hst := { s.hst with dbReads := s.hst.dbReads + 1 } } := by
  unfold doorbellSample
  rw [if_neg (by simp [hs]), if_neg (by simp [hlink, hwin]), if_neg (by simp [hbme])]

theorem doorbellSample_linkDown {s : State} (hs : sampling s = true) (hlink : s.hst.linkUp = false) :
    doorbellSample s = dbFail 0 s := by
  unfold doorbellSample
  rw [if_neg (by simp [hs]), if_pos (by simp [hlink])]

theorem exec_doorbellSample_issues {s : State} (hh : s.held = false) (hs : sampling s = true) (hlink : s.hst.linkUp = true)
    (hbme : s.hst.pcie.bme = true) (hwin : inWindow s (dbAddr s) 512 = true) : exec .doorbellSample s =
      .next { s with out := [.hostRead (dbAddr s) 512], hst := { s.hst with dbReads := s.hst.dbReads + 1 } } := by
  have hx : exec .doorbellSample s = _ := withOut_live s doorbellSample hh
  rw [hx, doorbellSample_issues (s := s.start.atInst none) hs hlink hbme hwin]
  rfl

theorem exec_doorbellSample_linkDown {s : State} (hh : s.held = false) (hs : sampling s = true) (hlink : s.hst.linkUp = false) :
    ∃ t, exec .doorbellSample s = .next t ∧ t.hst.dbReads = s.hst.dbReads
      ∧ t.r Reg.HST_COUNTS.DB_READ_FAIL = satInc Reg.HST_COUNTS.DB_READ_FAIL.width (s.r Reg.HST_COUNTS.DB_READ_FAIL)
      ∧ t.r Reg.HST_DB_STATUS.FAIL_RUN = min (s.r Reg.HST_DB_STATUS.FAIL_RUN + 1) 8 := by
  have hx : exec .doorbellSample s = _ := withOut_live s doorbellSample hh
  rw [doorbellSample_linkDown (s := s.start.atInst none) hs hlink] at hx
  obtain ⟨hb, hd⟩ := sampling_mode hs
  obtain ⟨hr, hc, hrun⟩ := dbFail_counts 0 (s.start.atInst none) hb hd
  generalize dbFail 0 (s.start.atInst none) = v at hx hr hc hrun
  exact ⟨_, hx, hr, hc, hrun⟩

/-- The read has been taken off those outstanding. -/
def readTaken (s : State) : State := { s with hst := { s.hst with dbReads := s.hst.dbReads - 1 } }

theorem exec_doorbellReadFail {s : State} (cyc : Nat) (hh : s.held = false) (hs : sampling s = true) (h0 : s.hst.dbReads ≠ 0) :
    ∃ t, exec (.doorbellReadFail cyc) s = .next t ∧ t.hst.dbReads = s.hst.dbReads - 1
      ∧ t.r Reg.HST_COUNTS.DB_READ_FAIL = satInc Reg.HST_COUNTS.DB_READ_FAIL.width (s.r Reg.HST_COUNTS.DB_READ_FAIL)
      ∧ t.r Reg.HST_DB_STATUS.FAIL_RUN = min (s.r Reg.HST_DB_STATUS.FAIL_RUN + 1) 8
      ∧ (s.r Reg.HST_DB_STATUS.FAIL_RUN = 7 → pending t 419 = true
        ∧ (s.rb Reg.HST_DB_CFG.LOSS_STOP = true → fleetLatch t = true)) := by
  have hx : exec (.doorbellReadFail cyc) s = _ := withOutAt_live s (some (cycU cyc)) (doorbellFail cyc) hh
  rw [doorbellFail_eq (s := s.start.atInst (some (cycU cyc))) cyc h0 hs] at hx
  obtain ⟨hb, hd⟩ := sampling_mode hs
  obtain ⟨hr, hc, hrun⟩ := dbFail_counts cyc (readTaken (s.start.atInst (some (cycU cyc)))) hb hd
  obtain ⟨_, hlost⟩ := dbFail_after cyc (readTaken (s.start.atInst (some (cycU cyc)))) hb hd
  change exec (.doorbellReadFail cyc) s =
    .next (((dbFail cyc (readTaken (s.start.atInst (some (cycU cyc))))).requeue s.pending).atInst s.inst) at hx
  generalize dbFail cyc (readTaken (s.start.atInst (some (cycU cyc)))) = v at hx hr hc hrun hlost
  exact ⟨_, hx, hr, hc, hrun, hlost⟩

/-- Settles O20: a sample point issues its read or counts as failed, a failed read is counted and ends in a stop at the eighth,
and a completed one is taken entry by entry. -/
theorem doorbellReadsAreIssuedCountedAndTaken : Obligations.doorbell_reads_are_issued_counted_and_taken := by
  intro s cyc hh hs
  refine ⟨fun hlink hbme hwin => ⟨_, exec_doorbellSample_issues hh hs hlink hbme hwin, rfl⟩,
    exec_doorbellSample_linkDown hh hs, exec_doorbellReadFail cyc hh hs, fun block h0 _ => ?_⟩
  have hx : exec (.doorbellReadDone block cyc) s = _ := withOutAt_live s (some (cycU cyc)) (doorbellDone block cyc) hh
  have h := doorbellDone_takes (s := s.start.atInst (some (cycU cyc))) block cyc h0 hs
  generalize doorbellDone block cyc (s.start.atInst (some (cycU cyc))) = v at hx h
  exact ⟨_, hx, h⟩

end Sys2Proof.Machine

/-! PROOF. The reflection stream: sending, receiving, acknowledging and missing it, and the step to IN_SYNC (R323 to R326, R337). -/

namespace Sys2Proof.Machine

open Sys2Proof

/-! ### The stream a lead sends -/

/-- From s to t mode, tick number and the streams in flight stay. -/
def FlightKept (s t : State) : Prop := t.mode = s.mode ∧ t.tick = s.tick ∧ t.twn.flight = s.twn.flight

theorem FlightKept.rfl' (s : State) : FlightKept s s := ⟨rfl, rfl, rfl⟩

theorem FlightKept.trans {s t u : State} (h : FlightKept s t) (k : FlightKept t u) : FlightKept s u :=
  ⟨k.1.trans h.1, k.2.1.trans h.2.1, k.2.2.trans h.2.2⟩

theorem AirOnly.flightKept {s t : State} (h : AirOnly s t) : FlightKept s t :=
  ⟨by rw [h.1], by rw [h.1], by rw [h.1]⟩

theorem reflect_flightKept (s : State) (i : ReflItem) : FlightKept s (reflect s i) := (reflect_airOnly s i).flightKept

theorem foldl_flightKept {α : Type} (f : State → α → State) (h : ∀ s a, FlightKept s (f s a)) (l : List α) (s : State) :
    FlightKept s (l.foldl f s) := by
  induction l generalizing s with
  | nil => exact .rfl' s
  | cons a l ih => exact (h s a).trans (ih _)

theorem asgShow_flightKept (s : State) : FlightKept s (asgShow s) := by
  unfold asgShow
  dsimp only
  split
  · exact ⟨rfl, rfl, rfl⟩
  · exact ⟨rfl, rfl, rfl⟩

theorem asgPut_flightKept (s : State) (h : Handle) (v : Option Auction) : FlightKept s (asgPut s h v) := by
  unfold asgPut
  split
  · exact FlightKept.trans (t := { s with asg := { s.asg with run := v } }) ⟨rfl, rfl, rfl⟩ (asgShow_flightKept _)
  · split
    · exact ⟨rfl, rfl, rfl⟩
    · split
      · exact FlightKept.trans (t := { s with asg := { s.asg with pend := v } }) ⟨rfl, rfl, rfl⟩ (asgShow_flightKept _)
      · exact .rfl' s

theorem asgReflect_flightKept (s : State) : FlightKept s (asgReflect s) := by
  unfold asgReflect
  extract_lets due
  split
  · exact .rfl' s
  · split
    · exact .rfl' s
    · exact (asgPut_flightKept s _ _).trans (reflect_flightKept _ _)

theorem asgSent_flightKept (items : List ReflEntry) (s : State) : FlightKept s (asgSent items s) := by
  unfold asgSent
  refine foldl_flightKept _ (fun s i => ?_) items s
  split
  · split
    · exact asgPut_flightKept s _ _
    · exact .rfl' s
  · exact .rfl' s

theorem overrun_flightKept (s : State) (e : Nat) : FlightKept s (overrun s e) := by
  refine ⟨(overrun_modeAirPair s e).1, ?_, by rw [(overrun_modeAirPair s e).2.2]⟩
  unfold overrun
  extract_lets new u v w key n x
  have hx : x.tick = s.tick := by
    unfold x
    split
    · rfl
    · rfl
  split
  · rw [raise_tick, hx]
  · exact hx

theorem slotUsed_flightKept (s : State) (e held : Nat) : FlightKept s (slotUsed s e held) := by
  refine ⟨(slotUsed_modeAirPair s e held).1, ?_, by rw [(slotUsed_modeAirPair s e held).2.2]⟩
  unfold slotUsed
  dsimp only
  split
  · rfl
  · rfl

/-- The lead's stream has been gathered: what its units and rings add to it. -/
def streamGathered (s : State) : State :=
  let s := asgReflect (luvFlush (luvFlush s 0 232500) 1 232500)
  let base := if s.ttu.pos = 0 then baseItems s else []
  let drives : List ReflItem := (List.range 4).map fun n => .drive n (posShare s n)
  (ringItems s ++ base ++ drives).foldl reflect s

theorem streamGathered_flightKept (s : State) : FlightKept s (streamGathered s) := by
  unfold streamGathered
  have h := ((luvFlush_airOnly s 0 232500 (by decide)).trans (luvFlush_airOnly _ 1 232500 (by decide))).flightKept
  exact (h.trans (asgReflect_flightKept _)).trans (foldl_flightKept reflect reflect_flightKept _ _)

/-- The entries that fit into this tick's stream, and those carried over. -/
def streamAll (s : State) : List ReflEntry := s.twn.carry ++ inOrder s.twn.items

/-- The state in which the stream of this tick is closed, the counter of an overrun moved. -/
def streamClosed (packed : Nat) (s : State) : State :=
  let rest := (streamAll s).drop packed
  let s := asgSent ((streamAll s).take packed) s
  if rest = [] then s else overrun (s.inc Reg.TWN_COUNTS.REFL_OVERRUN) 10

theorem streamClosed_flightKept (packed : Nat) (s : State) : FlightKept s (streamClosed packed s) := by
  have h := asgSent_flightKept ((streamAll s).take packed) s
  unfold streamClosed
  extract_lets rest u
  split
  · exact h
  · exact h.trans (FlightKept.trans (t := u.inc Reg.TWN_COUNTS.REFL_OVERRUN) ⟨rfl, rfl, rfl⟩ (overrun_flightKept _ 10))

/-- The stream of tick n over the items sent. -/
def streamOf (s : State) (cover : Nat) (sent : List ReflEntry) : Flight :=
  { tick := s.tick, cover := cover, items := sent, digest := streamDigest sent (permitBits s) }

/-- The lead keeps its stream as in flight and sends it. -/
def streamSend (s : State) (cover : Nat) (sent rest : List ReflEntry) : State :=
  let f := streamOf s cover sent
  { s with twn := { s.twn with items := [], carry := rest, cover := cover, flight := s.twn.flight ++ [f] } }.emit
    (.byhelStream f.tick f.items f.digest)

theorem twnSlot_sends (use : SlotUse) (packed : Nat) (s : State) (hl : (slotUsed s 10 use.held).leading = true)
    (hs : (slotUsed s 10 use.held).inSync = true) (hp : (slotUsed s 10 use.held).paused = false) :
    twnSlot use packed s =
      (let u := streamGathered (slotUsed s 10 use.held)
      let rest := (streamAll u).drop packed
      let v := asgSent ((streamAll u).take packed) u
      streamSend (streamClosed packed u) (if rest.any isFirst then v.twn.cover else v.tick) ((streamAll u).take packed) rest) := by
  have h2 : ¬ (slotUsed s 10 use.held).pair = 2 := fun h => by simp [State.inSync, h] at hs
  unfold twnSlot
  rw [show slotEnd s 10 { use with pending := false } = slotUsed s 10 use.held from rfl]
  dsimp only
  rw [if_neg (by simp [hl, hp]), if_neg h2, if_neg (by simp [hs])]
  rfl

/-- In its slot an IN_SYNC lead sends the stream, keeps it as in flight and carries what did not fit. -/
theorem twnSlot_stream (use : SlotUse) (packed : Nat) (s : State) (hl : s.leading = true) (hs : s.inSync = true)
    (hp : s.paused = false) : ∃ items cover,
      (twnSlot use packed s).twn.flight = s.twn.flight
        ++ [{ tick := s.tick, cover := cover, items := items, digest := streamDigest items (permitBits (twnSlot use packed s)) }]
      ∧ (twnSlot use packed s).out.getLast?
        = some (.byhelStream s.tick items (streamDigest items (permitBits (twnSlot use packed s))))
      ∧ items.length ≤ packed ∧ (twnSlot use packed s).twn.items = []
      ∧ ((twnSlot use packed s).twn.carry = [] → cover = s.tick) ∧ (twnSlot use packed s).mode = s.mode := by
  have hk := slotUsed_flightKept s 10 use.held
  have hr (f : Field) (h : f.key 0 0 ≠ Reg.TTU_SLOT_USE.MAX_USE.key 10 0) := slotUsed_r s 10 use.held f h
  rw [twnSlot_sends use packed s (by unfold State.leading at hl ⊢; rw [hk.1]; exact hl)
    (by unfold State.inSync State.pair at hs ⊢; rw [hr _ (by decide)]; exact hs)
    (by unfold State.paused State.rb at hp ⊢; rw [hr _ (by decide)]; exact hp)]
  extract_lets u rest v
  have hu : FlightKept s u := hk.trans (streamGathered_flightKept _)
  clear_value u
  have hw : FlightKept s (streamClosed packed u) := hu.trans (streamClosed_flightKept packed u)
  have hv : v.tick = s.tick := (asgSent_flightKept _ u).2.1.trans hu.2.1
  generalize streamClosed packed u = w at hw
  obtain ⟨hmode, htick, hflight⟩ := hw
  refine ⟨(streamAll u).take packed, if rest.any isFirst then v.twn.cover else v.tick, ?_, ?_, List.length_take_le _ _, rfl,
    fun hc => ?_, hmode⟩
  · rw [← htick, ← hflight]
    rfl
  · rw [← htick]
    exact List.getLast?_concat
  · rw [show rest = [] from hc]
    exact hv

/-! ### A stream received, and an acknowledgement -/

/-- A frame that fails its CRC is counted. -/
theorem laneErr_counts (s : State) : RegsOnly [Reg.TWN_COUNTS.LANE_ERR.key 0 0] s (s.inc Reg.TWN_COUNTS.LANE_ERR)
    ∧ (s.inc Reg.TWN_COUNTS.LANE_ERR).r Reg.TWN_COUNTS.LANE_ERR = satInc 32 (s.r Reg.TWN_COUNTS.LANE_ERR) := by
  refine ⟨⟨rfl, fun k hk => mget_mput_ne 0 s.regs _ (by simpa using hk)⟩, ?_⟩
  unfold State.inc
  rw [State.r_w_same]
  refine Nat.mod_eq_of_lt ?_
  unfold satInc
  split
  · assumption
  · decide

theorem streamRx_crc (tick : Nat) (items : List ReflEntry) (digest : Nat) (s : State) (hd : s.mode ≠ .dead) (hp : s.paused = false) :
    streamRx tick items ⟨false, digest⟩ s = s.inc Reg.TWN_COUNTS.LANE_ERR := by
  unfold streamRx
  rw [if_neg (by simp [hd, hp])]
  exact if_pos rfl

/-- The shadow has acknowledged items 1 and 8. -/
def streamAcked (tick : Nat) (s : State) : State :=
  ({ s with twn := { s.twn with unackRun := 0 } }.emit (.byhelAck tick 1)).emit (.byhelAck tick 8)

/-- The shadow keeps a stream for the next boundary. -/
def streamKeep (tick : Nat) (items : List ReflEntry) (digest : Nat) (s : State) : State :=
  setLastRefl { s with twn := { s.twn with rx := s.twn.rx ++ [(tick, items, digest)] } } tick

theorem streamRx_shadow (tick : Nat) (items : List ReflEntry) (digest : Nat) (s : State) (hm : s.mode = .shadow)
    (hp : s.paused = false) (hs : s.inSync = true) : streamRx tick items ⟨true, digest⟩ s =
      if tick ≤ s.twn.lastRefl then streamAcked tick s else streamKeep tick items digest (streamAcked tick s) := by
  unfold streamRx
  rw [if_neg (by simp [hm, hp]), if_neg (by simp), if_neg (by simp [hm, hs])]
  rfl

theorem ackRx_crc (tick : Nat) (digest late : Bool) (results : List (Handle × Nat × Nat)) (s : State) (hd : s.mode ≠ .dead)
    (hp : s.paused = false) : ackRx tick ⟨false, digest⟩ late results s = s.inc Reg.TWN_COUNTS.LANE_ERR := by
  unfold ackRx
  rw [if_neg (by simp [hd, hp])]
  exact if_pos rfl

theorem State.leading_ne_dead {s : State} (h : s.leading = true) : s.mode ≠ .dead := fun hd => by
  simp [State.leading, hd] at h

theorem State.leading_ne_shadow {s : State} (h : s.leading = true) : s.mode ≠ .shadow := fun hd => by
  simp [State.leading, hd] at h

theorem ackRx_lead (tick : Nat) (digest late : Bool) (results : List (Handle × Nat × Nat)) (s : State) (f : Flight)
    (hl : s.leading = true) (hp : s.paused = false) (hs : s.inSync = true)
    (hf : s.twn.flight.find? (fun f => f.tick == tick) = some f) : ackRx tick ⟨true, digest⟩ late results s =
      if digest then
        peerDone results (limitsTake f.items (setLastRefl { s with twn := { s.twn with
          flight := s.twn.flight.filter (fun g => decide (tick < g.tick)), unackRun := 0, ack8 := max s.twn.ack8 f.cover } } tick))
      else if late && tick == s.tick then { s with twn := { s.twn with ack1Late := max s.twn.ack1Late f.cover } }
      else { s with twn := { s.twn with ack1Next := max s.twn.ack1Next f.cover } } := by
  unfold ackRx
  rw [if_neg (by simp [State.leading_ne_dead hl, hp]), if_neg (by simp), if_neg (by simp [hl, hs]), hf]

/-- From s to t what TWN keeps of the streams acknowledged stays. -/
def AckKept (s t : State) : Prop :=
  t.twn.lastRefl = s.twn.lastRefl ∧ t.twn.unackRun = s.twn.unackRun ∧ t.twn.flight = s.twn.flight ∧ t.twn.ack8 = s.twn.ack8

theorem AckKept.rfl' (s : State) : AckKept s s := ⟨rfl, rfl, rfl, rfl⟩

theorem AckKept.trans {s t u : State} (h : AckKept s t) (k : AckKept t u) : AckKept s u :=
  ⟨k.1.trans h.1, k.2.1.trans h.2.1, k.2.2.1.trans h.2.2.1, k.2.2.2.trans h.2.2.2⟩

theorem foldl_ackKept {α : Type} (f : State → α → State) (h : ∀ s a, AckKept s (f s a)) (l : List α) (s : State) :
    AckKept s (l.foldl f s) := by
  induction l generalizing s with
  | nil => exact .rfl' s
  | cons a l ih => exact (h s a).trans (ih _)

theorem complete_ackKept (s : State) (h : Handle) (st d : Nat) : AckKept s (complete s h st d) := by
  rw [complete_only]
  exact ⟨rfl, rfl, rfl, rfl⟩

theorem limitsTake_ackKept (items : List ReflEntry) (s : State) : AckKept s (limitsTake items s) := by
  unfold limitsTake
  refine foldl_ackKept _ (fun s i => ?_) items s
  split
  · exact ⟨rfl, rfl, rfl, rfl⟩
  · exact .rfl' s

theorem peerDone_ackKept (rs : List (Handle × Nat × Nat)) (s : State) : AckKept s (peerDone rs s) := by
  unfold peerDone
  refine foldl_ackKept _ (fun s r => ?_) rs s
  split
  · exact AckKept.trans (t := { s with twn := { s.twn with peerCmds := s.twn.peerCmds.filter (fun p => !(p.1 == r.1)) } })
      ⟨rfl, rfl, rfl, rfl⟩ (complete_ackKept _ _ _ _)
  · exact .rfl' s

/-! ### Pair states RESYNC and IN_SYNC (R319) -/

theorem foldl_complete_regsOut (l : List (Handle × Nat × Nat)) (s : State) :
    (l.foldl (fun s p => complete s p.1 p.2.1 p.2.2) s).regs = s.regs
      ∧ (l.foldl (fun s p => complete s p.1 p.2.1 p.2.2) s).out = s.out := by
  induction l generalizing s with
  | nil => exact ⟨rfl, rfl⟩
  | cons p l ih => exact ⟨(ih _).1.trans (complete_regs _ _ _ _), (ih _).2.trans (complete_out _ _ _ _)⟩

theorem syncLost_regsOut (s : State) : (syncLost s).regs = s.regs ∧ (syncLost s).out = s.out := by
  unfold syncLost
  extract_lets cmds stay _ u
  split
  · exact ⟨rfl, rfl⟩
  · exact foldl_complete_regsOut _ _

/-- An IN_SYNC pair goes to RESYNC. -/
theorem pairSet_resync {s : State} (h : s.pair = 3) : pairSet 2 s =
    (let u := syncLost (raise (s.w Reg.TWN_STATUS.PAIR_STATE 2) 389)
    if u.leading && !s.solo && u.solo then raise u 394 else u) := by
  unfold pairSet
  rw [if_neg (by omega)]
  extract_lets solo sync u v w
  have hv : v = syncLost u := by
    unfold v
    exact if_pos (by simp [sync, State.inSync, h])
  rw [if_neg (by simp)]
  unfold w
  rw [hv]
  rfl

/-- The pair state reads 2, its event is pending; nothing goes out, and other registers stay. -/
theorem pairSet_resync_shows {s : State} (h : s.pair = 3) :
    (pairSet 2 s).pair = 2 ∧ pending (pairSet 2 s) 389 = true ∧ (pairSet 2 s).out = s.out
      ∧ ∀ (f : Field) (i j : Nat), f.key i j ∉ evtKeys → f.key i j ≠ Reg.TWN_STATUS.PAIR_STATE.key 0 0 →
        (pairSet 2 s).r f i j = s.r f i j := by
  rw [pairSet_resync h]
  extract_lets u
  obtain ⟨hregs, hout⟩ := syncLost_regsOut (raise (s.w Reg.TWN_STATUS.PAIR_STATE 2) 389)
  have hpair : u.pair = 2 := by
    unfold State.pair
    rw [r_of_regs hregs, raise_field _ _ _ _ _ _ (by decide) (by decide), State.r_w_same]
    decide
  have hpend : pending u 389 = true := by
    rw [pending_of_pend (r_of_regs hregs _ _ _)]
    exact raise_sets_pending _ _ _ (by decide)
  have hu : u.out = s.out := hout.trans (raise_out _ _ _)
  have hf (f : Field) (i j : Nat) (he : f.key i j ∉ evtKeys) (hne : f.key i j ≠ Reg.TWN_STATUS.PAIR_STATE.key 0 0) :
      u.r f i j = s.r f i j := by
    rw [r_of_regs hregs, raise_field _ _ _ _ _ _ (by decide) he, State.r_w_ne _ _ _ _ _ _ _ _ hne]
  clear_value u
  split
  · refine ⟨?_, raise_pendStay u 394 _ 389 (by decide) hpend, (raise_out _ _ _).trans hu, fun f i j he hne => ?_⟩
    · unfold State.pair
      rw [raise_field _ _ _ _ _ _ (by decide) (by decide)]
      exact hpair
    · rw [raise_field _ _ _ _ _ _ (by decide) he, hf f i j he hne]
  · exact ⟨hpair, hpend, hu, hf⟩

/-- What a module notes before it goes to RESYNC. -/
def resyncNoted (s : State) : State :=
  let (v, s) := s.fresh
  let s := { s with twn := { s.twn with rx := [], owed := [], unackRun := 0 } }.w Reg.TWN_RESYNC.DONE_MIB 0
  let s := s.w Reg.TWN_RESYNC.TOTAL_MIB (v % 65)
  if s.mode == .shadow then s.wb Reg.TWN_STATUS.STALE true else s

theorem resync_eq (s : State) : resync s = pairSet 2 (resyncNoted s) := rfl

theorem resyncNoted_r (s : State) (f : Field) (hd : f.key 0 0 ≠ Reg.TWN_RESYNC.DONE_MIB.key 0 0)
    (ht : f.key 0 0 ≠ Reg.TWN_RESYNC.TOTAL_MIB.key 0 0) (hs : f.key 0 0 ≠ Reg.TWN_STATUS.STALE.key 0 0) :
    (resyncNoted s).r f = s.r f := by
  have h (u : State) (v w : Nat) : ((u.w Reg.TWN_RESYNC.DONE_MIB v).w Reg.TWN_RESYNC.TOTAL_MIB w).r f = u.r f := by
    rw [State.r_w_ne _ _ _ _ _ _ _ _ ht, State.r_w_ne _ _ _ _ _ _ _ _ hd]
  unfold resyncNoted
  dsimp only
  split
  · exact (State.r_w_ne _ _ _ _ _ _ _ _ hs).trans (h _ _ _)
  · exact h _ _ _

theorem resyncNoted_out (s : State) : (resyncNoted s).out = s.out := by
  unfold resyncNoted
  dsimp only
  split
  · rfl
  · rfl

theorem resyncNoted_stale {s : State} (h : s.mode = .shadow) : (resyncNoted s).rb Reg.TWN_STATUS.STALE = true := by
  unfold resyncNoted
  dsimp only
  rw [if_pos (by simp [h])]
  exact State.rb_wb_same _ _ true 0 0 rfl

/-- An IN_SYNC module goes to RESYNC; a shadow is then STALE. -/
theorem resync_shows {s : State} (h : s.inSync = true) :
    (resync s).pair = 2 ∧ pending (resync s) 389 = true ∧ (resync s).out = s.out
      ∧ (resync s).r Reg.TWN_COUNTS.REFL_UNACKED = s.r Reg.TWN_COUNTS.REFL_UNACKED
      ∧ (s.mode = .shadow → (resync s).rb Reg.TWN_STATUS.STALE = true) := by
  have hp : (resyncNoted s).pair = 3 := by
    unfold State.pair
    rw [resyncNoted_r s _ (by decide) (by decide) (by decide)]
    exact of_decide_eq_true h
  obtain ⟨h2, hpend, hout, hr⟩ := pairSet_resync_shows hp
  rw [resync_eq]
  refine ⟨h2, hpend, hout.trans (resyncNoted_out s), ?_, fun hm => ?_⟩
  · rw [hr _ _ _ (by decide) (by decide), resyncNoted_r s _ (by decide) (by decide) (by decide)]
  · unfold State.rb
    rw [hr _ _ _ (by decide) (by decide)]
    exact resyncNoted_stale hm

/-! ### A tick without acknowledgement -/

theorem emitAll_eq (fs : List Flight) (s : State) :
    fs.foldl (fun (s : State) (f : Flight) => s.emit (.byhelStream f.tick f.items f.digest)) s
      = { s with out := s.out ++ fs.map (fun f => .byhelStream f.tick f.items f.digest) } := by
  induction fs generalizing s with
  | nil => simp
  | cons f fs ih =>
    rw [List.foldl_cons, ih]
    simp [State.emit]

/-- The tick without acknowledgement has been counted and the streams in flight sent again. -/
def unackedSent (s : State) : State :=
  let u := raiseWatch (s.inc Reg.TWN_COUNTS.REFL_UNACKED) 392
  { u with
    out := u.out ++ s.twn.flight.map (fun f => .byhelStream f.tick f.items f.digest)
    twn := { u.twn with noFetch := true, unackRun := u.twn.unackRun + 1 } }

theorem raiseWatch_twn (s : State) (e d : Nat) : (raiseWatch s e d).twn = s.twn := by
  unfold raiseWatch
  split
  · rfl
  · exact raise_twn _ _ _

theorem raiseWatch_out (s : State) (e d : Nat) : (raiseWatch s e d).out = s.out := by
  unfold raiseWatch
  split
  · rfl
  · exact raise_out _ _ _

theorem raiseWatch_r (s : State) (e d : Nat) (f : Field) (i j : Nat) (he : e < 512) (h : f.key i j ∉ evtKeys) :
    (raiseWatch s e d).r f i j = s.r f i j := by
  unfold State.r; rw [raiseWatch_keys s e d _ he h]

theorem unacked_lead {s : State} (hl : s.leading = true) (hs : s.inSync = true) (hf : s.twn.flight ≠ []) :
    unacked s = if 10 ≤ (unackedSent s).twn.unackRun then resync (unackedSent s) else unackedSent s := by
  unfold unacked
  rw [if_neg (by simp [State.leading_ne_shadow hl]), if_neg (by simp [hl, hs, hf])]
  dsimp only
  rw [emitAll_eq]
  rfl

theorem unackedSent_shows (s : State) :
    (unackedSent s).r Reg.TWN_COUNTS.REFL_UNACKED = satInc 32 (s.r Reg.TWN_COUNTS.REFL_UNACKED)
      ∧ (unackedSent s).out = s.out ++ s.twn.flight.map (fun f => .byhelStream f.tick f.items f.digest)
      ∧ (unackedSent s).twn.noFetch = true ∧ (unackedSent s).twn.unackRun = s.twn.unackRun + 1
      ∧ (unackedSent s).pair = s.pair := by
  have htwn := raiseWatch_twn (s.inc Reg.TWN_COUNTS.REFL_UNACKED) 392 noDetail
  refine ⟨?_, ?_, rfl, ?_, ?_⟩
  · refine (raiseWatch_r _ 392 noDetail _ _ _ (by decide) (by decide)).trans ?_
    rw [State.inc, State.r_w_same]
    refine Nat.mod_eq_of_lt ?_
    unfold satInc
    split
    · assumption
    · decide
  · unfold unackedSent
    dsimp only
    rw [raiseWatch_out]
    rfl
  · unfold unackedSent
    dsimp only
    rw [htwn]
    rfl
  · exact (raiseWatch_r _ 392 noDetail _ _ _ (by decide) (by decide)).trans (State.r_w_ne _ _ _ _ _ _ _ _ (by decide))

/-- A tick without acknowledgement is counted and the streams in flight go out again; at the tenth the pair goes to RESYNC. -/
theorem unacked_lead_shows {s : State} (hl : s.leading = true) (hs : s.inSync = true) (hf : s.twn.flight ≠ []) :
    (unacked s).r Reg.TWN_COUNTS.REFL_UNACKED = satInc 32 (s.r Reg.TWN_COUNTS.REFL_UNACKED)
      ∧ (unacked s).out = s.out ++ s.twn.flight.map (fun f => .byhelStream f.tick f.items f.digest)
      ∧ (s.twn.unackRun < 9 → (unacked s).twn.noFetch = true ∧ (unacked s).twn.unackRun = s.twn.unackRun + 1
        ∧ (unacked s).pair = 3)
      ∧ (9 ≤ s.twn.unackRun → (unacked s).pair = 2 ∧ pending (unacked s) 389 = true) := by
  rw [unacked_lead hl hs hf]
  obtain ⟨hcount, hout, hno, hrun, hpair⟩ := unackedSent_shows s
  have h3 : s.pair = 3 := of_decide_eq_true hs
  generalize unackedSent s = u at *
  by_cases h9 : 9 ≤ s.twn.unackRun
  · rw [if_pos (by omega)]
    obtain ⟨h2, hpend, hout', hcount', _⟩ := resync_shows (s := u) (decide_eq_true (hpair.trans h3))
    exact ⟨hcount'.trans hcount, hout'.trans hout, fun h => absurd h9 (by omega), fun _ => ⟨h2, hpend⟩⟩
  · rw [if_neg (by omega)]
    exact ⟨hcount, hout, fun _ => ⟨hno, hrun, hpair.trans h3⟩, fun h => absurd h h9⟩

theorem unacked_shadow {s : State} (hm : s.mode = .shadow) (hs : s.inSync = true) : unacked s =
    if 9 ≤ s.twn.unackRun then resync s else { s with twn := { s.twn with unackRun := s.twn.unackRun + 1 } } := by
  unfold unacked
  rw [if_pos (by simp [hm]), if_neg (by simp [hs])]

/-! ### The joiner that reaches IN_SYNC -/

/-- A pair that is not IN_SYNC and becomes so. -/
theorem pairSet_inSync {s : State} (h : s.pair ≠ 3) : pairSet 3 s =
    (let u := raise (s.w Reg.TWN_STATUS.PAIR_STATE 3) 390
    if u.leading && !s.solo && u.solo then raise u 394 else u) := by
  unfold pairSet
  rw [if_neg h]
  extract_lets solo sync u v w
  have hv : v = u := by
    unfold v
    exact if_neg (by simpa [sync, State.inSync] using h)
  rw [if_neg (by simp)]
  unfold w
  rw [hv]
  rfl

/-- From s to t nothing changes but registers and what raisings change, and STALE stays. -/
def JoinShows (s t : State) : Prop :=
  EvtOnly s t ∧ t.pair = 3 ∧ t.rb Reg.TWN_STATUS.STALE = s.rb Reg.TWN_STATUS.STALE ∧ (s.pair ≠ 3 → pending t 390 = true)

theorem pairSet_inSync_shows (s : State) : JoinShows s (pairSet 3 s) := by
  by_cases h : s.pair = 3
  · have hs : pairSet 3 s = s := by
      unfold pairSet
      rw [if_pos h]
    rw [hs]
    exact ⟨.rfl' s, h, rfl, fun hn => absurd h hn⟩
  · rw [pairSet_inSync h]
    extract_lets u
    have hu : JoinShows s u := by
      refine ⟨EvtOnly.trans (t := s.w Reg.TWN_STATUS.PAIR_STATE 3) rfl (raise_evtOnly _ _ _), ?_, ?_, fun _ =>
        raise_sets_pending _ _ _ (by decide)⟩
      · unfold State.pair
        rw [raise_field _ _ _ _ _ _ (by decide) (by decide), State.r_w_same]
        decide
      · unfold State.rb
        rw [raise_field _ _ _ _ _ _ (by decide) (by decide), State.r_w_ne _ _ _ _ _ _ _ _ (by decide)]
    clear_value u
    split
    · obtain ⟨he, hp, hst, hpend⟩ := hu
      refine ⟨he.trans (raise_evtOnly _ _ _), ?_, ?_, fun hn => raise_pendStay u 394 _ 390 (by decide) (hpend hn)⟩
      · unfold State.pair
        rw [raise_field _ _ _ _ _ _ (by decide) (by decide)]
        exact hp
      · rw [← hst]
        unfold State.rb
        rw [raise_field _ _ _ _ _ _ (by decide) (by decide)]
    · exact hu

/-- From s to t what a joiner takes of the engines stays. -/
def SnapKept (s t : State) : Prop :=
  t.fix = s.fix ∧ t.asg = s.asg ∧ t.cpl = s.cpl ∧ t.sec = s.sec ∧ t.hst.started = s.hst.started

theorem SnapKept.rfl' (s : State) : SnapKept s s := ⟨rfl, rfl, rfl, rfl, rfl⟩

theorem SnapKept.trans {s t u : State} (h : SnapKept s t) (k : SnapKept t u) : SnapKept s u :=
  ⟨k.1.trans h.1, k.2.1.trans h.2.1, k.2.2.1.trans h.2.2.1, k.2.2.2.1.trans h.2.2.2.1, k.2.2.2.2.trans h.2.2.2.2⟩

theorem EvtOnly.snapKept {s t : State} (h : EvtOnly s t) : SnapKept s t :=
  ⟨by rw [h], by rw [h], by rw [h], by rw [h], by rw [h]⟩

theorem foldl_snapKept {α : Type} (f : State → α → State) (h : ∀ s a, SnapKept s (f s a)) (l : List α) (s : State) :
    SnapKept s (l.foldl f s) := by
  induction l generalizing s with
  | nil => exact .rfl' s
  | cons a l ih => exact (h s a).trans (ih _)

theorem iter_snapKept (f : Nat → State → State) (h : ∀ k s, SnapKept s (f k s)) (n : Nat) (s : State) : SnapKept s (iter f n s) := by
  induction n with
  | zero => exact .rfl' s
  | succ n ih => exact ih.trans (h n _)

theorem w_snapKept (s : State) (f : Field) (v i j : Nat) : SnapKept s (s.w f v i j) := ⟨rfl, rfl, rfl, rfl, rfl⟩
theorem wb_snapKept (s : State) (f : Field) (v : Bool) (i j : Nat) : SnapKept s (s.wb f v i j) := ⟨rfl, rfl, rfl, rfl, rfl⟩
theorem wi_snapKept (s : State) (f : Field) (v : Int) (i j : Nat) : SnapKept s (s.wi f v i j) := ⟨rfl, rfl, rfl, rfl, rfl⟩
theorem wbit_snapKept (s : State) (f : Field) (b : Nat) (on : Bool) : SnapKept s (s.wbit f b on) := ⟨rfl, rfl, rfl, rfl, rfl⟩

theorem isoAdopt_snapKept (s : State) (c addr : Nat) (claimed : Bool) : SnapKept s (isoAdopt s c addr claimed) := by
  unfold isoAdopt isoShow
  extract_lets u was v w
  have hw : SnapKept s w := by
    have hv : SnapKept s v := ⟨rfl, rfl, rfl, rfl, rfl⟩
    refine hv.trans ?_
    unfold w reflect
    split
    · exact ⟨rfl, rfl, rfl, rfl, rfl⟩
    · exact .rfl' v
  clear_value w
  split
  · exact hw
  · exact hw.trans (raise_evtOnly w 507 c).snapKept

theorem originShow_snapKept (s : State) (o : Option (Int × Int × Int)) (fromLead : Bool) : SnapKept s (originShow s o fromLead) :=
  (SnapKept.trans (t := { s with cht := { s.cht with origin := o } }) ⟨rfl, rfl, rfl, rfl, rfl⟩ (wb_snapKept _ _ _ _ _)).trans
    (wb_snapKept _ _ _ _ _)

theorem setCanCh_snapKept (s : State) (c : Nat) (v : CanCh) : SnapKept s (setCanCh s c v) := ⟨rfl, rfl, rfl, rfl, rfl⟩

theorem setPosSink_snapKept (s : State) (n : Nat) (v : PosSink) : SnapKept s (setPosSink s n v) := ⟨rfl, rfl, rfl, rfl, rfl⟩

theorem setPosCh_snapKept (s : State) (n : Nat) (v : PosCh) : SnapKept s (setPosCh s n v) := ⟨rfl, rfl, rfl, rfl, rfl⟩

theorem posAdopt_snapKept (s : State) (n : Nat) (p : PosShare) : SnapKept s (posAdopt s n p) := by
  unfold posAdopt
  extract_lets u v w _ x
  have hu : SnapKept s u := (wi_snapKept s _ _ _ _).trans (w_snapKept _ _ _ _ _)
  have hv : SnapKept u v := (wb_snapKept u _ _ _ _).trans (w_snapKept _ _ _ _ _)
  have hw : SnapKept v w := (w_snapKept v _ _ _ _).trans (wb_snapKept _ _ _ _ _)
  have hx : SnapKept w x := setPosSink_snapKept w n _
  exact (((hu.trans hv).trans hw).trans hx).trans (setPosCh_snapKept x n _)

theorem latchesAdopt_snapKept (fleet : Bool) (rs : List (Fin 128)) (s : State) : SnapKept s (latchesAdopt fleet rs s) := by
  unfold latchesAdopt
  extract_lets u
  have hu : SnapKept s u := ⟨rfl, rfl, rfl, rfl, rfl⟩
  clear_value u
  exact hu.trans (iter_snapKept _ (fun _ v => wbit_snapKept v _ _ _) _ u)

/-- The engines' state a joiner takes from its snapshot. -/
def SnapHeld (x : Snapshot) (s : State) : Prop :=
  s.fix = x.fix ∧ s.asg = x.asg ∧ s.cpl = x.cpl ∧ s.sec = x.sec ∧ s.hst.started = x.started

theorem SnapHeld.kept {x : Snapshot} {s t : State} (h : SnapHeld x s) (k : SnapKept s t) : SnapHeld x t :=
  ⟨k.1.trans h.1, k.2.1.trans h.2.1, k.2.2.1.trans h.2.2.1, k.2.2.2.1.trans h.2.2.2.1, k.2.2.2.2.trans h.2.2.2.2⟩

/-- The joiner takes the engines' state. -/
def snapTake (x : Snapshot) (s : State) : State := { s with
  cht := { x.cht with last := s.cht.last, mismatch := s.cht.mismatch, asLead := false, genTick := s.cht.genTick, differ := 0 }
  fix := x.fix, asg := x.asg, prf := x.prf, cpl := x.cpl
  obs := { x.obs with flash := s.obs.flash, flash2 := s.obs.flash2, half := s.obs.half, ephAt := s.obs.ephAt, judged := s.obs.judged, own := none, diffs := [], terms := [], first := false }
  sec := x.sec
  luv := { s.luv with rovers := x.slots, parts := x.parts, dirty := true }
  hst := { s.hst with started := x.started, compl := [], waiting := [], reading := [] }
  twn := { s.twn with rx := [], owed := [], written := [], peerCmds := [] } }

/-- The joiner takes the registers, the channels' handles, the addresses and the drives. -/
def snapUnits (x : Snapshot) (s : State) : State :=
  let s := regsAdopt x.regs s
  let s := x.handles.foldl (fun s p => setCanCh s p.1 { canCh s p.1 with handles := p.2 }) s
  let s := x.iso.foldl (fun s p => isoAdopt s p.1 p.2.1 p.2.2) s
  x.pos.foldl (fun s p => posAdopt s p.1 p.2) s

/-- The joiner takes the latches and the origin, and shows the size of its snapshot. -/
def snapShow (x : Snapshot) (s : State) : State :=
  let s := originShow (latchesAdopt x.fleet x.targeted s) x.cht.origin true
  (s.w Reg.TWN_RESYNC.DONE_MIB x.mib).w Reg.TWN_RESYNC.TOTAL_MIB x.mib

theorem snapAdopt_eq (x : Snapshot) (s : State) :
    snapAdopt x s = snapShow x (snapUnits x (snapTake x (originFromLead s x.cht.origin))) := rfl

theorem isoAll_snapKept (l : List (Nat × Nat × Bool)) (s : State) :
    SnapKept s (l.foldl (fun s p => isoAdopt s p.1 p.2.1 p.2.2) s) :=
  foldl_snapKept (fun s (p : Nat × Nat × Bool) => isoAdopt s p.1 p.2.1 p.2.2)
    (fun u p => isoAdopt_snapKept u p.1 p.2.1 p.2.2) l s

theorem posAll_snapKept (l : List (Nat × PosShare)) (s : State) : SnapKept s (l.foldl (fun s p => posAdopt s p.1 p.2) s) :=
  foldl_snapKept (fun s (p : Nat × PosShare) => posAdopt s p.1 p.2) (fun u p => posAdopt_snapKept u p.1 p.2) l s

theorem snapUnits_snapKept (x : Snapshot) (s : State) : SnapKept s (snapUnits x s) := by
  unfold snapUnits
  extract_lets regs chans iso
  have hregs : SnapKept s regs := ⟨rfl, rfl, rfl, rfl, rfl⟩
  have hchans : SnapKept regs chans := foldl_snapKept _ (fun _ _ => setCanCh_snapKept _ _ _) _ _
  exact ((hregs.trans hchans).trans (isoAll_snapKept x.iso chans)).trans (posAll_snapKept x.pos iso)

theorem snapShow_snapKept (x : Snapshot) (s : State) : SnapKept s (snapShow x s) :=
  (((latchesAdopt_snapKept x.fleet x.targeted s).trans (originShow_snapKept _ _ _)).trans (w_snapKept _ _ _ _ _)).trans
    (w_snapKept _ _ _ _ _)

theorem snapAdopt_held (x : Snapshot) (s : State) : SnapHeld x (snapAdopt x s) := by
  rw [snapAdopt_eq]
  have h : SnapHeld x (snapTake x (originFromLead s x.cht.origin)) := ⟨rfl, rfl, rfl, rfl, rfl⟩
  exact (h.kept (snapUnits_snapKept x _)).kept (snapShow_snapKept x _)

theorem inSyncNow_shadow {s : State} (x : Snapshot) (h : s.pair = 2) (hp : s.ttu.pos = 0) (hr : s.paused = false)
    (hm : s.mode = .shadow) : inSyncNow x s = pairSet 3 ((asgSynced (snapAdopt x s)).wb Reg.TWN_STATUS.STALE false) := by
  unfold inSyncNow
  rw [if_neg (by simp [h, hp, hr]), if_pos (by simp [hm])]

/-- The lead's streams and changes stand no more. -/
def streamsDropped (s : State) : State :=
  asgSynced (acksClear { s with twn := { s.twn with items := [], carry := [], flight := [] } })

theorem inSyncNow_lead {s : State} (x : Snapshot) (h : s.pair = 2) (hp : s.ttu.pos = 0) (hr : s.paused = false)
    (hl : s.leading = true) : inSyncNow x s =
      pairSet 3 (((streamsDropped s).w Reg.TWN_RESYNC.DONE_MIB x.mib).w Reg.TWN_RESYNC.TOTAL_MIB x.mib) := by
  unfold inSyncNow
  rw [if_neg (by simp [h, hp, hr]), if_neg (by simp [State.leading_ne_shadow hl]), if_pos hl]
  rfl

/-- At a watch boundary in RESYNC the shadow holds the lead's state and reads IN_SYNC, not STALE. -/
theorem inSyncNow_shadow_shows {s : State} (x : Snapshot) (h : s.pair = 2) (hp : s.ttu.pos = 0) (hr : s.paused = false)
    (hm : s.mode = .shadow) : (inSyncNow x s).pair = 3 ∧ (inSyncNow x s).rb Reg.TWN_STATUS.STALE = false
      ∧ (inSyncNow x s).fix = x.fix ∧ (inSyncNow x s).asg = (asgSynced { s with asg := x.asg }).asg
      ∧ (inSyncNow x s).cpl = x.cpl ∧ (inSyncNow x s).sec = x.sec ∧ (inSyncNow x s).hst.started = x.started := by
  rw [inSyncNow_shadow x h hp hr hm]
  obtain ⟨hfix, hasg, hcpl, hsec, hstarted⟩ := snapAdopt_held x s
  generalize snapAdopt x s = u at *
  obtain ⟨he, h3, hst, _⟩ := pairSet_inSync_shows ((asgSynced u).wb Reg.TWN_STATUS.STALE false)
  obtain ⟨kfix, kasg, kcpl, ksec, kstarted⟩ := he.snapKept
  refine ⟨h3, hst.trans (State.rb_wb_same _ _ false 0 0 rfl), kfix.trans hfix, kasg.trans ?_, kcpl.trans hcpl, ksec.trans hsec,
    kstarted.trans hstarted⟩
  unfold asgSynced
  dsimp only [State.wb, State.w]
  rw [hasg]

/-- At a watch boundary in RESYNC the lead reads IN_SYNC, with no stream in flight and nothing to send. -/
theorem inSyncNow_lead_shows {s : State} (x : Snapshot) (h : s.pair = 2) (hp : s.ttu.pos = 0) (hr : s.paused = false)
    (hl : s.leading = true) : (inSyncNow x s).pair = 3 ∧ pending (inSyncNow x s) 390 = true
      ∧ (inSyncNow x s).twn.flight = [] ∧ (inSyncNow x s).twn.items = [] := by
  rw [inSyncNow_lead x h hp hr hl]
  have h2 : (((streamsDropped s).w Reg.TWN_RESYNC.DONE_MIB x.mib).w Reg.TWN_RESYNC.TOTAL_MIB x.mib).pair = 2 := by
    unfold State.pair
    rw [State.r_w_ne _ _ _ _ _ _ _ _ (by decide), State.r_w_ne _ _ _ _ _ _ _ _ (by decide)]
    exact h
  obtain ⟨he, h3, _, hpend⟩ :=
    pairSet_inSync_shows (((streamsDropped s).w Reg.TWN_RESYNC.DONE_MIB x.mib).w Reg.TWN_RESYNC.TOTAL_MIB x.mib)
  have ht : (pairSet 3 (((streamsDropped s).w Reg.TWN_RESYNC.DONE_MIB x.mib).w Reg.TWN_RESYNC.TOTAL_MIB x.mib)).twn
      = (streamsDropped s).twn := by rw [he]; rfl
  exact ⟨h3, hpend (by omega), by rw [ht]; rfl, by rw [ht]; rfl⟩

/-! ### The commands -/

theorem slots_of_leading {s : State} (hl : s.leading = true) (hp : s.paused = false) : s.slots = true := by
  unfold State.slots State.running
  unfold State.leading at hl
  rcases Bool.or_eq_true_iff.1 hl with h | h
  · simp [h, hp]
  · simp [h, hp]

theorem exec_twnSlot_lead {s : State} (use : SlotUse) (packed : Nat) (hh : s.held = false) (hl : s.leading = true)
    (hs : s.inSync = true) (hp : s.paused = false) : ∃ t items cover,
      exec (.twnSlot use packed) s = .next t
      ∧ t.twn.flight = s.twn.flight ++ [{ tick := s.tick, cover := cover, items := items, digest := streamDigest items (permitBits t) }]
      ∧ t.out.getLast? = some (.byhelStream s.tick items (streamDigest items (permitBits t))) ∧ items.length ≤ packed
      ∧ t.twn.items = [] ∧ (t.twn.carry = [] → cover = s.tick) ∧ t.mode = s.mode := by
  have hx : exec (.twnSlot use packed) s = _ := engines_exec (twnSlot use packed) s ⟨hh, slots_of_leading hl hp⟩
  obtain ⟨items, cover, hflight, hout, hlen, hitems, hcarry, hmode⟩ := twnSlot_stream use packed (s.start.atInst none) hl hs hp
  generalize twnSlot use packed (s.start.atInst none) = v at *
  exact ⟨_, items, cover, hx, hflight, hout, hlen, hitems, hcarry, hmode⟩

theorem exec_reflStreamRx_crc {s : State} (tick : Nat) (items : List ReflEntry) (digest : Nat) (hh : s.held = false)
    (hd : s.mode ≠ .dead) (hp : s.paused = false) :
    ∃ t, exec (.reflStreamRx tick items ⟨false, digest⟩) s = .next t ∧ RegsOnly [Reg.TWN_COUNTS.LANE_ERR.key 0 0] s t
      ∧ t.r Reg.TWN_COUNTS.LANE_ERR = satInc 32 (s.r Reg.TWN_COUNTS.LANE_ERR) := by
  have hx : exec (.reflStreamRx tick items ⟨false, digest⟩) s = _ := withOut_live s (streamRx tick items ⟨false, digest⟩) hh
  rw [streamRx_crc tick items digest (s.start.atInst none) hd hp] at hx
  obtain ⟨⟨_, hk⟩, hc⟩ := laneErr_counts (s.start.atInst none)
  exact ⟨_, hx, ⟨rfl, hk⟩, hc⟩

theorem streamAcked_exec (tick : Nat) (s : State) : ((streamAcked tick (s.start.atInst none)).requeue s.pending).atInst s.inst
    = { s with out := [.byhelAck tick 1, .byhelAck tick 8], twn := { s.twn with unackRun := 0 } } := by
  cases s
  rfl

theorem streamKeep_exec (tick : Nat) (items : List ReflEntry) (digest : Nat) (s : State) :
    ((streamKeep tick items digest (streamAcked tick (s.start.atInst none))).requeue s.pending).atInst s.inst
    = { s with
        out := [.byhelAck tick 1, .byhelAck tick 8]
        twn := { s.twn with lastRefl := tick, rx := s.twn.rx ++ [(tick, items, digest)], unackRun := 0 } }.w
          Reg.TWN_LAST_REFL.TICK_LO tick := by
  cases s
  rfl

theorem exec_reflStreamRx_shadow {s : State} (tick : Nat) (items : List ReflEntry) (digest : Nat) (hh : s.held = false)
    (hm : s.mode = .shadow) (hp : s.paused = false) (hs : s.inSync = true) :
    ∃ t, exec (.reflStreamRx tick items ⟨true, digest⟩) s = .next t ∧ t.out = [.byhelAck tick 1, .byhelAck tick 8]
      ∧ (tick ≤ s.twn.lastRefl → t = { s with out := t.out, twn := { s.twn with unackRun := 0 } })
      ∧ (s.twn.lastRefl < tick → t.twn = { s.twn with lastRefl := tick, rx := s.twn.rx ++ [(tick, items, digest)], unackRun := 0 }
        ∧ RegsKept [Reg.TWN_LAST_REFL.TICK_LO.key 0 0] s t) := by
  have hx : exec (.reflStreamRx tick items ⟨true, digest⟩) s = _ := withOut_live s (streamRx tick items ⟨true, digest⟩) hh
  rw [streamRx_shadow tick items digest (s.start.atInst none) hm hp hs] at hx
  by_cases hle : tick ≤ (s.start.atInst none).twn.lastRefl
  · rw [if_pos hle, streamAcked_exec] at hx
    exact ⟨_, hx, rfl, fun _ => rfl, fun hlt => absurd hle (Nat.not_le_of_lt hlt)⟩
  · rw [if_neg hle, streamKeep_exec] at hx
    refine ⟨_, hx, rfl, fun h => absurd h hle, fun _ => ⟨rfl, fun k hk => ?_⟩⟩
    exact mget_mput_ne 0 s.regs _ (by simpa using hk)

theorem exec_reflAckRx_crc {s : State} (tick : Nat) (late digest : Bool) (results : List (Handle × Nat × Nat))
    (hh : s.held = false) (hd : s.mode ≠ .dead) (hp : s.paused = false) :
    ∃ t, exec (.reflAckRx tick ⟨false, digest⟩ late results) s = .next t ∧ RegsOnly [Reg.TWN_COUNTS.LANE_ERR.key 0 0] s t
      ∧ t.r Reg.TWN_COUNTS.LANE_ERR = satInc 32 (s.r Reg.TWN_COUNTS.LANE_ERR) := by
  have hx : exec (.reflAckRx tick ⟨false, digest⟩ late results) s = _ := withOut_live s (ackRx tick ⟨false, digest⟩ late results) hh
  rw [ackRx_crc tick digest late results (s.start.atInst none) hd hp] at hx
  obtain ⟨⟨_, hk⟩, hc⟩ := laneErr_counts (s.start.atInst none)
  exact ⟨_, hx, ⟨rfl, hk⟩, hc⟩

/-- The acknowledgement of item 8 takes the streams up to its tick out of flight. -/
theorem exec_reflAckRx_digest {s : State} (tick : Nat) (late : Bool) (results : List (Handle × Nat × Nat)) (f : Flight)
    (hh : s.held = false) (hl : s.leading = true) (hp : s.paused = false) (hs : s.inSync = true)
    (hf : s.twn.flight.find? (fun f => f.tick == tick) = some f) :
    ∃ t, exec (.reflAckRx tick ⟨true, true⟩ late results) s = .next t ∧ t.twn.lastRefl = tick ∧ t.twn.unackRun = 0
      ∧ t.twn.flight = s.twn.flight.filter (fun g => decide (tick < g.tick)) ∧ t.twn.ack8 = max s.twn.ack8 f.cover := by
  have hx : exec (.reflAckRx tick ⟨true, true⟩ late results) s = _ := withOut_live s (ackRx tick ⟨true, true⟩ late results) hh
  rw [ackRx_lead tick true late results (s.start.atInst none) f hl hp hs hf, if_pos rfl] at hx
  obtain ⟨h1, h2, h3, h4⟩ := (limitsTake_ackKept f.items (setLastRefl { s.start.atInst none with twn := { s.twn with
    flight := s.twn.flight.filter (fun g => decide (tick < g.tick)), unackRun := 0, ack8 := max s.twn.ack8 f.cover } } tick)).trans
    (peerDone_ackKept results _)
  exact ⟨_, hx, h1, h2, h3, h4⟩

/-- The acknowledgement of item 1 covers the changes from the next boundary, a late one a boundary later. -/
theorem exec_reflAckRx_first {s : State} (tick : Nat) (late : Bool) (results : List (Handle × Nat × Nat)) (f : Flight)
    (hh : s.held = false) (hl : s.leading = true) (hp : s.paused = false) (hs : s.inSync = true)
    (hf : s.twn.flight.find? (fun f => f.tick == tick) = some f) :
    exec (.reflAckRx tick ⟨true, false⟩ late results) s =
      if late && tick == s.tick then .next { s with out := [], twn := { s.twn with ack1Late := max s.twn.ack1Late f.cover } }
      else .next { s with out := [], twn := { s.twn with ack1Next := max s.twn.ack1Next f.cover } } := by
  have hx : exec (.reflAckRx tick ⟨true, false⟩ late results) s = _ := withOut_live s (ackRx tick ⟨true, false⟩ late results) hh
  rw [hx, ackRx_lead tick false late results (s.start.atInst none) f hl hp hs hf, if_neg (by simp), State.atInst_tick, State.start_tick]
  by_cases h : (late && tick == s.tick) = true
  · rw [if_pos h, if_pos h]
    rfl
  · rw [if_neg h, if_neg h]
    rfl

theorem exec_reflUnacked_lead {s : State} (hh : s.held = false) (hl : s.leading = true) (hs : s.inSync = true)
    (hf : s.twn.flight ≠ []) : ∃ t, exec .reflUnacked s = .next t
      ∧ t.r Reg.TWN_COUNTS.REFL_UNACKED = satInc 32 (s.r Reg.TWN_COUNTS.REFL_UNACKED)
      ∧ t.out = s.twn.flight.map (fun f => .byhelStream f.tick f.items f.digest)
      ∧ (s.twn.unackRun < 9 → t.twn.noFetch = true ∧ t.twn.unackRun = s.twn.unackRun + 1 ∧ t.pair = 3)
      ∧ (9 ≤ s.twn.unackRun → t.pair = 2 ∧ pending t 389 = true) := by
  have hx : exec .reflUnacked s = _ := withOutAt_live s (some 0) unacked hh
  obtain ⟨hcount, hout, hgo, hten⟩ := unacked_lead_shows (s := s.start.atInst (some 0)) hl hs hf
  generalize unacked (s.start.atInst (some 0)) = v at hx hcount hout hgo hten
  exact ⟨_, hx, hcount, hout, hgo, hten⟩

theorem exec_reflUnacked_shadow {s : State} (hh : s.held = false) (hm : s.mode = .shadow) (hs : s.inSync = true) :
    (s.twn.unackRun < 9 → exec .reflUnacked s = .next { s with out := [], twn := { s.twn with unackRun := s.twn.unackRun + 1 } })
    ∧ (9 ≤ s.twn.unackRun → ∃ t, exec .reflUnacked s = .next t ∧ t.pair = 2 ∧ t.rb Reg.TWN_STATUS.STALE = true
      ∧ pending t 389 = true) := by
  have hx : exec .reflUnacked s = _ := withOutAt_live s (some 0) unacked hh
  rw [unacked_shadow (s := s.start.atInst (some 0)) hm hs] at hx
  refine ⟨fun h9 => ?_, fun h9 => ?_⟩
  · rw [hx, if_neg (show ¬ 9 ≤ (s.start.atInst (some 0)).twn.unackRun from Nat.not_le_of_lt h9)]
    rfl
  · rw [if_pos (show 9 ≤ (s.start.atInst (some 0)).twn.unackRun from h9)] at hx
    obtain ⟨h2, hpend, _, _, hst⟩ := resync_shows (s := s.start.atInst (some 0)) hs
    generalize resync (s.start.atInst (some 0)) = v at hx h2 hpend hst
    exact ⟨_, hx, h2, hst hm, hpend⟩

theorem exec_twnInSync_shadow {s : State} (x : Snapshot) (hh : s.held = false) (h2 : s.pair = 2) (h0 : s.ttu.pos = 0)
    (hp : s.paused = false) (hm : s.mode = .shadow) : ∃ t, exec (.twnInSync x) s = .next t ∧ t.pair = 3
      ∧ t.rb Reg.TWN_STATUS.STALE = false ∧ t.fix = x.fix ∧ t.asg = (asgSynced { s with asg := x.asg }).asg ∧ t.cpl = x.cpl
      ∧ t.sec = x.sec ∧ t.hst.started = x.started := by
  have hx : exec (.twnInSync x) s = _ := withOutAt_live s (some 0) (inSyncNow x) hh
  have h := inSyncNow_shadow_shows (s := s.start.atInst (some 0)) x h2 h0 hp hm
  generalize inSyncNow x (s.start.atInst (some 0)) = v at hx h
  exact ⟨_, hx, h⟩

theorem exec_twnInSync_lead {s : State} (x : Snapshot) (hh : s.held = false) (h2 : s.pair = 2) (h0 : s.ttu.pos = 0)
    (hp : s.paused = false) (hl : s.leading = true) : ∃ t, exec (.twnInSync x) s = .next t ∧ t.pair = 3 ∧ pending t 390 = true
      ∧ t.twn.flight = [] ∧ t.twn.items = [] := by
  have hx : exec (.twnInSync x) s = _ := withOutAt_live s (some 0) (inSyncNow x) hh
  have h := inSyncNow_lead_shows (s := s.start.atInst (some 0)) x h2 h0 hp hl
  generalize inSyncNow x (s.start.atInst (some 0)) = v at hx h
  exact ⟨_, hx, h⟩

/-- Settles O53: the lead's slot, the frames of both modules, a tick missed, and the step to IN_SYNC. -/
theorem theReflectionStreamIsSentAndAcknowledged : Obligations.the_reflection_stream_is_sent_and_acknowledged := by
  intro s hh
  refine ⟨fun use packed hl hs hp => exec_twnSlot_lead use packed hh hl hs hp,
    fun tick items digest hd hp => exec_reflStreamRx_crc tick items digest hh hd hp,
    fun tick items digest hm hp hs => exec_reflStreamRx_shadow tick items digest hh hm hp hs,
    fun tick results f hl hp hs hf => ⟨fun late => exec_reflAckRx_digest tick late results f hh hl hp hs hf, fun late h => ?_,
      fun ht => ?_⟩,
    fun tick late digest results hd hp => exec_reflAckRx_crc tick late digest results hh hd hp,
    fun hl hs hf => exec_reflUnacked_lead hh hl hs hf, fun hm hs => exec_reflUnacked_shadow hh hm hs,
    fun x h2 h0 hp => ⟨exec_twnInSync_shadow x hh h2 h0 hp, exec_twnInSync_lead x hh h2 h0 hp⟩⟩
  · rw [exec_reflAckRx_first tick late results f hh hl hp hs hf, if_neg]
    rcases h with h | h
    · simp [h]
    · simp [h]
  · rw [exec_reflAckRx_first tick true results f hh hl hp hs hf, if_pos (by simp [ht])]

end Sys2Proof.Machine

/-! PROOF. A solution a cluster completes: its delivery, and what its quality says (R152, R163 to R175, R519). -/

namespace Sys2Proof.Machine

open Sys2Proof

/-! ### What a delivery leaves of FIX -/

/-- From s to t mode, FIX's output buffers and all registers of FIX stay. -/
def FixKept (s t : State) : Prop :=
  t.mode = s.mode ∧ t.fix.outs = s.fix.outs ∧ ∀ k, blockOf k = 4 → mget 0 t.regs k = mget 0 s.regs k

theorem FixKept.rfl' (s : State) : FixKept s s := ⟨rfl, rfl, fun _ _ => rfl⟩

theorem FixKept.trans {s t u : State} (h : FixKept s t) (k : FixKept t u) : FixKept s u :=
  ⟨k.1.trans h.1, k.2.1.trans h.2.1, fun i a => (k.2.2 i a).trans (h.2.2 i a)⟩

theorem FixKept.r {s t : State} (h : FixKept s t) (f : Field) (i j : Nat) (hb : blockOf (f.key i j) = 4) : t.r f i j = s.r f i j := by
  unfold State.r; rw [h.2.2 _ hb]

theorem RequestKept.fixKept {s t : State} (h : RequestKept s t) : FixKept s t :=
  ⟨h.mode, by rw [h.fix], fun k hk => h.regs k (not_evtKey (by unfold blockOf at hk; omega)) (by rw [hk]; decide)⟩

theorem raise_fixKept (s : State) (e d : Nat) (he : e < 512) : FixKept s (raise s e d) := (raise_requestKept s e d he).fixKept

theorem raiseTickKey_fixKept (s : State) (key e d : Nat) (he : e < 512) : FixKept s (raiseTickKey s key e d) := by
  unfold raiseTickKey
  split
  · exact .rfl' s
  · exact FixKept.trans (t := { s with onceTick := s.onceTick ++ [key] }) ⟨rfl, rfl, fun _ _ => rfl⟩ (raise_fixKept _ e d he)

/-- A write of a register of a later block. -/
theorem w_fixKept (s : State) (f : Field) (v i j : Nat) (h : 0x50000 ≤ f.off) : FixKept s (s.w f v i j) := by
  refine ⟨rfl, rfl, fun k hk => mget_mput_ne 0 s.regs _ fun he => ?_⟩
  have : f.off ≤ f.off + f.s1 * i + f.s2 * j := by omega
  unfold Field.key at he
  unfold blockOf at hk
  omega

theorem reflect_fixKept (s : State) (i : ReflItem) : FixKept s (reflect s i) := (reflect_requestKept s i).fixKept

/-! ### The Cell Pool -/

theorem cplSetQ_fixKept (s : State) (q : Nat) (v : CplQ) : FixKept s (cplSetQ s q v) := ⟨rfl, rfl, fun _ _ => rfl⟩

theorem cplSetCells_fixKept (s : State) (q c : Nat) : FixKept s (cplSetCells s q c) := by
  unfold cplSetCells
  extract_lets old mn free free' _ u v thr
  have hv : FixKept s v := (FixKept.trans (t := u) ⟨rfl, rfl, fun _ _ => rfl⟩ (w_fixKept u Reg.CPL_Q.CELLS c q 0 (by decide))).trans
    (w_fixKept _ Reg.CPL_STATUS.FREE_CELLS free' 0 0 (by decide))
  clear_value v
  split
  · exact hv.trans (raise_fixKept v 450 _ (by decide))
  · exact hv

theorem cplDropOldest_fixKept (s : State) (q g : Nat) : FixKept s (cplDropOldest s q g) := by
  unfold cplDropOldest
  split
  · exact .rfl' s
  · extract_lets v out u w x
    have hw : FixKept s w := (cplSetQ_fixKept s q _).trans (cplSetCells_fixKept u q _)
    have hx : FixKept w x := w_fixKept w Reg.CPL_Q.PKTS _ q 0 (by decide)
    exact ((hw.trans hx).trans (w_fixKept x Reg.CPL_Q.LOST _ q 0 (by decide))).trans (raiseTickKey_fixKept _ 449 449 _ (by decide))

theorem cplBegin_fixKept (s : State) (q len : Nat) : FixKept s (cplBegin s q len).2 := by
  unfold cplBegin
  split
  · exact (w_fixKept s Reg.CPL_COUNTS.NOQ_DROP _ 0 0 (by decide)).trans (raiseTickKey_fixKept _ 452 452 _ (by decide))
  · extract_lets n v
    split
    · exact (w_fixKept s Reg.CPL_COUNTS.POOL_DROP _ 0 0 (by decide)).trans (raiseTickKey_fixKept _ 449 449 _ (by decide))
    · rename_i g _
      exact ((cplDropOldest_fixKept s q g).trans (cplSetQ_fixKept _ q _)).trans (cplSetCells_fixKept _ q _)

theorem cplCommit_fixKept (s : State) (q : Nat) (data : List Byte) : FixKept s (cplCommit s q data) := by
  unfold cplCommit
  extract_lets v u w
  have hw : FixKept s w := (cplSetQ_fixKept s q _).trans (w_fixKept u Reg.CPL_Q.PKTS _ q 0 (by decide))
  clear_value w
  split
  · exact hw.trans (raiseTickKey_fixKept w _ 448 _ (by decide))
  · exact hw

theorem cplPut_fixKept (s : State) (q : Nat) (data : List Byte) : FixKept s (cplPut s q data) := by
  unfold cplPut
  have h := cplBegin_fixKept s q data.length
  split
  · rename_i u hu
    rw [hu] at h
    exact h.trans (cplCommit_fixKept u q data)
  · rename_i u hu
    rw [hu] at h
    exact h

/-! ### Containment -/

theorem setChtRover_fixKept (s : State) (r : Nat) (v : ChtRover) : FixKept s (setChtRover s r v) := by
  unfold setChtRover
  extract_lets _ rovers live l1 l2 l3 l4 stage high last _
  have h4 : FixKept s l4 := (((FixKept.trans (t := rovers) ⟨rfl, rfl, fun _ _ => rfl⟩
    (w_fixKept rovers Reg.CHT_STATUS.LIVE_SEGS live 0 0 (by decide))).trans
    (w_fixKept l1 Reg.CHT_ROVER.N_SEG _ r 0 (by decide))).trans
    (w_fixKept l2 Reg.CHT_ROVER.PENDING _ r 0 (by decide))).trans (w_fixKept l3 Reg.CHT_ROVER.STAGED _ r 0 (by decide))
  clear_value l4
  have hstage : FixKept s stage := by
    refine h4.trans ?_
    unfold stage
    split
    · exact ((w_fixKept l4 Reg.CHT_STAGE.E _ r 0 (by decide)).trans (w_fixKept _ Reg.CHT_STAGE.N _ r 0 (by decide))).trans
        (w_fixKept _ Reg.CHT_STAGE.RADIUS_MM _ r 0 (by decide))
    · exact ((w_fixKept l4 Reg.CHT_STAGE.E _ r 0 (by decide)).trans (w_fixKept _ Reg.CHT_STAGE.N _ r 0 (by decide))).trans
        (w_fixKept _ Reg.CHT_STAGE.RADIUS_MM _ r 0 (by decide))
  clear_value stage
  have hlast : FixKept s last := by
    unfold last
    split
    · exact hstage.trans (raise_fixKept stage 169 _ (by decide))
    · exact hstage
  clear_value last
  exact hlast.trans ⟨rfl, rfl, fun _ _ => rfl⟩

/-- A breach: its record, its event, and the stop of its rover. -/
theorem breach_fixKept (s : State) (r : Nat) (bytes : List Byte) (v : State → ChtRover) (cyc : Nat) (hr : r < 128)
    (hb : s.mode ≠ .boot) (hd : s.mode ≠ .dead) :
    let u := raise ((cplPut s 133 bytes).inc Reg.CHT_COUNTS.BREACH_COUNT) 162 r
    FixKept s (requestStopAt (setChtRover u r (v u)) 6 (some r) cyc) := by
  intro u
  have hu : FixKept s u := ((cplPut_fixKept s 133 bytes).trans (w_fixKept _ Reg.CHT_COUNTS.BREACH_COUNT _ 0 0 (by decide))).trans
    (raise_fixKept _ 162 r (by decide))
  clear_value u
  have hw := hu.trans (setChtRover_fixKept u r (v u))
  exact hw.trans (requestStopAt_rover_kept _ 6 r cyc hr (by rwa [hw.1]) (by rwa [hw.1])).fixKept

theorem containment_fixKept (s : State) (r : Nat) (fe fn : Int) (consec te cyc : Nat) (hr : r < 128) :
    FixKept s (containment s r fe fn consec te cyc) := by
  unfold containment
  split
  · exact .rfl' s
  · rename_i hrun
    have hmode : s.mode ≠ .boot ∧ s.mode ≠ .dead := by
      constructor
      · intro h
        simp [State.running, h] at hrun
      · intro h
        simp [State.running, h] at hrun
    extract_lets _ u tol fs far out
    have hu : FixKept s u := setChtRover_fixKept s r _
    clear_value u
    split
    · exact hu
    · rename_i d w seg _
      extract_lets dev lim v put
      have hv : FixKept s v := (hu.trans (w_fixKept u Reg.CHT_ROVER.DEV_MM dev r 0 (by decide))).trans
        (w_fixKept _ Reg.CHT_ROVER.CHECK_TICK te r 0 (by decide))
      clear_value v
      split
      · exact hv.trans (cplPut_fixKept v 133 _)
      · split
        · exact hv.trans (breach_fixKept v r _ (fun u => { chtRover u r with breach := true }) cyc hr
            (by rw [hv.1]; exact hmode.1) (by rw [hv.1]; exact hmode.2))
        · split
          · exact ((hv.trans (cplPut_fixKept v 133 _)).trans (w_fixKept _ Reg.CHT_COUNTS.DEV_HELD_COUNT _ 0 0 (by decide))).trans
              (raiseTickKey_fixKept _ 163 163 r (by decide))
          · exact hv

/-! ### The record delivered (R169, R175) -/

/-- CONSEC_FIXED after a record. -/
def fixConsec (s : State) (r : Nat) (q : SolRec) : Nat :=
  if q.quality = 2 then satInc 16 (s.r Reg.FIX_ROVER.CONSEC_FIXED r) else 0

/-- What FIX holds of the rover and its registers show the record. -/
def fixShow (s : State) (r consec : Nat) (q : SolRec) (old : Nat) (v : FixRover) : State :=
  let s := setFixRover s r v
  let s := ((s.w Reg.FIX_ROVER.QUALITY q.quality r).w Reg.FIX_ROVER.N_AMB_FIXED (min q.nFixed 255) r).w
    Reg.FIX_ROVER.REASON q.reason r
  let s := (s.w Reg.FIX_ROVER.CONSEC_FIXED consec r).w Reg.FIX_ROVER.RATIO q.ratio r
  let s := s.w Reg.FIX_STATUS.N_FIXED (s.r Reg.FIX_STATUS.N_FIXED - b2n (old == 2) + b2n (q.quality == 2))
  s.w Reg.FIX_STATUS.N_FLOAT (s.r Reg.FIX_STATUS.N_FLOAT - b2n (old == 1) + b2n (q.quality == 1))

/-- The record goes out: its events, its queue, the stream and containment. -/
def fixSend (s : State) (r te : Nat) (q : SolRec) (old consec : Nat) (bytes : List Byte) (fe : Int × Int × Int) (fl : FixFilt)
    (cyc : Nat) : State :=
  let s := if q.quality = 2 ∧ old ≠ 2 then raise s 130 r else s
  let s := if q.quality = 4 ∧ old ≠ 4 then raise s 129 r else s
  let s := { s with fix := { s.fix with wTiw := tiw s } }
  let s := cplPut s 132 bytes
  let s := reflect s (.solution r bytes fl)
  if q.quality = 2 then containment s r fe.1 fe.2.1 consec te cyc else s

theorem fixWrite_eq (s : State) (r te epoch : Nat) (u : Option Nat) (f : SolFlags) (q : SolRec) (fl : FixFilt) (cyc : Nat) :
    ∃ v bytes fe, fixWrite s r te epoch u f q fl cyc =
      fixSend (fixShow s r (fixConsec s r q) q (s.r Reg.FIX_ROVER.QUALITY r) v) r te q (s.r Reg.FIX_ROVER.QUALITY r)
        (fixConsec s r q) bytes fe fl cyc := ⟨_, _, _, rfl⟩

theorem fixSend_fixKept (s : State) (r te : Nat) (q : SolRec) (old consec : Nat) (bytes : List Byte) (fe : Int × Int × Int)
    (fl : FixFilt) (cyc : Nat) (hr : r < 128) : FixKept s (fixSend s r te q old consec bytes fe fl cyc) := by
  unfold fixSend
  extract_lets u v _ w x y
  have hu : FixKept s u := by
    unfold u
    split
    · exact raise_fixKept s 130 r (by decide)
    · exact .rfl' s
  clear_value u
  have hv : FixKept s v := by
    refine hu.trans ?_
    unfold v
    split
    · exact raise_fixKept u 129 r (by decide)
    · exact .rfl' u
  clear_value v
  have hw : FixKept s w := hv.trans ⟨rfl, rfl, fun _ _ => rfl⟩
  clear_value w
  have hy : FixKept s y := (hw.trans (cplPut_fixKept w 132 bytes)).trans (reflect_fixKept x _)
  clear_value y
  split
  · exact hy.trans (containment_fixKept y r fe.1 fe.2.1 consec te cyc hr)
  · exact hy

/-- What the registers of rover r show of a record: quality, reason, ratio and the FIXED ones in a row. -/
def RecordShown (t : State) (r consec : Nat) (q : SolRec) : Prop :=
  t.r Reg.FIX_ROVER.QUALITY r = q.quality % 2 ^ 3 ∧ t.r Reg.FIX_ROVER.REASON r = q.reason % 2 ^ 8
    ∧ t.r Reg.FIX_ROVER.RATIO r = q.ratio % 65536 ∧ t.r Reg.FIX_ROVER.CONSEC_FIXED r = consec % 65536

/-- The registers of rover r lie in the block of FIX. -/
theorem fixRover_block {f : Field} {r : Nat} (hr : r < 128) (lo : 32 * 0x40400 ≤ f.key 0 0) (hs : f.s1 = 0x10)
    (hi : f.key 0 0 < 32 * 0x40410) : blockOf (f.key r 0) = 4 := by
  unfold blockOf
  unfold Field.key at *
  rw [hs] at *
  omega

theorem fixShow_record (s : State) (r consec : Nat) (q : SolRec) (old : Nat) (v : FixRover) :
    RecordShown (fixShow s r consec q old v) r consec q := by
  unfold fixShow
  extract_lets a b c d
  have hne (f g : Field) (hf : f.s1 = 0x10) (hg : g.s1 = 0x10) (h : f.key 0 0 ≠ g.key 0 0) : f.key r 0 ≠ g.key r 0 := by
    unfold Field.key at *
    rw [hf, hg] at *
    omega
  have hst (f g : Field) (lo : 32 * 0x40400 ≤ f.key 0 0) (hg : g.key 0 0 < 32 * 0x40400) : f.key r 0 ≠ g.key 0 0 := by
    unfold Field.key at *
    have : f.off ≤ f.off + f.s1 * r := by omega
    omega
  have hd (f : Field) (lo : 32 * 0x40400 ≤ f.key 0 0) (w : Nat) : (d.w Reg.FIX_STATUS.N_FLOAT w).r f r = c.r f r :=
    (State.r_w_ne d _ _ _ _ _ _ _ (hst f _ lo (by decide))).trans (State.r_w_ne c _ _ _ _ _ _ _ (hst f _ lo (by decide)))
  refine ⟨?_, ?_, ?_, ?_⟩
  · rw [hd _ (by decide), State.r_w_ne _ _ _ _ _ _ _ _ (hne _ _ rfl rfl (by decide)),
      State.r_w_ne _ _ _ _ _ _ _ _ (hne _ _ rfl rfl (by decide)), State.r_w_ne _ _ _ _ _ _ _ _ (hne _ _ rfl rfl (by decide)),
      State.r_w_ne _ _ _ _ _ _ _ _ (hne _ _ rfl rfl (by decide)), State.r_w_same]
    rfl
  · rw [hd _ (by decide), State.r_w_ne _ _ _ _ _ _ _ _ (hne _ _ rfl rfl (by decide)),
      State.r_w_ne _ _ _ _ _ _ _ _ (hne _ _ rfl rfl (by decide)), State.r_w_same]
    rfl
  · rw [hd _ (by decide), State.r_w_same]
    rfl
  · rw [hd _ (by decide), State.r_w_ne _ _ _ _ _ _ _ _ (hne _ _ rfl rfl (by decide)), State.r_w_same]
    rfl

theorem fixShow_outs (s : State) (r consec : Nat) (q : SolRec) (old : Nat) (v : FixRover) :
    (fixShow s r consec q old v).fix.outs = s.fix.outs := rfl

theorem FixKept.recordShown {s t : State} {r consec : Nat} {q : SolRec} (h : FixKept s t) (hr : r < 128)
    (k : RecordShown s r consec q) : RecordShown t r consec q := by
  have hf (f : Field) (lo : 32 * 0x40400 ≤ f.key 0 0) (hs : f.s1 = 0x10) (hi : f.key 0 0 < 32 * 0x40410) : t.r f r = s.r f r :=
    h.r f r 0 (fixRover_block hr lo hs hi)
  unfold RecordShown at *
  rw [hf _ (by decide) rfl (by decide), hf _ (by decide) rfl (by decide), hf _ (by decide) rfl (by decide),
    hf _ (by decide) rfl (by decide)]
  exact k

theorem fixWrite_shows (s : State) (r te epoch : Nat) (u : Option Nat) (f : SolFlags) (q : SolRec) (fl : FixFilt) (cyc : Nat)
    (hr : r < 128) : RecordShown (fixWrite s r te epoch u f q fl cyc) r (fixConsec s r q) q
      ∧ (fixWrite s r te epoch u f q fl cyc).fix.outs = s.fix.outs := by
  obtain ⟨v, bytes, fe, h⟩ := fixWrite_eq s r te epoch u f q fl cyc
  rw [h]
  have hk := fixSend_fixKept (fixShow s r (fixConsec s r q) q (s.r Reg.FIX_ROVER.QUALITY r) v) r te q
    (s.r Reg.FIX_ROVER.QUALITY r) (fixConsec s r q) bytes fe fl cyc hr
  exact ⟨hk.recordShown hr (fixShow_record s r _ q _ v), hk.2.1.trans (fixShow_outs s r _ q _ v)⟩

/-! ### The solution completed (R173) -/

/-- From s to t the registers stay but the count of entries dropped, and FIX's output buffers stay. -/
def BeginKept (s t : State) : Prop :=
  t.fix.outs = s.fix.outs ∧ ∀ k, k ≠ Reg.FIX_COUNTS.ENTRY_DROP_COUNT.key 0 0 → mget 0 t.regs k = mget 0 s.regs k

theorem BeginKept.rfl' (s : State) : BeginKept s s := ⟨rfl, fun _ _ => rfl⟩

theorem BeginKept.trans {s t u : State} (h : BeginKept s t) (k : BeginKept t u) : BeginKept s u :=
  ⟨k.1.trans h.1, fun i a => (k.2 i a).trans (h.2 i a)⟩

theorem BeginKept.r {s t : State} (h : BeginKept s t) (f : Field) (i j : Nat)
    (hk : f.key i j ≠ Reg.FIX_COUNTS.ENTRY_DROP_COUNT.key 0 0) : t.r f i j = s.r f i j := by
  unfold State.r; rw [h.2 _ hk]

theorem fixBegin_kept (s : State) : BeginKept s (fixBegin s) := by
  unfold fixBegin
  extract_lets en
  generalize 9 = n
  induction n with
  | zero => exact .rfl' s
  | succ n ih =>
    refine ih.trans ?_
    rw [iter]
    generalize iter _ n s = u
    split
    · rename_i j _
      split
      · exact .rfl' u
      · exact ⟨rfl, fun k hk => mget_mput_ne 0 u.regs _ hk⟩
    · exact .rfl' u

theorem fixDeliver_shows (s : State) (j : FixJob) (o : SolOut) (cyc : Nat) (hr : j.rover < 128) (hp : posState s = 2) :
    RecordShown (fixDeliver s j o cyc) j.rover (fixConsec s j.rover o.q) o.q ∧ (fixDeliver s j o cyc).fix.outs = s.fix.outs := by
  unfold fixDeliver
  rw [if_neg (by simp [hp])]
  extract_lets u
  have hu : FixKept s u := by
    unfold u
    split
    · exact raise_fixKept s 131 j.rover (by decide)
    · exact .rfl' s
  have hc : fixConsec u j.rover o.q = fixConsec s j.rover o.q := by
    unfold fixConsec
    rw [hu.r _ _ _ (fixRover_block hr (by decide) rfl (by decide))]
  clear_value u
  obtain ⟨h, ho⟩ := fixWrite_shows u j.rover j.te j.epoch (some j.u) o.flags o.q (o.filt.getD (fixRover u j.rover).filt) cyc hr
  rw [hc] at h
  exact ⟨h, ho.trans hu.2.1⟩

/-- An output buffer takes a solution. -/
def solLeft (s : State) (j : FixJob) (us : Nat) (b : OutBuf) : State :=
  let s := dropJob s j
  { s with fix := { s.fix with wBusy := s.fix.wBusy + us, outs := s.fix.outs ++ [b] } }

theorem solLeft_regs (s : State) (j : FixJob) (us : Nat) (b : OutBuf) : (solLeft s j us b).regs = s.regs := rfl

theorem solLeft_outs (s : State) (j : FixJob) (us : Nat) (b : OutBuf) : (solLeft s j us b).fix.outs = s.fix.outs ++ [b] := rfl

/-- The state in which a solution has left its cluster for an output buffer. -/
def solTaken (s : State) (j : FixJob) (us : Nat) (b : OutBuf) : State := fixBegin (solLeft s j us b)

theorem fixDone_eq {s : State} {r us cyc c : Nat} {j : FixJob}
    (hj : s.fix.jobs.find? (fun x => x.rover == r && x.cl.isSome) = some j) (hc : j.cl = some c)
    (hrun : (clJobs s c).head? = some j) (hu : s.tick < j.u + 20) (hout : (s.fix.outs.filter fun o => o.cl == c).length < 3)
    (hp : posState s = 2) (hcyc : cyc < 245000) : fixDone r us cyc s =
      fixDeliver (solTaken s j us { cl := c, rover := r, filt := (solveJob s j (fixRover s r).filt (filtStale s r)).filt }) j
        (solveJob s j (fixRover s r).filt (filtStale s r)) cyc := by
  unfold fixDone
  rw [hj]
  dsimp only
  rw [hc]
  dsimp only [Option.getD_some]
  rw [if_neg (by simp only [hrun, ne_eq, not_true_eq_false, false_or, not_or]; omega), if_pos hp, if_pos hcyc]
  rfl

theorem solTaken_outs (s : State) (j : FixJob) (us : Nat) (b : OutBuf) : (solTaken s j us b).fix.outs = s.fix.outs ++ [b] := by
  unfold solTaken
  rw [(fixBegin_kept _).1, solLeft_outs]

theorem solTaken_r (s : State) (j : FixJob) (us : Nat) (b : OutBuf) (f : Field) (i k : Nat)
    (h : f.key i k ≠ Reg.FIX_COUNTS.ENTRY_DROP_COUNT.key 0 0) : (solTaken s j us b).r f i k = s.r f i k :=
  ((fixBegin_kept (solLeft s j us b)).r f i k h).trans (r_of_regs (solLeft_regs s j us b) f i k)

/-! ### What a cluster computes -/

/-- The quality and reason of a record fit the registers. -/
def SolOut.fits (o : SolOut) : Prop := o.q.quality < 2 ^ 3 ∧ o.q.reason < 2 ^ 8

theorem floatReason_mem (s : State) (long : Bool) (after n : Nat) (tried : List SetTest) :
    floatReason s long after n tried ∈ [7, 8, 9, 10, 11] := by
  unfold floatReason
  split
  · decide
  · split
    · decide
    · split
      · decide
      · split
        · decide
        · decide

/-- The outcome of an epoch in a filter that holds a state: the filter goes on, FIXED by a set that passed or by the ambiguities
held, or FLOAT with its reason. -/
def HeldOutcome (s : State) (fl : FixFilt) (te : Nat) (long : Bool) (o : SolOut) : Prop :=
  ∃ f, o.filt = some f ∧ f.te = te ∧ f.after = fl.after + 1
    ∧ ((o.q.quality = 2 ∧ o.q.reason = 0 ∧ f.st = 3 ∧ long = false
        ∧ ((∃ set, setPasses s set = true ∧ o.q.ratio = setRatio set) ∨ o.flags.held = true))
      ∨ (o.q.quality = 1 ∧ f.st = 2 ∧ o.q.reason ∈ [7, 8, 9, 10, 11]
        ∧ (long = true → o.q.reason = 11 ∧ o.flags.long = true)))

theorem solveHeld_outcome (s : State) (fl : FixFilt) (te : Nat) (clk : Bool) (vec : List Int) (us : List UsedObs)
    (ds : List (UsedObs × UsedObs)) (flags : SolFlags) :
    HeldOutcome s fl te (baselineLong s (filtPos vec)) (solveHeld s fl te clk vec us ds flags) := by
  unfold solveHeld
  extract_lets long fixable kept name held free nFixSv tried pass ratio intOf ints rows vec' fl' q
  have hpass : ∀ t, pass = some t → ratio = setRatio t.2 ∧ setPasses s t.2 = true ∧ long = false := by
    intro t ht
    obtain ⟨hlast, hset⟩ := Option.filter_eq_some_iff.1 ht
    refine ⟨?_, hset, ?_⟩
    · unfold ratio
      rw [hlast]
    · cases h : long with
      | false => rfl
      | true =>
        have hnone : tried = [] := if_pos (by simp [h])
        rw [hnone] at hlast
        exact absurd hlast (by simp)
  clear_value ints rows vec' pass ratio
  cases pass with
  | some t =>
    obtain ⟨hratio, hset, hlong⟩ := hpass t rfl
    exact ⟨_, rfl, rfl, rfl, .inl ⟨rfl, rfl, rfl, hlong, .inl ⟨t.2, hset, hratio⟩⟩⟩
  | none =>
    dsimp only
    split
    · rename_i h
      exact ⟨_, rfl, rfl, rfl, .inl ⟨rfl, rfl, rfl, h.1, .inr rfl⟩⟩
    · exact ⟨_, rfl, rfl, rfl, .inr ⟨rfl, rfl, floatReason_mem .., fun hl => ⟨if_pos hl, hl⟩⟩⟩

theorem HeldOutcome.fits {s : State} {fl : FixFilt} {te : Nat} {long : Bool} {o : SolOut} (h : HeldOutcome s fl te long o) :
    o.fits := by
  obtain ⟨f, _, _, _, h⟩ := h
  rcases h with ⟨hq, hr, _⟩ | ⟨hq, _, hr, _⟩
  · exact ⟨by rw [hq]; decide, by rw [hr]; decide⟩
  · have : ∀ n ∈ [7, 8, 9, 10, 11], n < 2 ^ 8 := by decide
    exact ⟨by rw [hq]; decide, this _ hr⟩

theorem solveJob_fits (s : State) (j : FixJob) (fl : FixFilt) (stale : Bool) : (solveJob s j fl stale).fits := by
  unfold solveJob
  extract_lets b flags
  split
  · exact ⟨show 0 < 8 by decide, show 5 < 256 by decide⟩
  · extract_lets us nSv ds rows held vec
    split
    · exact ⟨show 0 < 8 by decide, show 7 < 256 by decide⟩
    · split
      · exact ⟨show 0 < 8 by decide, show 8 < 256 by decide⟩
      · exact (solveHeld_outcome ..).fits

/-- With a base set and a filter not stale. -/
theorem solveJob_set {s : State} {j : FixJob} {st : ObsSet} (fl : FixFilt) (h : baseSetFor s j.te j.half = some st) :
    let us := (entriesUsed (s.r Reg.SXT_SIG_EN.SIG_EN) j.data).filterMap
      (usedObs s st j.half fl (toSigned 32 (field j.data 8 4)))
    let o := solveJob s j fl false
    ((satsOf us).length < 5 → o.q.quality = 0 ∧ o.q.reason = 7 ∧ o.filt = none)
    ∧ (5 ≤ (satsOf us).length → fl.st = 0 → o.q.quality = 0 ∧ o.q.reason = 8 ∧ o.flags.codeOnly = true
      ∧ ∃ f, o.filt = some f ∧ f.st = 1 ∧ f.te = j.te) := by
  intro us o
  refine ⟨fun hfew => ?_, fun hmany h0 => ?_⟩
  · have ho : o = { q := { quality := 0, reason := 7, nSv := (satsOf us).length, nAmb := ambCount (paired (refsOf fl us) us) us }
                    flags := { carried := j.half } } := by
      unfold o solveJob
      rw [h]
      exact if_pos hfew
    rw [ho]
    exact ⟨rfl, rfl, rfl⟩
  · unfold o solveJob
    rw [h]
    simp only [Bool.false_eq_true, if_false, h0, if_true]
    split
    · rename_i hlt
      exact absurd hlt (Nat.not_lt.2 hmany)
    · exact ⟨rfl, rfl, rfl, _, rfl, rfl, rfl⟩

theorem wholeRange_nearest (x pm : Int) : (wholeRange x pm - pm) % lightMs = 0 ∧ 2 * (wholeRange x pm - x) ≤ lightMs
    ∧ -lightMs ≤ 2 * (wholeRange x pm - x) := by
  unfold wholeRange lightMs
  omega

/-! ### What the computation reads of the module: its registers and its base -/

theorem baseSetFor_of_base {s t : State} (ho : t.obs = s.obs) : baseSetFor t = baseSetFor s := by
  unfold baseSetFor
  rw [ho]

section
variable {s t : State} (ho : t.obs = s.obs) (hr : t.regs = s.regs)
include hr

theorem read_of_regs : @State.r t = @State.r s := by
  unfold State.r
  rw [hr]

theorem parMin_of_regs : parMin t = parMin s := by
  unfold parMin
  rw [read_of_regs hr]

theorem parMinSv_of_regs : parMinSv t = parMinSv s := by
  unfold parMinSv
  rw [read_of_regs hr]

theorem setPasses_of_regs : setPasses t = setPasses s := by
  unfold setPasses ratioMin
  rw [parMin_of_regs hr, parMinSv_of_regs hr, read_of_regs hr]

theorem testSet_of_regs : testSet t = testSet s := by
  unfold testSet searchLimit
  rw [read_of_regs hr]

theorem triedSets_of_regs (vec : List Int) (held : List (Nat × Nat)) (n : Nat) : triedSets t vec held n = triedSets s vec held n := by
  induction n with
  | zero =>
    funext as
    unfold triedSets
    rw [testSet_of_regs hr, setPasses_of_regs hr]
  | succ n ih =>
    funext as
    unfold triedSets
    rw [testSet_of_regs hr, setPasses_of_regs hr]
    dsimp only
    rw [ih]

theorem floatReason_of_regs : floatReason t = floatReason s := by
  unfold floatReason
  rw [parMinSv_of_regs hr]

include ho

theorem usedObs_of_base : usedObs t = usedObs s := by
  unfold usedObs fixMask gloBias carriedBy State.ri
  rw [read_of_regs hr, ho]

theorem baselineLong_of_base : baselineLong t = baselineLong s := by
  unfold baselineLong baselineMaxKm
  rw [read_of_regs hr, ho]

theorem updateCfg_of_base : updateCfg t = updateCfg s := by
  unfold updateCfg
  rw [read_of_regs hr, ho]

theorem solveHeld_of_base : solveHeld t = solveHeld s := by
  have hsets : triedSets t = triedSets s := by
    funext vec held n
    exact triedSets_of_regs hr vec held n
  unfold solveHeld
  rw [baselineLong_of_base ho hr, hsets, setPasses_of_regs hr, floatReason_of_regs hr, parMin_of_regs hr, parMinSv_of_regs hr,
    read_of_regs hr]

theorem solveJob_of_base : solveJob t = solveJob s := by
  unfold solveJob
  rw [baseSetFor_of_base ho, usedObs_of_base ho hr, updateCfg_of_base ho hr, solveHeld_of_base ho hr, read_of_regs hr]

end
/-! ### The command -/

theorem exec_fixSolutionDone {s : State} (r : Fin 128) (us cyc : Nat) (j : FixJob) (c : Nat) (he : Engines s)
    (hp : posState s = 2) (hcyc : cyc < 245000) (hj : s.fix.jobs.find? (fun x => x.rover == r.val && x.cl.isSome) = some j)
    (hc : j.cl = some c) (hrun : (clJobs s c).head? = some j) (hu : s.tick < j.u + 20)
    (hout : (s.fix.outs.filter fun o => o.cl == c).length < 3) :
    let o := solveJob s j (fixRover s r).filt (filtStale s r)
    ∃ t, exec (.fixSolutionDone r ⟨us, cyc⟩) s = .next t ∧ t.r Reg.FIX_ROVER.QUALITY r = o.q.quality
      ∧ t.r Reg.FIX_ROVER.REASON r = o.q.reason ∧ t.r Reg.FIX_ROVER.RATIO r = o.q.ratio % 65536
      ∧ t.r Reg.FIX_ROVER.CONSEC_FIXED r = (if o.q.quality = 2 then satInc 16 (s.r Reg.FIX_ROVER.CONSEC_FIXED r) else 0)
      ∧ t.fix.outs = s.fix.outs ++ [{ cl := c, rover := r, filt := o.filt }] := by
  intro o
  have hx : exec (.fixSolutionDone r ⟨us, cyc⟩) s = _ := withOutAt_live s (some (cycU cyc)) (fun s => engines s (fixDone r us cyc)) he.1
  rw [engines_live (fixDone r us cyc) (s.start.atInst (some (cycU cyc))) he.2,
    fixDone_eq (s := s.start.atInst (some (cycU cyc))) (us := us) hj hc hrun hu hout hp hcyc] at hx
  have hsame : solveJob (s.start.atInst (some (cycU cyc))) j (fixRover (s.start.atInst (some (cycU cyc))) r).filt
      (filtStale (s.start.atInst (some (cycU cyc))) r) = o := by
    rw [solveJob_of_base (s := s) (t := s.start.atInst (some (cycU cyc))) rfl rfl]
    rfl
  rw [hsame] at hx
  have hrov : j.rover = r.val := by
    have h := List.find?_some hj
    simp only [Bool.and_eq_true, beq_iff_eq] at h
    exact h.1
  have houts := solTaken_outs (s.start.atInst (some (cycU cyc))) j us { cl := c, rover := r, filt := o.filt }
  have hr := solTaken_r (s.start.atInst (some (cycU cyc))) j us { cl := c, rover := r, filt := o.filt }
  generalize solTaken (s.start.atInst (some (cycU cyc))) j us { cl := c, rover := r, filt := o.filt } = u at hx houts hr
  obtain ⟨hrec, hkept⟩ := fixDeliver_shows u j o cyc (by rw [hrov]; exact r.isLt) ((hr _ _ _ (by decide)).trans hp)
  rw [hrov] at hrec
  generalize fixDeliver u j o cyc = v at hx hrec hkept
  obtain ⟨hq, hre, hra, hco⟩ := hrec
  obtain ⟨fq, fr⟩ := solveJob_fits s j (fixRover s r).filt (filtStale s r)
  have hconsec : fixConsec u r o.q = if o.q.quality = 2 then satInc 16 (s.r Reg.FIX_ROVER.CONSEC_FIXED r) else 0 := by
    unfold fixConsec
    rw [hr _ _ _ (fun h => by
      simp only [Field.key, Field.idx, fld, Reg.FIX_ROVER.CONSEC_FIXED, Reg.FIX_COUNTS.ENTRY_DROP_COUNT] at h; omega)]
    rfl
  have hlt : fixConsec u r o.q < 65536 := by
    unfold fixConsec satInc
    split
    · split
      · assumption
      · decide
    · decide
  refine ⟨_, hx, hq.trans (Nat.mod_eq_of_lt fq), hre.trans (Nat.mod_eq_of_lt fr), hra, ?_, hkept.trans houts⟩
  exact (hco.trans (Nat.mod_eq_of_lt hlt)).trans hconsec

/-- Settles O34: the delivery of a completed solution, and the cases of what a cluster computes. -/
theorem aCompletedSolutionIsDeliveredWithItsQuality : Obligations.a_completed_solution_is_delivered_with_its_quality := by
  refine ⟨fun s r us cyc j c he hp hcyc hj hc hrun hu hout => exec_fixSolutionDone r us cyc j c he hp hcyc hj hc hrun hu hout,
    fun s j fl st h => solveJob_set fl h, fun s fl te clk vec us ds flags => ?_, wholeRange_nearest⟩
  obtain ⟨f, hf, hte, hafter, h⟩ := solveHeld_outcome s fl te clk vec us ds flags
  rcases h with ⟨hq, hr, hst, hlong, hset⟩ | ⟨hq, hst, hr, hlong⟩
  · refine ⟨f, hf, hte, hafter, .inl ⟨hq, hr, hst⟩, fun hl => absurd hl (by simp [hlong]), fun _ _ hheld => ?_⟩
    rcases hset with hset | hset
    · exact hset
    · rw [hset] at hheld
      exact absurd hheld (by decide)
  · exact ⟨f, hf, hte, hafter, .inr ⟨hq, hr, hst⟩, fun hl => ⟨hq, hlong hl⟩, fun h2 => absurd (hq.symm.trans h2) (by decide)⟩

end Sys2Proof.Machine

/-! PROOF. The state that no unit moves at a boundary, and the basic operations, which keep it. -/

namespace Sys2Proof.Machine

open Sys2Proof

/-- What no unit moves at a boundary but the strobe itself and a change of mode: the mode, the tick number, the hold in reset, the
cause of DEAD and the image that runs (R485, R496), the time bases and the watch boundary done (R35), and the handover agreed. -/
structure Core where
  mode : Mode
  tick : Nat
  held : Bool
  cause : Nat
  running : ImageInfo
  tb1 : Nat
  tb3 : Nat
  watchDone : Bool
  handover : Option Handover
  handoverNow : Bool

def core (s : State) : Core where
  mode := s.mode
  tick := s.tick
  held := s.held
  cause := s.bt.cause
  running := s.bt.running
  tb1 := s.ttu.tb1
  tb3 := s.ttu.tb3
  watchDone := s.ttu.watchDone
  handover := s.twn.handover
  handoverNow := s.twn.handoverNow

/-- From s to t all that stays. -/
structure Stays (s t : State) : Prop where
  core_eq : core t = core s

section
variable {s t : State} (h : Stays s t)
include h

theorem Stays.mode : t.mode = s.mode := congrArg Core.mode h.core_eq
theorem Stays.tick : t.tick = s.tick := congrArg Core.tick h.core_eq
theorem Stays.held : t.held = s.held := congrArg Core.held h.core_eq
theorem Stays.cause : t.bt.cause = s.bt.cause := congrArg Core.cause h.core_eq
theorem Stays.running : t.bt.running = s.bt.running := congrArg Core.running h.core_eq
theorem Stays.tb1 : t.ttu.tb1 = s.ttu.tb1 := congrArg Core.tb1 h.core_eq
theorem Stays.tb3 : t.ttu.tb3 = s.ttu.tb3 := congrArg Core.tb3 h.core_eq
theorem Stays.watchDone : t.ttu.watchDone = s.ttu.watchDone := congrArg Core.watchDone h.core_eq
theorem Stays.handover : t.twn.handover = s.twn.handover := congrArg Core.handover h.core_eq
theorem Stays.handoverNow : t.twn.handoverNow = s.twn.handoverNow := congrArg Core.handoverNow h.core_eq

end

theorem Stays.rfl' (s : State) : Stays s s := ⟨rfl⟩

theorem Stays.trans {s t u : State} (h : Stays s t) (k : Stays t u) : Stays s u := ⟨k.core_eq.trans h.core_eq⟩

theorem Stays.after {s t u : State} (k : Stays t u) (h : Stays s t) : Stays s u := h.trans k

theorem EvtOnly.stays {s t : State} (h : EvtOnly s t) : Stays s t := ⟨by rw [h]; rfl⟩

theorem Stays.ite {c : Prop} [Decidable c] {s a b : State} (h : Stays s a) (k : Stays s b) :
    Stays s (if c then a else b) := by
  split
  · exact h
  · exact k

theorem Stays.ite_snd {α : Type} {c : Prop} [Decidable c] {s : State} {a b : α × State} (h : Stays s a.2) (k : Stays s b.2) :
    Stays s (if c then a else b).2 := by
  split
  · exact h
  · exact k

theorem Stays.of_pair {α : Type} {s u : State} {p : α × State} {a : α} (hp : p = (a, u)) (h : Stays s p.2) : Stays s u := by
  rw [hp] at h
  exact h

theorem foldl_stays {α : Type} (f : State → α → State) (h : ∀ s a, Stays s (f s a)) (l : List α) (s : State) :
    Stays s (l.foldl f s) := by
  induction l generalizing s with
  | nil => exact .rfl' s
  | cons a l ih => exact (h s a).trans (ih _)

theorem iter_stays (f : Nat → State → State) (h : ∀ k s, Stays s (f k s)) (n : Nat) (s : State) : Stays s (iter f n s) := by
  induction n with
  | zero => exact .rfl' s
  | succ n ih => exact ih.trans (h n _)

theorem w_stays (s : State) (f : Field) (v i j : Nat) : Stays s (s.w f v i j) := ⟨rfl⟩
theorem wb_stays (s : State) (f : Field) (v : Bool) (i j : Nat) : Stays s (s.wb f v i j) := ⟨rfl⟩
theorem wi_stays (s : State) (f : Field) (v : Int) (i j : Nat) : Stays s (s.wi f v i j) := ⟨rfl⟩
theorem wbit_stays (s : State) (f : Field) (b : Nat) (on : Bool) : Stays s (s.wbit f b on) := ⟨rfl⟩
theorem wset_stays (s : State) (f : Field) (b : Nat) (on : Bool) (i : Nat) : Stays s (s.wset f b on i) := ⟨rfl⟩
theorem inc_stays (s : State) (f : Field) (i j : Nat) : Stays s (s.inc f i j) := ⟨rfl⟩
theorem add_stays (s : State) (f : Field) (n i j : Nat) : Stays s (s.add f n i j) := ⟨rfl⟩
theorem emit_stays (s : State) (o : Out) : Stays s (s.emit o) := ⟨rfl⟩
theorem atInst_stays (s : State) (i : Option Nat) : Stays s (s.atInst i) := ⟨rfl⟩
theorem fresh_stays (s : State) : Stays s s.fresh.2 := ⟨rfl⟩
theorem raise_stays (s : State) (e d : Nat) : Stays s (raise s e d) := (raise_evtOnly s e d).stays
theorem raiseTickKey_stays (s : State) (key e d : Nat) : Stays s (raiseTickKey s key e d) := by
  unfold raiseTickKey
  split
  · exact .rfl' s
  · exact Stays.trans (t := { s with onceTick := s.onceTick ++ [key] }) ⟨rfl⟩ (raise_stays _ e d)
theorem raiseTick_stays (s : State) (e d : Nat) : Stays s (raiseTick s e d) := (raiseTick_evtOnly s e d).stays
theorem raiseWatch_stays (s : State) (e d : Nat) : Stays s (raiseWatch s e d) := by
  unfold raiseWatch
  split
  · exact .rfl' s
  · exact Stays.trans (t := { s with onceWatch := s.onceWatch ++ [e] }) ⟨rfl⟩ (raise_stays _ e d)
theorem reflect_stays (s : State) (i : ReflItem) : Stays s (reflect s i) := by
  unfold reflect
  split
  · exact ⟨rfl⟩
  · exact .rfl' s
theorem complete_stays (s : State) (h : Handle) (st d : Nat) : Stays s (complete s h st d) := by
  rw [complete_only]
  exact ⟨rfl⟩
theorem logNow_stays (s : State) (k : LogKind) (src : Nat) (d : List Byte) : Stays s (logNow s k src d) :=
  (logNow_evtOnly s k src d).stays

end Sys2Proof.Machine

/-! PROOF. What each operation at a boundary keeps, in the order of the model: one lemma per function, which follows the states
its body goes through. -/

namespace Sys2Proof.Machine

open Sys2Proof

/-! ### Machine/Ops.lean -/

theorem note_stays (s : State) (source : Nat) (data : List Byte) : Stays s (note s source data) := by
  unfold note
  exact logNow_stays ..

theorem forget_stays (s : State) (h : Handle) : Stays s (forget s h) := ⟨rfl⟩

theorem startAt_stays (s : State) (h : Handle) (t : Nat) : Stays s (startAt s h t) := by
  unfold startAt
  exact .ite (.rfl' _) ⟨rfl⟩

theorem accept_stays (s : State) (h : Handle) : Stays s (accept s h) := by
  unfold accept
  exact startAt_stays ..

theorem peerWait_stays (s : State) (h : Handle) (status detail : Nat) : Stays s (peerWait s h status detail) := by
  unfold peerWait
  have htwn : s.twn = (accept s h).twn := (accept_twn s h).symm
  rw [htwn]
  exact (accept_stays s h).trans ⟨rfl⟩

theorem completeAll_stays (s : State) (hs : List Handle) (status detail : Nat) :
    Stays s (completeAll s hs status detail) := by
  unfold completeAll
  exact foldl_stays _ (fun _ _ => complete_stays ..) _ _

theorem State.hostData_stays (s : State) (h : Handle) (addr : Nat) (d : List Byte) :
    Stays s (State.hostData s h addr d) := by
  unfold State.hostData
  exact .ite (emit_stays ..) (.rfl' _)

theorem svnRaise_stays (s : State) : Stays s (svnRaise s) := by
  unfold svnRaise
  exact .ite (w_stays ..) (.rfl' _)

theorem setSxtCh_stays (s : State) (c : Nat) (v : SxtCh) : Stays s (setSxtCh s c v) := ⟨rfl⟩

theorem setChState_stays (s : State) (c v : Nat) : Stays s (setChState s c v) := by
  unfold setChState
  exact w_stays ..

theorem chReacq_stays (s : State) (c : Nat) : Stays s (chReacq s c) := ⟨rfl⟩

theorem sxtRun_stays (s : State) : Stays s (sxtRun s) := by
  unfold sxtRun
  extract_lets u s1
  have hs1 : Stays s s1 := ⟨rfl⟩
  clear_value s1
  exact .ite (.rfl' _) (.ite (hs1.trans (foldl_stays _ (fun _ _ => .ite (setChState_stays ..) (.ite (.ite
      (chReacq_stays ..) (setChState_stays ..)) (.rfl' _))) _ _)) ⟨rfl⟩)

theorem deadFrame_stays (s : State) (kind : Nat) (fault : List Byte) : Stays s (deadFrame s kind fault) := by
  unfold deadFrame
  exact emit_stays ..

theorem ethDown_stays (s : State) : Stays s (ethDown s) := by
  unfold ethDown
  extract_lets s1 u
  have hs1 : Stays s s1 := iter_stays _ (fun _ _ => ((wb_stays ..).trans (wb_stays ..)).trans (w_stays ..)) _ _
  clear_value s1
  exact hs1.trans ⟨rfl⟩

theorem bridgesDark_stays (s : State) : Stays s (bridgesDark s) := by
  unfold bridgesDark
  refine iter_stays _ (fun k t => ?_) _ _
  exact ⟨rfl⟩

theorem overrun_stays (s : State) (e : Nat) : Stays s (overrun s e) := by
  unfold overrun
  extract_lets new s1 u s2 key u1 s3
  have hs2 : Stays s s2 := ⟨rfl⟩
  have hs3 : Stays s s3 := by
    unfold s3
    split
    · exact hs2
    · exact ⟨rfl⟩
  clear_value s1 s2 u1 s3
  exact .ite (hs3.trans (raise_stays ..)) hs3

theorem slotUsed_stays (s : State) (e held : Nat) : Stays s (slotUsed s e held) := by
  unfold slotUsed
  extract_lets total u s1
  have hs1 : Stays s s1 := ⟨rfl⟩
  clear_value s1
  exact .ite (hs1.trans (w_stays ..)) hs1

/-! ### Machine/Cpl.lean -/

theorem cplSetQ_stays (s : State) (q : Nat) (v : CplQ) : Stays s (cplSetQ s q v) := ⟨rfl⟩

theorem cplSetCells_stays (s : State) (q c : Nat) : Stays s (cplSetCells s q c) := by
  unfold cplSetCells
  extract_lets old mn free free1 u s1 s2 thr
  have hs1 : Stays s s1 := ⟨rfl⟩
  have hs2 : Stays s s2 := (hs1.trans (w_stays ..)).trans (w_stays ..)
  clear_value s1 s2
  exact .ite (hs2.trans (raise_stays ..)) hs2

theorem cplDropOldest_stays (s : State) (q g : Nat) : Stays s (cplDropOldest s q g) := by
  unfold cplDropOldest
  extract_lets v out s1 s2 s3
  have hs1 : Stays s s1 := cplSetQ_stays ..
  have hs2 : Stays s s2 := hs1.trans (cplSetCells_stays ..)
  have hs3 : Stays s s3 := hs2.trans (w_stays ..)
  clear_value s1 s2 s3
  exact .ite (.rfl' _) ((hs3.trans (add_stays ..)).trans (raiseTick_stays ..))

theorem cplBegin_stays (s : State) (q len : Nat) : Stays s (cplBegin s q len).2 := by
  unfold cplBegin
  extract_lets n v
  split
  · exact (inc_stays ..).trans (raiseTick_stays ..)
  · split
    · exact (inc_stays ..).trans (raiseTick_stays ..)
    · extract_lets s1 v1 s2
      have hs1 : Stays s s1 := cplDropOldest_stays ..
      have hs2 : Stays s s2 := hs1.trans (cplSetQ_stays ..)
      clear_value s1 s2
      exact hs2.trans (cplSetCells_stays ..)

theorem cplCommit_stays (s : State) (q : Nat) (data : List Byte) : Stays s (cplCommit s q data) := by
  unfold cplCommit
  extract_lets v s1 s2
  have hs1 : Stays s s1 := cplSetQ_stays ..
  have hs2 : Stays s s2 := hs1.trans (w_stays ..)
  clear_value s1 s2
  exact .ite (hs2.trans (raiseTickKey_stays ..)) hs2

theorem cplPut_stays (s : State) (q : Nat) (data : List Byte) : Stays s (cplPut s q data) := by
  unfold cplPut
  split
  · rename_i _ u heu
    have hu : Stays s u := Stays.of_pair heu (cplBegin_stays ..)
    exact hu.trans (cplCommit_stays ..)
  · rename_i _ u heu
    have hu : Stays s u := Stays.of_pair heu (cplBegin_stays ..)
    exact hu

theorem cplAbandon_stays (s : State) (q len : Nat) : Stays s (cplAbandon s q len) := ⟨rfl⟩

theorem cplTake_stays (s : State) (q : Nat) : Stays s (cplTake s q).2 := by
  unfold cplTake
  extract_lets v
  split
  · exact .rfl' _
  · extract_lets s1 s2
    have hs1 : Stays s s1 := cplSetQ_stays ..
    have hs2 : Stays s s2 := hs1.trans (w_stays ..)
    clear_value s1 s2
    exact hs2.trans (cplSetCells_stays ..)

theorem cplTakeAt_stays (s : State) (q k : Nat) : Stays s (cplTakeAt s q k).2 := by
  unfold cplTakeAt
  extract_lets v s1 s2
  have hs1 : Stays s s1 := cplSetQ_stays ..
  have hs2 : Stays s s2 := hs1.trans (w_stays ..)
  clear_value s1 s2
  split
  · exact .rfl' _
  · exact hs2.trans (cplSetCells_stays ..)

theorem cplQueueSet_stays (h : Handle) (q notice maxC minC maxP rsv : Nat) (s : State) :
    Stays s (cplQueueSet h q notice maxC minC maxP rsv s) := by
  unfold cplQueueSet
  exact .ite (complete_stays ..) ((complete_stays ..).after ⟨rfl⟩)

theorem cplQueueDelete_stays (h : Handle) (q rsv : Nat) (s : State) : Stays s (cplQueueDelete h q rsv s) := by
  unfold cplQueueDelete
  exact .ite (complete_stays ..) ((complete_stays ..).after ⟨rfl⟩)

theorem cplApply_stays (s : State) (x : QSet) : Stays s (cplApply s x) := by
  unfold cplApply
  extract_lets old cells res s1 u s2 s3 s4 s5
  have hs2 : Stays s s2 := ⟨rfl⟩
  have hs3 : Stays s s3 := ((((hs2.trans (wb_stays ..)).trans (wb_stays ..)).trans (w_stays ..)).trans
      (w_stays ..)).trans (w_stays ..)
  have hs4 : Stays s s4 := (cplSetQ_stays ..).trans (cplSetCells_stays ..)
  have hs5 : Stays s s5 := hs4.trans (w_stays ..)
  clear_value s1 s2 s3 s4 s5
  exact .ite (.ite hs3 (hs3.trans (cplDropOldest_stays ..))) (((((((hs5.trans (wb_stays ..)).trans
      (wb_stays ..)).trans (w_stays ..)).trans (w_stays ..)).trans (w_stays ..)).trans (w_stays ..)).trans (w_stays ..))

theorem cplTick_stays (s : State) : Stays s (cplTick s) := by
  unfold cplTick
  extract_lets fr u s1 s2 ps u1
  have hs1 : Stays s s1 := ⟨rfl⟩
  have hs2 : Stays s s2 := hs1.trans (foldl_stays _ (fun _ _ => cplSetCells_stays ..) _ _)
  clear_value s1 s2
  refine (foldl_stays _ (fun t a => ?_) _ _).after (hs2.trans ⟨rfl⟩)
  exact cplApply_stays ..

theorem cplRead_stays (h : Handle) (q maxP bufLen addr rsv : Nat) (s : State) :
    Stays s (cplRead h q maxP bufLen addr rsv s) := by
  unfold cplRead
  extract_lets v up n sent got s1 s2 s3
  have hs1 : Stays s s1 := cplSetQ_stays ..
  have hs2 : Stays s s2 := .ite (.rfl' _) ((hs1.trans (w_stays ..)).trans (cplSetCells_stays ..))
  have hs3 : Stays s s3 := .ite hs2 (hs2.trans ⟨rfl⟩)
  clear_value s1 s2 s3
  exact .ite (complete_stays ..) (.ite (complete_stays ..) (hs3.trans (complete_stays ..)))

/-! ### Machine/Ttu.lean -/

theorem ttuSetPulse_stays (s : State) (n : Nat) (p : PulseSt) : Stays s (ttuSetPulse s n p) := ⟨rfl⟩

theorem ttuSetCapt_stays (s : State) (n : Nat) (c : CaptSt) : Stays s (ttuSetCapt s n c) := ⟨rfl⟩

theorem ttuDiscReset_stays (s : State) : Stays s (ttuDiscReset s) := ⟨rfl⟩

theorem ttuSetState_stays (s : State) (v : Nat) : Stays s (ttuSetState s v) := by
  unfold ttuSetState
  extract_lets s1 s2 s3
  have hs1 : Stays s s1 := w_stays ..
  have hs2 : Stays s s2 := .ite (hs1.trans (ttuDiscReset_stays ..)) hs1
  have hs3 : Stays s s3 := hs2.trans (raise_stays ..)
  clear_value s1 s2 s3
  exact .ite (.rfl' _) (.ite (hs3.trans (raise_stays ..)) hs3)

theorem srcSetQ_stays (s : State) (i : Nat) (q : Bool) : Stays s (srcSetQ s i q) := by
  unfold srcSetQ
  split
  · exact wb_stays ..
  · exact wb_stays ..
  · exact wb_stays ..

theorem ttuTakeOffset_stays (s : State) (o : Int) : Stays s (ttuTakeOffset s o) := ⟨rfl⟩

theorem ttuLossNow_stays (s : State) : Stays s (ttuLossNow s) := ⟨rfl⟩

theorem ttuOffsetRule_stays (s : State) (watch : Bool) (i : Nat) : Stays s (ttuOffsetRule s watch i) := by
  unfold ttuOffsetRule
  extract_lets o s1 s2 u s3 s4
  have hs1 : Stays s s1 := w_stays ..
  have hs2 : Stays s s2 := hs1.trans (ttuTakeOffset_stays ..)
  have hs3 : Stays s s3 := ⟨rfl⟩
  have hs4 : Stays s s4 := .ite (hs2.trans (ttuLossNow_stays ..)) hs2
  clear_value s1 s2 s3 s4
  exact .ite (hs3.trans (ttuSetState_stays ..)) (hs4.trans (ttuSetState_stays ..))

theorem ttuLost_stays (s : State) (watch : Bool) : Stays s (ttuLost s watch) := by
  unfold ttuLost
  extract_lets s1
  have hs1 : Stays s s1 := (w_stays ..).trans (raise_stays ..)
  clear_value s1
  split
  · exact (hs1.trans (raise_stays ..)).trans (ttuOffsetRule_stays ..)
  · exact .ite hs1 ((hs1.trans (ttuLossNow_stays ..)).trans (ttuSetState_stays ..))

theorem ttuRefRange_stays (s : State) (ok : Bool) : Stays s (ttuRefRange s ok) := by
  unfold ttuRefRange
  extract_lets left u s1
  have hs1 : Stays s s1 := ⟨rfl⟩
  clear_value s1
  exact .ite (hs1.trans (raise_stays ..)) hs1

theorem pulseMarkTb0_stays (s : State) : Stays s (pulseMarkTb0 s) := by
  unfold pulseMarkTb0
  exact iter_stays _ (fun _ _ => .ite (ttuSetPulse_stays ..) (.rfl' _)) _ _

theorem ttuAcceptStep_stays (s : State) (amt : Int) : Stays s (ttuAcceptStep s amt) := by
  unfold ttuAcceptStep
  extract_lets p e n extra s1 c u s2 s3 u1 u2 s4
  have hs1 : Stays s s1 := reflect_stays ..
  have hs2 : Stays s s2 := hs1.trans ⟨rfl⟩
  have hs3 : Stays s s3 := ((hs2.trans (w_stays ..)).trans (wb_stays ..)).trans (w_stays ..)
  have hu1 : Stays s u1 := hs3.trans (wb_stays ..)
  have hs4 : Stays s s4 := hu1.trans ⟨rfl⟩
  clear_value s1 s2 s3 u1 s4
  exact .ite (.ite hs4 (hs4.trans (pulseMarkTb0_stays ..))) hs3

theorem ttuBend_stays (at_ : Nat) (was s : State) : Stays s (ttuBend at_ was s) := by
  unfold ttuBend
  exact .ite (.rfl' _) ⟨rfl⟩

theorem ttuStep_stays (h : Handle) (mode : Nat) (amountNs : Int) (rsv : Nat) (s : State) :
    Stays s (ttuStep h mode amountNs rsv s) := by
  unfold ttuStep
  extract_lets noSource t
  have ht : Stays s t := ttuAcceptStep_stays ..
  clear_value t
  exact .ite (complete_stays ..) (.ite (complete_stays ..) ((ht.trans (ttuBend_stays ..)).trans (complete_stays ..)))

theorem ttuSelect_stays (s : State) : Stays s (ttuSelect s) := by
  unfold ttuSelect
  extract_lets cur best u
  split
  · exact .rfl' _
  · split
    · exact ttuLost_stays ..
    · clear_value best
      split
      · exact .rfl' _
      · extract_lets o s1 run s2
        have hs1 : Stays s s1 := (w_stays ..).trans (ttuTakeOffset_stays ..)
        have hs2 : Stays s s2 := (ttuTakeOffset_stays ..).after ⟨rfl⟩
        clear_value s1 s2
        exact .ite (.ite (.ite (ttuOffsetRule_stays ..) ((hs1.trans (raise_stays ..)).trans
            (ttuAcceptStep_stays ..))) (ttuOffsetRule_stays ..)) (.ite ((raise_stays ..).trans
            (ttuOffsetRule_stays ..)) (.ite (.ite (ttuOffsetRule_stays ..) (ttuTakeOffset_stays ..)) (.ite
            (ttuOffsetRule_stays ..) (hs2.trans (ttuSetState_stays ..)))))

theorem ttuDrain_stays (s : State) : Stays s (ttuDrain s) := by
  unfold ttuDrain
  refine iter_stays _ (fun k t => ?_) _ _
  extract_lets c s1 s2
  have hs1 : Stays t s1 := ttuSetCapt_stays ..
  have hs2 : Stays t s2 := hs1.trans (w_stays ..)
  clear_value s1 s2
  exact hs2.trans (foldl_stays _ (fun _ _ => cplPut_stays ..) _ _)

theorem ttuQualify_stays (s : State) (refOk : Bool) : Stays s (ttuQualify s refOk) := by
  unfold ttuQualify
  extract_lets good miss u s1 s2 ppsFresh s3 ptp ptpLost
  have hs1 : Stays s s1 := (ttuRefRange_stays ..).after ⟨rfl⟩
  have hs2 : Stays s s2 := .ite (hs1.trans (srcSetQ_stays ..)) (.ite (hs1.trans (srcSetQ_stays ..)) hs1)
  have hs3 : Stays s s3 := .ite (hs2.trans (srcSetQ_stays ..)) (.ite (hs2.trans (srcSetQ_stays ..)) hs2)
  clear_value s1 s2 s3
  exact .ite (hs3.trans (srcSetQ_stays ..)) (.ite (hs3.trans (srcSetQ_stays ..)) hs3)

theorem ttuWatch_stays (w : WatchIn) (s : State) : Stays s (ttuWatch w s) := by
  unfold ttuWatch
  extract_lets s1 s2 s3 s4 u s5
  have hs1 : Stays s s1 := ttuQualify_stays ..
  have hs2 : Stays s s2 := hs1.trans (ttuSelect_stays ..)
  have hs3 : Stays s s3 := .ite (hs2.trans (w_stays ..)) hs2
  have hs4 : Stays s s4 := hs3.trans (w_stays ..)
  have hs5 : Stays s s5 := hs4.trans ⟨rfl⟩
  clear_value s1 s2 s3 s4 s5
  exact .ite (hs5.trans (raise_stays ..)) hs5

theorem pulseRecord_stays (s : State) (n stamp : Nat) (step missed : Bool) :
    Stays s (pulseRecord s n stamp step missed) := by
  unfold pulseRecord
  extract_lets fl s1 s2 s3
  have hs1 : Stays s s1 := cplPut_stays ..
  have hs2 : Stays s s2 := (hs1.trans (wb_stays ..)).trans (wb_stays ..)
  have hs3 : Stays s s3 := .ite (hs2.trans (raise_stays ..)) hs2
  clear_value s1 s2 s3
  exact .ite (hs3.trans (raise_stays ..)) hs3

theorem pulseArm_stays (s : State) (n at_ : Nat) : Stays s (pulseArm s n at_) := by
  unfold pulseArm
  exact .ite ((wb_stays ..).trans (pulseRecord_stays ..)) (wb_stays ..)

theorem ttuPulseSet_stays (h : Handle) (index : Nat) (arm cancel : Bool) (start : StampIn) (rsv : Nat) (s : State) :
    Stays s (ttuPulseSet h index arm cancel start rsv s) := by
  unfold ttuPulseSet
  extract_lets s1 u u1 u2 s2
  have hs1 : Stays s s1 := (((w_stays ..).trans (w_stays ..)).trans (w_stays ..)).trans (w_stays ..)
  have hu : Stays s u := hs1.trans (wb_stays ..)
  have hs2 : Stays s s2 := .ite (hu.trans ⟨rfl⟩) (.ite (hs1.trans (pulseArm_stays ..)) hs1)
  clear_value s1 u s2
  exact .ite (complete_stays ..) (.ite (complete_stays ..) (.ite (complete_stays ..) (hs2.trans (complete_stays ..))))

/-! ### Machine/Units.lean -/

theorem setUnit_stays (s : State) (c i : Nat) (u : UnitSt) : Stays s (setUnit s c i u) := ⟨rfl⟩

theorem unitOut_stays (s : State) (c i : Nat) (fault : Bool) : Stays s (unitOut s c i fault) := by
  unfold unitOut
  exact setUnit_stays ..

theorem unitJoin_stays (s : State) (c i : Nat) : Stays s (unitJoin s c i) := by
  unfold unitJoin
  exact (setUnit_stays ..).trans (completeAll_stays ..)

theorem unitInService_stays (s : State) (c i : Nat) : Stays s (unitInService s c i) := by
  unfold unitInService
  exact setUnit_stays ..

theorem unitStandbyFault_stays (s : State) (c i : Nat) : Stays s (unitStandbyFault s c i) := by
  unfold unitStandbyFault
  exact .ite (setUnit_stays ..) (unitOut_stays ..)

theorem unitsWatch_stays (s : State) : Stays s (unitsWatch s) := by
  unfold unitsWatch
  refine foldl_stays _ (fun t a => ?_) _ _
  exact .ite ⟨rfl⟩ (.rfl' _)

theorem alive_stays {f : State → State} (hf : ∀ t, Stays t (f t)) (s : State) : Stays s (alive s f) :=
  .ite (.rfl' s) (hf s)

/-! ### Machine/Eth.lean -/

theorem setEthPort_stays (s : State) (p : Nat) (e : EthPort) : Stays s (setEthPort s p e) := ⟨rfl⟩

theorem ethSetState_stays (s : State) (p v : Nat) : Stays s (ethSetState s p v) := by
  unfold ethSetState
  exact .ite (.rfl' _) ((w_stays ..).trans (raise_stays ..))

theorem ethTtu_stays (s : State) : Stays s (ethTtu s) := by
  unfold ethTtu
  extract_lets u
  split
  · exact ⟨rfl⟩
  · exact ⟨rfl⟩

theorem bmcaPort_stays (s : State) (best : Option Cand) (p st : Nat) : Stays s (bmcaPort s best p st) := by
  unfold bmcaPort
  exact .ite (.rfl' _) ((setEthPort_stays ..).trans (ethSetState_stays ..))

theorem ethBmcaAt_stays (s : State) (pref : Nat) (out : Option Nat) : Stays s (ethBmcaAt s pref out) := by
  unfold ethBmcaAt
  extract_lets best st st1 s1 gm u s2
  have hs1 : Stays s s1 := .ite ((bmcaPort_stays ..).trans (bmcaPort_stays ..)) ((bmcaPort_stays ..).trans
      (bmcaPort_stays ..))
  have hs2 : Stays s s2 := .ite hs1 ((raise_stays ..).after (hs1.trans ⟨rfl⟩))
  clear_value s1 s2
  exact hs2.trans (ethTtu_stays ..)

theorem ethBmca_stays (s : State) : Stays s (ethBmca s) := by
  unfold ethBmca
  exact ethBmcaAt_stays ..

theorem ethOut_stays (s : State) (p : Nat) (fault : Bool) : Stays s (ethOut s p fault) := by
  unfold ethOut
  extract_lets u s1 s2
  have hs1 : Stays s s1 := setEthPort_stays ..
  have hs2 : Stays s s2 := .ite (((hs1.trans (wb_stays ..)).trans (unitOut_stays ..)).trans (raise_stays ..)) hs1
  clear_value s1 s2
  exact (hs2.trans (ethSetState_stays ..)).trans (ethTtu_stays ..)

theorem ethWatchPort_stays (s : State) (p : Nat) : Stays s (ethWatchPort s p) := by
  unfold ethWatchPort
  extract_lets u u1 was s1 u2 s2 s3 s4 s5
  have hs1 : Stays s s1 := wb_stays ..
  have hs2 : Stays s s2 := hs1.trans (setEthPort_stays ..)
  have hs3 : Stays s s3 := hs2.trans (completeAll_stays ..)
  have hs4 : Stays s s4 := hs3.trans (unitInService_stays ..)
  have hs5 : Stays s s5 := .ite (hs4.trans (raise_stays ..)) hs4
  clear_value s1 s2 s3 s4 s5
  exact .ite (.ite (setEthPort_stays ..) (.ite (.rfl' _) (hs5.trans (ethSetState_stays ..)))) (.rfl' _)

theorem ethWatch_stays (s : State) : Stays s (ethWatch s) := by
  unfold ethWatch
  exact ((ethWatchPort_stays ..).trans (ethWatchPort_stays ..)).trans (ethBmca_stays ..)

theorem ethTickPort_stays (s : State) (p : Nat) : Stays s (ethTickPort s p) := by
  unfold ethTickPort
  extract_lets e s1
  have hs1 : Stays s s1 := setEthPort_stays ..
  clear_value s1
  exact .ite ((hs1.trans (ethSetState_stays ..)).trans (ethTtu_stays ..)) (.ite (ethSetState_stays ..) (.rfl' _))

theorem ethTick_stays (s : State) : Stays s (ethTick s) := by
  unfold ethTick
  exact (ethTickPort_stays ..).trans (ethTickPort_stays ..)

/-! ### Machine/Sxt.lean -/

theorem chToPool_stays (s : State) (c : Nat) : Stays s (chToPool s c) := by
  unfold chToPool
  extract_lets s1 s2
  have hs1 : Stays s s1 := setSxtCh_stays ..
  have hs2 : Stays s s2 := ((hs1.trans (w_stays ..)).trans (w_stays ..)).trans (w_stays ..)
  clear_value s1 s2
  exact (hs2.trans (w_stays ..)).trans (setChState_stays ..)

theorem setJamRef_stays (s : State) (b : Nat) (j : JamRef) : Stays s (setJamRef s b j) := ⟨rfl⟩

theorem reacqExpire_stays (c : Nat) (s : State) : Stays s (reacqExpire c s) := by
  unfold reacqExpire
  exact .ite ((chToPool_stays ..).trans (inc_stays ..)) (.rfl' _)

theorem allocPair_stays (ps : List Predicted) (p : Predicted) (had : Bool) (s : State) :
    Stays s (allocPair ps p had s) := by
  unfold allocPair
  extract_lets give held deny
  have hgive : ∀ t x1, Stays t (give t x1) := by
    intro t x1
    unfold give
    extract_lets s1
    have hs1 : Stays t s1 := setSxtCh_stays ..
    clear_value s1
    exact (((hs1.trans (w_stays ..)).trans (w_stays ..)).trans (w_stays ..)).trans (setChState_stays ..)
  clear_value give
  have hdeny : Stays s deny := .ite (raiseWatch_stays ..) (.rfl' _)
  clear_value deny
  split
  · exact .rfl' _
  · split
    · exact hgive ..
    · split
      · exact .ite (((raiseWatch_stays ..).trans (chToPool_stays ..)).trans (hgive ..)) hdeny
      · exact hdeny

theorem allocOut_stays (ps : List Predicted) (s : State) : Stays s (allocOut ps s) := by
  unfold allocOut
  extract_lets lost
  refine foldl_stays _ (fun t a => ?_) _ _
  extract_lets p keeps s1
  have hs1 : Stays t s1 := setSxtCh_stays ..
  clear_value s1
  exact .ite (hs1.trans (allocPair_stays ..)) hs1

theorem sxtAllocate_stays (ps : List Predicted) (s : State) : Stays s (sxtAllocate ps s) := by
  unfold sxtAllocate
  extract_lets s1 s2 s3 s4 ts ns
  have hs1 : Stays s s1 := foldl_stays _ (fun _ _ => .ite (chToPool_stays ..) (.rfl' _)) _ _
  have hs2 : Stays s s2 := hs1.trans (allocOut_stays ..)
  have hs3 : Stays s s3 := hs2.trans (foldl_stays _ (fun _ _ => .ite (allocPair_stays ..) (.rfl' _)) _ _)
  have hs4 : Stays s s4 := hs3.trans (iter_stays _ (fun _ _ => .ite (setChState_stays ..) (.rfl' _)) _ _)
  clear_value s1 s2 s3 s4
  exact (hs4.trans (w_stays ..)).trans (w_stays ..)

theorem sxtLatch_stays (s : State) : Stays s (sxtLatch s) := by
  unfold sxtLatch
  extract_lets ls u s1
  have hs1 : Stays s s1 := ⟨rfl⟩
  clear_value s1
  exact hs1.trans (foldl_stays _ (fun _ _ => .ite (setSxtCh_stays ..) (.rfl' _)) _ _)

theorem setBias_stays (s : State) (b : Bool) : Stays s (setBias s b) := ⟨rfl⟩

theorem antShort_stays (s : State) : Stays s (antShort s) := by
  unfold antShort
  extract_lets was u s1 s2
  have hs1 : Stays s s1 := ⟨rfl⟩
  have hs2 : Stays s s2 := hs1.trans (iter_stays _ (fun _ _ => ((((setJamRef_stays ..).trans (w_stays ..)).trans
      (w_stays ..)).trans (w_stays ..)).trans (wb_stays ..)) _ _)
  clear_value s1 s2
  exact .ite (.ite hs1 ((hs2.trans (w_stays ..)).trans (raise_stays ..))) (.rfl' _)

theorem antRetry_stays (s : State) : Stays s (antRetry s) := by
  unfold antRetry
  exact .ite ((setBias_stays ..).after ⟨rfl⟩) (.rfl' _)

theorem antOpen_stays (s : State) : Stays s (antOpen s) := by
  unfold antOpen
  exact .ite ((w_stays ..).trans (raise_stays ..)) (.rfl' _)

theorem antOk_stays (s : State) : Stays s (antOk s) := by
  unfold antOk
  exact .ite ((w_stays ..).trans (raise_stays ..)) (.rfl' _)

theorem antTick_stays (ma : Nat) (s : State) : Stays s (antTick ma s) := by
  unfold antTick
  extract_lets u ma1 s1
  have hs1 : Stays s s1 := ⟨rfl⟩
  clear_value s1
  exact .ite ((w_stays ..).after ((w_stays ..).after ⟨rfl⟩)) (.ite ((setBias_stays ..).trans (w_stays ..))
      (((((hs1.trans (w_stays ..)).trans (antShort_stays ..)).trans (antOpen_stays ..)).trans (antOk_stays ..)).trans
      (antRetry_stays ..)))

theorem setNotch_stays (s : State) (b n : Nat) (v : Notch) : Stays s (setNotch s b n v) := ⟨rfl⟩

theorem setNotchLine_stays (s : State) (b n : Nat) (l : Option Int) : Stays s (setNotchLine s b n l) := ⟨rfl⟩

theorem linesTick_stays (b : Nat) (seen : List (Int × Nat)) (s : State) : Stays s (linesTick b seen s) := ⟨rfl⟩

theorem notchGive_stays (s : State) (b : Nat) (l : SpecLine) : Stays s (notchGive s b l) := by
  unfold notchGive
  extract_lets auto
  split
  · exact .rfl' _
  · split
    · exact setNotchLine_stays ..
    · split
      · exact .ite (setNotchLine_stays ..) (.rfl' _)
      · exact .rfl' _

theorem notchFill_stays (b : Nat) (s : State) : Stays s (notchFill b s) := by
  unfold notchFill
  extract_lets due s1
  have hs1 : Stays s s1 := foldl_stays _ (fun _ _ => notchGive_stays ..) _ _
  clear_value s1
  exact .ite hs1 (hs1.trans (raiseTick_stays ..))

theorem notchShow_stays (s : State) (b n : Nat) : Stays s (notchShow s b n).2 := by
  unfold notchShow
  exact .ite_snd (.rfl' _) (((setNotch_stays ..).trans (wb_stays ..)).trans (wi_stays ..))

theorem notchTick_stays (bands : List BandIn) (s : State) : Stays s (notchTick bands s) := by
  unfold notchTick
  extract_lets rel u s1 s2 s3 s4 s5 u1 s6
  have hs1 : Stays s s1 := ⟨rfl⟩
  have hs2 : Stays s s2 := hs1.trans (iter_stays _ (fun _ _ => .ite (linesTick_stays ..) (.rfl' _)) _ _)
  have hs3 : Stays s s3 := hs2.trans (foldl_stays _ (fun _ _ => setNotchLine_stays ..) _ _)
  have hs4 : Stays s s4 := hs3.trans (iter_stays _ (fun _ _ => .ite (.rfl' _) (setNotchLine_stays ..)) _ _)
  have hs5 : Stays s s5 := hs4.trans (iter_stays _ (fun _ _ => .ite (notchFill_stays ..) (.rfl' _)) _ _)
  have hs6 : Stays s s6 := hs5.trans ⟨rfl⟩
  clear_value s1 s2 s3 s4 s5 s6
  refine (iter_stays _ (fun k t => ?_) _ _).after hs6
  split
  · rename_i _ u2 heu2
    have hu2 : Stays t u2 := Stays.of_pair heu2 (notchShow_stays ..)
    exact hu2.trans ⟨rfl⟩
  · rename_i _ u2 heu2
    have hu2 : Stays t u2 := Stays.of_pair heu2 (notchShow_stays ..)
    exact hu2

theorem jamCal_stays (b : Nat) (s : State) : Stays s (jamCal b s) := by
  unfold jamCal
  extract_lets j f hi s1
  have hs1 : Stays s s1 := setJamRef_stays ..
  clear_value s1
  exact .ite (.rfl' _) (((hs1.trans (wb_stays ..)).trans (w_stays ..)).trans (raise_stays ..))

theorem jamShow_stays (b r : Nat) (s : State) : Stays s (jamShow b r s) := by
  unfold jamShow
  extract_lets h ind st nx s1
  have hs1 : Stays s s1 := ((w_stays ..).trans (w_stays ..)).trans (w_stays ..)
  clear_value s1
  exact .ite hs1 (hs1.trans (raise_stays ..))

theorem jamTick_stays (b : Nat) (x : BandIn) (s : State) : Stays s (jamTick b x s) := by
  unfold jamTick
  extract_lets j j1 j2 s1 s2
  have hs1 : Stays s s1 := setJamRef_stays ..
  have hs2 : Stays s s2 := ((hs1.trans (w_stays ..)).trans (w_stays ..)).trans (w_stays ..)
  clear_value s1 s2
  split
  · exact hs2.trans (jamCal_stays ..)
  · exact (setJamRef_stays ..).trans (jamShow_stays ..)

theorem bankChsOut_stays (s : State) (h : Nat) : Stays s (bankChsOut s h) := by
  unfold bankChsOut
  refine foldl_stays _ (fun t a => ?_) _ _
  extract_lets u s1
  have hs1 : Stays t s1 := setSxtCh_stays ..
  clear_value s1
  exact .ite (hs1.trans (setChState_stays ..)) hs1

theorem bankGoesOut_stays (s : State) (b : Nat) (bad : List Nat) (fault : Bool) :
    Stays s (bankGoesOut s b bad fault) := by
  unfold bankGoesOut
  extract_lets h s1 s2 s3 spare s4 s5 s6 s7
  have hs1 : Stays s s1 := unitOut_stays ..
  have hs2 : Stays s s2 := hs1.trans (wset_stays ..)
  have hs3 : Stays s s3 := hs2.trans (raise_stays ..)
  have hs4 : Stays s s4 := by
    unfold s4
    split
    · exact (hs3.trans (bankChsOut_stays ..)).trans (raise_stays ..)
    · exact hs3
  have hs5 : Stays s s5 := hs3.trans (w_stays ..)
  have hs6 : Stays s s6 := hs5.trans (foldl_stays _ (fun _ _ => w_stays ..) _ _)
  have hs7 : Stays s s7 := .ite ((hs4.trans (w_stays ..)).trans (w_stays ..)) (.ite (hs6.trans (foldl_stays _
      (fun _ _ => .ite (chReacq_stays ..) (.rfl' _)) _ _)) ((hs3.trans (bankChsOut_stays ..)).trans (raise_stays ..)))
  clear_value s1 s2 s3 s4 s5 s6 s7
  exact .ite (.rfl' _) (hs7.trans (completeAll_stays ..))

theorem bankBack_stays (b : Nat) (s : State) : Stays s (bankBack b s) := by
  unfold bankBack
  exact .ite (((unitJoin_stays ..).trans (w_stays ..)).trans (raise_stays ..)) (.rfl' _)

theorem bankRestored_stays (b : Nat) (s : State) : Stays s (bankRestored b s) := by
  unfold bankRestored
  extract_lets s1 s2 s3 s4
  have hs1 : Stays s s1 := unitInService_stays ..
  have hs2 : Stays s s2 := (hs1.trans (wset_stays ..)).trans (w_stays ..)
  have hs3 : Stays s s3 := .ite (hs2.trans (w_stays ..)) hs2
  have hs4 : Stays s s4 := by
    unfold s4
    split
    · exact hs2.trans (w_stays ..)
    · refine (foldl_stays _ (fun t a => ?_) _ _).after hs3
      extract_lets s5 u s6
      have hs5 : Stays t s5 := w_stays ..
      have hs6 : Stays t s6 := hs5.trans (setSxtCh_stays ..)
      clear_value s5 s6
      exact .ite (.ite (hs6.trans (setChState_stays ..)) hs6) hs5
  clear_value s1 s2 s3 s4
  exact .ite (.rfl' _) (hs4.trans (raise_stays ..))

theorem bandTick_stays (b : Nat) (x : BandIn) (s : State) : Stays s (bandTick b x s) := by
  unfold bandTick
  extract_lets s1
  have hs1 : Stays s s1 := (w_stays ..).trans (jamTick_stays ..)
  clear_value s1
  exact .ite ((hs1.trans (inc_stays ..)).trans (raise_stays ..)) hs1

theorem sxtTick_stays (ma : Nat) (bands : List BandIn) (s : State) : Stays s (sxtTick ma bands s) := by
  unfold sxtTick
  extract_lets s1 s2 outs u s3 s4
  have hs1 : Stays s s1 := sxtRun_stays ..
  have hs2 : Stays s s2 := .ite (hs1.trans (sxtLatch_stays ..)) hs1
  have hs3 : Stays s s3 := (foldl_stays _ (fun _ _ => bankGoesOut_stays ..) _ _).after (hs2.trans ⟨rfl⟩)
  have hs4 : Stays s s4 := hs3.trans (antTick_stays ..)
  clear_value s1 s2 s3 s4
  split
  · exact hs4
  · refine (iter_stays _ (fun k t => ?_) _ _).after (hs4.trans (notchTick_stays ..))
    split
    · exact .ite (bandTick_stays ..) (.rfl' _)
    · exact .rfl' _

theorem reacqWatch_stays (s : State) : Stays s (reacqWatch s) := by
  unfold reacqWatch
  exact foldl_stays _ (fun _ _ => .ite ((setSxtCh_stays ..).trans (reacqExpire_stays ..)) (.rfl' _)) _ _

theorem sxtWatch_stays (ps : List Predicted) (s : State) : Stays s (sxtWatch ps s) := by
  unfold sxtWatch
  extract_lets s1 qs x u
  have hs1 : Stays s s1 :=
    alive_stays (fun t => iter_stays _ (fun _ _ => (bankBack_stays ..).trans (bankRestored_stays ..)) _ t) s
  have hu : Stays s u := hs1.trans ⟨rfl⟩
  clear_value s1 u
  exact .ite hs1 ((hu.trans (reacqWatch_stays ..)).trans (sxtAllocate_stays ..))

/-! ### Machine/Obs.lean -/

theorem posShow_stays (s : State) (x y z : Int) : Stays s (posShow s x y z) := ⟨rfl⟩

theorem countsClear_stays (s : State) : Stays s (countsClear s) := ⟨rfl⟩

theorem posValid_stays (s : State) (source : Nat) (x y z : Int) : Stays s (posValid s source x y z) := by
  unfold posValid
  extract_lets was s1
  have hs1 : Stays s s1 := ((w_stays ..).trans (w_stays ..)).trans (posShow_stays ..)
  clear_value s1
  exact .ite hs1 (hs1.trans (raise_stays ..))

theorem surveyStart_stays (s : State) : Stays s (surveyStart s) := by
  unfold surveyStart
  extract_lets s1 s2 s3
  have hs1 : Stays s s1 := countsClear_stays ..
  have hs2 : Stays s s2 := (hs1.trans (w_stays ..)).trans (w_stays ..)
  have hs3 : Stays s s3 := (hs2.trans (w_stays ..)).trans (w_stays ..)
  clear_value s1 s2 s3
  exact .ite hs3 (hs3.trans (raise_stays ..))

theorem obsPowerUp_stays (s : State) : Stays s (obsPowerUp s) := by
  unfold obsPowerUp
  split
  · extract_lets s1 u
    have hs1 : Stays s s1 := posValid_stays ..
    clear_value s1
    exact hs1.trans ⟨rfl⟩
  · exact .rfl' _

theorem obsSetPos_stays (h : Handle) (x y z : Int) (store : Bool) (rsv : Nat) (s : State) :
    Stays s (obsSetPos h x y z store rsv s) := by
  unfold obsSetPos
  exact .ite (complete_stays ..) ((complete_stays ..).after ⟨rfl⟩)

theorem obsPosChange_stays (s : State) : Stays s (obsPosChange s) := by
  unfold obsPosChange
  extract_lets u s1 u1 s2
  have hs1 : Stays s s1 := ⟨rfl⟩
  have hs2 : Stays s s2 := ⟨rfl⟩
  clear_value s1 s2
  split
  · exact .rfl' _
  · split
    · extract_lets s3 u2 s4 s5
      have hs3 : Stays s s3 := .ite (hs1.trans ⟨rfl⟩) hs1
      have hs4 : Stays s s4 := hs3.trans ⟨rfl⟩
      have hs5 : Stays s s5 := .ite hs4 (.ite (hs4.trans (raise_stays ..)) (hs4.trans (raise_stays ..)))
      clear_value s3 s4 s5
      exact hs5.trans (posValid_stays ..)
    · exact (surveyStart_stays ..).after (.ite hs2 (hs2.trans (raise_stays ..)))

theorem ephJudge_stays (s : State) : Stays s (ephJudge s) := by
  unfold ephJudge
  extract_lets u
  split
  · exact .rfl' _
  · split
    · exact .rfl' _
    · extract_lets keep stale old s1
      have hs1 : Stays s s1 := ⟨rfl⟩
      clear_value s1
      exact .ite (hs1.trans (raise_stays ..)) hs1

theorem obsWatch_stays (s : State) : Stays s (obsWatch s) := by
  unfold obsWatch
  extract_lets s1 nx u s2 s3
  have hs1 : Stays s s1 := .ite (obsPosChange_stays ..) (.rfl' _)
  have hs2 : Stays s s2 := by
    unfold s2
    refine (foldl_stays _ (fun t a => ?_) _ _).after (hs1.trans ⟨rfl⟩)
    exact ⟨rfl⟩
  have hs3 : Stays s s3 := hs2.trans (ephJudge_stays ..)
  clear_value s1 s2 s3
  exact hs3.trans (w_stays ..)

theorem drawTerms_stays (gs : List Nat) (s : State) : Stays s (drawTerms gs s).2 := by
  induction gs generalizing s with
  | nil => exact .rfl' s
  | cons g gs ih => exact (fresh_stays s).trans (ih _)

theorem obsLeadSet_stays (lead : ObsSet) (s : State) : Stays s (obsLeadSet lead s) := by
  unfold obsLeadSet
  extract_lets u s1
  have hs1 : Stays s s1 := ⟨rfl⟩
  clear_value s1
  split
  · exact hs1
  · split
    · exact hs1
    · split
      · rename_i _ _ u1 heu1
        have hu1 : Stays s u1 := Stays.of_pair heu1 (hs1.trans (drawTerms_stays ..))
        exact hu1.trans ⟨rfl⟩

theorem obsLeadTake_stays (lead : ObsSet) (s : State) : Stays s (obsLeadTake lead s) := by
  unfold obsLeadTake
  extract_lets s1 u
  have hs1 : Stays s s1 := obsLeadSet_stays ..
  clear_value s1
  exact hs1.trans ⟨rfl⟩

theorem obsRun_stays (s : State) : Stays s (obsRun s) := by
  unfold obsRun
  extract_lets u s1 s2
  have hs1 : Stays s s1 := ⟨rfl⟩
  have hs2 : Stays s s2 := hs1.trans (countsClear_stays ..)
  clear_value s1 s2
  exact .ite (.rfl' _) (.ite (.ite ((hs2.trans (w_stays ..)).trans (w_stays ..)) hs2) hs1)

theorem ephLoad_stays (s : State) : Stays s (ephLoad s) := ⟨rfl⟩

/-! ### Machine/Air.lean -/

theorem secSent_stays (s : State) : Stays s (secSent s) := by
  unfold secSent
  exact .ite ((raise_stays ..).after ⟨rfl⟩) (.rfl' _)

theorem setGroupSeq_stays (s : State) (hb v : Nat) : Stays s (setGroupSeq s hb v) := by
  unfold setGroupSeq
  exact (w_stays ..).trans (w_stays ..)

theorem nextGroupSeq_stays (s : State) (hb : Nat) : Stays s (nextGroupSeq s hb).2 := by
  unfold nextGroupSeq
  exact (setGroupSeq_stays ..).trans (reflect_stays ..)

theorem setPlan_stays (s : State) (hb : Nat) (p : List LuvEl) : Stays s (setPlan s hb p) := ⟨rfl⟩

theorem elBegin_stays (hb : Nat) (s : State) (e : LuvEl) : Stays s (elBegin hb s e).2 := by
  unfold elBegin
  split
  · split
    · rename_i _ _ u heu
      have hu : Stays s u := Stays.of_pair heu (nextGroupSeq_stays ..)
      exact hu.trans (secSent_stays ..)
  · split
    · rename_i _ _ u heu
      have hu : Stays s u := Stays.of_pair heu (nextGroupSeq_stays ..)
      exact hu.trans (secSent_stays ..)
  · exact .rfl' _

theorem segsSent_stays (s : State) (r n : Nat) : Stays s (segsSent s r n) := ⟨rfl⟩

theorem grantBegun_stays (s : State) (r : Nat) : Stays s (grantBegun s r) := ⟨rfl⟩

theorem elEnd_stays (hb : Nat) (s : State) (e : LuvEl) : Stays s (elEnd hb s e) := by
  unfold elEnd
  extract_lets s1
  have hs1 : Stays s s1 := by
    unfold s1
    split
    · exact (segsSent_stays ..).trans (grantBegun_stays ..)
    · exact segsSent_stays ..
    · exact .rfl' _
  clear_value s1
  exact .ite (hs1.trans (emit_stays ..)) hs1

theorem elsUpTo_stays (hb t : Nat) (es : List LuvEl) (s : State) : Stays s (elsUpTo hb t es s).2 := by
  induction es generalizing s with
  | nil => exact .rfl' s
  | cons e es ih =>
    unfold elsUpTo
    split
    · exact ih s
    split
    rename_i _ v u huv
    have hu : Stays s u := .of_pair huv (.ite_snd ((elBegin_stays ..).after (atInst_stays ..)) (.rfl' _))
    extract_lets i u'
    have hu' : Stays s u' := hu.trans (atInst_stays ..)
    clear_value u'
    split
    · exact (hu'.trans (elEnd_stays ..)).trans (ih _)
    · exact hu'.trans (ih _)

theorem luvFlush_stays (s : State) (hb t : Nat) : Stays s (luvFlush s hb t) := by
  unfold luvFlush
  split
  · rename_i _ _ u heu
    have hu : Stays s u := Stays.of_pair heu (elsUpTo_stays ..)
    exact hu.trans (setPlan_stays ..)

theorem preempted_stays (s : State) (hb : Nat) (e : LuvEl) : Stays s (preempted s hb e) := by
  unfold preempted
  extract_lets s1 q u
  have hs1 : Stays s s1 := inc_stays ..
  clear_value s1
  exact .ite ((raiseTick_stays ..).after (hs1.trans ⟨rfl⟩)) hs1

theorem luvCut_stays (s : State) (hb a b : Nat) : Stays s (luvCut s hb a b) := by
  unfold luvCut
  extract_lets u s1 s2 p cut head rest s3
  have hs1 : Stays s s1 := ⟨rfl⟩
  have hs2 : Stays s s2 := hs1.trans (luvFlush_stays ..)
  have hs3 : Stays s s3 := hs2.trans (setPlan_stays ..)
  clear_value s1 s2 s3
  exact hs3.trans (foldl_stays _ (fun _ _ => preempted_stays ..) _ _)

theorem burstAllowed_stays (s : State) (hb cyc : Nat) : Stays s (burstAllowed s hb cyc).2 := by
  unfold burstAllowed
  exact .ite_snd (.rfl' _) (.ite_snd (.ite_snd ((inc_stays ..).trans (raise_stays ..)) ⟨rfl⟩) (.rfl' _))

theorem lanternAir_stays (s : State) (cyc sync : Nat) (payload : List Byte) :
    Stays s (lanternAir s cyc sync payload) := by
  unfold lanternAir
  extract_lets s1 u s2 ts u1 s3
  have hs1 : Stays s s1 := .ite (emit_stays ..) (.rfl' _)
  have hs2 : Stays s s2 := hs1.trans ⟨rfl⟩
  have hs3 : Stays s s3 := .ite ((w_stays ..).after (hs2.trans ⟨rfl⟩)) hs2
  clear_value s1 s2 s3
  exact hs3.trans (emit_stays ..)

theorem lanternSkip_stays (s : State) : Stays s (lanternSkip s) := by
  unfold lanternSkip
  exact (inc_stays ..).trans (raise_stays ..)

theorem lanternTick_stays (s : State) : Stays s (lanternTick s) := by
  unfold lanternTick
  exact .ite ⟨by simp only [core]⟩ ((w_stays ..).after ⟨by simp only [core]⟩)

/-! ### Machine/Stp.lean -/

theorem stpRaise_stays (s : State) (e detail : Nat) : Stays s (stpRaise s e detail) := by
  unfold stpRaise
  exact .ite ⟨rfl⟩ (.ite (raiseTick_stays ..) (raise_stays ..))

theorem setTgtWin_stays (s : State) (r : Nat) (w : TgtWin) : Stays s (setTgtWin s r w) := ⟨rfl⟩

theorem outsRelease_stays (s : State) : Stays s (outsRelease s) := by
  unfold outsRelease
  exact iter_stays _ (fun _ _ => .ite (.rfl' _) (wset_stays ..)) _ _

theorem outsBoundary_stays (s : State) : Stays s (outsBoundary s) := by
  unfold outsBoundary
  exact iter_stays _ (fun _ _ => wset_stays ..) _ _

theorem setHbPath_stays (s : State) (hb : Nat) (p : HbPath) : Stays s (setHbPath s hb p) := by
  unfold setHbPath
  exact .ite ⟨rfl⟩ ⟨rfl⟩

theorem markSent_stays (s : State) (fs : List (Option Nat)) : Stays s (markSent s fs) := by
  unfold markSent
  refine foldl_stays _ (fun t a => ?_) _ _
  split
  · exact ⟨rfl⟩
  · exact .rfl' _

theorem burstStart_stays (s : State) (hb start : Nat) (fs : List (Option Nat)) (rest : HbPath) (epoch : Nat) :
    Stays s (burstStart s hb start fs rest epoch) := by
  unfold burstStart
  extract_lets n i s1 done
  have hs1 : Stays s s1 := atInst_stays ..
  have hdone : ∀ t, Stays t (done t) := by
    intro t
    unfold done
    exact atInst_stays ..
  clear_value done
  clear_value s1
  split
  · rename_i _ u heu
    have hu : Stays s u := Stays.of_pair heu (hs1.trans (burstAllowed_stays ..))
    exact (hu.trans (setHbPath_stays ..)).trans (hdone ..)
  · rename_i _ u heu
    have hu : Stays s u := Stays.of_pair heu (hs1.trans (burstAllowed_stays ..))
    extract_lets s2 s3 s4
    have hs2 : Stays s s2 := hu.trans (luvCut_stays ..)
    have hs3 : Stays s s3 := hs2.trans (setHbPath_stays ..)
    have hs4 : Stays s s4 := .ite (hs3.trans (secSent_stays ..)) hs3
    clear_value s2 s3 s4
    exact ((hs4.trans (markSent_stays ..)).trans (emit_stays ..)).trans (hdone ..)

theorem burstAdvance_stays (hb t epoch n : Nat) (s : State) : Stays s (burstAdvance hb t epoch n s) := by
  induction n generalizing s with
  | zero => exact .rfl' s
  | succ n ih =>
    unfold burstAdvance
    split
    · exact .rfl' s
    · exact .ite ((burstStart_stays ..).trans (ih _)) (.rfl' s)

theorem burstsTo_stays (s : State) (hb t : Nat) : Stays s (burstsTo s hb t) := by
  unfold burstsTo
  split
  · exact burstAdvance_stays ..
  · exact .rfl' _

theorem burstRelease_stays (s : State) (hb cyc : Nat) (f : Option Nat) (epoch : Nat) :
    Stays s (burstRelease s hb cyc f epoch) := by
  unfold burstRelease
  extract_lets s1 p
  have hs1 : Stays s s1 := burstAdvance_stays ..
  clear_value s1
  exact .ite (.ite (hs1.trans (burstStart_stays ..)) (hs1.trans (setHbPath_stays ..))) (.ite (hs1.trans
      (setHbPath_stays ..)) (hs1.trans (burstStart_stays ..)))

theorem lanternStop_stays (s : State) (cyc epoch limit : Nat) : Stays s (lanternStop s cyc epoch limit) := by
  unfold lanternStop
  extract_lets s1
  have hs1 : Stays s s1 := .ite (secSent_stays ..) (.rfl' _)
  clear_value s1
  exact .ite (.rfl' _) (.ite (hs1.trans (lanternAir_stays ..)) (lanternSkip_stays ..))

theorem setCanCh_stays (s : State) (c : Nat) (v : CanCh) : Stays s (setCanCh s c v) := ⟨rfl⟩

theorem canStopPut_stays (s : State) (c : Nat) (f : StopFrame) : Stays s (canStopPut s c f) := by
  unfold canStopPut
  extract_lets q s1 q1 v s2
  have hs1 : Stays s s1 := .ite (inc_stays ..) (.rfl' _)
  have hs2 : Stays s s2 := hs1.trans (setCanCh_stays ..)
  clear_value s1 s2
  exact (hs2.trans (w_stays ..)).trans (wb_stays ..)

theorem canStopAll_stays (s : State) (f : StopFrame) : Stays s (canStopAll s f) := by
  unfold canStopAll
  exact iter_stays _ (fun _ _ => .ite (canStopPut_stays ..) (.rfl' _)) _ _

theorem stpLast_stays (s : State) (src : Nat) (rover : Option Nat) (lat : Nat) : Stays s (stpLast s src rover lat) := by
  unfold stpLast
  exact ((((w_stays ..).trans (w_stays ..)).trans (w_stays ..)).trans (w_stays ..)).trans (w_stays ..)

theorem releaseFrames_stays (s : State) (rover : Option Nat) (rel : RelIn) : Stays s (releaseFrames s rover rel) := by
  unfold releaseFrames
  extract_lets s1
  have hs1 : Stays s s1 := .ite (stpRaise_stays ..) (.rfl' _)
  clear_value s1
  split
  · exact .rfl' _
  · extract_lets s2 s3 s4
    have hs2 : Stays s s2 := hs1.trans (burstRelease_stays ..)
    have hs3 : Stays s s3 := hs2.trans (burstRelease_stays ..)
    have hs4 : Stays s s4 := .ite (hs3.trans (lanternStop_stays ..)) hs3
    clear_value s2 s3 s4
    exact hs4.trans (canStopAll_stays ..)

theorem release_stays (s : State) (src : Nat) (rover : Option Nat) (rel : RelIn) :
    Stays s (release s src rover rel) := by
  unfold release
  extract_lets s1 u s2 s3 s4
  have hs1 : Stays s s1 := stpLast_stays ..
  have hs2 : Stays s s2 := by
    unfold s2
    split
    · exact hs1.trans ⟨rfl⟩
    · exact hs1.trans (setTgtWin_stays ..)
  have hs3 : Stays s s3 := hs2.trans (releaseFrames_stays ..)
  have hs4 : Stays s s4 := .ite (hs3.trans (outsRelease_stays ..)) hs3
  clear_value s1 s2 s3 s4
  exact .ite (hs4.trans (emit_stays ..)) hs4

theorem cancelResumes_stays (s : State) (rover : Option Nat) : Stays s (cancelResumes s rover) := by
  unfold cancelResumes
  extract_lets hit u s1
  have hs1 : Stays s s1 := ⟨rfl⟩
  clear_value s1
  exact hs1.trans (foldl_stays _ (fun _ _ => complete_stays ..) _ _)

theorem fleetSame_stays (s : State) (src cyc : Nat) : Stays s (fleetSame s src cyc) := by
  unfold fleetSame
  extract_lets was s1 s2
  have hs1 : Stays s s1 := w_stays ..
  have hs2 : Stays s s2 := .ite (hs1.trans (w_stays ..)) hs1
  clear_value s1 s2
  exact .ite (.ite (hs2.trans (emit_stays ..)) hs2) (.rfl' _)

theorem breachSame_stays (s : State) (src r : Nat) : Stays s (breachSame s src r) := by
  unfold breachSame
  exact .ite (w_stays ..) (.rfl' _)

theorem requestStop_stays (s : State) (src : Nat) (rover : Option Nat) (rel : RelIn) :
    Stays s (requestStop s src rover rel) := by
  unfold requestStop
  extract_lets s1 again s2 s3 s4 s5
  have hs1 : Stays s s1 := wset_stays ..
  have hs2 : Stays s s2 := hs1.trans (cancelResumes_stays ..)
  have hs3 : Stays s s3 := .ite (hs2.trans (reflect_stays ..)) hs2
  have hs4 : Stays s s4 := (hs3.trans (wb_stays ..)).trans (w_stays ..)
  have hs5 : Stays s s5 := (hs4.trans (inc_stays ..)).trans (release_stays ..)
  clear_value s1 s2 s3 s4 s5
  split
  · exact .rfl' _
  · split
    · exact .ite ((hs3.trans (inc_stays ..)).trans (fleetSame_stays ..)) ((hs5.trans (stpRaise_stays ..)).trans
          (reflect_stays ..))
    · extract_lets s6 s7
      have hs6 : Stays s s6 := hs3.trans (wbit_stays ..)
      have hs7 : Stays s s7 := (hs6.trans (inc_stays ..)).trans (release_stays ..)
      clear_value s6 s7
      exact .ite ((hs3.trans (inc_stays ..)).trans (breachSame_stays ..)) ((hs7.trans (stpRaise_stays ..)).trans
          (reflect_stays ..))

theorem relAt_stays (s : State) (cyc : Nat) : Stays s (relAt s cyc).2 := by
  unfold relAt
  split
  · rename_i _ _ u heu
    have hu : Stays s u := Stays.of_pair heu (fresh_stays ..)
    exact hu

theorem requestStopAt_stays (s : State) (src : Nat) (rover : Option Nat) (cyc : Nat) :
    Stays s (requestStopAt s src rover cyc) := by
  unfold requestStopAt
  split
  · rename_i _ _ u heu
    have hu : Stays s u := Stays.of_pair heu (relAt_stays ..)
    exact hu.trans (requestStop_stays ..)

theorem stpStop_stays (h : Handle) (rover : Option Nat) (bad : Bool) (s : State) : Stays s (stpStop h rover bad s) := by
  unfold stpStop
  exact .ite ((inc_stays ..).trans (complete_stays ..)) ((requestStopAt_stays ..).trans (complete_stays ..))

theorem stpResume_stays (h : Handle) (rover : Option Nat) (bad : Bool) (s : State) :
    Stays s (stpResume h rover bad s) := by
  unfold stpResume
  extract_lets refuse clear blocked u
  have hrefuse : ∀ t, Stays t (refuse t) := by
    intro t
    unfold refuse
    exact (inc_stays ..).trans (complete_stays ..)
  clear_value refuse
  exact .ite (hrefuse ..) (.ite (hrefuse ..) (.ite ((stpRaise_stays ..).trans (hrefuse ..)) ((reflect_stays ..).after
      ((accept_stays ..).after ⟨rfl⟩))))

theorem resumesCancel_stays (s : State) : Stays s (resumesCancel s) := by
  unfold resumesCancel
  exact (foldl_stays _ (fun _ _ => complete_stays ..) _ _).after ⟨rfl⟩

theorem repeatBurst_stays (hb epoch : Nat) (fs : List (Option Nat)) (s : State) :
    Stays s (repeatBurst hb epoch fs s) := by
  unfold repeatBurst
  exact .ite (setHbPath_stays ..) (burstStart_stays ..)

theorem repeatStore_stays (fs : List (Option Nat)) (s : State) : Stays s (repeatStore fs s) := by
  unfold repeatStore
  split
  · exact .rfl' _
  · split
    · rename_i _ _ u heu
      have hu : Stays s u := Stays.of_pair heu (fresh_stays ..)
      exact .ite (hu.trans (stpRaise_stays ..)) hu

theorem stpBursts_stays (s : State) : Stays s (stpBursts s) := by
  unfold stpBursts
  extract_lets fs
  split
  · exact .ite (.rfl' _) (((repeatStore_stays ..).trans (repeatBurst_stays ..)).trans (repeatBurst_stays ..))
  · exact (setHbPath_stays ..).trans (setHbPath_stays ..)

theorem windowsTick_stays (s : State) : Stays s (windowsTick s) := by
  unfold windowsTick
  exact foldl_stays _ (fun _ _ => .ite (setTgtWin_stays ..) (.rfl' _)) _ _

theorem burstsEnd_stays (s : State) : Stays s (burstsEnd s) := by
  unfold burstsEnd
  exact (burstsTo_stays ..).trans (burstsTo_stays ..)

/-! ### Machine/Cht.lean -/

theorem setChtRover_stays (s : State) (r : Nat) (v : ChtRover) : Stays s (setChtRover s r v) := by
  unfold setChtRover
  extract_lets u s1 live s2 s3 s4 s5 s6 high s7 u1
  have hs1 : Stays s s1 := ⟨rfl⟩
  have hs2 : Stays s s2 := hs1.trans (w_stays ..)
  have hs3 : Stays s s3 := hs2.trans (w_stays ..)
  have hs4 : Stays s s4 := hs3.trans (wb_stays ..)
  have hs5 : Stays s s5 := hs4.trans (wb_stays ..)
  have hs6 : Stays s s6 := by
    unfold s6
    split
    · exact ((hs5.trans (wi_stays ..)).trans (wi_stays ..)).trans (w_stays ..)
    · exact ((hs5.trans (w_stays ..)).trans (w_stays ..)).trans (w_stays ..)
  have hs7 : Stays s s7 := .ite (hs6.trans (raise_stays ..)) hs6
  clear_value s1 s2 s3 s4 s5 s6 s7
  exact hs7.trans ⟨rfl⟩

theorem setChtSt_stays (s : State) (r v : Nat) : Stays s (setChtSt s r v) := by
  unfold setChtSt
  exact (w_stays ..).trans (wbit_stays ..)

theorem genAdvance_stays (s : State) : Stays s (genAdvance s) := by
  unfold genAdvance
  extract_lets u u1
  have hu : Stays s u := w_stays ..
  clear_value u
  exact .ite (.rfl' _) (hu.trans ⟨rfl⟩)

theorem showQueue_stays (s : State) : Stays s (showQueue s) := by
  unfold showQueue
  exact w_stays ..

theorem chtDiscard_stays (s : State) : Stays s (chtDiscard s) := by
  unfold chtDiscard
  extract_lets q u s1 s2
  have hs1 : Stays s s1 := (foldl_stays _ (fun _ _ => complete_stays ..) _ _).after ⟨rfl⟩
  have hs2 : Stays s s2 := by
    unfold s2
    refine (foldl_stays _ (fun t a => ?_) _ _).after hs1
    extract_lets v s3 s4 s5
    have hs3 : Stays t s3 := by
      unfold s3
      split
      · exact complete_stays ..
      · exact .rfl' _
    have hs4 : Stays t s4 := hs3.trans (foldl_stays _ (fun _ _ => complete_stays ..) _ _)
    have hs5 : Stays t s5 := hs4.trans (foldl_stays _ (fun _ _ => complete_stays ..) _ _)
    clear_value s3 s4 s5
    exact (hs5.trans (setChtSt_stays ..)).trans (setChtRover_stays ..)
  clear_value s1 s2
  exact hs2.trans (showQueue_stays ..)

theorem originShow_stays (s : State) (o : Option (Int × Int × Int)) (fromLead : Bool) :
    Stays s (originShow s o fromLead) := ⟨rfl⟩

theorem originOwn_stays (s : State) : Stays s (originOwn s) := by
  unfold originOwn
  exact .ite (originShow_stays ..) (.rfl' _)

theorem originSet_stays (s : State) (o : Option (Int × Int × Int)) (fromLead : Bool) :
    Stays s (originSet s o fromLead) := by
  unfold originSet
  extract_lets s1 changed u s2
  have hs1 : Stays s s1 := originShow_stays ..
  have hs2 : Stays s s2 := ⟨rfl⟩
  clear_value s1 s2
  split
  · exact hs1
  · exact .ite (((hs2.trans (chtDiscard_stays ..)).trans (genAdvance_stays ..)).trans (raise_stays ..)) hs2

theorem originFromLead_stays (s : State) (o : Option (Int × Int × Int)) : Stays s (originFromLead s o) := by
  unfold originFromLead
  extract_lets s1 differs s2 u
  have hs1 : Stays s s1 := originSet_stays ..
  have hs2 : Stays s s2 := .ite (hs1.trans (raise_stays ..)) hs1
  clear_value s1 s2
  exact hs2.trans ⟨rfl⟩

theorem chtConflict_stays (s : State) (h : Handle) (b : List Byte) : Stays s (chtConflict s h b) := by
  unfold chtConflict
  extract_lets s1 s2 s3
  have hs1 : Stays s s1 := cplPut_stays ..
  have hs2 : Stays s s2 := (((hs1.trans (w_stays ..)).trans (w_stays ..)).trans (w_stays ..)).trans (w_stays ..)
  have hs3 : Stays s s3 := (hs2.trans (w_stays ..)).trans (inc_stays ..)
  clear_value s1 s2 s3
  exact (hs3.trans (raise_stays ..)).trans (complete_stays ..)

theorem chtReserved_stays (s : State) (q : ChtReq) (tick : Nat) : Stays s (chtReserved s q tick) := by
  unfold chtReserved
  extract_lets v p s1
  have hs1 : Stays s s1 := .ite (setChtSt_stays ..) (.rfl' _)
  clear_value s1
  split
  · exact setChtRover_stays ..
  · exact hs1.trans (setChtRover_stays ..)

theorem chtDecide_stays (s : State) (q : ChtReq) (status tick : Nat) (conflict : List Byte) :
    Stays s (chtDecide s q status tick conflict) := by
  unfold chtDecide
  exact .ite (chtReserved_stays ..) (.ite (chtConflict_stays ..) (complete_stays ..))

theorem chtEnqueue_stays (s : State) (q : ChtReq) : Stays s (chtEnqueue s q) := by
  unfold chtEnqueue
  exact .ite (complete_stays ..) ((showQueue_stays ..).after ((accept_stays ..).after ⟨rfl⟩))

theorem chtDoubt_stays (s : State) (q : ChtReq) (status : Nat) : Stays s (chtDoubt s q status) := by
  unfold chtDoubt
  exact (accept_stays ..).after ⟨rfl⟩

theorem chtRefuse_stays (s : State) (q : ChtReq) (status : Nat) : Stays s (chtRefuse s q status) := by
  unfold chtRefuse
  exact .ite (chtDoubt_stays ..) (complete_stays ..)

theorem chtReserve_stays (mode : Nat) (h : Handle) (rover nSeg bufAddr rsv : Nat) (buf : BufIn) (s : State) :
    Stays s (chtReserve mode h rover nSeg bufAddr rsv buf s) := by
  unfold chtReserve
  extract_lets q
  split
  · exact chtRefuse_stays ..
  · split
    · exact chtRefuse_stays ..
    · split
      · exact chtRefuse_stays ..
      · split
        · exact chtRefuse_stays ..
        · exact chtEnqueue_stays ..

theorem chtRelease_stays (h : Handle) (rover : Nat) (force : Bool) (rsv : Nat) (s : State) :
    Stays s (chtRelease h rover force rsv s) := by
  unfold chtRelease
  exact .ite (complete_stays ..) (.ite (complete_stays ..) ((setChtRover_stays ..).trans (accept_stays ..)))

theorem chtStaging_stays (h : Handle) (rover : Nat) (e n : Int) (radius rsv : Nat) (s : State) :
    Stays s (chtStaging h rover e n radius rsv s) := by
  unfold chtStaging
  exact .ite (complete_stays ..) (.ite (complete_stays ..) (.ite ((setChtRover_stays ..).trans (accept_stays ..))
      (chtEnqueue_stays ..)))

theorem chtTell_stays (s : State) (r : Nat) (c : ChtChange) : Stays s (chtTell s r c) := by
  unfold chtTell
  exact reflect_stays ..

theorem grantCorridor_stays (s : State) (r : Nat) (p : ChtPend) (tick : Nat) : Stays s (grantCorridor s r p tick) := by
  unfold grantCorridor
  extract_lets v segs s1 s2 s3 s4
  have hs1 : Stays s s1 := setChtSt_stays ..
  have hs2 : Stays s s2 := hs1.trans (setChtRover_stays ..)
  have hs3 : Stays s s3 := hs2.trans (genAdvance_stays ..)
  have hs4 : Stays s s4 := hs3.trans (w_stays ..)
  clear_value s1 s2 s3 s4
  exact (hs4.trans (complete_stays ..)).trans (raiseTick_stays ..)

theorem grantStage_stays (s : State) (r : Nat) (x : Stage × Nat × Handle) : Stays s (grantStage s r x) := by
  unfold grantStage
  extract_lets v s1
  have hs1 : Stays s s1 := setChtRover_stays ..
  clear_value s1
  exact ((hs1.trans (genAdvance_stays ..)).trans (complete_stays ..)).trans (raiseTick_stays ..)

theorem chtGrantCorridor_stays (r : Nat) (s : State) : Stays s (chtGrantCorridor r s) := by
  unfold chtGrantCorridor
  split
  · exact .ite ((grantCorridor_stays ..).trans (chtTell_stays ..)) (.rfl' _)
  · exact .rfl' _

theorem chtGrantStages_stays (r : Nat) (s : State) : Stays s (chtGrantStages r s) := by
  unfold chtGrantStages
  exact foldl_stays _ (fun _ _ => .ite ((grantStage_stays ..).trans (chtTell_stays ..)) (.rfl' _)) _ _

theorem chtRest_stays (s : State) (r : Nat) : Stays s (chtRest s r) := by
  unfold chtRest
  exact ((setChtSt_stays ..).trans (genAdvance_stays ..)).trans (raiseTick_stays ..)

theorem segsFree_stays (t r : Nat) (s : State) : Stays s (segsFree t r s) := by
  unfold segsFree
  exact setChtRover_stays ..

theorem segmentFreed_stays (r : Nat) (s : State) : Stays s (segmentFreed r s) := by
  unfold segmentFreed
  extract_lets t
  have ht : Stays s t := segsFree_stays ..
  clear_value t
  exact .ite (.rfl' _) (.ite (.rfl' _) (ht.trans (chtTell_stays ..)))

theorem chtHoldAll_stays (s : State) (r st : Nat) : Stays s (chtHoldAll s r st) := by
  unfold chtHoldAll
  extract_lets v old s1 s2
  have hs1 : Stays s s1 := by
    unfold s1
    split
    · exact ((setChtSt_stays ..).trans (setChtRover_stays ..)).trans (complete_stays ..)
    · exact (setChtSt_stays ..).trans (setChtRover_stays ..)
  have hs2 : Stays s s2 := hs1.trans (genAdvance_stays ..)
  clear_value s1 s2
  exact .ite (.rfl' _) (.ite (hs2.trans (raise_stays ..)) hs2)

theorem chtReleaseAll_stays (s : State) (r : Nat) (hs : List Handle) : Stays s (chtReleaseAll s r hs) := by
  unfold chtReleaseAll
  extract_lets v gen under u s1 s2 s3 s4 s5
  have hs1 : Stays s s1 := ⟨rfl⟩
  have hs2 : Stays s s2 := hs1.trans (foldl_stays _ (fun _ _ => complete_stays ..) _ _)
  have hs3 : Stays s s3 := by
    unfold s3
    split
    · exact hs2.trans (complete_stays ..)
    · exact hs2
  have hs4 : Stays s s4 := (hs3.trans (setChtSt_stays ..)).trans (setChtRover_stays ..)
  have hs5 : Stays s s5 := .ite (hs4.trans (genAdvance_stays ..)) hs4
  clear_value s1 s2 s3 s4 s5
  exact (raise_stays ..).after ((hs5.trans (showQueue_stays ..)).trans (foldl_stays _
      (fun _ _ => complete_stays ..) _ _))

theorem chtUnstage_stays (s : State) (r : Nat) : Stays s (chtUnstage s r) := by
  unfold chtUnstage
  exact (setChtRover_stays ..).trans (foldl_stays _ (fun _ _ => complete_stays ..) _ _)

theorem chtHeldDone_stays (s : State) (r : Nat) : Stays s (chtHeldDone s r) := by
  unfold chtHeldDone
  exact setChtRover_stays ..

theorem chtHoldDue_stays (s : State) (r : Nat) : Stays s (chtHoldDue s r) := by
  unfold chtHoldDue
  exact .ite ((chtHoldAll_stays ..).trans (chtTell_stays ..)) (.ite ((chtHoldAll_stays ..).trans (chtTell_stays ..))
      (.rfl' _))

theorem chtBoundary_stays (s : State) (r : Nat) : Stays s (chtBoundary s r) := by
  unfold chtBoundary
  extract_lets v s1 s2 rest s3 s4 s5
  have hs1 : Stays s s1 := .ite (.rfl' _) ((chtUnstage_stays ..).trans (chtTell_stays ..))
  have hs2 : Stays s s2 := (chtGrantStages_stays ..).after (.ite (hs1.trans (chtGrantCorridor_stays ..)) hs1)
  have hs3 : Stays s s3 := .ite ((hs2.trans (chtRest_stays ..)).trans (chtTell_stays ..)) hs2
  have hs4 : Stays s s4 := .ite hs3 (hs3.trans (chtHoldDue_stays ..))
  have hs5 : Stays s s5 := .ite (hs4.trans (chtHeldDone_stays ..)) hs4
  clear_value s1 s2 s3 s4 s5
  exact .ite hs5 ((hs5.trans (chtReleaseAll_stays ..)).trans (chtTell_stays ..))

theorem chtTick_stays (s : State) : Stays s (chtTick s) := by
  unfold chtTick
  extract_lets s1 u s2 u1 s3 s4 s5 u2
  have hs1 : Stays s s1 := .ite (chtDiscard_stays ..) (.rfl' _)
  have hs2 : Stays s s2 := .ite (.rfl' _) (originSet_stays ..)
  have hs3 : Stays s s3 := hs2.trans ⟨rfl⟩
  have hs4 : Stays s s4 := hs3.trans (foldl_stays _ (fun _ _ => chtBoundary_stays ..) _ _)
  have hs5 : Stays s s5 := .ite (originShow_stays ..) (.ite (originShow_stays ..) (.rfl' _))
  clear_value s1 s2 s3 s4 s5
  exact .ite ((originOwn_stays ..).after (hs1.trans ⟨rfl⟩)) (.ite (hs4.trans (foldl_stays _
      (fun _ _ => segmentFreed_stays ..) _ _)) (hs5.trans ⟨rfl⟩))

theorem containment_stays (s : State) (r : Nat) (fe fn : Int) (consec te cyc : Nat) :
    Stays s (containment s r fe fn consec te cyc) := by
  unfold containment
  extract_lets u s1 tol fs far over_
  have hs1 : Stays s s1 := setChtRover_stays ..
  clear_value s1
  split
  · exact .rfl' _
  · split
    · exact hs1
    · extract_lets dev lim s2 put s3 s4 u1 s5
      have hs2 : Stays s s2 := (hs1.trans (w_stays ..)).trans (w_stays ..)
      have hput : ∀ x0 x1 t, Stays t (put x0 x1 t) := by
        intro x0 x1 t
        unfold put
        exact cplPut_stays ..
      clear_value put
      have hs3 : Stays s s3 := hs2.trans (hput ..)
      have hs4 : Stays s s4 := (hs3.trans (inc_stays ..)).trans (raise_stays ..)
      have hs5 : Stays s s5 := hs4.trans (setChtRover_stays ..)
      clear_value s2 s3 s4 s5
      exact .ite (hs2.trans (hput ..)) (.ite (hs5.trans (requestStopAt_stays ..)) (.ite (((hs2.trans (hput ..)).trans
          (inc_stays ..)).trans (raiseTick_stays ..)) hs2))

theorem doubtDone_stays (s : State) (h : Handle) : Stays s (doubtDone s h) := ⟨rfl⟩

theorem chtMirror_stays (r : Nat) (c : ChtChange) (tick gen crc : Nat) (s : State) :
    Stays s (chtMirror r c tick gen crc s) := by
  unfold chtMirror
  extract_lets was s1 u
  have hs1 : Stays s s1 := by
    unfold s1
    split
    · split
      · exact (grantCorridor_stays ..).trans (w_stays ..)
      · exact .rfl' _
    · split
      · exact grantStage_stays ..
      · exact .rfl' _
    · exact chtUnstage_stays ..
    · exact (chtRest_stays ..).trans (chtHeldDone_stays ..)
    · exact (chtHoldAll_stays ..).trans (chtHeldDone_stays ..)
    · exact (chtHoldAll_stays ..).trans (chtHeldDone_stays ..)
    · exact chtReleaseAll_stays ..
    · exact segsFree_stays ..
  clear_value s1
  exact (w_stays ..).after (hs1.trans ⟨rfl⟩)

theorem chtApply_stays (s : State) (h : Handle) (status tick : Nat) (conflict : List Byte) (crc : Nat) :
    Stays s (chtApply s h status tick conflict crc) := by
  unfold chtApply
  extract_lets mine doubt u
  split
  · exact .rfl' _
  · extract_lets own same s1
    have hs1 : Stays s s1 := ⟨rfl⟩
    clear_value s1
    exact (hs1.trans (chtDecide_stays ..)).trans (showQueue_stays ..)

/-! ### Machine/Fix.lean -/

theorem setFixRover_stays (s : State) (r : Nat) (v : FixRover) : Stays s (setFixRover s r v) := ⟨rfl⟩

theorem setFilt_stays (s : State) (r : Nat) (f : FixFilt) : Stays s (setFilt s r f) := ⟨rfl⟩

-- HO
theorem outFilt_stays (s : State) (r : Nat) (f : FixFilt → FixFilt) : Stays s (outFilt s r f) := by
  unfold outFilt
  exact ⟨rfl⟩

theorem fixReset_stays (s : State) (rs : List Nat) : Stays s (fixReset s rs) := by
  unfold fixReset
  extract_lets hit s1 s2
  have hs2 : Stays s s2 := (foldl_stays _ (fun _ _ => ((outFilt_stays ..).trans (setFixRover_stays ..)).trans
      (inc_stays ..)) _ _).after (foldl_stays _ (fun _ _ => setFixRover_stays ..) _ _)
  clear_value s1 s2
  clear_value hit
  split
  · exact hs2
  · exact hs2.trans (raiseTick_stays ..)
  · exact hs2.trans (raiseTick_stays ..)

theorem fixBase_stays (s : State) : Stays s (fixBase s) := by
  unfold fixBase
  extract_lets p old u s1
  have hs1 : Stays s s1 := ⟨rfl⟩
  clear_value s1
  split
  · exact .rfl' _
  · clear_value old
    split
    · exact hs1
    · extract_lets d move
      exact .ite hs1 (.ite (hs1.trans (fixReset_stays ..)) (hs1.trans (foldl_stays _ (fun _ _ =>
          (outFilt_stays ..).trans (setFilt_stays ..)) _ _)))

theorem fixWrite_stays (s : State) (r te epoch : Nat) (u : Option Nat) (f : SolFlags) (q : SolRec) (fl : FixFilt)
    (cyc : Nat) : Stays s (fixWrite s r te epoch u f q fl cyc) := by
  unfold fixWrite
  extract_lets v f1 consec fe bytes old s1 s2 s3 s4 s5 s6 s7 u1 s8 s9 s10
  have hs1 : Stays s s1 := setFixRover_stays ..
  have hs2 : Stays s s2 := ((hs1.trans (w_stays ..)).trans (w_stays ..)).trans (w_stays ..)
  have hs3 : Stays s s3 := (hs2.trans (w_stays ..)).trans (w_stays ..)
  have hs4 : Stays s s4 := hs3.trans (w_stays ..)
  have hs5 : Stays s s5 := hs4.trans (w_stays ..)
  have hs6 : Stays s s6 := .ite (hs5.trans (raise_stays ..)) hs5
  have hs7 : Stays s s7 := .ite (hs6.trans (raise_stays ..)) hs6
  have hs8 : Stays s s8 := hs7.trans ⟨rfl⟩
  have hs9 : Stays s s9 := hs8.trans (cplPut_stays ..)
  have hs10 : Stays s s10 := hs9.trans (reflect_stays ..)
  clear_value s1 s2 s3 s4 s5 s6 s7 s8 s9 s10
  exact .ite (hs10.trans (containment_stays ..)) hs10

theorem fixNone_stays (s : State) (r te epoch : Nat) (u : Option Nat) (quality reason : Nat) :
    Stays s (fixNone s r te epoch u quality reason) := by
  unfold fixNone
  exact fixWrite_stays ..

theorem fixTake_stays (s : State) (r : Nat) : Stays s (fixTake s r).2 := by
  unfold fixTake
  exact cplTakeAt_stays ..

theorem fixFree_stays (s : State) (r : Nat) : Stays s (fixFree s r) := by
  unfold fixFree
  exact fixTake_stays ..

theorem fixFreeOld_stays (s : State) (r : Nat) : Stays s (fixFreeOld s r) := by
  unfold fixFreeOld
  exact cplTake_stays ..

theorem fixFreeNewest_stays (s : State) (r : Nat) : Stays s (fixFreeNewest s r) := by
  unfold fixFreeNewest
  extract_lets v s1 s2
  have hs1 : Stays s s1 := cplSetQ_stays ..
  have hs2 : Stays s s2 := hs1.trans (w_stays ..)
  clear_value s1 s2
  split
  · exact .rfl' _
  · exact hs2.trans (cplSetCells_stays ..)

theorem setWin_stays (s : State) (w : FixWin) : Stays s (setWin s w) := ⟨rfl⟩

theorem fixFragment_stays (r : Nat) (s : State) : Stays s (fixFragment r s) := by
  unfold fixFragment
  split
  · exact setWin_stays ..
  · exact .rfl' _

theorem fixUpload_stays (r u : Nat) (s : State) : Stays s (fixUpload r u s) := by
  unfold fixUpload
  split
  · exact fixFreeNewest_stays ..
  · extract_lets s1 u1 s2 u2
    have hs1 : Stays s s1 := setWin_stays ..
    have hs2 : Stays s s2 := hs1.trans (setFixRover_stays ..)
    clear_value s1 s2
    exact .ite (fixFreeNewest_stays ..) (.ite (setWin_stays ..) (.ite ((fixFreeNewest_stays ..).trans (inc_stays ..))
        (hs2.trans ⟨rfl⟩)))

theorem fixDeliver_stays (s : State) (j : FixJob) (o : SolOut) (cyc : Nat) : Stays s (fixDeliver s j o cyc) := by
  unfold fixDeliver
  extract_lets r s1
  have hs1 : Stays s s1 := .ite (raise_stays ..) (.rfl' _)
  clear_value s1
  exact .ite (fixNone_stays ..) (hs1.trans (fixWrite_stays ..))

theorem busyUsed_stays (s : State) (j : FixJob) : Stays s (busyUsed s j) := by
  unfold busyUsed
  split
  · exact ⟨rfl⟩
  · exact .rfl' _

theorem fixRoverSet_stays (act : Nat) (h : Handle) (rover rate rsv : Nat) (s : State) :
    Stays s (fixRoverSet act h rover rate rsv s) := by
  unfold fixRoverSet
  exact .ite (complete_stays ..) (.ite (complete_stays ..) ((complete_stays ..).after ⟨rfl⟩))

theorem fixApply_stays (s : State) (c : Nat × Nat × Nat) : Stays s (fixApply s c) := by
  unfold fixApply
  extract_lets started u
  split
  · extract_lets v jobs gone s1 s2
    have hs1 : Stays s s1 := (foldl_stays _ (fun _ _ => fixFree_stays ..) _ _).after ⟨rfl⟩
    have hs2 : Stays s s2 := (wb_stays ..).trans (w_stays ..)
    clear_value s1 s2
    split
    · exact .ite (.rfl' _) (((hs1.trans (wb_stays ..)).trans (w_stays ..)).trans (setFixRover_stays ..))
    · exact hs2.trans (setFixRover_stays ..)
    · exact fixReset_stays ..

theorem fixStatus_stays (s : State) : Stays s (fixStatus s) := ⟨rfl⟩

theorem clMove_stays (s : State) (c : Nat) (all : Bool) (dst : Option Nat) : Stays s (clMove s c all dst).2 := by
  unfold clMove
  extract_lets on s1 u
  have hs1 : Stays s s1 := by
    unfold s1
    split
    · exact busyUsed_stays ..
    · exact .rfl' _
  clear_value s1
  exact hs1.trans ⟨rfl⟩

theorem clusterOut_stays (s : State) (c : Nat) (fault : Bool) : Stays s (clusterOut s c fault) := by
  unfold clusterOut
  extract_lets h s1 s2 spare for_ s3 s4 s5
  have hs1 : Stays s s1 := unitOut_stays ..
  have hs2 : Stays s s2 := (hs1.trans (wset_stays ..)).trans (raise_stays ..)
  have hs3 : Stays s s3 := (hs2.trans (w_stays ..)).trans (w_stays ..)
  have hs4 : Stays s s4 := hs2.trans (w_stays ..)
  have hs5 : Stays s s5 := by
    unfold s5
    split
    · exact .ite hs3 ((hs3.trans (clMove_stays ..)).trans (raise_stays ..))
    · split
      · split
        · split
          · rename_i _ _ u heu
            have hu : Stays s u := Stays.of_pair heu (hs4.trans (clMove_stays ..))
            exact hu.trans (add_stays ..)
        · exact hs4.trans (clMove_stays ..)
      · exact (hs2.trans (clMove_stays ..)).trans (raise_stays ..)
  clear_value s1 s2 s3 s4 s5
  exact .ite (.rfl' _) (hs5.trans (completeAll_stays ..))

theorem fixStop_stays (s : State) : Stays s (fixStop s) := by
  unfold fixStop
  extract_lets s1 s2 u s3
  have hs1 : Stays s s1 := foldl_stays _ (fun _ _ => fixFree_stays ..) _ _
  have hs2 : Stays s s2 := by
    unfold s2
    split
    · refine (foldl_stays _ (fun t a => ?_) _ _).after hs1
      exact fixFreeOld_stays ..
    · exact hs1
  have hs3 : Stays s s3 := hs2.trans ⟨rfl⟩
  clear_value s1 s2 s3
  exact hs3.trans (foldl_stays _ (fun _ _ => setFixRover_stays ..) _ _)

theorem fixWindows_stays (s : State) : Stays s (fixWindows s) := by
  unfold fixWindows
  extract_lets closing halfJob s1 u s2 n u1 s3 open_
  have hs1 : Stays s s1 := foldl_stays _ (fun _ _ => fixFree_stays ..) _ _
  have hs2 : Stays s s2 := .ite (hs1.trans ⟨rfl⟩) (.rfl' _)
  have hs3 : Stays s s3 := .ite (hs2.trans ⟨rfl⟩) (.ite (hs2.trans ⟨rfl⟩) hs2)
  have hopen_ : ∀ t x1 x2 x3, Stays t (open_ t x1 x2 x3) := by
    intro t x1 x2 x3
    unfold open_
    split
    · exact setWin_stays ..
    · exact .rfl' _
  clear_value open_
  clear_value s1 s2 s3
  exact .ite (hs3.trans (hopen_ ..)) (.ite (hs3.trans (hopen_ ..)) hs3)

theorem fixTick_stays (s : State) : Stays s (fixTick s) := by
  unfold fixTick
  extract_lets cmds u s1 s2 u1 s3 late u2 s4 s5 outs u3 s6
  have hs1 : Stays s s1 := by
    unfold s1
    refine (foldl_stays _ (fun t a => ?_) _ _).after ⟨rfl⟩
    exact fixApply_stays ..
  have hs2 : Stays s s2 := .ite hs1 (hs1.trans (fixStatus_stays ..))
  have hs3 : Stays s s3 := hs2.trans ⟨rfl⟩
  have hs4 : Stays s s4 := (foldl_stays _ (fun _ _ => fixDeliver_stays ..) _ _).after (hs3.trans ⟨rfl⟩)
  have hs5 : Stays s s5 := hs4.trans (fixReset_stays ..)
  have hs6 : Stays s s6 := (foldl_stays _ (fun _ _ => clusterOut_stays ..) _ _).after (hs5.trans ⟨rfl⟩)
  clear_value s1 s2 s3 s4 s5 s6
  exact .ite (.ite (hs2.trans (fixStop_stays ..)) hs2) (hs6.trans (fixWindows_stays ..))

theorem fixWatch_stays (s : State) : Stays s (fixWatch s) := by
  unfold fixWatch
  extract_lets s1 s2 u s3
  have hs1 : Stays s s1 := fixBase_stays ..
  have hs2 : Stays s s2 := ((hs1.trans (w_stays ..)).trans (w_stays ..)).trans (w_stays ..)
  have hs3 : Stays s s3 := hs2.trans ⟨rfl⟩
  clear_value s1 s2 s3
  exact .ite (.rfl' _) (hs3.trans (foldl_stays _ (fun _ _ => w_stays ..) _ _))

theorem solShow_stays (s : State) (r : Nat) (data : List Byte) : Stays s (solShow s r data) := by
  unfold solShow
  extract_lets q old s1 s2 s3
  have hs1 : Stays s s1 := ((w_stays ..).trans (w_stays ..)).trans (w_stays ..)
  have hs2 : Stays s s2 := (hs1.trans (w_stays ..)).trans (w_stays ..)
  have hs3 : Stays s s3 := hs2.trans (w_stays ..)
  clear_value s1 s2 s3
  exact hs3.trans (w_stays ..)

theorem fixAdopt_stays (s : State) (r : Nat) (data : List Byte) : Stays s (fixAdopt s r data).2 := by
  unfold fixAdopt
  exact .ite_snd (.rfl' _) ((setFixRover_stays ..).trans (solShow_stays ..))

/-! ### Machine/Asg.lean -/

theorem asgShow_stays (s : State) : Stays s (asgShow s) := by
  unfold asgShow
  extract_lets s1
  have hs1 : Stays s s1 := (w_stays ..).trans (wb_stays ..)
  clear_value s1
  split
  · exact ((hs1.trans (w_stays ..)).trans (w_stays ..)).trans (w_stays ..)
  · exact ((hs1.trans (w_stays ..)).trans (w_stays ..)).trans (w_stays ..)

theorem setRun_stays (s : State) (a : Option Auction) : Stays s (setRun s a) := by
  unfold setRun
  exact (asgShow_stays ..).after ⟨rfl⟩

theorem setPend_stays (s : State) (a : Option Auction) : Stays s (setPend s a) := by
  unfold setPend
  exact (asgShow_stays ..).after ⟨rfl⟩

theorem asgPromote_stays (s : State) : Stays s (asgPromote s) := by
  unfold asgPromote
  exact .ite (.rfl' _) ((asgShow_stays ..).after ⟨rfl⟩)

theorem asgLost_stays (s : State) (a : Auction) : Stays s (asgLost s a) := by
  unfold asgLost
  exact ((inc_stays ..).trans (complete_stays ..)).trans (raise_stays ..)

theorem asgAbandon_stays (s : State) : Stays s (asgAbandon s) := by
  unfold asgAbandon
  split
  · exact ((asgLost_stays ..).trans (setRun_stays ..)).trans (asgPromote_stays ..)
  · exact .rfl' _

theorem asgRefuse_stays (s : State) (h : Handle) : Stays s (asgRefuse s h) := by
  unfold asgRefuse
  exact ((inc_stays ..).trans (complete_stays ..)).trans (raise_stays ..)

theorem asgSubmit_stays (h : Handle) (warm preempt : Bool) (tag addr len rsv : Nat) (s : State) :
    Stays s (asgSubmit h warm preempt tag addr len rsv s) := by
  unfold asgSubmit
  extract_lets a s1 s2 s3 u
  have hs1 : Stays s s1 := accept_stays ..
  have hs2 : Stays s s2 := by
    unfold s2
    split
    · exact (hs1.trans (setPend_stays ..)).trans (complete_stays ..)
    · exact hs1
  have hs3 : Stays s s3 := by
    unfold s3
    split
    · exact hs2.trans (asgLost_stays ..)
    · exact hs2
  clear_value s1 s2 s3
  exact .ite (complete_stays ..) (.ite (asgRefuse_stays ..) (.ite (hs1.trans (setRun_stays ..)) (.ite
      (hs3.trans ⟨rfl⟩) (hs2.trans (setPend_stays ..)))))

theorem asgCancel_stays (all : Bool) (h : Handle) (rsv : Nat) (s : State) : Stays s (asgCancel all h rsv s) := by
  unfold asgCancel
  extract_lets s1 u
  have hs1 : Stays s s1 := complete_stays ..
  clear_value s1
  split
  · exact complete_stays ..
  · split
    · exact hs1.trans ⟨rfl⟩
    · split
      · exact (hs1.trans (setPend_stays ..)).trans (complete_stays ..)
      · exact hs1

theorem asgPut_stays (s : State) (h : Handle) (v : Option Auction) : Stays s (asgPut s h v) := by
  unfold asgPut
  exact .ite (setRun_stays ..) (.ite ⟨rfl⟩ (.ite (setPend_stays ..) (.rfl' _)))

theorem asgDrop_stays (h : Handle) (status : Nat) (s : State) : Stays s (asgDrop h status s) := by
  unfold asgDrop
  extract_lets s1
  have hs1 : Stays s s1 := asgPut_stays ..
  clear_value s1
  split
  · exact .rfl' _
  · exact (asgPromote_stays ..).after (.ite (hs1.trans (asgRefuse_stays ..)) (hs1.trans (complete_stays ..)))

theorem asgMirror_stays (h : Handle) (data : List Byte) (last : Bool) (s : State) :
    Stays s (asgMirror h data last s) := by
  unfold asgMirror
  split
  · exact .rfl' _
  · extract_lets b
    split
    · exact .rfl' _
    · split
      · split
        · exact asgPut_stays ..
        · exact .rfl' _
      · exact asgPut_stays ..

theorem asgWithdraw_stays (hs : List Handle) (s : State) : Stays s (asgWithdraw hs s) := by
  unfold asgWithdraw
  extract_lets s1 u
  have hs1 : Stays s s1 := by
    unfold s1
    split
    · exact .ite ((setPend_stays ..).trans (complete_stays ..)) (.rfl' _)
    · exact .rfl' _
  clear_value s1
  split
  · exact .ite ((complete_stays ..).after (hs1.trans ⟨rfl⟩)) hs1
  · exact hs1

theorem asgLostWaiting_stays (s : State) : Stays s (asgLostWaiting s) := by
  unfold asgLostWaiting
  extract_lets s1 u
  have hs1 : Stays s s1 := by
    unfold s1
    split
    · exact .ite ((setPend_stays ..).trans (asgLost_stays ..)) (.rfl' _)
    · exact .rfl' _
  clear_value s1
  split
  · exact .ite ((asgLost_stays ..).after (hs1.trans ⟨rfl⟩)) hs1
  · exact hs1

theorem asgTick_stays (s : State) : Stays s (asgTick s) := by
  unfold asgTick
  extract_lets s1 u u1 s2 s3 u2 s4 u3
  have hs1 : Stays s s1 := asgWithdraw_stays ..
  have hs2 : Stays s s2 := (asgLostWaiting_stays ..).after ((asgWithdraw_stays ..).after ⟨rfl⟩)
  have hs3 : Stays s s3 := by
    unfold s3
    split
    · exact .ite ((hs2.trans (asgLost_stays ..)).trans (setRun_stays ..)) hs2
    · exact hs2
  have hs4 : Stays s s4 := hs3.trans ⟨rfl⟩
  clear_value s1 s2 s3 s4
  split
  · exact .ite (.rfl' _) ((asgAbandon_stays ..).after (hs1.trans ⟨rfl⟩))
  · split
    · exact (setRun_stays ..).after (hs4.trans ⟨rfl⟩)
    · exact hs4.trans (asgPromote_stays ..)

theorem asgWatch_stays (s : State) : Stays s (asgWatch s) := ⟨rfl⟩

/-! ### Machine/Log.lean -/

theorem logSeqRegs_stays (s : State) (next : Nat) : Stays s (logSeqRegs s next) := ⟨rfl⟩

theorem logRead_stays (h : Handle) (module start addr len rsv : Nat) (peer : BufIn) (s : State) :
    Stays s (logRead h module start addr len rsv peer s) := by
  unfold logRead
  extract_lets src
  split
  · exact peerWait_stays ..
  · split
    · exact complete_stays ..
    · split
      · exact complete_stays ..
      · split
        · exact complete_stays ..
        · clear_value src
          split
          · exact complete_stays ..
          · split
            · extract_lets s1
              have hs1 : Stays s s1 := .ite (.rfl' _) (State.hostData_stays ..)
              clear_value s1
              exact hs1.trans (complete_stays ..)

/-! ### Machine/Hst.lean -/

theorem sqCancel_stays (i : Nat) (s : State) : Stays s (sqCancel i s) := by
  unfold sqCancel
  extract_lets hit u s1
  have hs1 : Stays s s1 := ⟨rfl⟩
  clear_value s1
  exact hs1.trans (foldl_stays _ (fun _ _ => (startAt_stays ..).trans (complete_stays ..)) _ _)

theorem complLost_stays (s : State) : Stays s (complLost s) := by
  unfold complLost
  extract_lets n u s1
  have hs1 : Stays s s1 := ⟨rfl⟩
  clear_value s1
  exact .ite (.rfl' _) ((hs1.trans (add_stays ..)).trans (raiseTick_stays ..))

theorem ringsOff_stays (s : State) : Stays s (ringsOff s) := by
  unfold ringsOff
  extract_lets s1 u s2 s3 s4
  have hs1 : Stays s s1 := .ite (.rfl' _) (complLost_stays ..)
  have hs2 : Stays s s2 := hs1.trans ⟨rfl⟩
  have hs3 : Stays s s3 := hs2.trans (iter_stays _ (fun _ _ => wb_stays ..) _ _)
  have hs4 : Stays s s4 := hs3.trans (iter_stays _ (fun _ _ => wb_stays ..) _ _)
  clear_value s1 s2 s3 s4
  exact .ite (hs4.trans (iter_stays _ (fun _ _ => wb_stays ..) _ _)) hs1

theorem ringsTick_stays (s : State) : Stays s (ringsTick s) := by
  unfold ringsTick
  extract_lets s1 fp u s2 zs u1 s3 s4 s5
  have hs1 : Stays s s1 := ringsOff_stays ..
  have hs2 : Stays s s2 := by
    unfold s2
    refine (foldl_stays _ (fun t a => ?_) _ _).after (hs1.trans ⟨rfl⟩)
    extract_lets had s6
    have hs6 : Stays t s6 := (wb_stays ..).trans (wb_stays ..)
    clear_value s6
    exact .ite hs6 (hs6.trans (raise_stays ..))
  have hs3 : Stays s s3 := by
    unfold s3
    refine (foldl_stays _ (fun t a => ?_) _ _).after (hs2.trans ⟨rfl⟩)
    split
    · exact ((w_stays ..).trans (w_stays ..)).trans (w_stays ..)
    · exact (w_stays ..).trans (w_stays ..)
    · exact (w_stays ..).trans (w_stays ..)
  have hs4 : Stays s s4 := by
    unfold s4
    refine (iter_stays _ (fun k t => ?_) _ _).after hs3
    extract_lets en s6
    have hs6 : Stays t s6 := .ite (sqCancel_stays ..) (.rfl' _)
    clear_value s6
    exact hs6.trans (wb_stays ..)
  have hs5 : Stays s s5 := by
    unfold s5
    refine (iter_stays _ (fun k t => ?_) _ _).after hs4
    exact ⟨rfl⟩
  clear_value s1 s2 s3 s4 s5
  refine (iter_stays _ (fun k t => ?_) _ _).after hs5
  extract_lets en u2 s6 u3
  have hs6 : Stays t s6 := ⟨rfl⟩
  clear_value s6
  exact .ite hs6 (hs6.trans ⟨rfl⟩)

/-! ### Machine/Prf.lean -/

theorem setPrfCh_stays (s : State) (c : Nat) (v : PrfCh) : Stays s (setPrfCh s c v) := ⟨rfl⟩

theorem setPrfSink_stays (s : State) (r : Nat) (v : PrfSink) : Stays s (setPrfSink s r v) := ⟨rfl⟩

theorem setPosSink_stays (s : State) (n : Nat) (v : PosSink) : Stays s (setPosSink s n v) := ⟨rfl⟩

theorem setSinkChans_stays (s : State) (kind k : Nat) (cs : List Nat) : Stays s (setSinkChans s kind k cs) := by
  unfold setSinkChans
  exact .ite (setPosSink_stays ..) (setPrfSink_stays ..)

theorem prfDirty_stays (s : State) (c : Nat) : Stays s (prfDirty s c) := by
  unfold prfDirty
  exact .ite (.rfl' _) ⟨rfl⟩

theorem prfNumber_stays (s : State) (kind k : Nat) : Stays s (prfNumber s kind k) := by
  unfold prfNumber
  extract_lets cs s1
  have hs1 : Stays s s1 := foldl_stays _ (fun _ _ => (setPrfCh_stays ..).trans (prfDirty_stays ..)) _ _
  clear_value s1
  exact hs1

theorem prfFree_stays (s : State) (c : Nat) : Stays s (prfFree s c) := by
  unfold prfFree
  extract_lets v s1
  have hs1 : Stays s s1 := setSinkChans_stays ..
  clear_value s1
  exact (hs1.trans (setPrfCh_stays ..)).trans (prfDirty_stays ..)

theorem prfRefuse_stays (s : State) (h : Handle) (status c : Nat) : Stays s (prfRefuse s h status c) := by
  unfold prfRefuse
  exact ((inc_stays ..).trans (complete_stays ..)).trans (raise_stays ..)

theorem prfBind_stays (h : Handle) (c kind k rsv : Nat) (s : State) : Stays s (prfBind h c kind k rsv s) := by
  unfold prfBind
  extract_lets s1
  have hs1 : Stays s s1 := setPrfCh_stays ..
  clear_value s1
  exact .ite (prfRefuse_stays ..) (((hs1.trans (setSinkChans_stays ..)).trans (prfNumber_stays ..)).trans
      (complete_stays ..))

theorem prfUnbind_stays (h : Handle) (c k rsv : Nat) (s : State) : Stays s (prfUnbind h c k rsv s) := by
  unfold prfUnbind
  exact .ite (prfRefuse_stays ..) ((complete_stays ..).after ⟨rfl⟩)

-- HO
theorem prfShow_stays (position : Nat → Int) (s : State) (c : Nat) : Stays s (prfShow position s c) := by
  unfold prfShow
  extract_lets v cs at_ active s1 s2 s3 p
  have hs1 : Stays s s1 := (((w_stays ..).trans (wb_stays ..)).trans (w_stays ..)).trans (w_stays ..)
  have hs2 : Stays s s2 := ((hs1.trans (w_stays ..)).trans (wb_stays ..)).trans (wb_stays ..)
  have hs3 : Stays s s3 := ((hs2.trans (wb_stays ..)).trans (wb_stays ..)).trans (wb_stays ..)
  clear_value s1 s2 s3
  split
  · extract_lets s4 s5 s6
    have hs4 : Stays s s4 := (((hs3.trans (wi_stays ..)).trans (wi_stays ..)).trans (w_stays ..)).trans (wi_stays ..)
    have hs5 : Stays s s5 := (((hs4.trans (w_stays ..)).trans (w_stays ..)).trans (w_stays ..)).trans (w_stays ..)
    have hs6 : Stays s s6 := (((hs5.trans (w_stays ..)).trans (w_stays ..)).trans (w_stays ..)).trans (w_stays ..)
    clear_value s4 s5 s6
    exact hs6.trans (wi_stays ..)

theorem prfLatch_stays (s : State) : Stays s (prfLatch s) := by
  unfold prfLatch
  extract_lets position bound dirty u s1
  have hs1 : Stays s s1 := by
    unfold s1
    refine (foldl_stays _ (fun t a => ?_) _ _).after ⟨rfl⟩
    exact prfShow_stays ..
  clear_value s1
  exact (hs1.trans (w_stays ..)).trans (w_stays ..)

theorem prfProfile_stays (act : Nat) (h : Handle) (c fields addr rsv : Nat) (buf : BufIn) (s : State) :
    Stays s (prfProfile act h c fields addr rsv buf s) := by
  unfold prfProfile
  exact .ite (complete_stays ..) (.ite (prfRefuse_stays ..) (((setPrfCh_stays ..).trans (prfDirty_stays ..)).trans
      (complete_stays ..)))

theorem prfHaltAll_stays (s : State) : Stays s (prfHaltAll s) := by
  unfold prfHaltAll
  extract_lets s1 s2
  have hs2 : Stays s s2 := (foldl_stays _ (fun _ _ => setPosSink_stays ..) _ _).after (foldl_stays _
      (fun _ _ => setPrfSink_stays ..) _ _)
  clear_value s1 s2
  exact hs2.trans (foldl_stays _ (fun _ _ => .ite (.rfl' _) (((setPrfCh_stays ..).trans (prfDirty_stays ..)).trans
      (raise_stays ..))) _ _)

theorem prfTick_stays (s : State) : Stays s (prfTick s) := by
  unfold prfTick
  extract_lets outs u s1 u1
  have hs1 : Stays s s1 := (foldl_stays _ (fun _ _ => .ite (.rfl' _) ((prfFree_stays ..).trans
      (prfNumber_stays ..))) _ _).after ⟨rfl⟩
  clear_value s1
  exact .ite (hs1.trans ⟨rfl⟩) (.ite ((prfLatch_stays ..).after ((prfHaltAll_stays ..).after (hs1.trans ⟨rfl⟩)))
      (hs1.trans (prfLatch_stays ..)))

/-! ### Machine/Pos.lean -/

theorem setPosCh_stays (s : State) (n : Nat) (v : PosCh) : Stays s (setPosCh s n v) := ⟨rfl⟩

theorem encAlign_stays (s : State) (n : Nat) : Stays s (encAlign s n) := ⟨rfl⟩

theorem encSync_stays (s : State) (n : Nat) : Stays s (encSync s n) := by
  unfold encSync
  extract_lets d u s1
  have hs1 : Stays s s1 := (wi_stays ..).trans (w_stays ..)
  clear_value s1
  exact hs1.trans (setPosCh_stays ..)

theorem posUnhome_stays (s : State) (n : Nat) : Stays s (posUnhome s n) := by
  unfold posUnhome
  exact .ite ((wb_stays ..).trans (raise_stays ..)) (.rfl' _)

theorem prfPosHalt_stays (s : State) (n : Nat) : Stays s (prfPosHalt s n) := by
  unfold prfPosHalt
  extract_lets k s1
  have hs1 : Stays s s1 := setPosSink_stays ..
  clear_value s1
  split
  · exact hs1
  · exact .ite (hs1.trans (setPrfCh_stays ..)) (((hs1.trans (setPrfCh_stays ..)).trans (prfDirty_stays ..)).trans
        (raise_stays ..))

theorem posStand_stays (s : State) (n : Nat) : Stays s (posStand s n) := by
  unfold posStand
  extract_lets s1 u
  have hs1 : Stays s s1 := (w_stays ..).trans (w_stays ..)
  clear_value s1
  exact hs1.trans (setPosCh_stays ..)

theorem posHalt_stays (s : State) (n reason : Nat) : Stays s (posHalt s n reason) := by
  unfold posHalt
  exact ((posStand_stays ..).trans (w_stays ..)).trans (prfPosHalt_stays ..)

theorem homeFault_stays (s : State) (n cause : Nat) : Stays s (homeFault s n cause) := by
  unfold homeFault
  extract_lets u s1 s2
  have hs1 : Stays s s1 := setPosCh_stays ..
  have hs2 : Stays s s2 := hs1.trans (posHalt_stays ..)
  clear_value s1 s2
  split
  · exact .rfl' _
  · exact (hs2.trans (complete_stays ..)).trans (raise_stays ..)

theorem setHoming_stays (s : State) (n : Nat) (g : Homing) : Stays s (setHoming s n g) := ⟨rfl⟩

theorem posDrive_stays (act : Nat) (h : Handle) (n flags : Nat) (position : Int) (rsv : Nat) (s : State) :
    Stays s (posDrive act h n flags position rsv s) := by
  unfold posDrive
  exact .ite (complete_stays ..) ((accept_stays ..).after ⟨rfl⟩)

theorem driveApply_stays (s : State) (c : DriveCmd) : Stays s (driveApply s c) := by
  unfold driveApply
  extract_lets n v s1 u s2 s3 s4 s5 s6
  have hs1 : Stays s s1 := ((w_stays ..).trans (w_stays ..)).trans (setPosCh_stays ..)
  have hs2 : Stays s s2 := ⟨rfl⟩
  have hs3 : Stays s s3 := wi_stays ..
  have hs4 : Stays s s4 := .ite (hs3.trans (wb_stays ..)) (hs3.trans (posUnhome_stays ..))
  have hs5 : Stays s s5 := ((w_stays ..).trans (wb_stays ..)).trans (w_stays ..)
  have hs6 : Stays s s6 := by
    unfold s6
    split
    · exact .ite (hs1.trans (homeFault_stays ..)) hs1
    · exact hs2.trans (setPosCh_stays ..)
    · exact hs4.trans (encAlign_stays ..)
    · exact encSync_stays ..
    · exact (hs5.trans (w_stays ..)).trans (setPosCh_stays ..)
  clear_value s1 s2 s3 s4 s5 s6
  exact hs6.trans (complete_stays ..)

theorem posHome_stays (h : Handle) (n flags fast slow : Nat) (offset : Int) (maxTravel rsv : Nat) (s : State) :
    Stays s (posHome h n flags fast slow offset maxTravel rsv s) := by
  unfold posHome
  exact .ite (complete_stays ..) (((wb_stays ..).trans (accept_stays ..)).trans (setHoming_stays ..))

theorem posMeasure_stays (mv : Nat) (celsius : Int) (ma : List Nat) (s : State) :
    Stays s (posMeasure mv celsius ma s) := by
  unfold posMeasure
  extract_lets s1 s2 u s3
  have hs1 : Stays s s1 := (w_stays ..).trans (wi_stays ..)
  have hs2 : Stays s s2 := .ite (hs1.trans (wb_stays ..)) hs1
  have hs3 : Stays s s3 := .ite (hs2.trans ⟨rfl⟩) hs2
  clear_value s1 s2 s3
  exact hs3.trans (iter_stays _ (fun _ _ => w_stays ..) _ _)

theorem posTick_stays (s : State) : Stays s (posTick s) := by
  unfold posTick
  extract_lets cmds s1 u s2 s3 s4 u1 s5
  have hs1 : Stays s s1 := iter_stays _ (fun _ _ => .ite (encAlign_stays ..) (.rfl' _)) _ _
  have hs2 : Stays s s2 := by
    unfold s2
    refine (foldl_stays _ (fun t a => ?_) _ _).after (hs1.trans ⟨rfl⟩)
    exact driveApply_stays ..
  have hs3 : Stays s s3 := hs2.trans (iter_stays _ (fun _ _ => iter_stays _ (fun _ _ => .ite (.rfl' _)
      (wset_stays ..)) _ _) _ _)
  have hs4 : Stays s s4 := by
    unfold s4
    split
    · refine (iter_stays _ (fun k t => ?_) _ _).after hs3
      exact .ite ((setPosCh_stays ..).trans (posStand_stays ..)) (.ite (homeFault_stays ..) (posStand_stays ..))
    · exact hs3
  have hs5 : Stays s s5 := hs4.trans ⟨rfl⟩
  clear_value s1 s2 s3 s4 s5
  exact hs5.trans (iter_stays _ (fun _ _ => setPosCh_stays ..) _ _)

theorem posAdopt_stays (s : State) (n : Nat) (p : PosShare) : Stays s (posAdopt s n p) := by
  unfold posAdopt
  extract_lets s1 s2 s3 u s4 u1
  have hs1 : Stays s s1 := (wi_stays ..).trans (w_stays ..)
  have hs2 : Stays s s2 := (hs1.trans (wb_stays ..)).trans (w_stays ..)
  have hs3 : Stays s s3 := (hs2.trans (w_stays ..)).trans (wb_stays ..)
  have hs4 : Stays s s4 := hs3.trans (setPosSink_stays ..)
  clear_value s1 s2 s3 s4
  exact hs4.trans (setPosCh_stays ..)

/-! ### Machine/Can.lean -/

theorem setCanBuf_stays (s : State) (c b : Nat) (v : CanBuf) : Stays s (setCanBuf s c b v) := ⟨rfl⟩

theorem isoShow_stays (s : State) (c addr : Nat) (claimed : Bool) : Stays s (isoShow s c addr claimed) := by
  unfold isoShow
  extract_lets was s1 s2
  have hs1 : Stays s s1 := (w_stays ..).trans (wb_stays ..)
  have hs2 : Stays s s2 := hs1.trans (reflect_stays ..)
  clear_value s1 s2
  exact .ite hs2 (hs2.trans (raise_stays ..))

theorem setTx_stays (s : State) (c b st : Nat) : Stays s (setTx s c b st) := by
  unfold setTx
  exact (w_stays ..).trans (wb_stays ..)

theorem canReoffer_stays (s : State) (c : Nat) : Stays s (canReoffer s c) := ⟨rfl⟩

theorem canIdleOffer_stays (s : State) (c : Nat) : Stays s (canIdleOffer s c) := by
  unfold canIdleOffer
  exact .ite (canReoffer_stays ..) (.rfl' _)

theorem canLoad_stays (s : State) (c : Nat) : Stays s (canLoad s c) := by
  unfold canLoad
  extract_lets s1
  have hs1 : Stays s s1 := by
    unfold s1
    refine iter_stays _ (fun k t => ?_) _ _
    split
    · split
      · rename_i _ _ u heu
        have hu : Stays t u := Stays.of_pair heu (cplTake_stays ..)
        extract_lets v s2 s3
        have hs2 : Stays t s2 := hu.trans (setCanCh_stays ..)
        have hs3 : Stays t s3 := hs2.trans (setCanBuf_stays ..)
        clear_value s2 s3
        exact ((hs3.trans (w_stays ..)).trans (w_stays ..)).trans (setTx_stays ..)
      · rename_i _ u heu
        have hu : Stays t u := Stays.of_pair heu (cplTake_stays ..)
        exact hu
    · exact .rfl' _
  clear_value s1
  exact .ite (.rfl' _) (hs1.trans (canIdleOffer_stays ..))

theorem cplForce_stays (s : State) (q : Nat) (data : List Byte) : Stays s (cplForce s q data) := by
  unfold cplForce
  exact ((cplSetQ_stays ..).trans (cplSetCells_stays ..)).trans (cplCommit_stays ..)

theorem canSend_stays (h : Handle) (c addr rsv : Nat) (buf : BufIn) (s : State) :
    Stays s (canSend h c addr rsv buf s) := by
  unfold canSend
  extract_lets len s1 v
  have hs1 : Stays s s1 := cplForce_stays ..
  clear_value s1
  exact .ite (complete_stays ..) (.ite (complete_stays ..) (((hs1.trans (setCanCh_stays ..)).trans
      (accept_stays ..)).trans (canLoad_stays ..)))

theorem setCounters_stays (s : State) (c tec rx : Nat) : Stays s (setCounters s c tec rx) := by
  unfold setCounters
  extract_lets u s1 s2
  have hs1 : Stays s s1 := setCanCh_stays ..
  have hs2 : Stays s s2 := (hs1.trans (w_stays ..)).trans (w_stays ..)
  clear_value s1 s2
  exact hs2.trans (wb_stays ..)

theorem canShow_stays (s : State) (c : Nat) : Stays s (canShow s c) := ⟨rfl⟩

theorem canOutcome_stays (s : State) (c : Nat) (h : Handle) (status detail : Nat) :
    Stays s (canOutcome s c h status detail) := by
  unfold canOutcome
  extract_lets v q p
  split
  · exact .rfl' _
  · extract_lets n s1 s2 u
    have hs1 : Stays s s1 := cplSetQ_stays ..
    have hs2 : Stays s s2 := (hs1.trans (w_stays ..)).trans (cplSetCells_stays ..)
    clear_value s1 s2
    exact (hs2.trans (setCanCh_stays ..)).trans (complete_stays ..)

theorem canHandNow_stays (s : State) (c : Nat) : Stays s (canHandNow s c) := by
  unfold canHandNow
  extract_lets v
  split
  · exact .rfl' _
  · exact (setCanCh_stays ..).trans (w_stays ..)

theorem canCtrl_stays (act : Nat) (h : Handle) (c rsv : Nat) (s : State) : Stays s (canCtrl act h c rsv s) := by
  unfold canCtrl
  exact .ite (complete_stays ..) ((setCanCh_stays ..).trans (accept_stays ..))

theorem txReturn_stays (s : State) (c b : Nat) : Stays s (txReturn s c b) := by
  unfold txReturn
  extract_lets v q p s1 s2 s3 u
  have hs1 : Stays s s1 := cplSetQ_stays ..
  have hs2 : Stays s s2 := (hs1.trans (w_stays ..)).trans (cplSetCells_stays ..)
  have hs3 : Stays s s3 := hs2.trans (setCanBuf_stays ..)
  clear_value s1 s2 s3
  split
  · exact .rfl' _
  · exact (hs3.trans (setCanCh_stays ..)).trans (setTx_stays ..)

theorem canHalt_stays (s : State) (c : Nat) : Stays s (canHalt s c) := by
  unfold canHalt
  extract_lets s1
  have hs1 : Stays s s1 := iter_stays _ (fun _ _ => .ite (.ite (txReturn_stays ..) ((w_stays ..).trans
      (setTx_stays ..))) (.rfl' _)) _ _
  clear_value s1
  exact hs1.trans (canReoffer_stays ..)

theorem canOff_stays (s : State) (c : Nat) : Stays s (canOff s c) := by
  unfold canOff
  extract_lets tail s1 u s2 s3 s4 u1
  have hs1 : Stays s s1 := canHalt_stays ..
  have hs2 : Stays s s2 := hs1.trans (setCanCh_stays ..)
  have hs3 : Stays s s3 := .ite (hs2.trans (isoShow_stays ..)) hs2
  have hs4 : Stays s s4 := (hs3.trans (w_stays ..)).trans (w_stays ..)
  clear_value s1 s2 s3 s4
  exact (hs4.trans (setCanCh_stays ..)).trans (setCounters_stays ..)

theorem canFlush_stays (s : State) (c : Nat) : Stays s (canFlush s c) := by
  unfold canFlush
  extract_lets s1 hs s2 u
  have hs1 : Stays s s1 := by
    unfold s1
    refine iter_stays _ (fun k t => ?_) _ _
    extract_lets v s3
    have hs3 : Stays t s3 := ((setCanBuf_stays ..).trans (w_stays ..)).trans (setTx_stays ..)
    clear_value s3
    split
    · split
      · exact (hs3.trans (complete_stays ..)).trans (reflect_stays ..)
      · exact hs3
    · exact .rfl' _
  have hs2 : Stays s s2 := hs1.trans (foldl_stays _ (fun _ _ => ((cplTake_stays ..).trans (complete_stays ..)).trans
      (reflect_stays ..)) _ _)
  clear_value s1 s2
  exact (hs2.trans (setCanCh_stays ..)).trans (canReoffer_stays ..)

theorem canAct_stays (c : Nat) (s : State) (p : Handle × Nat) : Stays s (canAct c s p) := by
  unfold canAct
  extract_lets v s1 s2
  have hs1 : Stays s s1 := setCanCh_stays ..
  have hs2 : Stays s s2 := by
    unfold s2
    split
    · exact setCanCh_stays ..
    · exact .ite (hs1.trans (w_stays ..)) hs1
    · exact .ite (w_stays ..) (.rfl' _)
    · exact .ite (setCanCh_stays ..) (.rfl' _)
    · exact canFlush_stays ..
  clear_value s1 s2
  exact hs2.trans (complete_stays ..)

theorem recovShow_stays (s : State) (c : Nat) : Stays s (recovShow s c) := by
  unfold recovShow
  split
  · split
    · rename_i _ _ u heu
      have hu : Stays s u := Stays.of_pair heu (fresh_stays ..)
      exact hu.trans (w_stays ..)
  · exact .rfl' _

theorem handTry_stays (s : State) (c : Nat) : Stays s (handTry s c) := by
  unfold handTry
  split
  · exact .rfl' _
  · split
    · rename_i _ _ u heu
      have hu : Stays s u := Stays.of_pair heu (fresh_stays ..)
      exact .ite (hu.trans (canHandNow_stays ..)) hu

theorem canChTick_stays (c : Nat) (s : State) : Stays s (canChTick c s) := by
  unfold canChTick
  extract_lets acts u s1 s2 on u1 s3
  have hs1 : Stays s s1 := by
    unfold s1
    refine (foldl_stays _ (fun t a => ?_) _ _).after (setCanCh_stays ..)
    exact canAct_stays ..
  have hs2 : Stays s s2 := hs1.trans (wb_stays ..)
  have hs3 : Stays s s3 := .ite (hs2.trans (canOff_stays ..)) (.ite ((hs2.trans (setCanCh_stays ..)).trans
      (w_stays ..)) (.ite (hs2.trans (canHalt_stays ..)) hs2))
  clear_value s1 s2 s3
  exact (((hs3.trans (handTry_stays ..)).trans (recovShow_stays ..)).trans (canLoad_stays ..)).trans (canShow_stays ..)

theorem canHandover_stays (s : State) (c : Nat) (keep : Bool) : Stays s (canHandover s c keep) := by
  unfold canHandover
  extract_lets u s1
  have hs1 : Stays s s1 := .ite (setCanCh_stays ..) (.rfl' _)
  clear_value s1
  exact .ite (hs1.trans (canHandNow_stays ..)) hs1

theorem ctrlOut_stays (s : State) (k : Nat) (fault readable : Bool) : Stays s (ctrlOut s k fault readable) := by
  unfold ctrlOut
  extract_lets u s1 free served was s2 s3 s4
  have hs1 : Stays s s1 := .ite (unitStandbyFault_stays ..) (unitOut_stays ..)
  have hs2 : Stays s s2 := hs1.trans (wset_stays ..)
  have hs3 : Stays s s3 := .ite (hs2.trans (w_stays ..)) hs2
  have hs4 : Stays s s4 := .ite (.ite (hs3.trans (raise_stays ..)) ((hs3.trans (w_stays ..)).trans (raise_stays ..)))
      (.ite (((hs3.trans (w_stays ..)).trans (canHandover_stays ..)).trans (raise_stays ..)) (hs3.trans
      (raise_stays ..)))
  clear_value s1 s2 s3 s4
  exact .ite (.rfl' _) (.ite hs1 (hs4.trans (completeAll_stays ..)))

theorem canTick_stays (s : State) : Stays s (canTick s) := by
  unfold canTick
  extract_lets outs u s1 s2 u1
  have hs1 : Stays s s1 := (foldl_stays _ (fun _ _ => ctrlOut_stays ..) _ _).after ⟨rfl⟩
  have hs2 : Stays s s2 := by
    unfold s2
    refine (iter_stays _ (fun k t => ?_) _ _).after hs1
    exact canChTick_stays ..
  clear_value s1 s2
  exact hs2.trans ⟨rfl⟩

theorem isoAdopt_stays (s : State) (c addr : Nat) (claimed : Bool) : Stays s (isoAdopt s c addr claimed) := by
  unfold isoAdopt
  exact (setCanCh_stays ..).trans (isoShow_stays ..)

/-! ### Machine/Glt.lean -/

theorem setGltStream_stays (s : State) (k : Nat) (v : GltStream) : Stays s (setGltStream s k v) := ⟨rfl⟩

theorem setGltState_stays (s : State) (v : Nat) : Stays s (setGltState s v) := by
  unfold setGltState
  exact w_stays ..

theorem gltFill_stays (s : State) : Stays s (gltFill s) := ⟨rfl⟩

theorem gltStart_stays (s : State) (k : Nat) : Stays s (gltStart s k) := by
  unfold gltStart
  extract_lets v was same old u s1 s2 s3 s4
  have hs1 : Stays s s1 := ⟨rfl⟩
  have hs2 : Stays s s2 := hs1.trans (setGltStream_stays ..)
  have hs3 : Stays s s3 := (hs2.trans (wb_stays ..)).trans (wb_stays ..)
  have hs4 : Stays s s4 := (hs3.trans (w_stays ..)).trans (w_stays ..)
  clear_value s1 s2 s3 s4
  exact .ite (hs4.trans (gltFill_stays ..)) hs4

theorem gltDecim_stays (k : Nat) (s : State) : Stays s (gltDecim k s) := by
  unfold gltDecim
  extract_lets v d up s1
  have hs1 : Stays s s1 := w_stays ..
  clear_value s1
  exact .ite (.rfl' _) (.ite (hs1.trans (raiseTick_stays ..)) hs1)

theorem gltStreamTick_stays (k : Nat) (s : State) : Stays s (gltStreamTick k s) := by
  unfold gltStreamTick
  extract_lets v bad s1 s2
  have hs1 : Stays s s1 := wb_stays ..
  have hs2 : Stays s s2 := .ite (.ite (.rfl' _) (.ite (hs1.trans (setGltStream_stays ..)) (hs1.trans
      (gltStart_stays ..)))) (wb_stays ..)
  clear_value s1 s2
  exact hs2.trans (gltDecim_stays ..)

theorem gltWatch_stays (s : State) : Stays s (gltWatch s) := by
  unfold gltWatch
  extract_lets calm u s1
  have hs1 : Stays s s1 := ⟨rfl⟩
  clear_value s1
  split
  · exact hs1
  · split
    · exact (hs1.trans (setGltStream_stays ..)).trans (gltDecim_stays ..)
    · exact hs1

theorem setMark_stays (s : State) (k i : Nat) (new : Bool) : Stays s (setMark s k i new) := by
  unfold setMark
  extract_lets u s1 s2
  have hs1 : Stays s s1 := setGltStream_stays ..
  have hs2 : Stays s s2 := ((hs1.trans (wb_stays ..)).trans (wb_stays ..)).trans (wb_stays ..)
  clear_value s1 s2
  exact hs2.trans (w_stays ..)

theorem gltComplete_stays (s : State) : Stays s (gltComplete s) := by
  unfold gltComplete
  extract_lets u
  split
  · exact .rfl' _
  · extract_lets inWin stepIn reduced fl
    exact (raise_stays ..).after ⟨rfl⟩

theorem gltTick_stays (s : State) : Stays s (gltTick s) := by
  unfold gltTick
  extract_lets arm stop u s1 st s2
  have hs1 : Stays s s1 := ⟨rfl⟩
  have hs2 : Stays s s2 := .ite ((setGltState_stays ..).after (.ite (hs1.trans (gltComplete_stays ..)) hs1)) (.ite
      (hs1.trans (gltFill_stays ..)) (.ite (hs1.trans (gltFill_stays ..)) hs1))
  clear_value s1 s2
  split
  · exact .rfl' _
  · refine (iter_stays _ (fun k t => ?_) _ _).after hs2
    exact gltStreamTick_stays ..

theorem gltGive_stays (s : State) (h : Handle) (addr : Nat) (parts : List (List Byte)) :
    Stays s (gltGive s h addr parts) := by
  unfold gltGive
  extract_lets s1
  have hs1 : Stays s s1 := .ite (.rfl' _) (State.hostData_stays ..)
  clear_value s1
  exact hs1.trans (complete_stays ..)

theorem gltGiveBlocks_stays (s : State) (h : Handle) (addr k : Nat) (bs : List GltBlock) :
    Stays s (gltGiveBlocks s h addr k bs) := by
  unfold gltGiveBlocks
  extract_lets s1
  have hs1 : Stays s s1 := .ite (raiseWatch_stays ..) (.rfl' _)
  clear_value s1
  exact hs1.trans (gltGive_stays ..)

theorem gltReadOwn_stays (kind : Nat) (h : Handle) (k flags start addr len : Nat) (s : State) :
    Stays s (gltReadOwn kind h k flags start addr len s) := by
  unfold gltReadOwn
  extract_lets v n room i i1 bs next s1
  have hs1 : Stays s s1 := .ite (setMark_stays ..) (.rfl' _)
  clear_value s1
  split
  · exact .ite (complete_stays ..) (gltGiveBlocks_stays ..)
  · split
    · exact .ite (complete_stays ..) (.ite (complete_stays ..) (hs1.trans (gltGiveBlocks_stays ..)))
    · split
      · split
        · exact complete_stays ..
        · exact .ite (complete_stays ..) (gltGiveBlocks_stays ..)
      · split
        · exact complete_stays ..
        · exact gltGive_stays ..

theorem gltRead_stays (kind : Nat) (h : Handle) (stream module flags start addr len rsv : Nat) (peer : BufIn)
    (s : State) : Stays s (gltRead kind h stream module flags start addr len rsv peer s) := by
  unfold gltRead
  split
  · exact peerWait_stays ..
  · split
    · exact complete_stays ..
    · split
      · exact complete_stays ..
      · split
        · split
          · split
            · exact .ite (gltGive_stays ..) (complete_stays ..)
            · exact gltGive_stays ..
          · exact complete_stays ..
        · exact gltReadOwn_stays ..

/-! ### Machine/Sec.lean -/

theorem setSecWin_stays (s : State) (old : Bool) (r : Nat) (w : SecWin) : Stays s (setSecWin s old r w) := by
  unfold setSecWin
  extract_lets u s1
  have hs1 : Stays s s1 := ⟨rfl⟩
  clear_value s1
  exact .ite ⟨rfl⟩ ((hs1.trans (w_stays ..)).trans (wb_stays ..))

theorem setTxSeq_stays (s : State) (r v : Nat) : Stays s (setTxSeq s r v) := ⟨rfl⟩

theorem secTiming_stays (s : State) (hb r : Nat) (e : Int) : Stays s (secTiming s hb r e) := by
  unfold secTiming
  extract_lets s1 u s2
  have hs1 : Stays s s1 := wi_stays ..
  have hs2 : Stays s s2 := .ite (hs1.trans ⟨rfl⟩) hs1
  clear_value s1 s2
  exact .ite (hs2.trans (raiseWatch_stays ..)) hs2

theorem adjSent_stays (s : State) (r : Nat) (a : Int) : Stays s (adjSent s r a) := ⟨rfl⟩

theorem txAdopt_stays (s : State) (r v : Nat) (adj : Option Int) : Stays s (txAdopt s r v adj) := by
  unfold txAdopt
  extract_lets s1
  have hs1 : Stays s s1 := setTxSeq_stays ..
  clear_value s1
  split
  · exact hs1.trans (adjSent_stays ..)
  · exact hs1

theorem heard_stays (s : State) (r : Nat) : Stays s (heard s r) := by
  unfold heard
  exact .ite (.rfl' _) ⟨rfl⟩

theorem secBack_stays (s : State) (r : Nat) : Stays s (secBack s r) := by
  unfold secBack
  exact .ite ⟨rfl⟩ (.rfl' _)

theorem secSequence_stays (s : State) (old : Bool) (r seq : Nat) : Stays s (secSequence s old r seq).2 := by
  unfold secSequence
  extract_lets w
  split
  · exact ((setSecWin_stays ..).trans (heard_stays ..)).trans (secBack_stays ..)
  · exact .ite_snd (((setSecWin_stays ..).trans (heard_stays ..)).trans (secBack_stays ..)) (.ite_snd (.ite_snd
        (((inc_stays ..).trans (inc_stays ..)).trans (heard_stays ..)) (((setSecWin_stays ..).trans
        (heard_stays ..)).trans (secBack_stays ..))) (((inc_stays ..).trans (inc_stays ..)).trans
        (raiseWatch_stays ..)))

theorem secReceive_stays (s : State) (f : UplinkRx) (slotOk : Bool) : Stays s (secReceive s f slotOk).2 := by
  unfold secReceive
  extract_lets expired s1
  have hs1 : Stays s s1 := inc_stays ..
  clear_value s1
  split
  · exact inc_stays ..
  · split
    · exact hs1.trans (raiseWatch_stays ..)
    · exact .ite_snd ((inc_stays ..).trans (raiseWatch_stays ..)) ((secTiming_stays ..).trans (secSequence_stays ..))

theorem setLost_stays (s : State) (r : Nat) (on : Bool) : Stays s (setLost s r on) := ⟨rfl⟩

theorem secWatch_stays (s : State) : Stays s (secWatch s) := by
  unfold secWatch
  exact .ite ⟨rfl⟩ ((iter_stays _ (fun _ _ => w_stays ..) _ _).after ⟨rfl⟩)

theorem showEpoch_stays (s : State) (e : Nat) : Stays s (showEpoch s e) := by
  unfold showEpoch
  exact (w_stays ..).trans (w_stays ..)

theorem secTick_stays (s : State) : Stays s (secTick s) := by
  unfold secTick
  extract_lets s1 u s2 left u1 s3
  have hs1 : Stays s s1 := iter_stays _ (fun _ _ => (w_stays ..).after (.ite (setLost_stays ..) (.rfl' _))) _ _
  have hs2 : Stays s s2 := .ite (foldl_stays _ (fun _ _ => (setLost_stays ..).trans (raise_stays ..)) _ _)
      (hs1.trans ⟨rfl⟩)
  have hs3 : Stays s s3 := hs2.trans ⟨rfl⟩
  clear_value s1 s2 s3
  exact hs3.trans (w_stays ..)

/-! ### Machine/Kvt.lean -/

theorem kvtShow_stays (s : State) : Stays s (kvtShow s) := by
  unfold kvtShow
  extract_lets a p s1
  have hs1 : Stays s s1 := ((wb_stays ..).trans (w_stays ..)).trans (w_stays ..)
  clear_value s1
  exact ((hs1.trans (wb_stays ..)).trans (w_stays ..)).trans (w_stays ..)

theorem kvtPend_stays (s : State) (k : Option (Nat × Nat × List Byte)) : Stays s (kvtPend s k) := by
  unfold kvtPend
  exact (kvtShow_stays ..).after ⟨rfl⟩

theorem kvtRefuse_stays (s : State) (h : Handle) (status detail : Nat) : Stays s (kvtRefuse s h status detail) := by
  unfold kvtRefuse
  exact (inc_stays ..).trans (complete_stays ..)

theorem kvtKeyLoad_stays (h : Handle) (bufAddr rsv : Nat) (buf : BufIn) (s : State) :
    Stays s (kvtKeyLoad h bufAddr rsv buf s) := by
  unfold kvtKeyLoad
  extract_lets b wrap gen s1 u
  have hs1 : Stays s s1 := kvtPend_stays ..
  clear_value s1
  split
  · exact complete_stays ..
  · split
    · exact kvtRefuse_stays ..
    · split
      · exact kvtRefuse_stays ..
      · split
        · exact kvtRefuse_stays ..
        · split
          · exact kvtRefuse_stays ..
          · split
            · exact kvtRefuse_stays ..
            · exact .ite (kvtRefuse_stays ..) (.ite (kvtRefuse_stays ..) ((accept_stays ..).after (hs1.trans ⟨rfl⟩)))

theorem kvtCommit_stays (h : Handle) (rsv : Nat) (s : State) : Stays s (kvtCommit h rsv s) := by
  unfold kvtCommit
  exact .ite (complete_stays ..) (.ite (complete_stays ..) ((accept_stays ..).after ((wb_stays ..).after ⟨rfl⟩)))

theorem kvtDiscard_stays (h : Handle) (rsv : Nat) (s : State) : Stays s (kvtDiscard h rsv s) := by
  unfold kvtDiscard
  exact .ite (complete_stays ..) (.ite (complete_stays ..) ((kvtPend_stays ..).trans (complete_stays ..)))

theorem kvtStoreMap_stays (s : State) : Stays s (kvtStoreMap s) := by
  unfold kvtStoreMap
  exact .ite ((wb_stays ..).after ⟨rfl⟩) (.rfl' _)

theorem kvtSealMap_stays (s : State) : Stays s (kvtSealMap s) := by
  unfold kvtSealMap
  extract_lets dflt m s1
  have hs1 : Stays s s1 := iter_stays _ (fun _ _ => (((w_stays ..).trans (w_stays ..)).trans (w_stays ..)).trans
      (w_stays ..)) _ _
  clear_value s1
  exact (hs1.trans (wb_stays ..)).trans (w_stays ..)

theorem kvtResolve_stays (c0 c1 : Nat) (s : State) : Stays s (kvtResolve c0 c1 s) := by
  unfold kvtResolve
  extract_lets k e had s1 s2
  have hs1 : Stays s s1 := ⟨rfl⟩
  have hs2 : Stays s s2 := ((hs1.trans (showEpoch_stays ..)).trans (kvtShow_stays ..)).trans (raise_stays ..)
  clear_value s1 s2
  split
  · extract_lets other s3 s4
    have hs3 : Stays s s3 := ⟨rfl⟩
    have hs4 : Stays s s4 := (hs3.trans (showEpoch_stays ..)).trans (kvtShow_stays ..)
    clear_value s3 s4
    exact .ite (((hs4.trans (inc_stays ..)).trans (raise_stays ..)).trans (logNow_stays ..)) hs4
  · exact .ite (((hs2.trans (inc_stays ..)).trans (raise_stays ..)).trans (logNow_stays ..)) hs2

theorem kvtDerive_stays (s : State) : Stays s (kvtDerive s) := ⟨rfl⟩

theorem keysBack_stays (s : State) : Stays s (keysBack s) := by
  unfold keysBack
  exact .ite (.rfl' _) ⟨rfl⟩

/-! ### Machine/Luv.lean -/

theorem setLuvHb_stays (s : State) (hb : Nat) (v : LuvHb) : Stays s (setLuvHb s hb v) := ⟨rfl⟩

theorem setLuvRover_stays (s : State) (r : Nat) (v : LuvRover) : Stays s (setLuvRover s r v) := ⟨rfl⟩

theorem luvSlotSet_stays (h : Handle) (r : Nat) (b : List Byte) (rsv : Nat) (s : State) :
    Stays s (luvSlotSet h r b rsv s) := by
  unfold luvSlotSet
  exact .ite (complete_stays ..) ((setLuvRover_stays ..).trans (complete_stays ..))

theorem slotEffect_stays (s : State) (r : Nat) (c : Option SlotCfg) : Stays s (slotEffect s r c) := by
  unfold slotEffect
  extract_lets v kept s1 s2 u
  have hs1 : Stays s s1 := setLuvRover_stays ..
  have hs2 : Stays s s2 := .ite (hs1.trans (w_stays ..)) hs1
  clear_value s1 s2
  exact (raise_stays ..).after (hs2.trans ⟨rfl⟩)

theorem slotBoundary_stays (s : State) (r : Nat) : Stays s (slotBoundary s r) := by
  unfold slotBoundary
  extract_lets v due rest v1 s1
  have hs1 : Stays s s1 := .ite (.rfl' _) (setLuvRover_stays ..)
  clear_value s1
  exact hs1.trans (foldl_stays _ (fun _ _ => slotEffect_stays ..) _ _)

theorem luvWatch_stays (s : State) : Stays s (luvWatch s) := by
  unfold luvWatch
  exact .ite (.rfl' _) (foldl_stays _ (fun _ _ => slotBoundary_stays ..) _ _)

theorem luvStore_stays (s : State) : Stays s (luvStore s) := by
  unfold luvStore
  exact .ite ⟨rfl⟩ (.rfl' _)

theorem luvLoad_stays (s : State) : Stays s (luvLoad s) := by
  unfold luvLoad
  exact foldl_stays _ (fun _ _ => setLuvRover_stays ..) _ _

theorem setRole_stays (s : State) (hb role cur : Nat) : Stays s (setRole s hb role cur) := by
  unfold setRole
  exact (w_stays ..).trans (w_stays ..)

theorem checkStart_stays (s : State) (hb : Nat) (mhz : Option Nat) : Stays s (checkStart s hb mhz) := by
  unfold checkStart
  extract_lets u
  split
  · exact (setLuvHb_stays ..).trans (setRole_stays ..)
  · exact (setLuvHb_stays ..).trans (setRole_stays ..)

theorem hbStart_stays (s : State) (hb : Nat) : Stays s (hbStart s hb) := by
  unfold hbStart
  extract_lets m u s1
  have hs1 : Stays s s1 := setLuvHb_stays ..
  clear_value s1
  exact .ite (.ite (hs1.trans (checkStart_stays ..)) (hs1.trans (setRole_stays ..))) (.ite (hs1.trans
      (setRole_stays ..)) (hs1.trans (setRole_stays ..)))

theorem hbOut_stays (s : State) (hb : Nat) (fault : Bool) : Stays s (hbOut s hb fault) := by
  unfold hbOut
  extract_lets u s1 u1 s2
  have hs1 : Stays s s1 := .ite (unitStandbyFault_stays ..) (unitOut_stays ..)
  have hs2 : Stays s s2 := (hs1.trans (w_stays ..)).trans (setLuvHb_stays ..)
  clear_value s1 s2
  exact .ite (.rfl' _) (.ite ((hs2.trans (raise_stays ..)).trans (completeAll_stays ..)) hs1)

theorem hbTick_stays (hb : Nat) (s : State) : Stays s (hbTick hb s) := by
  unfold hbTick
  extract_lets now v s1 s2
  have hs1 : Stays s s1 := .ite (.ite (hbStart_stays ..) (.rfl' _)) (.ite (hbStart_stays ..) (.ite
      (checkStart_stays ..) (.ite (hbStart_stays ..) (.ite ((w_stays ..).trans (setLuvHb_stays ..)) (.rfl' _)))))
  have hs2 : Stays s s2 := hs1.trans (w_stays ..)
  clear_value s1 s2
  exact .ite ((hs2.trans (inc_stays ..)).trans (raiseWatch_stays ..)) hs2

theorem luvPrep_stays (s : State) : Stays s (luvPrep s) := by
  unfold luvPrep
  extract_lets u s1 outs u1 s2
  have hs1 : Stays s s1 := ⟨rfl⟩
  have hs2 : Stays s s2 := (foldl_stays _ (fun _ _ => hbOut_stays ..) _ _).after (hs1.trans ⟨rfl⟩)
  clear_value s1 s2
  exact .ite (hs1.trans (iter_stays _ (fun _ _ => (setRole_stays ..).trans (setLuvHb_stays ..)) _ _)) ((hs2.trans
      (hbTick_stays ..)).trans (hbTick_stays ..))

theorem luvTick_stays (s : State) : Stays s (luvTick s) := by
  unfold luvTick
  extract_lets u s1 key s2
  have hs1 : Stays s s1 := ⟨rfl⟩
  have hs2 : Stays s s2 := hs1.trans (iter_stays _ (fun _ _ => .ite (setPlan_stays ..) (.rfl' _)) _ _)
  clear_value s1 s2
  exact .ite (.ite (hs2.trans (secSent_stays ..)) hs2) hs1

theorem luvEnd_stays (s : State) : Stays s (luvEnd s) := by
  unfold luvEnd
  exact (luvFlush_stays ..).trans (luvFlush_stays ..)

theorem setPart_stays (s : State) (r : Nat) (p : Option UpPart) : Stays s (setPart s r p) := ⟨rfl⟩

theorem partDrop_stays (s : State) (r : Nat) : Stays s (partDrop s r) := by
  unfold partDrop
  split
  · exact (setPart_stays ..).after (.ite (cplAbandon_stays ..) (.rfl' _))
  · exact .rfl' _

theorem partCommit_stays (s : State) (r est : Nat) (data : List Byte) : Stays s (partCommit s r est data) := by
  unfold partCommit
  extract_lets v d s1
  have hs1 : Stays s s1 := cplSetQ_stays ..
  clear_value s1
  exact (hs1.trans (cplSetCells_stays ..)).trans (cplCommit_stays ..)

theorem fragmentIn_stays (s : State) (f : UplinkRx) (u : Nat) : Stays s (fragmentIn s f u) := by
  unfold fragmentIn
  extract_lets r cnt s1 mcs est s2 s3
  have hs1 : Stays s s1 := .ite (partDrop_stays ..) (.rfl' _)
  have hs2 : Stays s s2 := by
    unfold s2
    split
    · exact hs1
    · split
      · rename_i _ _ u1 heu1
        have hu1 : Stays s u1 := Stays.of_pair heu1 (hs1.trans (cplBegin_stays ..))
        exact hu1.trans (setPart_stays ..)
  have hs3 : Stays s s3 := hs2.trans (setPart_stays ..)
  clear_value s1 s2 s3
  split
  · exact hs2
  · exact .ite (.ite ((hs3.trans (partCommit_stays ..)).trans (fixUpload_stays ..)) hs3) (hs2.trans (setPart_stays ..))

theorem rstatIn_stays (s : State) (f : UplinkRx) (tick : Nat) : Stays s (rstatIn s f tick) := by
  unfold rstatIn
  extract_lets r s1 was s2
  have hs1 : Stays s s1 := (wb_stays ..).trans (w_stays ..)
  have hs2 : Stays s s2 := hs1.trans (wb_stays ..)
  clear_value s1 s2
  exact .ite (hs2.trans (raise_stays ..)) hs2

theorem uplinkTaken_stays (s : State) (f : UplinkRx) (verdict tick : Nat) : Stays s (uplinkTaken s f verdict tick) := by
  unfold uplinkTaken
  extract_lets u s1
  have hs1 : Stays s s1 := ⟨rfl⟩
  clear_value s1
  exact .ite (.rfl' _) (.ite hs1 (((hs1.trans (rstatIn_stays ..)).trans (fixFragment_stays ..)).trans
      (fragmentIn_stays ..)))

theorem uplinkReflected_stays (s : State) (f : UplinkRx) : Stays s (uplinkReflected s f) := by
  unfold uplinkReflected
  split
  · rename_i _ _ u heu
    have hu : Stays s u := Stays.of_pair heu (secReceive_stays ..)
    exact hu.trans (uplinkTaken_stays ..)

theorem partsTick_stays (s : State) : Stays s (partsTick s) := by
  unfold partsTick
  split
  · exact .ite (.rfl' _) (foldl_stays _ (fun _ _ => partDrop_stays ..) _ _)
  · exact foldl_stays _ (fun _ _ => partDrop_stays ..) _ _

/-! ### Machine/Svc.lean -/

theorem rowRetire_stays (s : State) (row : Nat) (fault : Bool) : Stays s (rowRetire s row fault) := by
  unfold rowRetire
  exact .ite (.rfl' _) (.ite ((wb_stays ..).trans (raise_stays ..)) (((w_stays ..).trans (unitOut_stays ..)).trans
      (raise_stays ..)))

theorem rowBack_stays (s : State) (row : Nat) : Stays s (rowBack s row) := by
  unfold rowBack
  extract_lets u s1 s2
  have hs1 : Stays s s1 := unitInService_stays ..
  have hs2 : Stays s s2 := (hs1.trans (w_stays ..)).trans (wb_stays ..)
  clear_value s1 s2
  exact .ite (hs2.trans (completeAll_stays ..)) (.rfl' _)

theorem pathOut_stays (s : State) (p : Nat) (fault : Bool) : Stays s (pathOut s p fault) := by
  unfold pathOut
  extract_lets u s1 s2
  have hs1 : Stays s s1 := unitOut_stays ..
  have hs2 : Stays s s2 := .ite ((hs1.trans (w_stays ..)).trans (setUnit_stays ..)) hs1
  clear_value s1 s2
  exact .ite (.rfl' _) (((hs2.trans (wb_stays ..)).trans (raise_stays ..)).trans (completeAll_stays ..))

theorem pathBack_stays (s : State) (p : Nat) : Stays s (pathBack s p) := by
  unfold pathBack
  exact .ite (((unitJoin_stays ..).trans (wb_stays ..)).trans (raise_stays ..)) (.rfl' _)

theorem pathRestore_stays (s : State) : Stays s (pathRestore s) := by
  unfold pathRestore
  extract_lets hs u s1
  have hs1 : Stays s s1 := ⟨rfl⟩
  clear_value s1
  exact .ite (.rfl' _) (.ite (hs1.trans (completeAll_stays ..)) ((((hs1.trans (w_stays ..)).trans
      (setUnit_stays ..)).trans (raise_stays ..)).trans (completeAll_stays ..)))

theorem pathUnion_stays (s : State) (ls : List (Option Nat)) : Stays s (pathUnion s ls) := by
  unfold pathUnion
  split
  · exact .rfl' _
  · refine Stays.trans ?_ (raise_stays ..)
    refine foldl_stays _ (fun t a => ?_) _ _
    split
    · exact (wb_stays ..).trans (outsRelease_stays ..)
    · exact wbit_stays ..

theorem svcUnit_stays {act : State → State} (hact : ∀ t, Stays t (act t)) (h : Handle) (c i module rsv : Nat)
    (bad : State → Bool) (s : State) : Stays s (svcUnit h c i module rsv bad act s) := by
  unfold svcUnit
  exact .ite (complete_stays ..) (.ite (peerWait_stays ..) (.ite (complete_stays ..)
    ((hact _).after (accept_stays ..))))

theorem svcOut_stays (h : Handle) (c i : Nat) (s : State) : Stays s (svcOut h c i s) := by
  unfold svcOut
  extract_lets u s1 u1 u2 u3 u4 u5
  have hs1 : Stays s s1 := setUnit_stays ..
  clear_value s1
  split
  · exact hs1.trans ⟨rfl⟩
  · exact hs1.trans ⟨rfl⟩
  · exact hs1.trans ⟨rfl⟩
  · exact hs1.trans ⟨rfl⟩
  · exact hs1.trans ⟨rfl⟩

theorem svcReturn_stays (h : Handle) (c i : Nat) (s : State) : Stays s (svcReturn h c i s) := ⟨rfl⟩

theorem svcRestore_stays (h : Handle) (s : State) : Stays s (svcRestore h s) := ⟨rfl⟩

theorem svcOutNow_stays (s : State) (o : Nat × Nat × Bool) : Stays s (svcOutNow s o) := by
  unfold svcOutNow
  extract_lets u s1 u1
  have hs1 : Stays s s1 := .ite (rowRetire_stays ..) ((ethOut_stays ..).trans (ethBmca_stays ..))
  clear_value s1
  exact .ite (pathOut_stays ..) (.ite hs1 ((hs1.trans (setUnit_stays ..)).trans (completeAll_stays ..)))

theorem svcTick_stays (s : State) : Stays s (svcTick s) := by
  unfold svcTick
  extract_lets u s1 os u1
  have hs1 : Stays s s1 := .ite ⟨rfl⟩ (.rfl' _)
  clear_value s1
  refine (foldl_stays _ (fun t a => ?_) _ _).after (hs1.trans ⟨rfl⟩)
  exact svcOutNow_stays ..

theorem svcWatch_stays (s : State) : Stays s (svcWatch s) := by
  unfold svcWatch
  extract_lets s1 rows s2 u
  have hs1 : Stays s s1 := ((pathBack_stays ..).trans (pathBack_stays ..)).trans (pathRestore_stays ..)
  have hs2 : Stays s s2 := by
    unfold s2
    refine (foldl_stays _ (fun t a => ?_) _ _).after hs1
    exact rowBack_stays ..
  clear_value s1 s2
  exact hs2.trans ⟨rfl⟩

theorem svcUnitOut_stays (h : Handle) (cls index module rsv : Nat) (s : State) :
    Stays s (svcUnitOut h cls index module rsv s) :=
  svcUnit_stays (svcOut_stays h cls index) ..

theorem svcUnitReturn_stays (h : Handle) (cls index module rsv : Nat) (s : State) :
    Stays s (svcUnitReturn h cls index module rsv s) :=
  svcUnit_stays (svcReturn_stays h cls index) ..

theorem svcUnitRestore_stays (h : Handle) (cls index module rsv : Nat) (s : State) :
    Stays s (svcUnitRestore h cls index module rsv s) :=
  svcUnit_stays (svcRestore_stays h) ..

/-! ### Machine/Twn.lean -/

theorem unfollow_stays (s : State) : Stays s (unfollow s) := by
  unfold unfollow
  extract_lets st u s1 u1 s2 s3
  have hs1 : Stays s s1 := ⟨rfl⟩
  have hs2 : Stays s s2 := (w_stays ..).after (hs1.trans ⟨rfl⟩)
  have hs3 : Stays s s3 := (((hs2.trans (ttuLossNow_stays ..)).trans (ttuSetState_stays ..)).trans
      (ttuDiscReset_stays ..)).trans (raise_stays ..)
  clear_value s1 s2 s3
  split
  · exact .rfl' _
  · split
    · exact hs2
    · split
      · exact (hs3.trans (raise_stays ..)).trans (ttuOffsetRule_stays ..)
      · exact hs3

theorem pairEvent_stays (s : State) (st : Nat) : Stays s (pairEvent s st) := by
  unfold pairEvent
  split
  · exact raise_stays ..
  · exact raise_stays ..
  · exact raise_stays ..
  · exact raise_stays ..
  · exact .rfl' _

theorem acksClear_stays (s : State) : Stays s (acksClear s) := ⟨rfl⟩

theorem syncLost_stays (s : State) : Stays s (syncLost s) := by
  unfold syncLost
  extract_lets cmds stay u s1 u1
  have hs1 : Stays s s1 := (acksClear_stays ..).after ⟨rfl⟩
  clear_value s1
  exact .ite hs1 ((foldl_stays _ (fun _ _ => complete_stays ..) _ _).after (hs1.trans ⟨rfl⟩))

theorem modeWork_stays (s : State) : Stays s (modeWork s) := by
  unfold modeWork
  exact ((((chtTick_stays ..).trans (asgTick_stays ..)).trans (prfTick_stays ..)).trans (posTick_stays ..)).trans
      (canTick_stays ..)

theorem resyncStep_stays (s : State) : Stays s (resyncStep s) := by
  unfold resyncStep
  split
  · rename_i _ _ u heu
    have hu : Stays s u := Stays.of_pair heu (fresh_stays ..)
    exact hu.trans (w_stays ..)

theorem statusSend_stays (s : State) : Stays s (statusSend s) := by
  unfold statusSend
  extract_lets u u1
  have hu : Stays s u := emit_stays ..
  clear_value u
  exact .ite (.rfl' _) (hu.trans ⟨rfl⟩)

theorem twnTick_stays (s : State) : Stays s (twnTick s) := by
  unfold twnTick
  extract_lets t count s1 s2 s3
  have hs1 : Stays s s1 := ⟨rfl⟩
  have hs2 : Stays s s2 := .ite (hs1.trans (wb_stays ..)) hs1
  have hs3 : Stays s s3 := .ite (hs2.trans (resyncStep_stays ..)) hs2
  clear_value s1 s2 s3
  exact hs3.trans (statusSend_stays ..)

/-! ### Machine/Boot.lean -/

theorem cfgLoad_stays (c : List (Nat × Nat)) (s : State) : Stays s (cfgLoad c s) := ⟨rfl⟩

theorem imageLoad_stays (h : Handle) (bufLen : Nat) (b : List Byte) (s : State) : Stays s (imageLoad h bufLen b s) := by
  unfold imageLoad
  extract_lets n u s1
  have hs1 : Stays s s1 := ⟨rfl⟩
  clear_value s1
  exact .ite (complete_stays ..) (.ite (complete_stays ..) (.ite ((raise_stays ..).trans (complete_stays ..))
      (((hs1.trans (w_stays ..)).trans (w_stays ..)).trans (accept_stays ..))))

theorem bootImageLoad_stays (h : Handle) (module bufAddr bufLen rsv : Nat) (buf : BufIn) (s : State) :
    Stays s (bootImageLoad h module bufAddr bufLen rsv buf s) := by
  unfold bootImageLoad
  exact .ite (.ite (peerWait_stays ..) (.ite (complete_stays ..) (.ite (complete_stays ..) (imageLoad_stays ..))))
      (.ite (complete_stays ..) (.ite (complete_stays ..) (.ite (.ite (peerWait_stays ..) (complete_stays ..)) (.ite
      (complete_stays ..) (imageLoad_stays ..)))))

theorem leaveMaint_stays (h : Handle) (s : State) : Stays s (leaveMaint h s) := by
  unfold leaveMaint
  exact .ite ((complete_stays ..).after ⟨rfl⟩) (complete_stays ..)

theorem activate_stays (h : Handle) (s : State) : Stays s (activate h s) := by
  unfold activate
  exact .ite (complete_stays ..) (.ite (complete_stays ..) (.ite (complete_stays ..) ((accept_stays ..).after ⟨rfl⟩)))

theorem saveConfig_stays (h : Handle) (s : State) : Stays s (saveConfig h s) := by
  unfold saveConfig
  exact .ite ((accept_stays ..).after ⟨rfl⟩) (complete_stays ..)

theorem controlReset_stays (h : Handle) (s : State) : Stays s (controlReset h s) := by
  unfold controlReset
  exact .ite ((complete_stays ..).after ⟨rfl⟩) (complete_stays ..)

theorem logScan_stays (bad : List Nat) (s : State) : Stays s (logScan bad s) := by
  unfold logScan
  extract_lets n keep u s1 last s2
  have hs1 : Stays s s1 := ⟨rfl⟩
  have hs2 : Stays s s2 := hs1.trans (add_stays ..)
  clear_value s1 s2
  exact .ite hs2 (hs2.trans (logSeqRegs_stays ..))

theorem bootSeal_stays (b : BootIn) (s : State) : Stays s (bootSeal b s) := by
  unfold bootSeal
  extract_lets s1 s2 s3 s4
  have hs1 : Stays s s1 := kvtResolve_stays ..
  have hs2 : Stays s s2 := by
    unfold s2
    split
    · split
      · exact hs1.trans (cfgLoad_stays ..)
      · exact hs1.trans (wb_stays ..)
    · exact hs1.trans (wb_stays ..)
  have hs3 : Stays s s3 := (((hs2.trans (logScan_stays ..)).trans (obsPowerUp_stays ..)).trans
      (ephLoad_stays ..)).trans (luvLoad_stays ..)
  have hs4 : Stays s s4 := (hs3.trans (wb_stays ..)).trans (wb_stays ..)
  clear_value s1 s2 s3 s4
  split
  · exact hs4
  · split
    · rename_i _ _ u heu
      have hu : Stays s u := Stays.of_pair heu (hs4.trans (fresh_stays ..))
      extract_lets s5 s6 s7 u1
      have hs5 : Stays s s5 := (hu.trans (kvtSealMap_stays ..)).trans (kvtDerive_stays ..)
      have hs6 : Stays s s6 := ((hs5.trans (w_stays ..)).trans (wb_stays ..)).trans (w_stays ..)
      have hs7 : Stays s s7 := (hs6.trans (wb_stays ..)).trans (w_stays ..)
      clear_value s5 s6 s7
      exact hs7.trans ⟨rfl⟩

/-! ### Machine/Ring.lean -/

theorem runSvcUnit_stays (b : List Byte) (h : Handle) (s : State) : Stays s (runSvcUnit b h s) := by
  unfold runSvcUnit
  extract_lets rsv c m i
  split
  · exact svcUnitOut_stays ..
  · exact svcUnitReturn_stays ..
  · exact svcUnitRestore_stays ..
  · exact complete_stays ..

theorem runFixChart_stays (op : Nat) (b : List Byte) (buf : BufIn) (h : Handle) (s : State) :
    Stays s (runFixChart op b buf h s) := by
  unfold runFixChart
  exact .ite (ttuStep_stays ..) (.ite (ttuPulseSet_stays ..) (.ite (obsSetPos_stays ..) (.ite (fixRoverSet_stays ..)
      (.ite (chtReserve_stays ..) (.ite (chtRelease_stays ..) (chtStaging_stays ..))))))

theorem lifeTick_stays (s : State) : Stays s (lifeTick s) := by
  unfold lifeTick
  extract_lets out gone u
  exact (foldl_stays _ (fun _ _ => (startAt_stays ..).trans (complete_stays ..)) _ _).after ⟨rfl⟩

/-! ### Machine/Mirror.lean -/

theorem mismatch_stays (s : State) : Stays s (mismatch s) := by
  unfold mismatch
  exact (inc_stays ..).trans (raiseWatch_stays ..)

theorem basePosAdopt_stays (p : BasePos) (s : State) : Stays s (basePosAdopt p s) := by
  unfold basePosAdopt
  extract_lets s1 s2 s3 u
  have hs1 : Stays s s1 := (w_stays ..).trans (w_stays ..)
  have hs2 : Stays s s2 := (hs1.trans (w_stays ..)).trans (w_stays ..)
  have hs3 : Stays s s3 := (hs2.trans (posShow_stays ..)).trans (wb_stays ..)
  clear_value s1 s2 s3
  exact hs3.trans ⟨rfl⟩

theorem latchAdopt_stays (rover : Option Nat) (src : Nat) (s : State) : Stays s (latchAdopt rover src s) := by
  unfold latchAdopt
  exact .ite (cancelResumes_stays ..) (requestStopAt_stays ..)

theorem resumeAdopt_stays (h : Handle) (rover : Option Nat) (s : State) : Stays s (resumeAdopt h rover s) := by
  unfold resumeAdopt
  extract_lets u u1 s1 u2
  have hs1 : Stays s s1 := (startAt_stays ..).after ⟨rfl⟩
  clear_value s1
  exact .ite ⟨rfl⟩ (.ite (hs1.trans ⟨rfl⟩) (.rfl' _))

theorem ringAdopt_stays (q acc limit : Nat) (s : State) : Stays s (ringAdopt q acc limit s) := ⟨rfl⟩

theorem complAdopt_stays (j pos : Nat) (h : Handle) (s : State) : Stays s (complAdopt j pos h s) := by
  unfold complAdopt
  extract_lets s1 u u1 u2
  have hs1 : Stays s s1 := (w_stays ..).trans (doubtDone_stays ..)
  clear_value s1
  exact .ite (hs1.trans ⟨rfl⟩) (.ite ((forget_stays ..).after (hs1.trans ⟨rfl⟩)) (.ite ((forget_stays ..).after
      (hs1.trans ⟨rfl⟩)) (.ite (hs1.trans ⟨rfl⟩) hs1)))

theorem solutionAdopt_stays (r : Nat) (data : List Byte) (f : FixFilt) (s : State) :
    Stays s (solutionAdopt r data f s) := by
  unfold solutionAdopt
  split
  · rename_i _ u heu
    have hu : Stays s u := Stays.of_pair heu (fixAdopt_stays ..)
    exact (mismatch_stays ..).after (hu.trans ⟨rfl⟩)
  · rename_i _ u heu
    have hu : Stays s u := Stays.of_pair heu (fixAdopt_stays ..)
    exact hu

theorem owedTake_stays (s : State) : Stays s (owedTake s) := by
  unfold owedTake
  exact (foldl_stays _ (fun _ _ => setFilt_stays ..) _ _).after ⟨rfl⟩

theorem stepsMirror_stays (s : State) : Stays s (stepsMirror s) := by
  unfold stepsMirror
  extract_lets go
  have hgo : ∀ t i, Stays t (go t i) := by
    intro t i
    unfold go
    split
    · exact (ttuAcceptStep_stays ..).trans ⟨rfl⟩
    · exact .rfl' t
  exact .ite (foldl_stays _ (fun _ _ => foldl_stays _ (fun _ _ => hgo ..) _ _) _ _) (.rfl' s)

/-! ### Machine/Tick.lean -/

theorem tickEnd_stays (s : State) : Stays s (tickEnd s) := by
  unfold tickEnd
  exact (burstsEnd_stays ..).trans (luvEnd_stays ..)

theorem fleetTick_stays (w : TickIn) (s : State) : Stays s (fleetTick w s) := by
  unfold fleetTick
  extract_lets s1 s2
  have hs1 : Stays s s1 := (((chtTick_stays ..).trans (fixTick_stays ..)).trans (asgTick_stays ..)).trans
      (prfTick_stays ..)
  have hs2 : Stays s s2 := (posTick_stays ..).after (.ite hs1 (hs1.trans (posMeasure_stays ..)))
  clear_value s1 s2
  exact hs2.trans (canTick_stays ..)

theorem deadTick_stays (s : State) : Stays s (deadTick s) := by
  unfold deadTick
  exact (((asgTick_stays ..).trans (prfTick_stays ..)).trans (posTick_stays ..)).trans (canTick_stays ..)

theorem watchUnits_stays (w : WatchIn) (s : State) : Stays s (watchUnits w s) := by
  unfold watchUnits
  extract_lets s1 s2
  have hs1 : Stays s s1 := (((((unitsWatch_stays ..).trans (ethWatch_stays ..)).trans (sxtWatch_stays ..)).trans
      (obsWatch_stays ..)).trans (fixWatch_stays ..)).trans (asgWatch_stays ..)
  have hs2 : Stays s s2 := ((hs1.trans (secWatch_stays ..)).trans (luvStore_stays ..)).trans (luvWatch_stays ..)
  clear_value s1 s2
  exact (hs2.trans (gltWatch_stays ..)).trans (svcWatch_stays ..)

end Sys2Proof.Machine

/-! PROOF. What a change of mode, a handover and the reflected commands keep: the clock. -/

namespace Sys2Proof.Machine

open Sys2Proof

/-- From s to t the tick number and the hold in reset stay: what a change of mode and a reflected command leave alone too. -/
structure KeepsClock (s t : State) : Prop where
  clock_eq : (t.tick, t.held) = (s.tick, s.held)

theorem KeepsClock.tick {s t : State} (h : KeepsClock s t) : t.tick = s.tick := congrArg Prod.fst h.clock_eq
theorem KeepsClock.held {s t : State} (h : KeepsClock s t) : t.held = s.held := congrArg Prod.snd h.clock_eq

theorem Stays.keepsClock {s t : State} (h : Stays s t) : KeepsClock s t := ⟨by rw [h.tick, h.held]⟩

theorem KeepsClock.rfl' (s : State) : KeepsClock s s := ⟨rfl⟩

theorem KeepsClock.trans {s t u : State} (h : KeepsClock s t) (k : KeepsClock t u) : KeepsClock s u := ⟨k.clock_eq.trans h.clock_eq⟩

theorem KeepsClock.after {s t u : State} (k : KeepsClock t u) (h : KeepsClock s t) : KeepsClock s u := h.trans k

theorem KeepsClock.ite {c : Prop} [Decidable c] {s a b : State} (h : KeepsClock s a) (k : KeepsClock s b) :
    KeepsClock s (if c then a else b) := by
  split
  · exact h
  · exact k

theorem KeepsClock.of_pair {α : Type} {s u : State} {p : α × State} {a : α} (hp : p = (a, u)) (h : KeepsClock s p.2) :
    KeepsClock s u := by
  rw [hp] at h
  exact h

theorem iter_keepsClock (f : Nat → State → State) (h : ∀ k s, KeepsClock s (f k s)) (n : Nat) (s : State) :
    KeepsClock s (iter f n s) := by
  induction n with
  | zero => exact .rfl' s
  | succ n ih => exact ih.trans (h n _)

theorem foldl_keepsClock {α : Type} (f : State → α → State) (h : ∀ s a, KeepsClock s (f s a)) (l : List α) (s : State) :
    KeepsClock s (l.foldl f s) := by
  induction l generalizing s with
  | nil => exact .rfl' s
  | cons a l ih => exact (h s a).trans (ih _)

/-! ### Machine/Ops.lean -/

theorem ringOp_keepsClock {body : State → State} (hbody : ∀ t, KeepsClock t (body t)) (modes : List Mode) (h : Handle)
    (d : List Byte × BufIn) (s : State) : KeepsClock s (ringOp modes h d body s) := by
  unfold ringOp
  exact .ite (.rfl' s) (.ite (.ite (hbody s) (.rfl' s)) (.ite
    ((hbody _).after ((atInst_stays ..).trans (reflect_stays ..)).keepsClock) (complete_stays ..).keepsClock))

theorem enterMode_keepsClock (s : State) (m : Mode) : KeepsClock s (enterMode s m) := by
  unfold enterMode
  extract_lets s1 u s2 s3 s4 s5
  have hs1 : KeepsClock s s1 := ((sxtRun_stays ..).keepsClock).after (((w_stays ..).keepsClock).after ⟨rfl⟩)
  have hs2 : KeepsClock s s2 := hs1.trans ⟨rfl⟩
  have hs3 : KeepsClock s s3 := hs2.trans ((wb_stays ..).keepsClock)
  have hs4 : KeepsClock s s4 := hs3.trans ((w_stays ..).keepsClock)
  have hs5 : KeepsClock s s5 := .ite (hs4.trans ((svnRaise_stays ..).keepsClock)) hs4
  clear_value s1 s2 s3 s4 s5
  exact .ite (.rfl' _) (.ite hs5 (hs5.trans ((raise_stays ..).keepsClock)))

theorem enterDead_keepsClock (s : State) (cause source : Nat) : KeepsClock s (enterDead s cause source) := by
  unfold enterDead
  extract_lets s1 data s2 u s3 s4 s5 s6 s7 u1 u2 u3 u4
  have hs1 : KeepsClock s s1 := (ethDown_stays ..).keepsClock
  have hs2 : KeepsClock s s2 := hs1.trans ((logNow_stays ..).keepsClock)
  have hs3 : KeepsClock s s3 := hs2.trans ⟨rfl⟩
  have hs4 : KeepsClock s s4 := hs3.trans ((w_stays ..).keepsClock)
  have hs5 : KeepsClock s s5 := hs4.trans ((deadFrame_stays ..).keepsClock)
  have hs6 : KeepsClock s s6 := (hs5.trans (enterMode_keepsClock ..)).trans ((bridgesDark_stays ..).keepsClock)
  have hs7 : KeepsClock s s7 := hs6.trans ((wb_stays ..).keepsClock)
  clear_value s1 s2 s3 s4 s5 s6 s7
  exact .ite (.rfl' _) (hs7.trans ⟨rfl⟩)

theorem fixedFault_keepsClock (s : State) (e : Nat) : KeepsClock s (fixedFault s e) := by
  unfold fixedFault
  exact ((((((overrun_stays ..)).trans (note_stays ..))).trans (raise_stays ..)).keepsClock).trans
      (enterDead_keepsClock ..)

theorem slotEnd_keepsClock (s : State) (e : Nat) (u : SlotUse) : KeepsClock s (slotEnd s e u) := by
  unfold slotEnd
  extract_lets s1
  have hs1 : KeepsClock s s1 := (slotUsed_stays ..).keepsClock
  clear_value s1
  exact .ite (.ite (hs1.trans (fixedFault_keepsClock ..)) (hs1.trans ((overrun_stays ..).keepsClock))) hs1

/-! ### Machine/Stp.lean -/

theorem resumeEffect_keepsClock (s : State) (p : ResumePend) : KeepsClock s (resumeEffect s p) := by
  unfold resumeEffect
  extract_lets s1 s2
  have hs1 : KeepsClock s s1 := (wb_stays ..).keepsClock
  have hs2 : KeepsClock s s2 := .ite (hs1.trans (enterMode_keepsClock ..)) hs1
  clear_value s1 s2
  split
  · exact (hs2.trans ((stpRaise_stays ..).keepsClock)).trans ((complete_stays ..).keepsClock)
  · exact (((((((wbit_stays ..)).trans (setTgtWin_stays ..))).trans (stpRaise_stays ..))).trans
        (complete_stays ..)).keepsClock

theorem resumesTick_keepsClock (s : State) : KeepsClock s (resumesTick s) := by
  unfold resumesTick
  extract_lets due u s1
  have hs1 : KeepsClock s s1 := ⟨rfl⟩
  clear_value s1
  split
  · exact .rfl' _
  · refine (foldl_keepsClock _ (fun t a => ?_) _ _).after hs1
    exact resumeEffect_keepsClock ..

theorem haltEntry_keepsClock (s : State) : KeepsClock s (haltEntry s) := by
  unfold haltEntry
  exact .ite (enterMode_keepsClock ..) (.rfl' _)

theorem stpTick_keepsClock (s : State) : KeepsClock s (stpTick s) := by
  unfold stpTick
  extract_lets s1 s2 u s3
  have hs1 : KeepsClock s s1 := (((lanternTick_stays ..).keepsClock).trans (resumesTick_keepsClock ..)).trans
      (haltEntry_keepsClock ..)
  have hs2 : KeepsClock s s2 := (hs1.trans ((stpBursts_stays ..).keepsClock)).trans ((windowsTick_stays ..).keepsClock)
  have hs3 : KeepsClock s s3 := hs2.trans ⟨rfl⟩
  clear_value s1 s2 s3
  exact (hs3.trans ((w_stays ..).keepsClock)).trans ((outsBoundary_stays ..).keepsClock)

/-! ### Machine/Kvt.lean -/

theorem kvtTick_keepsClock (s : State) : KeepsClock s (kvtTick s) := by
  unfold kvtTick
  extract_lets u s1 u1
  have hs1 : KeepsClock s s1 := (((kvtStoreMap_stays ..)).trans (keysBack_stays ..)).keepsClock
  clear_value s1
  exact .ite ((enterDead_keepsClock ..).after ⟨rfl⟩) (.ite (enterDead_keepsClock ..) (.ite (hs1.trans ⟨rfl⟩) hs1))

/-! ### Machine/Twn.lean -/

theorem handoverVoid_keepsClock (s : State) : KeepsClock s (handoverVoid s) := by
  unfold handoverVoid
  exact (foldl_keepsClock _ (fun _ _ => (complete_stays ..).keepsClock) _ _).after ⟨rfl⟩

theorem pairSet_keepsClock (st : Nat) (s : State) : KeepsClock s (pairSet st s) := by
  unfold pairSet
  extract_lets wasSolo wasSync s1 s2 s3
  have hs1 : KeepsClock s s1 := (((w_stays ..)).trans (pairEvent_stays ..)).keepsClock
  have hs2 : KeepsClock s s2 := .ite (hs1.trans ((syncLost_stays ..).keepsClock)) hs1
  have hs3 : KeepsClock s s3 := .ite (hs2.trans ((raise_stays ..).keepsClock)) hs2
  clear_value s1 s2 s3
  exact .ite (.rfl' _) (.ite (((hs3.trans ((unfollow_stays ..).keepsClock)).trans ((wb_stays ..).keepsClock)).trans
      (handoverVoid_keepsClock ..)) hs3)

theorem handoverAgree_keepsClock (x : Handover) (s : State) : KeepsClock s (handoverAgree x s) := by
  unfold handoverAgree
  exact .ite (((accept_stays ..).keepsClock).after ⟨rfl⟩) (((accept_stays ..).keepsClock).after ⟨rfl⟩)

theorem roleSet_keepsClock (role : Nat) (h : Handle) (rsv : Nat) (s : State) : KeepsClock s (roleSet role h rsv s) := by
  unfold roleSet
  exact .ite ((complete_stays ..).keepsClock) (handoverAgree_keepsClock ..)

theorem maintEntry_keepsClock (s : State) : KeepsClock s (maintEntry s) := by
  unfold maintEntry
  extract_lets s1 w u s2 u1 u2 s3 s4 s5 s6 s7 s8 s9
  have hs1 : KeepsClock s s1 := (resumesCancel_stays ..).keepsClock
  have hs2 : KeepsClock s s2 := (foldl_keepsClock _ (fun _ _ => (((startAt_stays ..)).trans
      (complete_stays ..)).keepsClock) _ _).after (hs1.trans ⟨rfl⟩)
  have hs3 : KeepsClock s s3 := hs2.trans ⟨rfl⟩
  have hs4 : KeepsClock s s4 := (hs3.trans ((acksClear_stays ..).keepsClock)).trans (enterMode_keepsClock ..)
  have hs5 : KeepsClock s s5 := (hs4.trans ((chtDiscard_stays ..).keepsClock)).trans ((unfollow_stays ..).keepsClock)
  have hs6 : KeepsClock s s6 := by
    unfold s6
    refine (iter_keepsClock _ (fun k t => ?_) _ _).after hs5
    exact .ite (.rfl' _) ((setFixRover_stays ..).keepsClock)
  have hs7 : KeepsClock s s7 := .ite (hs6.trans (pairSet_keepsClock ..)) hs6
  have hs8 : KeepsClock s s8 := hs7.trans (foldl_keepsClock _ (fun _ _ => (setTgtWin_stays ..).keepsClock) _ _)
  have hs9 : KeepsClock s s9 := hs8.trans (iter_keepsClock _ (fun _ _ => (w_stays ..).keepsClock) _ _)
  clear_value s1 s2 s3 s4 s5 s6 s7 s8 s9
  exact hs9.trans ((modeWork_stays ..).keepsClock)

/-! ### Machine/Boot.lean -/

theorem bootControl_keepsClock {body : State → State} (hbody : ∀ t, KeepsClock t (body t)) (h : Handle)
    (module rsv : Nat)
    (lost : Nat × Nat) (s : State) : KeepsClock s (bootControl h module rsv lost body s) := by
  unfold bootControl
  have hc : ∀ st d, KeepsClock s (complete s h st d) := fun st d => (complete_stays s h st d).keepsClock
  have hp : ∀ st d, KeepsClock s (peerWait s h st d) := fun st d => (peerWait_stays s h st d).keepsClock
  exact .ite (hc ..) (.ite (hp ..) (.ite (hc ..) (.ite (.ite (hp ..) (hc ..)) (hbody s))))

theorem maintHandover_keepsClock (h : Handle) (s : State) : KeepsClock s (maintHandover h s) := by
  unfold maintHandover
  exact handoverAgree_keepsClock ..

theorem enterMaint_keepsClock (h : Handle) (s : State) : KeepsClock s (enterMaint h s) := by
  unfold enterMaint
  split
  · exact (complete_stays ..).keepsClock
  · exact ((complete_stays ..).keepsClock).after ⟨rfl⟩
  · exact .ite (maintHandover_keepsClock ..) ((complete_stays ..).keepsClock)
  · exact .ite (maintHandover_keepsClock ..) (((complete_stays ..).keepsClock).after ⟨rfl⟩)
  · exact .rfl' _
  · exact .rfl' _

theorem bootEnterMaint_keepsClock (h : Handle) (module rsv : Nat) (s : State) :
    KeepsClock s (bootEnterMaint h module rsv s) := by
  unfold bootEnterMaint
  have hc : ∀ st d, KeepsClock s (complete s h st d) := fun st d => (complete_stays s h st d).keepsClock
  exact .ite (.ite (hc ..) (.ite (hc ..) (maintHandover_keepsClock ..))) (bootControl_keepsClock
      (enterMaint_keepsClock h) ..)

theorem chooseRole_keepsClock (s : State) : KeepsClock s (chooseRole s) := by
  unfold chooseRole
  exact .ite (.ite (.rfl' _) (((enterMode_keepsClock ..).trans ((requestStopAt_stays ..).keepsClock)).trans
      ((modeWork_stays ..).keepsClock))) ⟨rfl⟩

theorem bootTick_keepsClock (s : State) : KeepsClock s (bootTick s) := by
  unfold bootTick
  extract_lets u s1 u1 s2 s3 s4 u2
  have hs1 : KeepsClock s s1 := .ite ⟨rfl⟩ (.rfl' _)
  have hs2 : KeepsClock s s2 := hs1.trans ⟨rfl⟩
  have hs3 : KeepsClock s s3 := .ite (.ite (hs2.trans (chooseRole_keepsClock ..)) hs2) hs1
  have hs4 : KeepsClock s s4 := by
    unfold s4
    split
    · split
      · rename_i _ _ u3 heu3
        have hu3 : KeepsClock s u3 := KeepsClock.of_pair heu3 (hs3.trans ((fresh_stays ..).keepsClock))
        exact hu3.trans ((w_stays ..).keepsClock)
    · exact hs3
  clear_value s1 s2 s3 s4
  split
  · exact hs4
  · exact .ite (((complete_stays ..).keepsClock).after (hs4.trans ⟨rfl⟩)) (((sxtRun_stays ..).keepsClock).after
        (((wb_stays ..).keepsClock).after (hs4.trans ⟨rfl⟩)))
  · exact .ite (hs4.trans (enterDead_keepsClock ..)) (hs4.trans ⟨rfl⟩)

/-! ### Machine/Ring.lean -/

theorem runBootControl_keepsClock (b : List Byte) (h : Handle) (s : State) : KeepsClock s (runBootControl b h s) := by
  unfold runBootControl
  split
  · exact bootEnterMaint_keepsClock ..
  · exact bootControl_keepsClock (fun t => (leaveMaint_stays h t).keepsClock) ..
  · exact bootControl_keepsClock (fun t => (activate_stays h t).keepsClock) ..
  · exact bootControl_keepsClock (fun t => (saveConfig_stays h t).keepsClock) ..
  · exact bootControl_keepsClock (fun t => (controlReset_stays h t).keepsClock) ..
  · exact (complete_stays ..).keepsClock

theorem runFleet_keepsClock (op : Nat) (b : List Byte) (buf : BufIn) (h : Handle) (s : State) :
    KeepsClock s (runFleet op b buf h s) := by
  unfold runFleet
  exact .ite ((asgSubmit_stays ..).keepsClock) (.ite ((asgCancel_stays ..).keepsClock) (.ite (.ite
      ((prfUnbind_stays ..).keepsClock) ((prfBind_stays ..).keepsClock)) (.ite ((prfProfile_stays ..).keepsClock)
      (.ite ((posDrive_stays ..).keepsClock) (.ite ((posHome_stays ..).keepsClock) (.ite
      ((stpStop_stays ..).keepsClock) (.ite ((stpResume_stays ..).keepsClock) (.ite
      ((luvSlotSet_stays ..).keepsClock) (roleSet_keepsClock ..)))))))))

theorem runService_keepsClock (op : Nat) (b : List Byte) (buf : BufIn) (h : Handle) (s : State) :
    KeepsClock s (runService op b buf h s) := by
  unfold runService
  exact .ite ((complete_stays ..).keepsClock) (.ite (.ite ((cplQueueDelete_stays ..).keepsClock)
      ((cplQueueSet_stays ..).keepsClock)) (.ite ((cplRead_stays ..).keepsClock) (.ite
      ((bootImageLoad_stays ..).keepsClock) (.ite (runBootControl_keepsClock ..) (.ite
      ((logRead_stays ..).keepsClock) (.ite ((kvtKeyLoad_stays ..).keepsClock) (.ite (.ite
      ((kvtDiscard_stays ..).keepsClock) ((kvtCommit_stays ..).keepsClock)) (.ite (.ite
      ((complete_stays ..).keepsClock) ((gltRead_stays ..).keepsClock)) (.ite ((runSvcUnit_stays ..).keepsClock)
      (.ite ((canSend_stays ..).keepsClock) (.ite ((complete_stays ..).keepsClock)
      ((canCtrl_stays ..).keepsClock))))))))))))

theorem descRun_keepsClock (b : List Byte) (buf : BufIn) (h : Handle) (s : State) :
    KeepsClock s (descRun b buf h s) := by
  unfold descRun
  extract_lets op body
  have hbody : ∀ t, KeepsClock t (body t) := by
    intro t
    unfold body
    split
    · exact (runFixChart_stays ..).keepsClock
    · split
      · exact runFleet_keepsClock ..
      · exact runService_keepsClock ..
  split
  · exact ringOp_keepsClock hbody ..
  · exact (complete_stays ..).keepsClock

/-! ### Machine/Mirror.lean -/

theorem descReflected_keepsClock (h : Handle) (bytes : List Byte) (buf : BufIn) (s : State) :
    KeepsClock s (descReflected h bytes buf s) := by
  unfold descReflected
  extract_lets was u s1 s2 u1
  have hs1 : KeepsClock s s1 := ⟨rfl⟩
  have hs2 : KeepsClock s s2 := hs1.trans (descRun_keepsClock ..)
  clear_value s1 s2
  exact hs2.trans ⟨rfl⟩

theorem itemApply_keepsClock (i : ReflItem) (s : State) : KeepsClock s (itemApply i s) := by
  unfold itemApply
  split
  · exact (chtApply_stays ..).keepsClock
  · exact (chtMirror_stays ..).keepsClock
  · exact (latchAdopt_stays ..).keepsClock
  · exact (resumeAdopt_stays ..).keepsClock
  · exact descReflected_keepsClock ..
  · exact (asgMirror_stays ..).keepsClock
  · exact (asgDrop_stays ..).keepsClock
  · exact .rfl' _
  · exact (ringAdopt_stays ..).keepsClock
  · exact (complAdopt_stays ..).keepsClock
  · exact (uplinkReflected_stays ..).keepsClock
  · exact (txAdopt_stays ..).keepsClock
  · exact (setGroupSeq_stays ..).keepsClock
  · exact (obsLeadTake_stays ..).keepsClock
  · exact (basePosAdopt_stays ..).keepsClock
  · exact (originFromLead_stays ..).keepsClock
  · exact (solutionAdopt_stays ..).keepsClock
  · exact (posAdopt_stays ..).keepsClock
  · exact (canOutcome_stays ..).keepsClock
  · exact (cplPut_stays ..).keepsClock
  · exact (isoAdopt_stays ..).keepsClock

theorem resumesMirror_keepsClock (n : Nat) (s : State) : KeepsClock s (resumesMirror n s) := by
  unfold resumesMirror
  extract_lets due u s1
  have hs1 : KeepsClock s s1 := ⟨rfl⟩
  clear_value s1
  refine (foldl_keepsClock _ (fun t a => ?_) _ _).after hs1
  exact resumeEffect_keepsClock ..

theorem entryApply_keepsClock (e : ReflEntry) (s : State) : KeepsClock s (entryApply e s) := by
  unfold entryApply
  exact (itemApply_keepsClock ..).after ⟨rfl⟩

theorem streamApply_keepsClock (x : Nat × List ReflEntry × Nat) (s : State) : KeepsClock s (streamApply x s) := by
  unfold streamApply
  extract_lets u s1 s2 s3 u1 s4
  have hs1 : KeepsClock s s1 := ⟨rfl⟩
  have hs2 : KeepsClock s s2 := hs1.trans (foldl_keepsClock _ (fun _ _ => entryApply_keepsClock ..) _ _)
  have hs3 : KeepsClock s s3 := hs2.trans (resumesMirror_keepsClock ..)
  have hs4 : KeepsClock s s4 := hs3.trans ⟨rfl⟩
  clear_value s1 s2 s3 s4
  exact .ite (hs4.trans ((mismatch_stays ..).keepsClock)) hs4

theorem streamsApply_keepsClock (s : State) : KeepsClock s (streamsApply s) := by
  unfold streamsApply
  extract_lets xs u s1 s2 s3 u1
  have hs1 : KeepsClock s s1 := ⟨rfl⟩
  have hs2 : KeepsClock s s2 := .ite (hs1.trans ((owedTake_stays ..).keepsClock)) hs1
  have hs3 : KeepsClock s s3 := .ite (hs2.trans (foldl_keepsClock _ (fun _ _ => streamApply_keepsClock ..) _ _)) hs2
  clear_value s1 s2 s3
  exact hs3.trans ⟨rfl⟩

/-! ### Machine/Tick.lean -/

theorem modeDue_keepsClock (s : State) : KeepsClock s (modeDue s) := by
  unfold modeDue
  split
  · exact (maintEntry_keepsClock ..).after ⟨rfl⟩
  · exact ⟨rfl⟩

theorem pausedTick_keepsClock (s : State) : KeepsClock s (pausedTick s) := by
  unfold pausedTick
  exact ((bootTick_keepsClock ..).trans (kvtTick_keepsClock ..)).trans (stpTick_keepsClock ..)

theorem controlTick_keepsClock (s : State) : KeepsClock s (controlTick s) := by
  unfold controlTick
  exact (((((bootTick_keepsClock ..).trans (modeDue_keepsClock ..)).trans (streamsApply_keepsClock ..)).trans
      ((twnTick_stays ..).keepsClock)).trans ((ringsTick_stays ..).keepsClock)).trans ((cplTick_stays ..).keepsClock)

theorem radioTick_keepsClock (w : TickIn) (s : State) : KeepsClock s (radioTick w s) := by
  unfold radioTick
  extract_lets s1 s2
  have hs1 : KeepsClock s s1 := (((luvPrep_stays ..).keepsClock).trans (stpTick_keepsClock ..)).trans
      ((secTick_stays ..).keepsClock)
  have hs2 : KeepsClock s s2 := .ite hs1 (hs1.trans ((ethTick_stays ..).keepsClock))
  clear_value s1 s2
  exact (hs2.trans ((sxtTick_stays ..).keepsClock)).trans ((obsRun_stays ..).keepsClock)

theorem serviceTick_keepsClock (w : TickIn) (s : State) : KeepsClock s (serviceTick w s) := by
  unfold serviceTick
  extract_lets s1 s2
  have hs1 : KeepsClock s s1 := (((gltTick_stays ..).keepsClock).trans (kvtTick_keepsClock ..)).trans
      ((svcTick_stays ..).keepsClock)
  have hs2 : KeepsClock s s2 := .ite hs1 (hs1.trans ((pathUnion_stays ..).keepsClock))
  clear_value s1 s2
  exact (hs2.trans ((partsTick_stays ..).keepsClock)).trans ((lifeTick_stays ..).keepsClock)

end Sys2Proof.Machine

/-! PROOF. Power-up, the end of BOOT, and the tick and watch boundaries. -/

namespace Sys2Proof.Machine

open Sys2Proof

/-! ### The strobe (R35, R36) -/

/-- What the strobe moves: the tick number and the time bases. -/
theorem ttuTick_strobes (s : State) : (ttuTick s).mode = s.mode ∧ (ttuTick s).tick = s.tick + 1
    ∧ (ttuTick s).ttu.tb1 = s.ttu.tb1 + s.ttu.adv ∧ (ttuTick s).ttu.tb3 = s.ttu.tb3 + s.ttu.len := by
  unfold ttuTick
  extract_lets c ended pos num stretch extra lastLen wasDisc old u u1 u2 u3 u4 u5 u6 u7
  have hu : u.mode = s.mode ∧ u.tick = s.tick + 1 ∧ u.ttu.tb1 = s.ttu.tb1 + s.ttu.adv ∧ u.ttu.tb3 = s.ttu.tb3 + s.ttu.len :=
    ⟨rfl, rfl, rfl, rfl⟩
  obtain ⟨hmode, htick, htb1, htb3⟩ := hu
  clear_value u
  have h5 : Stays u u5 := ⟨rfl⟩
  clear_value u5
  have h7 : Stays u (ttuDrain u7) :=
    ((Stays.ite (h5.trans (pulseMarkTb0_stays _)) h5).trans (w_stays ..)).trans (ttuDrain_stays u7)
  exact ⟨h7.mode.trans hmode, h7.tick.trans htick, h7.tb1.trans htb1, h7.tb3.trans htb3⟩

theorem tickStrobe_stays (s : State) : Stays (ttuTick (stepsMirror s)) (tickStrobe s) := by
  unfold tickStrobe
  generalize ttuTick (stepsMirror s) = u
  exact ⟨rfl⟩

theorem tickStrobe_mode (s : State) : (tickStrobe s).mode = s.mode :=
  (tickStrobe_stays s).mode.trans ((ttuTick_strobes (stepsMirror s)).1.trans (stepsMirror_stays s).mode)

theorem tickStrobe_tick (s : State) : (tickStrobe s).tick = s.tick + 1 := by
  rw [(tickStrobe_stays s).tick, (ttuTick_strobes (stepsMirror s)).2.1, (stepsMirror_stays s).tick]

/-- No step of the lead is mirrored in DEAD: the time bases run on (R496). -/
theorem tickStrobe_dead (s : State) (h : s.mode = .dead) :
    (tickStrobe s).ttu.tb1 = s.ttu.tb1 + s.ttu.adv ∧ (tickStrobe s).ttu.tb3 = s.ttu.tb3 + s.ttu.len := by
  have hm : stepsMirror s = s := if_neg (by rw [h]; decide)
  have hs := tickStrobe_stays s
  rw [hm] at hs
  obtain ⟨_, _, htb1, htb3⟩ := ttuTick_strobes s
  exact ⟨hs.tb1.trans htb1, hs.tb3.trans htb3⟩

/-! ### The tick boundary -/

/-- The state in which the work of a boundary begins: the old tick has ended, and the strobe has advanced the tick. -/
def tickBegun (s : State) : State := (tickStrobe (if s.mode == .dead then s else tickEnd s)).atInst (some 0)

theorem tickBegun_mode (s : State) : (tickBegun s).mode = s.mode := by
  have he : Stays s (if s.mode == .dead then s else tickEnd s) := .ite (.rfl' s) (tickEnd_stays s)
  unfold tickBegun
  rw [State.atInst_mode, tickStrobe_mode, he.mode]

theorem tickBegun_tick (s : State) : (tickBegun s).tick = s.tick + 1 := by
  have he : Stays s (if s.mode == .dead then s else tickEnd s) := .ite (.rfl' s) (tickEnd_stays s)
  unfold tickBegun
  rw [State.atInst_tick, tickStrobe_tick, he.tick]

theorem tickBegun_dead (s : State) (h : s.mode = .dead) :
    (tickBegun s).ttu.tb1 = s.ttu.tb1 + s.ttu.adv ∧ (tickBegun s).ttu.tb3 = s.ttu.tb3 + s.ttu.len := by
  unfold tickBegun
  rw [if_pos (by rw [h]; rfl), State.atInst_ttu]
  exact tickStrobe_dead s h

/-- What the units do at a boundary, once TTU has ended its slot. -/
def tickUnits (w : TickIn) (s : State) : State :=
  if s.mode == .dead then deadTick s
  else if s.paused then pausedTick s
  else
    let s := controlTick s
    if s.mode == .dead then s
    else if s.paused then stpTick (kvtTick s)
    else
      let s := serviceTick w (fleetTick w (radioTick w s))
      if s.mode == .dead then s else luvTick s

theorem tickUnits_keepsClock (w : TickIn) (s : State) : KeepsClock s (tickUnits w s) := by
  unfold tickUnits
  extract_lets s1 s2
  have h1 : KeepsClock s s1 := controlTick_keepsClock s
  have h2 : KeepsClock s s2 := ((h1.trans (radioTick_keepsClock ..)).trans (fleetTick_stays ..).keepsClock).trans
    (serviceTick_keepsClock ..)
  clear_value s1 s2
  exact .ite (deadTick_stays s).keepsClock (.ite (pausedTick_keepsClock s) (.ite h1
    (.ite ((h1.trans (kvtTick_keepsClock s1)).trans (stpTick_keepsClock _)) (.ite h2 (h2.trans (luvTick_stays s2).keepsClock)))))

theorem tickUnits_dead (w : TickIn) (s : State) (h : s.mode = .dead) : tickUnits w s = deadTick s := by
  unfold tickUnits
  rw [if_pos (by rw [h]; rfl)]

theorem tickBoundary_units (w : TickIn) (s : State) (h : s.bt.reset = false) : tickBoundary w s = tickUnits w
    (if (tickBegun s).mode == .dead then slotUsed (tickBegun s) 0 w.ttuUse.held else slotEnd (tickBegun s) 0 w.ttuUse) :=
  if_neg (by rw [h]; decide)

theorem tickBoundary_tick (w : TickIn) (s : State) (h : s.bt.reset = false) : (tickBoundary w s).tick = s.tick + 1 := by
  have hb := tickBegun_tick s
  rw [tickBoundary_units w s h]
  generalize tickBegun s = u at hb
  have hu : KeepsClock u (if u.mode == .dead then slotUsed u 0 w.ttuUse.held else slotEnd u 0 w.ttuUse) :=
    .ite (slotUsed_stays ..).keepsClock (slotEnd_keepsClock ..)
  exact (hu.trans (tickUnits_keepsClock w _)).tick.trans hb

/-- DEAD stays DEAD: the strobe, and what a boundary ends there. -/
theorem tickBoundary_dead (w : TickIn) (s : State) (h : s.bt.reset = false) (hd : s.mode = .dead) :
    (tickBoundary w s).mode = .dead ∧ (tickBoundary w s).ttu.tb1 = s.ttu.tb1 + s.ttu.adv
      ∧ (tickBoundary w s).ttu.tb3 = s.ttu.tb3 + s.ttu.len := by
  have hmode : (tickBegun s).mode = .dead := (tickBegun_mode s).trans hd
  obtain ⟨htb1, htb3⟩ := tickBegun_dead s hd
  rw [tickBoundary_units w s h]
  generalize tickBegun s = u at hmode htb1 htb3
  rw [if_pos (by rw [hmode]; rfl)]
  have hu : Stays u (slotUsed u 0 w.ttuUse.held) := slotUsed_stays ..
  rw [tickUnits_dead w _ (hu.mode.trans hmode)]
  have hk := hu.trans (deadTick_stays _)
  exact ⟨hk.mode.trans hmode, hk.tb1.trans htb1, hk.tb3.trans htb3⟩

/-- Work of TTU still pending at the end of its slot, which is of fixed cost, leads to DEAD (R49). -/
theorem tickBoundary_fault (w : TickIn) (s : State) (h : s.bt.reset = false) (hd : s.mode ≠ .dead)
    (hp : w.ttuUse.pending = true) : (tickBoundary w s).mode = .dead ∧ (tickBoundary w s).bt.cause = 5 := by
  have hne : (tickBegun s).mode ≠ .dead := (tickBegun_mode s).symm ▸ hd
  rw [tickBoundary_units w s h]
  generalize tickBegun s = u at hne
  rw [if_neg (by simpa using hne)]
  obtain ⟨hmode, hcause⟩ := slotEnd_fault u 0 w.ttuUse hp rfl hne
  rw [tickUnits_dead w _ hmode]
  have hk := deadTick_stays (slotEnd u 0 w.ttuUse)
  exact ⟨hk.mode.trans hmode, hk.cause.trans hcause⟩

/-- A RESET starts BOOT anew: flash and, with supply kept, the Logbook stay (R437, R485). -/
theorem moduleReset_restarts (cause : Nat) (s : State) : (moduleReset cause false s).mode = .boot ∧ (moduleReset cause false s).tick = 0
    ∧ (moduleReset cause false s).held = false ∧ (moduleReset cause false s).r Reg.BOOT_STATUS.LAST_RESET = cause % 16
    ∧ (moduleReset cause false s).log = s.log ∧ (moduleReset cause false s).kvt.copy0 = s.kvt.copy0
    ∧ (moduleReset cause false s).kvt.copy1 = s.kvt.copy1 ∧ (moduleReset cause false s).bt.slot = s.bt.slot
    ∧ (moduleReset cause false s).bt.cfg = s.bt.cfg := by
  unfold moduleReset
  extract_lets r sxt obs luv twn svc flash kvt bt t t1 t2 t3 t4
  have h1 : t1.r Reg.BOOT_STATUS.LAST_RESET = cause % 16 :=
    (State.r_w_ne _ Reg.BOOT_STATUS.DEAD_CAUSE _ _ 0 0 _ _ (by decide)).trans (State.r_w_same t Reg.BOOT_STATUS.LAST_RESET cause 0 0)
  have h4 : t4.r Reg.BOOT_STATUS.LAST_RESET = t1.r Reg.BOOT_STATUS.LAST_RESET := by
    unfold t4 t3 t2
    rw [State.r_w_ne _ _ _ _ _ _ _ _ (by decide), State.r_w_ne _ _ _ _ _ _ _ _ (by decide), State.wb,
      State.r_w_ne _ _ _ _ _ _ _ _ (by decide), State.r_w_ne _ _ _ _ _ _ _ _ (by decide)]
  have hr : ((t4.w Reg.BOOT_SLOT.SVN_MIN (s.r Reg.BOOT_SLOT.SVN_MIN)).w Reg.TWN_EPOCHS.STORED_EPOCH s.twn.flashEpoch).r
      Reg.BOOT_STATUS.LAST_RESET = cause % 16 := by
    rw [State.r_w_ne _ _ _ _ _ _ _ _ (by decide), State.r_w_ne _ _ _ _ _ _ _ _ (by decide), h4, h1]
  exact ⟨rfl, rfl, rfl, hr, rfl, rfl, rfl, rfl, rfl⟩

/-! ### The watch boundary (R38, R344) -/

theorem watchBoundary_done (w : WatchIn) (s : State) (h : s.r Reg.TTU_WATCH_POS.TICK_IN_WATCH ≠ 0 ∨ s.ttu.watchDone = true) :
    watchBoundary w s = s := if_pos h

/-- The watch counts an agreed handover down; at the last watch it is due. -/
theorem twnWatch_counts (s : State) : ∃ u, Stays s u ∧ twnWatch s = match u.twn.handover with
    | none => u
    | some x => if x.left ≤ 1 then { u with twn := { u.twn with handoverNow := true } }
      else { u with twn := { u.twn with handover := some { x with left := x.left - 1 } } } := by
  unfold twnWatch
  extract_lets v s1 v1 u
  have h1 : Stays s s1 := .ite (.rfl' s) (.ite (.rfl' s) ⟨rfl⟩)
  have hu : Stays s u := h1.trans ⟨rfl⟩
  clear_value u
  exact ⟨u, hu, rfl⟩

theorem twnWatch_keeps (s : State) : (twnWatch s).mode = s.mode ∧ (twnWatch s).tick = s.tick
    ∧ (twnWatch s).ttu.watchDone = s.ttu.watchDone := by
  obtain ⟨u, hu, he⟩ := twnWatch_counts s
  rw [he]
  split
  · exact ⟨hu.mode, hu.tick, hu.watchDone⟩
  · split
    · exact ⟨hu.mode, hu.tick, hu.watchDone⟩
    · exact ⟨hu.mode, hu.tick, hu.watchDone⟩

theorem twnWatch_handover (s : State) (x : Handover) (h : s.twn.handover = some x) :
    (2 ≤ x.left → (twnWatch s).twn.handover = some { x with left := x.left - 1 } ∧ (twnWatch s).twn.handoverNow = s.twn.handoverNow)
    ∧ (x.left ≤ 1 → (twnWatch s).twn.handover = some x ∧ (twnWatch s).twn.handoverNow = true) := by
  obtain ⟨u, hu, he⟩ := twnWatch_counts s
  have hx : u.twn.handover = some x := hu.handover.trans h
  rw [he, hx]
  refine ⟨fun hl => ?_, fun hl => ?_⟩
  · dsimp only
    rw [if_neg (by omega)]
    exact ⟨rfl, hu.handoverNow⟩
  · dsimp only
    rw [if_pos hl]
    exact ⟨hx, rfl⟩

/-- The watch begun, with its boundary marked done. -/
def watchBegun (s : State) : State := { s with ttu := { s.ttu with watchDone := true }, onceWatch := [] }

theorem watchBoundary_due (w : WatchIn) (s : State) (hp : s.r Reg.TTU_WATCH_POS.TICK_IN_WATCH = 0) (hw : s.ttu.watchDone = false) :
    (s.mode = .dead → watchBoundary w s = watchBegun s)
    ∧ (s.mode ≠ .dead → ∃ u, Stays (watchBegun s) u ∧ watchBoundary w s = twnWatch u) := by
  unfold watchBoundary
  rw [if_neg (by simp [hp, hw])]
  extract_lets v s1 s2 s3
  have h1 : s1 = watchBegun s := rfl
  have hm : s1.mode = s.mode := rfl
  clear_value s1
  subst h1
  rw [hm]
  have h2 : Stays (watchBegun s) s2 := ttuWatch_stays w _
  have h3 : Stays (watchBegun s) s3 := .ite h2 (h2.trans (watchUnits_stays w s2))
  clear_value s2 s3
  refine ⟨fun hd => if_pos (by rw [hd]; rfl), fun hd => ⟨s3, h3, if_neg (by simpa using hd)⟩⟩

theorem watchBoundary_keeps (w : WatchIn) (s : State) (hp : s.r Reg.TTU_WATCH_POS.TICK_IN_WATCH = 0) (hw : s.ttu.watchDone = false) :
    (watchBoundary w s).ttu.watchDone = true ∧ (watchBoundary w s).mode = s.mode ∧ (watchBoundary w s).tick = s.tick := by
  obtain ⟨hdead, hlive⟩ := watchBoundary_due w s hp hw
  by_cases hd : s.mode = .dead
  · rw [hdead hd]
    exact ⟨rfl, rfl, rfl⟩
  · obtain ⟨u, hu, he⟩ := hlive hd
    obtain ⟨hmode, htick, hdone⟩ := twnWatch_keeps u
    rw [he]
    exact ⟨hdone.trans hu.watchDone, hmode.trans hu.mode, htick.trans hu.tick⟩

theorem watchBoundary_handover (w : WatchIn) (s : State) (hp : s.r Reg.TTU_WATCH_POS.TICK_IN_WATCH = 0)
    (hw : s.ttu.watchDone = false) (hd : s.mode ≠ .dead) (x : Handover) (hx : s.twn.handover = some x) :
    (2 ≤ x.left → (watchBoundary w s).twn.handover = some { x with left := x.left - 1 }
      ∧ (watchBoundary w s).twn.handoverNow = s.twn.handoverNow)
    ∧ (x.left ≤ 1 → (watchBoundary w s).twn.handover = some x ∧ (watchBoundary w s).twn.handoverNow = true) := by
  obtain ⟨u, hu, he⟩ := (watchBoundary_due w s hp hw).2 hd
  obtain ⟨hlong, hlast⟩ := twnWatch_handover u x (hu.handover.trans hx)
  rw [he]
  exact ⟨fun hl => ⟨(hlong hl).1, (hlong hl).2.trans hu.handoverNow⟩, hlast⟩

end Sys2Proof.Machine

/-! PROOF. Power-up (R482, R486, R463), the end of BOOT (R483, R251) and the resets (R485), and O60. -/

namespace Sys2Proof.Machine

open Sys2Proof

/-! ### Power-up -/

/-- With the setup sealed the keys are derived and STEP is 3. -/
theorem bootSeal_seals (b : BootIn) (s : State) (h : b.sealSet = true) : (bootSeal b s).bt.sealed = true
    ∧ (bootSeal b s).r Reg.BOOT_STATUS.STEP = 3 ∧ (bootSeal b s).rb Reg.KVT_STATUS.SEALED = true
    ∧ (bootSeal b s).kvt.gs = (bootSeal b s).kvt.active.isSome := by
  generalize hb : bootSeal b s = t
  unfold bootSeal at hb
  extract_lets s1 s2 s3 s4 at hb
  rw [if_neg (by simp [h])] at hb
  split at hb
  next crc u hp =>
  extract_lets s5 s6 s7 bt at hb
  have hgs : s5.kvt.gs = s5.kvt.active.isSome := rfl
  have hkvt : s7.kvt = s5.kvt := rfl
  have hstep : s7.r Reg.BOOT_STATUS.STEP = 3 := State.r_w_same _ Reg.BOOT_STATUS.STEP 3 0 0
  have hsealed : s7.rb Reg.KVT_STATUS.SEALED = true :=
    (State.rb_w_ne _ Reg.BOOT_STATUS.STEP _ _ 0 0 _ _ (by decide)).trans (State.rb_wb_same s6 Reg.KVT_STATUS.SEALED true 0 0 rfl)
  clear_value s5 s6 s7
  rw [← hb]
  exact ⟨rfl, hstep, hsealed, hkvt ▸ hgs⟩

/-- The slot may not run (R486). -/
def BadSlot (b : BootIn) (s : State) : Prop :=
  s.bt.slotBad = true ∨ b.slotOk = false ∨ s.bt.slot.svn < s.r Reg.BOOT_SLOT.SVN_MIN

theorem bootRun_selfTest (b : BootIn) (s : State) (h : b.selfTest = false) : bootRun b s = enterDead s 0x02 508 :=
  if_pos (by rw [h]; rfl)

theorem bootRun_badSlot (b : BootIn) (s : State) (h : b.selfTest = true) (hb : BadSlot b s) :
    ∃ u, Stays s u ∧ bootRun b s = enterDead u 0x01 508 := by
  have hr : (s.w Reg.BOOT_STATUS.STEP 1).r Reg.BOOT_SLOT.SVN_MIN = s.r Reg.BOOT_SLOT.SVN_MIN :=
    State.r_w_ne _ _ _ _ _ _ _ _ (by decide)
  refine ⟨(s.w Reg.BOOT_STATUS.STEP 1).w Reg.BOOT_STATUS.SLOT_STATE 3, ⟨rfl⟩, ?_⟩
  unfold bootRun
  rw [if_neg (by simp [h])]
  exact if_pos (by simpa [hr, BadSlot, or_assoc] using hb)

theorem bootRun_runs (b : BootIn) (s : State) (h : b.selfTest = true) (hb : ¬ BadSlot b s) :
    ∃ u, bootRun b s = bootSeal b u ∧ u.mode = s.mode ∧ u.tick = s.tick ∧ u.held = s.held ∧ u.bt.running = s.bt.slot := by
  have hr : (s.w Reg.BOOT_STATUS.STEP 1).r Reg.BOOT_SLOT.SVN_MIN = s.r Reg.BOOT_SLOT.SVN_MIN :=
    State.r_w_ne _ _ _ _ _ _ _ _ (by decide)
  unfold bootRun
  rw [if_neg (by simp [h])]
  extract_lets s1 i bt s2 s3
  rw [if_neg (by simpa [s1, i, hr, BadSlot, or_assoc] using hb)]
  exact ⟨_, rfl, rfl, rfl, rfl, rfl⟩

/-- Where BOOT is to start, the sequence runs with the hold in reset ended. -/
theorem powerUp_starts (b : BootIn) (s : State) (hm : s.mode = .boot)
    (h : s.held = true ∨ (s.bt.sealed = false ∧ s.r Reg.BOOT_STATUS.STEP = 0)) :
    ∃ u, powerUp b s = bootRun b u ∧ u.held = false ∧ u.mode = .boot ∧ u.tick = s.tick ∧ u.bt = s.bt ∧ u.regs = s.regs := by
  unfold powerUp
  split
  · exact ⟨_, rfl, rfl, hm, rfl, rfl, rfl⟩
  · next hh =>
    obtain ⟨hs, hstep⟩ := h.resolve_left hh
    rw [if_pos (by simp [hm, hs, hstep])]
    exact ⟨s, rfl, by simpa using hh, hm, rfl, rfl, rfl⟩

theorem powerUp_idle (b : BootIn) (s : State) (h : ¬ (s.held = true ∨ (s.bt.sealed = false ∧ s.r Reg.BOOT_STATUS.STEP = 0))) :
    powerUp b s = s := by
  obtain ⟨hh, hs⟩ := not_or.mp h
  unfold powerUp
  rw [if_neg hh]
  refine if_neg fun hc => hs ?_
  simp only [Bool.and_eq_true, beq_iff_eq, Bool.not_eq_true'] at hc
  exact ⟨hc.1.2, hc.2⟩

/-- A module that enters DEAD at power-up is no longer held, and energises no STOP_OUT. -/
theorem enterDead_atPowerUp {u : State} (cause : Nat) (hh : u.held = false) (hm : u.mode = .boot) :
    (enterDead u cause 508).held = false ∧ (enterDead u cause 508).mode = .dead ∧ (enterDead u cause 508).bt.cause = cause
      ∧ (enterDead u cause 508).r Reg.STP_STATE.OUT_ON = 0 :=
  ⟨(enterDead_keepsClock u cause 508).held.trans hh, enterDead_shows u cause 508 (by rw [hm]; decide)⟩

theorem BadSlot.congr {b : BootIn} {s u : State} (hbt : u.bt = s.bt) (hr : u.regs = s.regs) : BadSlot b u ↔ BadSlot b s := by
  unfold BadSlot State.r
  rw [hbt, hr]

theorem powerUp_selfTest (b : BootIn) (s : State) (hm : s.mode = .boot)
    (h : s.held = true ∨ (s.bt.sealed = false ∧ s.r Reg.BOOT_STATUS.STEP = 0)) (ht : b.selfTest = false) :
    (powerUp b s).held = false ∧ (powerUp b s).mode = .dead ∧ (powerUp b s).bt.cause = 2
      ∧ (powerUp b s).r Reg.STP_STATE.OUT_ON = 0 := by
  obtain ⟨u, hp, hh, hmode, _⟩ := powerUp_starts b s hm h
  rw [hp, bootRun_selfTest b u ht]
  exact enterDead_atPowerUp 2 hh hmode

theorem powerUp_badSlot (b : BootIn) (s : State) (hm : s.mode = .boot)
    (h : s.held = true ∨ (s.bt.sealed = false ∧ s.r Reg.BOOT_STATUS.STEP = 0)) (ht : b.selfTest = true) (hb : BadSlot b s) :
    (powerUp b s).held = false ∧ (powerUp b s).mode = .dead ∧ (powerUp b s).bt.cause = 1
      ∧ (powerUp b s).r Reg.STP_STATE.OUT_ON = 0 := by
  obtain ⟨u, hp, hh, hmode, _, hbt, hregs⟩ := powerUp_starts b s hm h
  obtain ⟨v, hv, he⟩ := bootRun_badSlot b u ht ((BadSlot.congr hbt hregs).2 hb)
  rw [hp, he]
  exact enterDead_atPowerUp 1 (hv.held.trans hh) (hv.mode.trans hmode)

theorem powerUp_runs (b : BootIn) (s : State) (hm : s.mode = .boot)
    (h : s.held = true ∨ (s.bt.sealed = false ∧ s.r Reg.BOOT_STATUS.STEP = 0)) (ht : b.selfTest = true) (hb : ¬ BadSlot b s) :
    (powerUp b s).held = false ∧ (powerUp b s).mode = .boot ∧ (powerUp b s).bt.running = s.bt.slot ∧ (powerUp b s).tick = s.tick
      ∧ (b.sealSet = true → (powerUp b s).bt.sealed = true ∧ (powerUp b s).r Reg.BOOT_STATUS.STEP = 3
        ∧ (powerUp b s).rb Reg.KVT_STATUS.SEALED = true ∧ (powerUp b s).kvt.gs = (powerUp b s).kvt.active.isSome) := by
  obtain ⟨u, hp, hh, hmode, htick, hbt, hregs⟩ := powerUp_starts b s hm h
  obtain ⟨v, he, vmode, vtick, vheld, vrun⟩ := bootRun_runs b u ht (mt (BadSlot.congr hbt hregs).1 hb)
  have hs := bootSeal_stays b v
  rw [hp, he]
  exact ⟨hs.held.trans (vheld.trans hh), hs.mode.trans (vmode.trans hmode), hs.running.trans (vrun.trans (by rw [hbt])),
    hs.tick.trans (vtick.trans htick), bootSeal_seals b v⟩

/-! ### The end of BOOT -/

theorem enterMode_mode (s : State) (m : Mode) : (enterMode s m).mode = m := by
  unfold enterMode
  split
  · next h => exact h
  extract_lets s1 t s2 s3 s4 s5
  have h1 : s1.mode = m := (sxtRun_stays _).mode
  have h5 : Stays s1 s5 := by
    have h4 : Stays s1 s4 := ⟨rfl⟩
    exact .ite (h4.trans (svnRaise_stays _)) h4
  clear_value s5
  have hs : Stays s1 (if m = .boot ∨ m = .dead then s5 else raise s5 508 (modeNum m)) := .ite h5 (h5.trans (raise_stays ..))
  exact hs.mode.trans h1

/-- The module goes to MAINTENANCE, or elects its role. -/
theorem chooseRole_maintenance (s : State) (hm : s.mode = .boot)
    (h : s.rb Reg.BOOT_CTRL.STAY = true ∨ s.rb Reg.BOOT_STATUS.CFG_DEFAULT = true) : (chooseRole s).mode = .maintenance := by
  have hk : Stays (enterMode s .maintenance) (modeWork (requestStopAt (enterMode s .maintenance) 0 none 0)) :=
    (requestStopAt_stays ..).trans (modeWork_stays _)
  unfold chooseRole
  rw [if_pos (by simpa using h), if_neg (by rw [hm]; decide)]
  exact hk.mode.trans (enterMode_mode s _)

theorem chooseRole_elects (s : State) (h : s.rb Reg.BOOT_CTRL.STAY = false) (hc : s.rb Reg.BOOT_STATUS.CFG_DEFAULT = false) :
    chooseRole s = { s with twn := { s.twn with electing := true, waitTicks := 0 } } :=
  if_neg (by rw [h, hc]; decide)

/-- Where BOOT does not end at this boundary. -/
def BootWaits (s : State) : Prop :=
  s.mode ≠ .boot ∨ s.bt.sealed = false ∨ s.r Reg.BOOT_STATUS.STEP = 4 ∨ (s.kvt.gs = true ∧ armedTicks s < 8)

theorem bootEnd_waits (s : State) (h : BootWaits s) : bootEnd s = s := by
  unfold bootEnd
  split
  · rfl
  · next h1 =>
    simp only [Bool.or_eq_true, bne_iff_ne, beq_iff_eq, Bool.not_eq_true', not_or, not_not] at h1
    obtain ⟨⟨hm, hs⟩, hstep⟩ := h1
    refine if_pos ?_
    obtain h | h | h | h := h
    · exact absurd hm h
    · exact absurd h hs
    · exact absurd h hstep
    · simpa using h

/-- BOOT ends with STEP 4; what decides the role reads as before. -/
theorem bootEnd_ends (s : State) (h : ¬ BootWaits s) : ∃ u, bootEnd s = chooseRole u ∧ u.mode = .boot
    ∧ u.rb Reg.BOOT_CTRL.STAY = s.rb Reg.BOOT_CTRL.STAY ∧ u.rb Reg.BOOT_STATUS.CFG_DEFAULT = s.rb Reg.BOOT_STATUS.CFG_DEFAULT
    ∧ u.r Reg.BOOT_STATUS.STEP = 4 := by
  unfold BootWaits at h
  simp only [not_or, not_not, not_and] at h
  obtain ⟨hm, hs, hstep, harm⟩ := h
  unfold bootEnd
  rw [if_neg (by simp [hm, hs, hstep]), if_neg (by simpa using harm)]
  extract_lets s1
  have hm1 : s1.mode = .boot := hm
  have hstay : s1.rb Reg.BOOT_CTRL.STAY = s.rb Reg.BOOT_CTRL.STAY :=
    (State.rb_w_ne _ _ _ _ _ _ _ _ (by decide)).trans (State.rb_w_ne _ _ _ _ _ _ _ _ (by decide))
  have hcfg : s1.rb Reg.BOOT_STATUS.CFG_DEFAULT = s.rb Reg.BOOT_STATUS.CFG_DEFAULT :=
    (State.rb_w_ne _ _ _ _ _ _ _ _ (by decide)).trans (State.rb_w_ne _ _ _ _ _ _ _ _ (by decide))
  have hstep1 : s1.r Reg.BOOT_STATUS.STEP = 4 :=
    (State.r_w_ne _ _ _ _ _ _ _ _ (by decide)).trans (State.r_w_same _ Reg.BOOT_STATUS.STEP 4 0 0)
  clear_value s1
  refine ⟨_, rfl, ?_⟩
  split
  · exact ⟨hm1, hstay, hcfg, hstep1⟩
  · exact ⟨hm1, (State.rb_w_ne _ _ _ _ _ _ _ _ (by decide)).trans hstay, (State.rb_w_ne _ _ _ _ _ _ _ _ (by decide)).trans hcfg,
      (State.r_w_ne _ _ _ _ _ _ _ _ (by decide)).trans hstep1⟩

/-! ### The commands -/

theorem powerUp_exec (b : BootIn) (s : State) (hm : s.mode = .boot) :
    let starts := s.held = true ∨ (s.bt.sealed = false ∧ s.r Reg.BOOT_STATUS.STEP = 0)
    (¬ starts → exec (.powerUp b) s = .next s.start)
    ∧ (starts → b.selfTest = false → ∃ t, exec (.powerUp b) s = .next t ∧ t.held = false ∧ t.mode = .dead ∧ t.bt.cause = 2
      ∧ t.r Reg.STP_STATE.OUT_ON = 0)
    ∧ (starts → b.selfTest = true → BadSlot b s → ∃ t, exec (.powerUp b) s = .next t ∧ t.held = false ∧ t.mode = .dead
      ∧ t.bt.cause = 1 ∧ t.r Reg.STP_STATE.OUT_ON = 0)
    ∧ (starts → b.selfTest = true → ¬ BadSlot b s → ∃ t, exec (.powerUp b) s = .next t ∧ t.held = false ∧ t.mode = .boot
      ∧ t.bt.running = s.bt.slot ∧ t.tick = s.tick
      ∧ (b.sealSet = true → t.bt.sealed = true ∧ t.r Reg.BOOT_STATUS.STEP = 3 ∧ t.rb Reg.KVT_STATUS.SEALED = true
        ∧ t.kvt.gs = t.kvt.active.isSome)) := by
  have hx : exec (.powerUp b) s = .next ((powerUp b s.start).requeue s.pending) := rfl
  refine ⟨fun h => ?_, fun h ht => ?_, fun h ht hb => ?_, fun h ht hb => ?_⟩
  · rw [hx, powerUp_idle b s.start h]
    rfl
  · have hp := powerUp_selfTest b s.start hm h ht
    generalize powerUp b s.start = v at hx hp
    exact ⟨_, hx, hp⟩
  · have hp := powerUp_badSlot b s.start hm h ht hb
    generalize powerUp b s.start = v at hx hp
    exact ⟨_, hx, hp⟩
  · have hp := powerUp_runs b s.start hm h ht hb
    generalize powerUp b s.start = v at hx hp
    exact ⟨_, hx, hp⟩

theorem bootEnd_exec (s : State) (hh : s.held = false) :
    (BootWaits s → exec .bootEnd s = .next s.start)
    ∧ (¬ BootWaits s → s.rb Reg.BOOT_CTRL.STAY = true ∨ s.rb Reg.BOOT_STATUS.CFG_DEFAULT = true →
      ∃ t, exec .bootEnd s = .next t ∧ t.mode = .maintenance)
    ∧ (¬ BootWaits s → s.rb Reg.BOOT_CTRL.STAY = false → s.rb Reg.BOOT_STATUS.CFG_DEFAULT = false →
      ∃ t, exec .bootEnd s = .next t ∧ t.mode = .boot ∧ t.twn.electing = true ∧ t.r Reg.BOOT_STATUS.STEP = 4) := by
  have hx : exec .bootEnd s = _ := withOutAt_live s (some 0) bootEnd hh
  refine ⟨fun hw => ?_, fun hw h => ?_, fun hw h hc => ?_⟩
  · rw [hx, bootEnd_waits (s.start.atInst (some 0)) hw]
    rfl
  · obtain ⟨u, he, hm, hstay, hcfg, _⟩ := bootEnd_ends (s.start.atInst (some 0)) hw
    have hr := chooseRole_maintenance u hm (by rw [hstay, hcfg]; exact h)
    rw [he] at hx
    generalize chooseRole u = v at hx hr
    exact ⟨_, hx, hr⟩
  · obtain ⟨u, he, hm, hstay, hcfg, hstep⟩ := bootEnd_ends (s.start.atInst (some 0)) hw
    rw [he, chooseRole_elects u (hstay.trans h) (hcfg.trans hc)] at hx
    exact ⟨_, hx, hm, rfl, hstep⟩

/-- A hot reset outside DEAD resets the endpoint and its MSI-X table alone. -/
theorem pcieHotReset_exec (s : State) (hh : s.held = false) (hd : s.mode ≠ .dead) :
    ∃ t, exec .pcieHotReset s = .next t ∧ t.mode = s.mode ∧ t.hst.pcie.bme = false
      ∧ (∀ k, k / 32 < 0x1F0000 → mget 0 t.regs k = mget 0 s.regs k)
      ∧ t = { s with out := [], regs := t.regs, hst := { s.hst with pcie := {} } } := by
  have hx : exec .pcieHotReset s = _ := withOut_live s hotReset hh
  unfold hotReset at hx
  rw [if_neg (by simpa using hd)] at hx
  refine ⟨_, hx, rfl, rfl, fun k hk => ?_, rfl⟩
  exact mget_filter (fun k => !(decide (0x1F0000 ≤ k / 32) && decide (k / 32 < 0x200000))) s.regs (by simp; omega)

theorem tickBoundary_exec (w : TickIn) (s : State) (hh : s.held = false) :
    (s.bt.reset = true → ∃ t, exec (.tickBoundary w) s = .next t ∧ t.mode = .boot ∧ t.tick = 0 ∧ t.held = false
      ∧ t.r Reg.BOOT_STATUS.LAST_RESET = 2 ∧ t.log = s.log ∧ t.kvt.copy0 = s.kvt.copy0 ∧ t.kvt.copy1 = s.kvt.copy1
      ∧ t.bt.slot = s.bt.slot ∧ t.bt.cfg = s.bt.cfg)
    ∧ (s.bt.reset = false → ∃ t, exec (.tickBoundary w) s = .next t ∧ t.tick = s.tick + 1
      ∧ (s.mode = .dead → t.mode = .dead ∧ t.ttu.tb1 = s.ttu.tb1 + s.ttu.adv ∧ t.ttu.tb3 = s.ttu.tb3 + s.ttu.len)
      ∧ (s.mode ≠ .dead → w.ttuUse.pending = true → t.mode = .dead ∧ t.bt.cause = 5)) := by
  have hx : exec (.tickBoundary w) s = _ := withOut_live s (tickBoundary w) hh
  refine ⟨fun hr => ?_, fun hr => ?_⟩
  · have hb : tickBoundary w (s.start.atInst none) = moduleReset 2 false (s.start.atInst none) := if_pos hr
    have hm := moduleReset_restarts 2 (s.start.atInst none)
    rw [hb] at hx
    generalize moduleReset 2 false (s.start.atInst none) = v at hx hm
    exact ⟨_, hx, hm⟩
  · have htick := tickBoundary_tick w (s.start.atInst none) hr
    have hdead := tickBoundary_dead w (s.start.atInst none) hr
    have hfault := tickBoundary_fault w (s.start.atInst none) hr
    generalize tickBoundary w (s.start.atInst none) = v at hx htick hdead hfault
    exact ⟨_, hx, htick, hdead, hfault⟩

theorem watchBoundary_exec (w : WatchIn) (s : State) (hh : s.held = false) :
    (s.r Reg.TTU_WATCH_POS.TICK_IN_WATCH ≠ 0 ∨ s.ttu.watchDone = true → exec (.watchBoundary w) s = .next s.start)
    ∧ (s.r Reg.TTU_WATCH_POS.TICK_IN_WATCH = 0 → s.ttu.watchDone = false →
      (s.mode = .dead → exec (.watchBoundary w) s = .next { s with out := [], onceWatch := [], ttu := { s.ttu with watchDone := true } })
      ∧ ∃ t, exec (.watchBoundary w) s = .next t ∧ t.ttu.watchDone = true ∧ t.mode = s.mode ∧ t.tick = s.tick
        ∧ (s.mode ≠ .dead → ∀ x, s.twn.handover = some x →
          (2 ≤ x.left → t.twn.handover = some { x with left := x.left - 1 } ∧ t.twn.handoverNow = s.twn.handoverNow)
          ∧ (x.left ≤ 1 → t.twn.handover = some x ∧ t.twn.handoverNow = true))) := by
  have hx : exec (.watchBoundary w) s = _ := withOutAt_live s (some 0) (watchBoundary w) hh
  refine ⟨fun hd => ?_, fun hp hw => ⟨fun hd => ?_, ?_⟩⟩
  · rw [hx, watchBoundary_done w (s.start.atInst (some 0)) hd]
    rfl
  · rw [hx, (watchBoundary_due w (s.start.atInst (some 0)) hp hw).1 hd]
    rfl
  · obtain ⟨hdone, hmode, htick⟩ := watchBoundary_keeps w (s.start.atInst (some 0)) hp hw
    have hover := watchBoundary_handover w (s.start.atInst (some 0)) hp hw
    generalize watchBoundary w (s.start.atInst (some 0)) = v at hx hdone hmode htick hover
    exact ⟨_, hx, hdone, hmode, htick, hover⟩

/-- Settles O60: power-up, the end of BOOT, the hot reset, and the tick and watch boundaries, each by its own lemma. -/
theorem powerUpTheEndOfBootAndTheBoundaries : Obligations.power_up_the_end_of_boot_and_the_boundaries := by
  unfold Obligations.power_up_the_end_of_boot_and_the_boundaries
  exact ⟨powerUp_exec, fun s hh => ⟨bootEnd_exec s hh, pcieHotReset_exec s hh, fun w => tickBoundary_exec w s hh,
    fun w => watchBoundary_exec w s hh⟩⟩

end Sys2Proof.Machine

/-! PROOF. TTU_STEP: the steps taken in DIVERGED, and those refused (R52, R73). -/

namespace Sys2Proof.Machine

open Sys2Proof

/-! ### What a completion rests on (R347, R352) -/

/-- From s to t the mode, the tick, HST and the marks of reflected execution stay. -/
def CommandKept (s t : State) : Prop :=
  t.mode = s.mode ∧ t.tick = s.tick ∧ t.hst = s.hst ∧ t.twn.reflecting = s.twn.reflecting ∧ t.twn.reflTick = s.twn.reflTick

theorem CommandKept.rfl' (s : State) : CommandKept s s := ⟨rfl, rfl, rfl, rfl, rfl⟩

theorem CommandKept.trans {s t u : State} (h : CommandKept s t) (k : CommandKept t u) : CommandKept s u := by
  unfold CommandKept at *
  simp only [k, h, and_self]

theorem reflect_commandKept (s : State) (i : ReflItem) : CommandKept s (reflect s i) := by
  unfold reflect
  split
  · exact ⟨rfl, rfl, rfl, rfl, rfl⟩
  · exact .rfl' s

/-- The completion of a command taken is due with its tick of fetch. -/
theorem CommandKept.posted {s v : State} (k : CommandKept s v) (ht : Taken anyRunMode s) (h : Handle) (st d : Nat) :
    Posted s (complete v h st d) h st d := by
  obtain ⟨hm, htick, hhst, hrefl, hreflTick⟩ := k
  obtain ⟨hs, hd⟩ := taken_mode ht
  have hf : fetchTick v h = fetchTick s h := by
    unfold fetchTick State.now
    rw [hhst, hrefl, hreflTick, htick]
  exact posted_complete (by rwa [hm]) (by rwa [hm]) hf (by rw [hhst])

/-! ### An accepted step (R52, R73) -/

theorem rb_of_regs {s t : State} (h : t.regs = s.regs) (f : Field) (i j : Nat) : t.rb f i j = s.rb f i j := by
  unfold State.rb
  rw [r_of_regs h]

theorem pulseMarkTb0_kept (s : State) : CommandKept s (pulseMarkTb0 s) ∧ (pulseMarkTb0 s).regs = s.regs := by
  unfold pulseMarkTb0
  generalize 4 = n
  induction n with
  | zero => exact ⟨.rfl' s, rfl⟩
  | succ n ih =>
    rw [iter]
    split
    · exact ih
    · exact ih

/-- An accepted step shows as pending, and leaves what its completion rests on. -/
theorem ttuAcceptStep_pending (s : State) (amt : Int) :
    CommandKept s (ttuAcceptStep s amt) ∧ (ttuAcceptStep s amt).rb Reg.TTU_CLOSING.STEP_PENDING = true := by
  unfold ttuAcceptStep
  extract_lets p e n extra s1 c _ s2 s3 _ _ s4
  have h3 : CommandKept s s3 ∧ s3.rb Reg.TTU_CLOSING.STEP_PENDING = true :=
    ⟨reflect_commandKept s _, (State.rb_w_ne _ Reg.TTU_STRETCH.STRETCH_NS _ _ 0 0 0 0 (by decide)).trans
      (State.rb_wb_same _ Reg.TTU_CLOSING.STEP_PENDING true 0 0 rfl)⟩
  have h4 : CommandKept s s4 ∧ s4.rb Reg.TTU_CLOSING.STEP_PENDING = true :=
    ⟨h3.1, (rb_of_regs (s := s3.wb Reg.TTU_WATCH_POS.STRETCHED true) rfl _ 0 0).trans
      ((State.rb_w_ne s3 _ _ _ 0 0 0 0 (by decide)).trans h3.2)⟩
  split
  · split
    · exact h4
    · obtain ⟨hk, hr⟩ := pulseMarkTb0_kept s4
      exact ⟨h4.1.trans hk, (rb_of_regs hr _ 0 0).trans h4.2⟩
  · exact h3

theorem ttuBend_kept (at_ : Nat) (was s : State) : CommandKept s (ttuBend at_ was s)
    ∧ (ttuBend at_ was s).regs = s.regs ∧ (ttuBend at_ was s).ttu.stepAmt = s.ttu.stepAmt := by
  unfold ttuBend
  split
  · exact ⟨.rfl' s, rfl, rfl⟩
  · exact ⟨.rfl' s, rfl, rfl⟩

/-! ### TTU_STEP -/

/-- TTU may take a TTU_STEP (R73): in DIVERGED, with no step pending and its reserved bytes 0; a measured one with a source
qualified, a given one with an amount. -/
def StepAllowed (s : State) (mode : Nat) (a : Int) (rsv : Nat) : Prop :=
  (ttuState s = 4 ∧ s.ttu.stepAmt = none ∧ rsv = 0)
    ∧ (mode = 0 → srcQ s 0 = true ∨ srcQ s 1 = true ∨ srcQ s 2 = true) ∧ (mode = 1 → a ≠ 0)

/-- The step a TTU_STEP asks for. -/
def stepAsked (s : State) (mode : Nat) (a : Int) : Int := if mode = 0 then offsetNow s else a * (uNs : Int)

theorem ttuStep_refused {s : State} {h : Handle} {mode : Nat} {a : Int} {rsv : Nat} (hr : s.twn.reflecting = false)
    (hn : ¬ StepAllowed s mode a rsv) : ttuStep h mode a rsv s = complete s h stStep := by
  unfold ttuStep
  rw [if_neg (by simp [hr])]
  refine if_pos ?_
  by_contra hc
  simp only [not_or, not_and, not_not, Nat.not_lt, Bool.not_eq_true, Option.isSome_eq_false_iff, Option.isNone_iff_eq_none,
    Bool.not_eq_false', Bool.or_eq_true, or_assoc] at hc
  obtain ⟨hrsv, _, hstate, hfree, hsrc, hamt⟩ := hc
  exact hn ⟨⟨hstate, hfree, hrsv⟩, hsrc, hamt⟩

theorem ttuStep_allowed {s : State} {h : Handle} {mode : Nat} {a : Int} {rsv : Nat} (hr : s.twn.reflecting = false)
    (hm : mode ≤ 1) (ha : StepAllowed s mode a rsv) : ttuStep h mode a rsv s
      = complete (ttuBend (cycU h.cyc) s (ttuAcceptStep s (stepAsked s mode a))) h stOk := by
  obtain ⟨⟨hstate, hfree, hrsv⟩, hsrc, hamt⟩ := ha
  unfold ttuStep
  rw [if_neg (by simp [hr])]
  refine if_neg ?_
  rintro (h | h | h | h | ⟨h, hno⟩ | ⟨h, h0⟩)
  · exact h hrsv
  · omega
  · exact h hstate
  · simp [hfree] at h
  · simp only [Bool.not_eq_true', Bool.or_eq_false_iff] at hno
    obtain ⟨⟨n0, n1⟩, n2⟩ := hno
    simpa [n0, n1, n2] using hsrc h
  · exact hamt h h0

/-- The step taken is the one asked for, and shows as pending when its command completes. -/
theorem ttuBend_ttuAcceptStep (s : State) (at_ : Nat) (amt : Int) : CommandKept s (ttuBend at_ s (ttuAcceptStep s amt))
    ∧ (ttuBend at_ s (ttuAcceptStep s amt)).ttu.stepAmt = some amt
    ∧ (ttuBend at_ s (ttuAcceptStep s amt)).rb Reg.TTU_CLOSING.STEP_PENDING = true := by
  obtain ⟨haccept, hpending⟩ := ttuAcceptStep_pending s amt
  obtain ⟨_, _, hamt, _, _⟩ := ttuAcceptStep_closing s amt
  obtain ⟨hbend, hregs, hsame⟩ := ttuBend_kept at_ s (ttuAcceptStep s amt)
  exact ⟨haccept.trans hbend, hsame.trans hamt, (rb_of_regs hregs _ 0 0).trans hpending⟩

/-- A TTU_STEP handed over is taken where it is allowed, and refused without effect elsewhere. -/
theorem ttuStep_exec {c : Instr} {s : State} {h : Handle} {d : List Byte × BufIn} {mode : Nat} {a : Int} {rsv : Nat}
    (hc : exec c s = withOut s (ringOp anyRunMode h d (ttuStep h mode a rsv))) (ht : Taken anyRunMode s) (hm : mode ≤ 1) :
    (StepAllowed s mode a rsv → ∃ t, exec c s = .next t ∧ Posted s t h stOk 0
      ∧ t.ttu.stepAmt = some (stepAsked s mode a) ∧ t.rb Reg.TTU_CLOSING.STEP_PENDING = true)
    ∧ (¬ StepAllowed s mode a rsv → ∃ t, exec c s = .next t ∧ Posted s t h stStep 0 ∧ t.ttu = s.ttu ∧ t.regs = s.regs) := by
  obtain ⟨i, xs, n, hx⟩ := ring_exec hc ht
  obtain ⟨_, _, _, hr⟩ := id ht
  have hhanded : CommandKept s (handed s i xs n) := ⟨rfl, rfl, rfl, rfl, rfl⟩
  refine ⟨fun ha => ?_, fun hn => ?_⟩
  · rw [ttuStep_allowed (s := handed s i xs n) hr hm ha] at hx
    obtain ⟨hk, hamt, hpending⟩ := ttuBend_ttuAcceptStep (handed s i xs n) (cycU h.cyc) (stepAsked (handed s i xs n) mode a)
    generalize ttuBend (cycU h.cyc) (handed s i xs n) _ = v at hx hk hamt hpending
    have hpost := (hhanded.trans hk).posted ht h stOk 0
    have hstep := (congrArg TtuState.stepAmt (complete_ttu v h stOk 0)).trans hamt
    have hshow := (rb_of_regs (complete_regs v h stOk 0) Reg.TTU_CLOSING.STEP_PENDING 0 0).trans hpending
    generalize complete v h stOk = w at hx hpost hstep hshow
    exact ⟨_, hx, hpost, hstep, hshow⟩
  · rw [ttuStep_refused (s := handed s i xs n) hr hn] at hx
    exact ⟨_, hx, hhanded.posted ht h stStep 0, complete_ttu (handed s i xs n) h stStep 0,
      complete_regs (handed s i xs n) h stStep 0⟩

/-- Settles O11: both forms of TTU_STEP, each taken where it is allowed and refused elsewhere. -/
theorem ttuStepsAreTakenInDIVERGEDAndRefusedElsewhere : Obligations.ttu_steps_are_taken_in_DIVERGED_and_refused_elsewhere := by
  unfold Obligations.ttu_steps_are_taken_in_DIVERGED_and_refused_elsewhere
  intro s h a rsv ht free known
  have hmeasured : StepAllowed s 0 0 rsv ↔ free ∧ known := by simp [StepAllowed, free, known]
  have hamount : StepAllowed s 1 a rsv ↔ free ∧ a ≠ 0 := by simp [StepAllowed, free]
  obtain ⟨takeMeasured, refuseMeasured⟩ := ttuStep_exec (c := .ttuStepMeasured h rsv) rfl ht (by decide)
  obtain ⟨takeAmount, refuseAmount⟩ := ttuStep_exec (c := .ttuStepAmount h a rsv) rfl ht (by decide)
  rw [hmeasured] at takeMeasured refuseMeasured
  rw [hamount] at takeAmount refuseAmount
  exact ⟨takeMeasured, takeAmount, refuseMeasured, refuseAmount⟩

end Sys2Proof.Machine

/-! PROOF. Pulse outputs in once mode: arming, cancelling, and the edge (R73, R76, R78). -/

namespace Sys2Proof.Machine

open Sys2Proof

/-! ### START of an output (R82) -/

/-- START of output n written. -/
def startWritten (s : State) (n : Nat) (start : StampIn) : State :=
  (((s.w Reg.TTU_PULSE.START_SUB start.sub n).w Reg.TTU_PULSE.START_NS start.ns n).w
    Reg.TTU_PULSE.START_S_LO start.sec n).w Reg.TTU_PULSE.START_S_HI (start.sec / 2 ^ 32) n

/-- The registers of START. -/
def startKeys (n : Nat) : List Nat := [Reg.TTU_PULSE.START_SUB.key n 0, Reg.TTU_PULSE.START_NS.key n 0,
  Reg.TTU_PULSE.START_S_LO.key n 0, Reg.TTU_PULSE.START_S_HI.key n 0]

theorem startKeys_bounds {n k : Nat} (h : k ∈ startKeys n) : 32 * (0x304 + 0x40 * n) ≤ k ∧ k < 32 * (0x314 + 0x40 * n) := by
  simp only [startKeys, List.mem_cons, List.not_mem_nil, or_false, Field.key, Reg.TTU_PULSE.START_SUB,
    Reg.TTU_PULSE.START_NS, Reg.TTU_PULSE.START_S_LO, Reg.TTU_PULSE.START_S_HI, Field.idx, fld] at h
  omega

theorem startWritten_only (s : State) (n : Nat) (start : StampIn) : RegsOnly (startKeys n) s (startWritten s n start) :=
  ((((RegsOnly.rfl' _ s).w _ _ n 0 (by simp [startKeys])).w _ _ n 0 (by simp [startKeys])).w _ _ n 0
    (by simp [startKeys])).w _ _ n 0 (by simp [startKeys])

/-- START reads the same where its four registers do. -/
theorem pulseStart_kept {ks : List Nat} {s t : State} {n : Nat} (h : RegsKept ks s t) (hk : ∀ k ∈ startKeys n, k ∉ ks) :
    pulseStart t n = pulseStart s n := by
  unfold pulseStart
  rw [h.r _ _ _ (hk _ (by simp [startKeys])), h.r _ _ _ (hk _ (by simp [startKeys])),
    h.r _ _ _ (hk _ (by simp [startKeys])), h.r _ _ _ (hk _ (by simp [startKeys]))]

/-- A valid stamp written to START is read back. -/
theorem pulseStart_startWritten (s : State) (n : Nat) {start : StampIn} (hns : start.ns ≤ 999999999)
    (hsub : start.sub < 65536) (hsec : start.sec < 2 ^ 48) :
    pulseStart (startWritten s n start) n = stampOf start.sub start.ns start.sec := by
  have hHi (u : State) (g : Field) (v : Nat) := r_w_other u Reg.TTU_PULSE.START_S_HI g v n
  have hLo (u : State) (g : Field) (v : Nat) := r_w_other u Reg.TTU_PULSE.START_S_LO g v n
  have hNs (u : State) (g : Field) (v : Nat) := r_w_other u Reg.TTU_PULSE.START_NS g v n
  have rSub : (startWritten s n start).r Reg.TTU_PULSE.START_SUB n = start.sub % 2 ^ 16 :=
    (hHi _ _ _ (by rfl) (by decide)).trans ((hLo _ _ _ (by rfl) (by decide)).trans ((hNs _ _ _ (by rfl) (by decide)).trans
      (State.r_w_same _ _ _ _ _)))
  have rNs : (startWritten s n start).r Reg.TTU_PULSE.START_NS n = start.ns % 2 ^ 32 :=
    (hHi _ _ _ (by rfl) (by decide)).trans ((hLo _ _ _ (by rfl) (by decide)).trans (State.r_w_same _ _ _ _ _))
  have rLo : (startWritten s n start).r Reg.TTU_PULSE.START_S_LO n = start.sec % 2 ^ 32 :=
    (hHi _ _ _ (by rfl) (by decide)).trans (State.r_w_same _ _ _ _ _)
  have rHi : (startWritten s n start).r Reg.TTU_PULSE.START_S_HI n = start.sec / 2 ^ 32 % 2 ^ 16 := State.r_w_same _ _ _ _ _
  unfold pulseStart
  rw [rSub, rNs, rLo, rHi]
  congr 1 <;> omega

/-- A time base reads the same where TTU, the tick and the offset of TB2 do. -/
theorem tb_kept {ks : List Nat} {s t : State} (hk : RegsKept ks s t) (httu : t.ttu = s.ttu) (htick : t.tick = s.tick)
    (ho : ∀ f ∈ [Reg.TTU_TB2_OFFSET.OFFS_S_LO, Reg.TTU_TB2_OFFSET.OFFS_S_HI, Reg.TTU_TB2_OFFSET.OFFS_NS], f.key 0 0 ∉ ks)
    (b a : Nat) : t.tb b a = s.tb b a := by
  have hoff : t.tb2Offset = s.tb2Offset := by
    unfold State.tb2Offset
    rw [hk.r _ 0 0 (ho _ (by simp)), hk.r _ 0 0 (ho _ (by simp)), hk.r _ 0 0 (ho _ (by simp))]
  have hcome : ∀ old adv at_, t.comeIn old adv at_ = s.comeIn old adv at_ := fun old adv at_ => by
    unfold State.comeIn; rw [httu]
  unfold State.tb State.tb1 State.tb0In State.advBefore
  simp only [hoff, hcome, httu, htick]

theorem tb_startWritten (s : State) (n : Nat) (start : StampIn) (b a : Nat) : (startWritten s n start).tb b a = s.tb b a := by
  refine tb_kept (startWritten_only s n start).2 rfl rfl (fun f hf hm => ?_) b a
  have hlow : ∀ f ∈ [Reg.TTU_TB2_OFFSET.OFFS_S_LO, Reg.TTU_TB2_OFFSET.OFFS_S_HI, Reg.TTU_TB2_OFFSET.OFFS_NS],
      f.key 0 0 < 32 * 0x304 := by decide
  have h1 := hlow f hf
  have h2 := startKeys_bounds hm
  omega

/-! ### TTU_PULSE_SET in once mode (R76) -/

theorem startKeys_not_armed (n : Nat) : ∀ k ∈ startKeys n, k ∉ [Reg.TTU_PULSE.ARMED.key n 0] := by
  intro k hk hm
  have h := startKeys_bounds hk
  simp only [List.mem_singleton, Field.key, Reg.TTU_PULSE.ARMED, Field.idx, fld] at hm
  omega

/-- An output armed with a START at least 2 µs ahead is armed, and keeps START. -/
theorem pulseArm_ahead {s : State} {n at_ : Nat}
    (h : s.tb (s.r Reg.TTU_PULSE.TB_SEL n) at_ + 2000 * uNs ≤ pulseStart s n) :
    pulseArm s n at_ = s.wb Reg.TTU_PULSE.ARMED true n := by
  unfold pulseArm
  exact if_neg (Nat.not_lt.2 h)

/-- ARM for an output in once mode with a valid stamp writes START and arms the output. -/
theorem ttuPulseSet_arm {s : State} (h : Handle) {n : Nat} {start : StampIn} (hn : n < 4)
    (hm : s.rb Reg.TTU_PULSE.MODE n = true) (hns : start.ns ≤ 999999999) :
    ttuPulseSet h n true false start 0 s = complete (pulseArm (startWritten s n start) n (cycU h.cyc)) h stOk := by
  unfold ttuPulseSet startWritten
  rw [if_neg (by omega), if_neg (by simp [hm]), if_neg (by omega)]
  simp only [Bool.false_eq_true, if_false, if_true]

/-- CANCEL for an output in once mode with a valid stamp leaves it without an edge to place. -/
theorem ttuPulseSet_cancel {s : State} (h : Handle) {n : Nat} {start : StampIn} (hn : n < 4)
    (hm : s.rb Reg.TTU_PULSE.MODE n = true) (hns : start.ns ≤ 999999999) :
    ttuPulseSet h n false true start 0 s
      = complete (ttuSetPulse ((startWritten s n start).wb Reg.TTU_PULSE.ARMED false n) n { ttuPulse s n with atStep := none })
        h stOk := by
  unfold ttuPulseSet
  rw [if_neg (by omega), if_neg (by simp [hm]), if_neg (by omega)]
  rfl

section
variable {s : State} (h : Handle) {n : Nat} {start : StampIn} (ht : Taken anyRunMode s) (hn : n < 4)
  (hm : s.rb Reg.TTU_PULSE.MODE n = true) (hns : start.ns ≤ 999999999)
include ht hn hm hns

theorem pulseArm_exec (hsub : start.sub < 65536) (hsec : start.sec < 2 ^ 48)
    (ha : s.tb (s.r Reg.TTU_PULSE.TB_SEL n) (cycU h.cyc) + 2000 * uNs ≤ stampOf start.sub start.ns start.sec) :
    ∃ t, exec (.ttuPulseArm h n start 0) s = .next t ∧ Posted s t h stOk 0 ∧ t.rb Reg.TTU_PULSE.ARMED n = true
      ∧ pulseStart t n = stampOf start.sub start.ns start.sec := by
  obtain ⟨i, xs, k, hx⟩ := ring_exec (c := .ttuPulseArm h n start 0) rfl ht
  have hstart := pulseStart_startWritten (handed s i xs k) n hns hsub hsec
  have hsel : (startWritten (handed s i xs k) n start).r Reg.TTU_PULSE.TB_SEL n = s.r Reg.TTU_PULSE.TB_SEL n :=
    (startWritten_only (handed s i xs k) n start).2.r _ n 0 fun hmem => by
      have hb := startKeys_bounds hmem
      simp only [Field.key, Reg.TTU_PULSE.TB_SEL, Field.idx, fld] at hb
      omega
  rw [ttuPulseSet_arm (s := handed s i xs k) h hn hm hns, pulseArm_ahead (by rw [hsel, tb_startWritten, hstart]; exact ha)] at hx
  have hk : CommandKept s ((startWritten (handed s i xs k) n start).wb Reg.TTU_PULSE.ARMED true n) := ⟨rfl, rfl, rfl, rfl, rfl⟩
  have harmed : RegsKept [Reg.TTU_PULSE.ARMED.key n 0] (startWritten (handed s i xs k) n start)
      ((startWritten (handed s i xs k) n start).wb Reg.TTU_PULSE.ARMED true n) :=
    (RegsKept.rfl' _ _).w _ _ _ _ (List.mem_singleton.2 rfl)
  have hread := complete_regs ((startWritten (handed s i xs k) n start).wb Reg.TTU_PULSE.ARMED true n) h stOk 0
  refine ⟨_, hx, hk.posted ht h stOk 0, ?_, ?_⟩
  · exact (rb_of_regs (s := (startWritten (handed s i xs k) n start).wb Reg.TTU_PULSE.ARMED true n) hread _ n 0).trans
      (State.rb_wb_same _ _ true n 0 rfl)
  · exact (pulseStart_kept (harmed.trans (.of_regs hread)) (startKeys_not_armed n)).trans hstart

theorem pulseCancel_exec :
    ∃ t, exec (.ttuPulseCancel h n start 0) s = .next t ∧ Posted s t h stOk 0 ∧ t.rb Reg.TTU_PULSE.ARMED n = false := by
  obtain ⟨i, xs, k, hx⟩ := ring_exec (c := .ttuPulseCancel h n start 0) rfl ht
  rw [ttuPulseSet_cancel (s := handed s i xs k) h hn hm hns] at hx
  generalize hv : ttuSetPulse ((startWritten (handed s i xs k) n start).wb Reg.TTU_PULSE.ARMED false n) n
    { ttuPulse (handed s i xs k) n with atStep := none } = v at hx
  have hk : CommandKept s v := hv ▸ ⟨rfl, rfl, rfl, rfl, rfl⟩
  have hregs : v.regs = ((startWritten (handed s i xs k) n start).wb Reg.TTU_PULSE.ARMED false n).regs := hv ▸ rfl
  have hpost := hk.posted ht h stOk 0
  have hread := (rb_of_regs ((complete_regs v h stOk 0).trans hregs) Reg.TTU_PULSE.ARMED n 0).trans
    (State.rb_wb_same _ _ false n 0 rfl)
  generalize complete v h stOk = w at hx hpost hread
  exact ⟨_, hx, hpost, hread⟩

end

/-! ### A packet put into the Cell Pool, for the unit that puts it (R367 to R371) -/

/-- From s to t what was put out stays, and every register below HST's block but those listed. -/
def ProducerKept (ks : List Nat) (s t : State) : Prop :=
  t.out = s.out ∧ ∀ k, k < 32 * 0xD0000 → k ∉ ks → mget 0 t.regs k = mget 0 s.regs k

theorem ProducerKept.rfl' (ks : List Nat) (s : State) : ProducerKept ks s s := ⟨rfl, fun _ _ _ => rfl⟩

theorem ProducerKept.trans {ks : List Nat} {s t u : State} (h : ProducerKept ks s t) (k : ProducerKept ks t u) :
    ProducerKept ks s u :=
  ⟨k.1.trans h.1, fun i hi hn => (k.2 i hi hn).trans (h.2 i hi hn)⟩

theorem ProducerKept.r {ks : List Nat} {s t : State} (h : ProducerKept ks s t) (f : Field) (i j : Nat)
    (hlow : f.key i j < 32 * 0xD0000) (hk : f.key i j ∉ ks) : t.r f i j = s.r f i j := by
  unfold State.r; rw [h.2 _ hlow hk]

theorem ProducerKept.ite {ks : List Nat} {s a b : State} {c : Prop} [Decidable c] (h : ProducerKept ks s a)
    (k : ProducerKept ks s b) : ProducerKept ks s (if c then a else b) := by
  split
  · exact h
  · exact k

theorem w_producerKept {ks : List Nat} (s : State) (f : Field) (v i j : Nat) (h : f.key i j ∈ ks) :
    ProducerKept ks s (s.w f v i j) :=
  ⟨rfl, fun _ _ hn => mget_mput_ne 0 s.regs _ fun he => hn (he ▸ h)⟩

/-- A write of a register of HST or a later block. -/
theorem w_producerKept_above (ks : List Nat) (s : State) (f : Field) (v i j : Nat) (h : 0xD0000 ≤ f.off) :
    ProducerKept ks s (s.w f v i j) := by
  refine ⟨rfl, fun k hk _ => mget_mput_ne 0 s.regs _ fun he => ?_⟩
  have : f.off ≤ f.off + f.s1 * i + f.s2 * j := by omega
  unfold Field.key at he
  omega

theorem raise_producerKept (ks : List Nat) (s : State) (e d : Nat) (he : e < 512) : ProducerKept ks s (raise s e d) :=
  ⟨raise_out s e d, fun k hk _ => raise_keys s e d k he (not_evtKey hk)⟩

theorem raiseTickKey_producerKept (ks : List Nat) (s : State) (key e d : Nat) (he : e < 512) :
    ProducerKept ks s (raiseTickKey s key e d) := by
  unfold raiseTickKey
  exact .ite (.rfl' _ _) (raise_producerKept ks { s with onceTick := s.onceTick ++ [key] } e d he)

theorem cplSetCells_producerKept (ks : List Nat) (s : State) (q c : Nat) : ProducerKept ks s (cplSetCells s q c) := by
  unfold cplSetCells
  extract_lets old mn free free' _ u v thr
  have hv : ProducerKept ks s v := (w_producerKept_above ks u Reg.CPL_Q.CELLS c q 0 (by decide)).trans
    (w_producerKept_above ks _ Reg.CPL_STATUS.FREE_CELLS free' 0 0 (by decide))
  exact .ite (hv.trans (raise_producerKept ks v 450 _ (by decide))) hv

theorem cplDropOldest_producerKept (ks : List Nat) (s : State) (q g : Nat) : ProducerKept ks s (cplDropOldest s q g) := by
  unfold cplDropOldest
  extract_lets v out u w x
  have hw : ProducerKept ks s w := cplSetCells_producerKept ks u q _
  have hx : ProducerKept ks w x := w_producerKept_above ks w Reg.CPL_Q.PKTS _ q 0 (by decide)
  exact .ite (.rfl' _ s) (((hw.trans hx).trans (w_producerKept_above ks x Reg.CPL_Q.LOST _ q 0 (by decide))).trans
    (raiseTickKey_producerKept ks _ 449 449 _ (by decide)))

theorem cplBegin_producerKept (ks : List Nat) (s : State) (q len : Nat) : ProducerKept ks s (cplBegin s q len).2 := by
  unfold cplBegin
  split
  · exact (w_producerKept_above ks s Reg.CPL_COUNTS.NOQ_DROP _ 0 0 (by decide)).trans
      (raiseTickKey_producerKept ks _ 452 452 _ (by decide))
  · extract_lets n v
    split
    · exact (w_producerKept_above ks s Reg.CPL_COUNTS.POOL_DROP _ 0 0 (by decide)).trans
        (raiseTickKey_producerKept ks _ 449 449 _ (by decide))
    · rename_i g _
      exact (cplDropOldest_producerKept ks s q g).trans (cplSetCells_producerKept ks (cplSetQ _ q _) q _)

theorem cplCommit_producerKept (ks : List Nat) (s : State) (q : Nat) (data : List Byte) :
    ProducerKept ks s (cplCommit s q data) := by
  unfold cplCommit
  extract_lets v u w
  have hw : ProducerKept ks s w := w_producerKept_above ks u Reg.CPL_Q.PKTS _ q 0 (by decide)
  exact .ite (hw.trans (raiseTickKey_producerKept ks w _ 448 _ (by decide))) hw

/-- A packet put into the pool puts nothing out and writes no register below HST's block. -/
theorem cplPut_producerKept (ks : List Nat) (s : State) (q : Nat) (data : List Byte) : ProducerKept ks s (cplPut s q data) := by
  have h := cplBegin_producerKept ks s q data.length
  unfold cplPut
  generalize cplBegin s q data.length = p at h
  obtain ⟨b, u⟩ := p
  cases b with
  | true => exact h.trans (cplCommit_producerKept ks u q data)
  | false => exact h

/-! ### The edge of an armed output (R76, R78) -/

/-- The registers a pulse record is shown in. -/
def recordKeys (n : Nat) : List Nat := [Reg.TTU_PULSE.LAST_STEP.key n 0, Reg.TTU_PULSE.LAST_MISSED.key n 0]

theorem pulseRecord_kept (s : State) (n stamp : Nat) (step missed : Bool) :
    ProducerKept (recordKeys n) s (pulseRecord s n stamp step missed) := by
  unfold pulseRecord
  extract_lets fl s1 s2 s3
  have h1 : ProducerKept (recordKeys n) s s1 := cplPut_producerKept _ s _ _
  have h2 : ProducerKept (recordKeys n) s1 s2 :=
    (w_producerKept s1 _ _ n 0 (by simp [recordKeys])).trans (w_producerKept _ _ _ n 0 (by simp [recordKeys]))
  have h3 : ProducerKept (recordKeys n) s2 s3 := .ite (raise_producerKept _ s2 11 n (by decide)) (.rfl' _ s2)
  exact h1.trans (h2.trans (h3.trans (.ite (raise_producerKept _ s3 12 n (by decide)) (.rfl' _ s3))))

/-- Output n has counted an edge and is no longer armed. -/
def pulseCounted (s : State) (n : Nat) : State :=
  ((s.w Reg.TTU_PULSE.COUNT_LO (pulseCount s n + 1) n).w Reg.TTU_PULSE.COUNT_HI ((pulseCount s n + 1) / 2 ^ 32) n).wb
    Reg.TTU_PULSE.ARMED false n

theorem pulseCounted_kept (s : State) (n : Nat) : RegsKept [Reg.TTU_PULSE.COUNT_LO.key n 0, Reg.TTU_PULSE.COUNT_HI.key n 0,
    Reg.TTU_PULSE.ARMED.key n 0] s (pulseCounted s n) :=
  (((RegsKept.rfl' _ s).w _ _ n 0 (by simp)).w _ _ n 0 (by simp)).w _ _ n 0 (by simp)

theorem pulseCount_pulseCounted (s : State) (n : Nat) : pulseCount (pulseCounted s n) n = (pulseCount s n + 1) % 2 ^ 64 := by
  have rHi : (pulseCounted s n).r Reg.TTU_PULSE.COUNT_HI n = (pulseCount s n + 1) / 2 ^ 32 % 2 ^ 32 :=
    (r_w_other _ Reg.TTU_PULSE.ARMED Reg.TTU_PULSE.COUNT_HI _ n rfl (by decide)).trans (State.r_w_same _ _ _ _ _)
  have rLo : (pulseCounted s n).r Reg.TTU_PULSE.COUNT_LO n = (pulseCount s n + 1) % 2 ^ 32 :=
    (r_w_other _ Reg.TTU_PULSE.ARMED Reg.TTU_PULSE.COUNT_LO _ n rfl (by decide)).trans
      ((r_w_other _ Reg.TTU_PULSE.COUNT_HI Reg.TTU_PULSE.COUNT_LO _ n rfl (by decide)).trans (State.r_w_same _ _ _ _ _))
  rw [pulseCount, rLo, rHi]
  omega

theorem pulseWidth_pulseCounted (s : State) (n : Nat) : pulseWidth (pulseCounted s n) n = pulseWidth s n := by
  have hr : ∀ f : Field, f.s1 = 0x40 → 32 * f.off + f.lsb < 32 * 0x320 → (pulseCounted s n).r f n = s.r f n := fun f h1 hlow =>
    (pulseCounted_kept s n).r f n 0 (by
      simp only [List.mem_cons, List.not_mem_nil, or_false, Field.key, h1, Reg.TTU_PULSE.COUNT_LO, Reg.TTU_PULSE.COUNT_HI,
        Reg.TTU_PULSE.ARMED, Field.idx, fld]
      omega)
  unfold pulseWidth pulsePeriod
  rw [hr _ rfl (by decide), hr _ rfl (by decide), hr _ rfl (by decide)]

theorem pulsePol_pulseCounted (s : State) (n : Nat) : (pulseCounted s n).rb Reg.TTU_PULSE.POL n = s.rb Reg.TTU_PULSE.POL n := by
  unfold State.rb
  rw [(pulseCounted_kept s n).r Reg.TTU_PULSE.POL n 0 (by
    simp only [List.mem_cons, List.not_mem_nil, or_false, Field.key, Reg.TTU_PULSE.POL, Reg.TTU_PULSE.COUNT_LO,
      Reg.TTU_PULSE.COUNT_HI, Reg.TTU_PULSE.ARMED, Field.idx, fld]
    omega)]

section
variable {s : State} {n : Nat} (hen : s.rb Reg.TTU_PULSE.EN n = true) (hm : s.rb Reg.TTU_PULSE.MODE n = true)
  (harm : s.rb Reg.TTU_PULSE.ARMED n = true) (hstep : (ttuPulse s n).atStep = none) (hper : 100 * uNs ≤ pulsePeriod s n)
  (hlo : s.tb (s.r Reg.TTU_PULSE.TB_SEL n) 0 ≤ pulseStart s n)
  (hhi : pulseStart s n < s.tb (s.r Reg.TTU_PULSE.TB_SEL n) 0 + baseAdv s (s.r Reg.TTU_PULSE.TB_SEL n))
include hen hm harm hstep hper hlo hhi

theorem pulseNext_armed : pulseNext s n = some (pulseStart s n) := by
  unfold pulseNext
  simp only [pulseOn, hen, hper, hm, harm, hstep, hlo, hhi, decide_true, Bool.and_self, Bool.true_eq_false, if_false,
    if_true, and_self]

/-- The edge of an output armed for an instant of the tick: counted, put out at START, and recorded. -/
theorem ttuPulseEdge_armed (hd : s.mode ≠ .dead) : ∃ p step, ttuPulseEdge n s
    = pulseRecord ((ttuSetPulse (pulseCounted s n) n p).emit
        (.pulse n (pulseGrid (pulseStart s n)) (pulseWidth s n) (!s.rb Reg.TTU_PULSE.POL n)))
        n (pulseGrid (pulseStart s n)) step false := by
  rw [← pulseWidth_pulseCounted, ← pulsePol_pulseCounted]
  unfold ttuPulseEdge
  rw [if_neg (by simpa using hd), pulseNext_armed hen hm harm hstep hper hlo hhi]
  exact ⟨_, _, rfl⟩

end

/-- COUNT and ARMED are not among the registers a pulse record is shown in. -/
theorem countedFields_kept (n : Fin 4) : ∀ f ∈ [Reg.TTU_PULSE.COUNT_LO, Reg.TTU_PULSE.COUNT_HI, Reg.TTU_PULSE.ARMED],
    f.key n 0 < 32 * 0xD0000 ∧ f.key n 0 ∉ recordKeys n := by
  revert n
  decide

theorem pulseEdge_exec {s : State} (n : Fin 4) (ha : Awake s) (hen : s.rb Reg.TTU_PULSE.EN n = true)
    (hm : s.rb Reg.TTU_PULSE.MODE n = true) (harm : s.rb Reg.TTU_PULSE.ARMED n = true) (hstep : (ttuPulse s n).atStep = none)
    (hper : 100 * uNs ≤ pulsePeriod s n) (hlo : s.tb (s.r Reg.TTU_PULSE.TB_SEL n) 0 ≤ pulseStart s n)
    (hhi : pulseStart s n < s.tb (s.r Reg.TTU_PULSE.TB_SEL n) 0 + baseAdv s (s.r Reg.TTU_PULSE.TB_SEL n)) :
    ∃ t, exec (.pulseEdge n) s = .next t
      ∧ .pulse n (pulseGrid (pulseStart s n)) (pulseWidth s n) (!s.rb Reg.TTU_PULSE.POL n) ∈ t.out
      ∧ pulseCount t n = (pulseCount s n + 1) % 2 ^ 64 ∧ t.rb Reg.TTU_PULSE.ARMED n = false := by
  obtain ⟨hh, _, hd⟩ := ha
  have hx : exec (.pulseEdge n) s = _ := withOut_live s (ttuPulseEdge n) hh
  obtain ⟨p, step, he⟩ := ttuPulseEdge_armed (s := s.start.atInst none) hen hm harm hstep hper hlo hhi hd
  rw [he] at hx
  have hcount := pulseCount_pulseCounted (s.start.atInst none) n
  have harmed : (pulseCounted (s.start.atInst none) n).rb Reg.TTU_PULSE.ARMED n = false :=
    State.rb_wb_same _ Reg.TTU_PULSE.ARMED false n 0 rfl
  generalize hu : (ttuSetPulse (pulseCounted (s.start.atInst none) n) n p).emit _ = u at hx
  have hout : u.out = [.pulse n (pulseGrid (pulseStart s n)) (pulseWidth s n) (!s.rb Reg.TTU_PULSE.POL n)] := hu ▸ rfl
  have hregs : u.regs = (pulseCounted (s.start.atInst none) n).regs := hu ▸ rfl
  have hk := pulseRecord_kept u n (pulseGrid (pulseStart (s.start.atInst none) n)) step false
  generalize pulseRecord u n (pulseGrid (pulseStart (s.start.atInst none) n)) step false = v at hx hk
  have hr : ∀ f ∈ [Reg.TTU_PULSE.COUNT_LO, Reg.TTU_PULSE.COUNT_HI, Reg.TTU_PULSE.ARMED],
      v.r f n = (pulseCounted (s.start.atInst none) n).r f n := fun f hf =>
    (hk.r f n 0 (countedFields_kept n f hf).1 (countedFields_kept n f hf).2).trans (r_of_regs hregs f n 0)
  have hcountv : pulseCount v n = (pulseCount s n + 1) % 2 ^ 64 := by
    unfold pulseCount at hcount ⊢
    rw [hr _ (by simp), hr _ (by simp)]
    exact hcount
  have harmedv : v.rb Reg.TTU_PULSE.ARMED n = false := by
    unfold State.rb at harmed ⊢
    rw [hr _ (by simp)]
    exact harmed
  have hpulse : .pulse n (pulseGrid (pulseStart s n)) (pulseWidth s n) (!s.rb Reg.TTU_PULSE.POL n) ∈ v.out := by
    rw [hk.1, hout]
    exact List.mem_singleton.2 rfl
  exact ⟨_, hx, hpulse, hcountv, harmedv⟩

/-- Settles O12: TTU_PULSE_SET with ARM and with CANCEL, and the edge of an armed output. -/
theorem onceModePulsesArmCancelAndFire : Obligations.once_mode_pulses_arm_cancel_and_fire := by
  unfold Obligations.once_mode_pulses_arm_cancel_and_fire
  exact ⟨fun s h n start ht hn hm hns hsub hsec => ⟨pulseArm_exec h ht hn hm hns hsub hsec, pulseCancel_exec h ht hn hm hns⟩,
    fun s n => pulseEdge_exec n⟩

end Sys2Proof.Machine

/-! PROOF. Time inputs: captures, PPS edges, and sources that are lost (R61, R63, R68, R79, R81). -/

namespace Sys2Proof.Machine

open Sys2Proof

/-! ### What the judging of the sources leaves alone (R61, R68) -/

/-- From s to t every register but those listed and those a raising writes, the range of REF10M_IN and the run of PPS edges
stay. -/
def SourcesKept (ks : List Nat) (s t : State) : Prop :=
  RegsKept (ks ++ evtKeys) s t ∧ t.ttu.refOk = s.ttu.refOk ∧ t.ttu.ppsRun = s.ttu.ppsRun

/-- The registers a change of TIME_STATE writes. -/
def stateKeys : List Nat :=
  [Reg.TTU_TIME_STATE.STATE.key 0 0, Reg.TTU_DISC_TIME.DISC_S.key 0 0, Reg.TTU_TIME_STATE.DISC_24H.key 0 0]

/-- The registers that show which source is selected, its offset and TIME_STATE. -/
def judgeKeys : List Nat := Reg.TTU_TIME_STATE.SRC.key 0 0 :: Reg.TTU_OFFSET.OFFSET_LO.key 0 0 :: stateKeys

theorem SourcesKept.rfl' (ks : List Nat) (s : State) : SourcesKept ks s s := ⟨.rfl' _ s, rfl, rfl⟩

theorem SourcesKept.trans {ks : List Nat} {s t u : State} (h : SourcesKept ks s t) (k : SourcesKept ks t u) :
    SourcesKept ks s u :=
  ⟨h.1.trans k.1, k.2.1.trans h.2.1, k.2.2.trans h.2.2⟩

theorem SourcesKept.mono {ks ls : List Nat} {s t : State} (h : SourcesKept ks s t) (hs : ∀ k ∈ ks, k ∈ ls) :
    SourcesKept ls s t :=
  ⟨h.1.mono fun k hk => List.mem_append.2 ((List.mem_append.1 hk).imp_left (hs k)), h.2⟩

theorem SourcesKept.r {ks : List Nat} {s t : State} (h : SourcesKept ks s t) (f : Field)
    (hk : f.key 0 0 ∉ ks ++ evtKeys) : t.r f = s.r f := h.1.r f 0 0 hk

theorem SourcesKept.rb {ks : List Nat} {s t : State} (h : SourcesKept ks s t) (f : Field)
    (hk : f.key 0 0 ∉ ks ++ evtKeys) : t.rb f = s.rb f := by
  unfold State.rb; rw [h.r f hk]

theorem w_sourcesKept {ks : List Nat} (s : State) (f : Field) (v : Nat) (h : f.key 0 0 ∈ ks) : SourcesKept ks s (s.w f v) :=
  ⟨(RegsKept.rfl' _ s).w f v 0 0 (List.mem_append_left _ h), rfl, rfl⟩

theorem raise_sourcesKept (ks : List Nat) (s : State) (e d : Nat) (he : e < 512) : SourcesKept ks s (raise s e d) :=
  ⟨fun k hk => raise_keys s e d k he fun h => hk (List.mem_append_right _ h), by rw [raise_ttu], by rw [raise_ttu]⟩

/-- A condition on the state chooses between it and a change that keeps the sources. -/
theorem ite_sourcesKept {ks : List Nat} (s : State) (c : Prop) [Decidable c] (f : State → State) (h : SourcesKept ks s (f s)) :
    SourcesKept ks s (if c then f s else s) := by
  split
  · exact h
  · exact .rfl' ks s

theorem ttuLossNow_sourcesKept (ks : List Nat) (s : State) : SourcesKept ks s (ttuLossNow s) := ⟨.rfl' _ s, rfl, rfl⟩

theorem ttuDiscReset_sourcesKept {ks : List Nat} (s : State) (hs : Reg.TTU_DISC_TIME.DISC_S.key 0 0 ∈ ks)
    (h24 : Reg.TTU_TIME_STATE.DISC_24H.key 0 0 ∈ ks) : SourcesKept ks s (ttuDiscReset s) :=
  ⟨((w_sourcesKept s _ 0 hs).trans (w_sourcesKept _ _ (b2n false) h24)).1, rfl, rfl⟩

theorem ttuSetState_sourcesKept (s : State) (v : Nat) : SourcesKept stateKeys s (ttuSetState s v) := by
  unfold ttuSetState
  split
  · exact .rfl' _ s
  · extract_lets s1 s2 s3
    have h1 : SourcesKept stateKeys s s1 := w_sourcesKept s _ v (by decide)
    have h2 : SourcesKept stateKeys s1 s2 := ite_sourcesKept s1 (v = 3 ∨ v = 4) ttuDiscReset
      (ttuDiscReset_sourcesKept s1 (by decide) (by decide))
    have h3 : SourcesKept stateKeys s2 s3 := raise_sourcesKept _ s2 6 _ (by decide)
    exact h1.trans (h2.trans (h3.trans (ite_sourcesKept s3 (v = 4) (raise · 9) (raise_sourcesKept _ s3 9 _ (by decide)))))

/-- TIME_STATE shows the value it takes. -/
theorem ttuState_ttuSetState (s : State) {v : Nat} (hv : v < 8) : ttuState (ttuSetState s v) = v := by
  have hstate : ∀ (u : State) (e d : Nat), e < 512 → ttuState (raise u e d) = ttuState u := fun u e d he =>
    raise_field u e d Reg.TTU_TIME_STATE.STATE 0 0 he (by decide)
  unfold ttuSetState
  split
  · assumption
  · extract_lets s1 s2 s3
    have h1 : ttuState s1 = v := (State.r_w_same s _ v 0 0).trans (Nat.mod_eq_of_lt hv)
    have h2 : ttuState s2 = ttuState s1 := by
      have h : SourcesKept [Reg.TTU_DISC_TIME.DISC_S.key 0 0, Reg.TTU_TIME_STATE.DISC_24H.key 0 0] s1 s2 :=
        ite_sourcesKept s1 (v = 3 ∨ v = 4) ttuDiscReset (ttuDiscReset_sourcesKept s1 (by decide) (by decide))
      exact h.r Reg.TTU_TIME_STATE.STATE (by decide)
    have h3 : ttuState s3 = v := (hstate s2 6 _ (by decide)).trans (h2.trans h1)
    split
    · exact (hstate s3 9 _ (by decide)).trans h3
    · exact h3

theorem ttuOffsetRule_sourcesKept (s : State) (watch : Bool) (i : Nat) : SourcesKept judgeKeys s (ttuOffsetRule s watch i) := by
  have hset : ∀ (u : State) (v : Nat), SourcesKept judgeKeys u (ttuSetState u v) := fun u v =>
    (ttuSetState_sourcesKept u v).mono fun k hk => List.mem_cons_of_mem _ (List.mem_cons_of_mem _ hk)
  unfold ttuOffsetRule
  extract_lets o s1 s2 _ s3 s4
  have h1 : SourcesKept judgeKeys s s1 := w_sourcesKept s _ i (by decide)
  have h2 : SourcesKept judgeKeys s1 s2 :=
    ⟨(w_sourcesKept s1 Reg.TTU_OFFSET.OFFSET_LO (ofSigned 64 o) (by decide : _ ∈ judgeKeys)).1, rfl, rfl⟩
  split
  · have h3 : SourcesKept judgeKeys s2 s3 := ⟨.rfl' _ s2, rfl, rfl⟩
    exact h1.trans (h2.trans (h3.trans (hset s3 2)))
  · have h4 : SourcesKept judgeKeys s2 s4 := ite_sourcesKept s2 _ ttuLossNow (ttuLossNow_sourcesKept _ s2)
    exact h1.trans (h2.trans (h4.trans (hset s4 4)))

theorem ttuLost_sourcesKept (s : State) (watch : Bool) : SourcesKept judgeKeys s (ttuLost s watch) := by
  unfold ttuLost
  extract_lets s1
  have h1 : SourcesKept judgeKeys s s1 :=
    (w_sourcesKept s Reg.TTU_TIME_STATE.SRC 3 (by decide)).trans (raise_sourcesKept _ _ 7 _ (by decide))
  split
  · exact h1.trans ((raise_sourcesKept _ s1 8 _ (by decide)).trans (ttuOffsetRule_sourcesKept _ _ _))
  · split
    · exact h1
    · exact h1.trans ((ttuLossNow_sourcesKept _ s1).trans ((ttuSetState_sourcesKept _ 3).mono fun k hk =>
        List.mem_cons_of_mem _ (List.mem_cons_of_mem _ hk)))

/-! ### Qualified, enabled and selected sources (R61, R62) -/

theorem SourcesKept.srcQ {s t : State} (h : SourcesKept judgeKeys s t) (i : Nat) : srcQ t i = srcQ s i := by
  unfold Machine.srcQ
  split
  · exact h.rb Reg.TTU_TIME_STATE.Q_GNSS (by decide)
  · exact h.rb Reg.TTU_TIME_STATE.Q_REF (by decide)
  · exact h.rb Reg.TTU_TIME_STATE.Q_PTP (by decide)

theorem SourcesKept.srcUsable {s t : State} (h : SourcesKept judgeKeys s t) (i : Nat) : srcUsable t i = srcUsable s i := by
  have hen : srcEn t i = srcEn s i := by
    unfold srcEn
    split
    · exact h.rb Reg.TTU_TIME_CFG.EN_GNSS (by decide)
    · exact h.rb Reg.TTU_TIME_CFG.EN_REF (by decide)
    · exact h.rb Reg.TTU_TIME_CFG.EN_PTP (by decide)
  unfold Machine.srcUsable
  rw [h.srcQ i, hen]

/-- The flag that tells whether a source is qualified. -/
def qualField : Fin 3 → Field
  | 0 => Reg.TTU_TIME_STATE.Q_GNSS
  | 1 => Reg.TTU_TIME_STATE.Q_REF
  | 2 => Reg.TTU_TIME_STATE.Q_PTP

theorem srcQ_eq (s : State) (i : Fin 3) : srcQ s i = s.rb (qualField i) := by
  match i with
  | 0 => rfl
  | 1 => rfl
  | 2 => rfl

theorem srcSetQ_eq (s : State) (i : Fin 3) (q : Bool) : srcSetQ s i q = s.wb (qualField i) q := by
  match i with
  | 0 => rfl
  | 1 => rfl
  | 2 => rfl

theorem srcQ_srcSetQ_same (s : State) (i : Fin 3) (q : Bool) : srcQ (srcSetQ s i q) i = q := by
  rw [srcQ_eq, srcSetQ_eq]
  exact State.rb_wb_same s _ q 0 0 (by revert i; decide)

/-- The qualification of the three sources. -/
def qualKeys : List Nat :=
  [Reg.TTU_TIME_STATE.Q_GNSS.key 0 0, Reg.TTU_TIME_STATE.Q_REF.key 0 0, Reg.TTU_TIME_STATE.Q_PTP.key 0 0]

theorem srcSetQ_only (s : State) (i : Fin 3) (q : Bool) : RegsOnly qualKeys s (srcSetQ s i q) := by
  rw [srcSetQ_eq]
  exact (RegsOnly.rfl' _ s).w _ _ 0 0 (by revert i; decide)

/-- The qualification of one source leaves the other two as they were. -/
theorem srcUsable_srcSetQ_ne (s : State) {i j : Fin 3} (q : Bool) (h : j ≠ i) :
    srcUsable (srcSetQ s i q) j = srcUsable s j := by
  have hq : srcQ (srcSetQ s i q) j = srcQ s j := by
    have hne : ∀ i j : Fin 3, j ≠ i → (qualField j).key 0 0 ≠ (qualField i).key 0 0 := by decide
    rw [srcQ_eq, srcQ_eq, srcSetQ_eq]
    exact State.rb_w_ne s _ _ _ 0 0 0 0 (hne i j h)
  have hen : srcEn (srcSetQ s i q) j = srcEn s j := by
    have hr : ∀ f : Field, f.key 0 0 ∉ qualKeys → (srcSetQ s i q).rb f = s.rb f := fun f hf => by
      unfold State.rb; rw [(srcSetQ_only s i q).2.r f 0 0 hf]
    unfold srcEn
    split
    · exact hr _ (by decide)
    · exact hr _ (by decide)
    · exact hr _ (by decide)
  unfold srcUsable
  rw [hq, hen]

theorem srcBest_none {s : State} (h : ∀ i : Fin 3, srcUsable s i = false) : srcBest s = none := by
  have h0 : srcUsable s 0 = false := h 0
  have h1 : srcUsable s 1 = false := h 1
  have h2 : srcUsable s 2 = false := h 2
  simp [srcBest, srcBetter, h0, h1, h2]

/-- The selected source is lost and none is usable: TIME_STATE is DEAD_RECKONING with SRC 3 (row 4 of R68). -/
theorem ttuLost_deadReckoning {s : State} (watch : Bool) (hu : ∀ i : Fin 3, srcUsable s i = false) (h4 : ttuState s ≠ 4) :
    ttuState (ttuLost s watch) = 3 ∧ (ttuLost s watch).r Reg.TTU_TIME_STATE.SRC = 3 := by
  have h1 : SourcesKept [Reg.TTU_TIME_STATE.SRC.key 0 0] s (raise (s.w Reg.TTU_TIME_STATE.SRC 3) 7) :=
    (w_sourcesKept s Reg.TTU_TIME_STATE.SRC 3 (by decide)).trans (raise_sourcesKept _ _ 7 _ (by decide))
  have hsrc : (raise (s.w Reg.TTU_TIME_STATE.SRC 3) 7).r Reg.TTU_TIME_STATE.SRC = 3 :=
    (raise_field _ 7 _ Reg.TTU_TIME_STATE.SRC 0 0 (by decide) (by decide)).trans (State.r_w_same s _ 3 0 0)
  unfold ttuLost
  generalize raise (s.w Reg.TTU_TIME_STATE.SRC 3) 7 = s1 at h1 hsrc ⊢
  have hnone : srcBest s1 = none := srcBest_none fun i =>
    ((h1.mono (by decide)).srcUsable i).trans (hu i)
  have hstate : ttuState s1 ≠ 4 := (h1.r Reg.TTU_TIME_STATE.STATE (by decide)).trans_ne h4
  dsimp only
  rw [hnone]
  dsimp only
  rw [if_neg hstate]
  exact ⟨ttuState_ttuSetState _ (by decide),
    ((ttuSetState_sourcesKept (ttuLossNow s1) 3).r Reg.TTU_TIME_STATE.SRC (by decide)).trans hsrc⟩

/-! ### A source meets its loss condition (R61, R68) -/

theorem ttuSourceLost_unqualified (s : State) (i : Fin 3) : srcQ (ttuSourceLost i s) i = false := by
  have hq := srcQ_srcSetQ_same s i false
  unfold ttuSourceLost
  generalize srcSetQ s i false = u at hq ⊢
  dsimp only
  split
  · exact ((ttuLost_sourcesKept u false).srcQ i).trans hq
  · exact hq

/-- A source that is not selected only ceases to be qualified. -/
theorem ttuSourceLost_other {s : State} {i : Fin 3} (h : s.r Reg.TTU_TIME_STATE.SRC ≠ i) :
    ttuSourceLost i s = srcSetQ s i false := by
  have hsrc : (srcSetQ s i false).r Reg.TTU_TIME_STATE.SRC = s.r Reg.TTU_TIME_STATE.SRC :=
    (srcSetQ_only s i false).2.r _ 0 0 (by decide)
  unfold ttuSourceLost
  dsimp only
  rw [hsrc, if_neg fun hc => h hc.1]

/-- The one usable source is lost out of LOCKED or SLEWING. -/
theorem ttuSourceLost_last {s : State} {i : Fin 3} (hs : s.r Reg.TTU_TIME_STATE.SRC = i) (ha : s.ttu.stepAmt = none)
    (hf : s.twn.follows = false) (hu : ∀ j : Fin 3, j ≠ i → srcUsable s j = false) (hst : ttuState s = 1 ∨ ttuState s = 2) :
    ttuState (ttuSourceLost i s) = 3 ∧ (ttuSourceLost i s).r Reg.TTU_TIME_STATE.SRC = 3 := by
  obtain ⟨honly, hregs⟩ := srcSetQ_only s i false
  have hsrc : (srcSetQ s i false).r Reg.TTU_TIME_STATE.SRC = i := (hregs.r _ 0 0 (by decide)).trans hs
  have hstep : (srcSetQ s i false).ttu.stepAmt.isNone = true := by rw [honly, ha]; rfl
  have hfol : (srcSetQ s i false).twn.follows = false := by rw [honly]; exact hf
  have hstate : ttuState (srcSetQ s i false) = ttuState s := hregs.r _ 0 0 (by decide)
  have hnone : ∀ j : Fin 3, srcUsable (srcSetQ s i false) j = false := fun j => by
    by_cases hj : j = i
    · unfold srcUsable
      rw [hj, srcQ_srcSetQ_same]
      rfl
    · exact (srcUsable_srcSetQ_ne s false hj).trans (hu j hj)
  unfold ttuSourceLost
  dsimp only
  rw [if_pos ⟨hsrc, hstep, hfol⟩]
  exact ttuLost_deadReckoning false hnone (by omega)

/-- Beside the range of REF10M_IN, its check changes only what a raising does. -/
theorem ttuRefRange_sourcesKept (ks : List Nat) (s : State) (ok : Bool) :
    SourcesKept ks { s with ttu := { s.ttu with refOk := ok } } (ttuRefRange s ok) := by
  unfold ttuRefRange
  exact ite_sourcesKept { s with ttu := { s.ttu with refOk := ok } } _ (raise · 15) (raise_sourcesKept ks _ 15 _ (by decide))

/-- REF10M_IN out of range ends the qualification of REF, and the run of PPS edges stands. -/
theorem ttuRefFault_ref (s : State) : (ttuRefFault s).rb Reg.TTU_TIME_STATE.Q_REF = false
    ∧ (ttuRefFault s).ttu.refOk = false ∧ (ttuRefFault s).ttu.ppsRun = s.ttu.ppsRun := by
  have hq : (srcSetQ s 1 false).rb Reg.TTU_TIME_STATE.Q_REF = false := srcQ_srcSetQ_same s 1 false
  have hrun : (srcSetQ s 1 false).ttu.ppsRun = s.ttu.ppsRun := rfl
  unfold ttuRefFault
  generalize srcSetQ s 1 false = u at hq hrun ⊢
  extract_lets v
  have hv : SourcesKept judgeKeys { u with ttu := { u.ttu with refOk := false } } v := ttuRefRange_sourcesKept _ u false
  have hend := hv.trans (ite_sourcesKept v (v.r Reg.TTU_TIME_STATE.SRC = 1 ∧ v.ttu.stepAmt.isNone = true
    ∧ v.twn.follows = false) (ttuLost · false) (ttuLost_sourcesKept v false))
  exact ⟨(hend.rb Reg.TTU_TIME_STATE.Q_REF (by decide)).trans hq, hend.2.1, hend.2.2.trans hrun⟩

/-! ### Captures and PPS edges (R63, R79, R81) -/

/-- The first 12 bytes of a time record are its stamp. -/
theorem timeRecord_take (stamp kind index flags count tick : Nat) :
    (timeRecord stamp kind index flags count tick).take 12 = stampBytes stamp := by
  have hlen : (stampBytes stamp).length = 12 := by
    unfold stampBytes
    simp only [List.length_append, le_length]
  unfold timeRecord
  simp only [List.append_assoc]
  exact List.take_left' hlen

@[simp] theorem ttuCapt_ttuSetCapt_same (s : State) (n : Nat) (c : CaptSt) : ttuCapt (ttuSetCapt s n c) n = c :=
  mget_mput_same _ _ _ _

/-- An edge a capture input waits for, not too near the last one and with room for its record, is recorded. -/
theorem ttuCapture_records {s : State} {n : Nat} {falling : Bool} {a : Nat} (hd : s.mode ≠ .dead)
    (hen : s.rb Reg.TTU_CAPT.EN n = true) (hedge : bitAt (s.r Reg.TTU_CAPT.EDGE n) (b2n falling) = true)
    (hgap : ∀ u, (ttuCapt s n).lastTb3 = some u → u + 100 * uNs ≤ s.ttu.tb3 + a) (hroom : (ttuCapt s n).fifo.length < 16) :
    ∃ flags c, ttuCapture n falling a s
      = (ttuSetCapt s n c).w Reg.TTU_CAPT.FIFO_LEVEL ((ttuCapt s n).fifo.length + 1) n
      ∧ c.fifo = (ttuCapt s n).fifo
        ++ [timeRecord (s.tb (s.r Reg.TTU_CAPT.TB_SEL n) a) 2 n flags ((ttuCapt s n).count + 1) s.tick]
      ∧ c.lastTb3 = some (s.ttu.tb3 + a) := by
  have hclose : (ttuCapt s n).lastTb3.any (fun t => decide (s.ttu.tb3 + a < t + 100 * uNs)) = false := by
    cases hl : (ttuCapt s n).lastTb3 with
    | none => rfl
    | some u =>
      rw [Option.any_some]
      exact decide_eq_false (Nat.not_lt.2 (hgap u hl))
  have hfull : decide (16 ≤ (ttuCapt s n).fifo.length) = false := decide_eq_false (Nat.not_le.2 hroom)
  have hnow : ¬ (s.mode == .dead || !s.rb Reg.TTU_CAPT.EN n || !bitAt (s.r Reg.TTU_CAPT.EDGE n) (b2n falling)) = true := by
    simp [hd, hen, hedge]
  unfold ttuCapture
  rw [if_neg hnow]
  dsimp only
  rw [hclose, hfull, if_neg (by decide)]
  exact ⟨_, _, rfl, rfl, rfl⟩

/-- Settles O13: the recorded edge, the PPS edge, and the loss of REF and of any source. -/
theorem timeInputsAreMeasuredAndLostSourcesLeave : Obligations.time_inputs_are_measured_and_lost_sources_leave := by
  unfold Obligations.time_inputs_are_measured_and_lost_sources_leave
  refine ⟨fun s n falling a hh hd hen hedge hgap hroom => ?_, fun s falling a hh hd hpol => ?_, fun s hh hd => ?_,
    fun s src hh hd => ?_⟩
  · have hx : exec (.captEdge n falling a) s = _ := withOutAt_live s (some a) (ttuCapture n falling a) hh
    obtain ⟨flags, c, hc, hfifo, hlast⟩ := ttuCapture_records (s := s.start.atInst (some a)) hd hen hedge hgap hroom
    rw [hc] at hx
    have hcapt : ttuCapt (ttuSetCapt (s.start.atInst (some a)) n c) n = c := ttuCapt_ttuSetCapt_same _ _ _
    refine ⟨_, _, hx, (congrArg CaptSt.fifo hcapt).trans hfifo, timeRecord_take .., (congrArg CaptSt.lastTb3 hcapt).trans hlast,
      (State.r_w_same _ Reg.TTU_CAPT.FIFO_LEVEL _ _ _).trans (Nat.mod_eq_of_lt ?_), ?_⟩
    · exact lt_of_le_of_lt hroom (by decide)
    · exact (RegsKept.rfl' _ s).w _ _ _ _ (List.mem_singleton.2 rfl)
  · have hx : exec (.ppsEdge falling a) s = _ := notDead_exec (ttuPps falling a) (some a) hh hd
    rw [ttuPps, if_neg (by simp [hpol])] at hx
    exact ⟨_, hx, rfl, rfl, rfl⟩
  · have hx : exec .refFreqFault s = _ := notDead_exec ttuRefFault none hh hd
    have href := ttuRefFault_ref (s.start.atInst none)
    generalize ttuRefFault (s.start.atInst none) = v at hx href
    exact ⟨_, hx, href⟩
  · have hx : exec (.timeSourceLost src) s = _ := notDead_exec (ttuSourceLost src) none hh hd
    refine ⟨_, hx, ttuSourceLost_unqualified (s.start.atInst none) src, fun hsrc => ?_, fun hsrc ha hf hu hst => ?_⟩
    · rw [ttuSourceLost_other (s := s.start.atInst none) hsrc]
      exact (srcSetQ_only (s.start.atInst none) src false).frame
    · exact ttuSourceLost_last (s := s.start.atInst none) hsrc ha hf hu hst

end Sys2Proof.Machine

/-! PROOF. What an Ethernet port reads of its configuration and puts out: the entry of a port, counters, and messages sent
(R86, R88, R94). -/

namespace Sys2Proof.Machine

open Sys2Proof

/-! ### The entry of a port and its counters -/

@[simp] theorem ethPort_setEthPort_same (s : State) (p : Nat) (e : EthPort) : ethPort (setEthPort s p e) p = e :=
  mget_mput_same _ _ _ _

theorem ethPort_setEthPort_ne (s : State) {p q : Nat} (e : EthPort) (h : q ≠ p) :
    ethPort (setEthPort s p e) q = ethPort s q :=
  mget_mput_ne _ _ _ h

@[simp] theorem setEthPort_regs (s : State) (p : Nat) (e : EthPort) : (setEthPort s p e).regs = s.regs := rfl

/-- No raising writes a field of a port. -/
theorem ethKey_calm (f : Field) (p : Fin 2) (h : 32 * (f.off + f.s1) + f.lsb < 32 * 0xD0000) : f.key p 0 ∉ evtKeys := by
  refine not_evtKey ?_
  have hp : f.s1 * p.val ≤ f.s1 * 1 := Nat.mul_le_mul_left _ (by omega)
  unfold Field.key
  omega

theorem satInc_lt (w v : Nat) : satInc w v < 2 ^ w := by
  unfold satInc
  split
  · assumption
  · exact Nat.sub_lt (Nat.two_pow_pos w) (by decide)

/-- A counter that counts once more, saturating. -/
theorem State.r_inc_same (s : State) (f : Field) (i : Nat) : (s.inc f i).r f i = satInc f.width (s.r f i) :=
  (State.r_w_same ..).trans (Nat.mod_eq_of_lt (satInc_lt ..))

theorem inc_regsOnly (s : State) (f : Field) (i : Nat) : RegsOnly [f.key i 0] s (s.inc f i) :=
  (RegsOnly.rfl' _ s).w f _ i 0 (List.mem_singleton.2 rfl)

/-- A value within 32 bits reads back as it was written. -/
theorem toSigned_ofSigned_32 {v : Int} (h1 : -2147483648 ≤ v) (h2 : v ≤ 2147483647) : toSigned 32 (ofSigned 32 v) = v := by
  unfold toSigned ofSigned
  norm_num
  omega

theorem clamp32_bounds (v : Int) : -2147483648 ≤ clamp32 v ∧ clamp32 v ≤ 2147483647 := by
  unfold clamp32
  split
  · omega
  · split <;> omega

/-! ### The configuration in force -/

/-- A configuration field is in force as before where its register and the words held back are as before. -/
theorem ethR_congr {s t : State} {f : Field} {p : Nat} (hw : (ethPort t p).was = (ethPort s p).was)
    (hr : t.r f p = s.r f p) : ethR t f p = ethR s f p := by
  unfold ethR
  rw [hw, hr]

/-! ### Messages sent -/

/-- Message k of port p as it goes out on the port's transport. -/
def ptpOut (s : State) (p k flags : Nat) (corr : Int) (seq ctrl : Nat) (interval : Int) (body : List Byte) : Out :=
  .ptp p (ethRb s Reg.ETH_P_CFG.TRANSPORT p) (ptpTo (ethRb s Reg.ETH_P_CFG.TRANSPORT p) k) k
    (ptpBytes s p k flags corr seq ctrl interval body)

/-- From s to t no register and no configuration of port p changes, and `os` goes out. -/
structure PortSends (p : Nat) (os : List Out) (s t : State) : Prop where
  regs : t.regs = s.regs
  was : (ethPort t p).was = (ethPort s p).was
  out : t.out = s.out ++ os

theorem PortSends.rfl' (p : Nat) (s : State) : PortSends p [] s s := ⟨rfl, rfl, (List.append_nil _).symm⟩

/-- The entry of the port changes, its configuration in force not. -/
theorem PortSends.setEthPort {p : Nat} {os : List Out} {s t : State} (h : PortSends p os s t) (e : EthPort)
    (hw : e.was = (ethPort t p).was) : PortSends p os s (setEthPort t p e) :=
  ⟨h.regs, by rw [ethPort_setEthPort_same, hw, h.was], h.out⟩

theorem PortSends.ethR {p : Nat} {os : List Out} {s t : State} (h : PortSends p os s t) (f : Field) : ethR t f p = ethR s f p :=
  ethR_congr h.was (r_of_regs h.regs ..)

theorem PortSends.ethRb {p : Nat} {os : List Out} {s t : State} (h : PortSends p os s t) (f : Field) :
    ethRb t f p = ethRb s f p := by
  unfold Machine.ethRb; rw [h.ethR]

theorem PortSends.ethRi {p : Nat} {os : List Out} {s t : State} (h : PortSends p os s t) (f : Field) :
    ethRi t f p = ethRi s f p := by
  unfold Machine.ethRi; rw [h.ethR]

theorem PortSends.ethAsym {p : Nat} {os : List Out} {s t : State} (h : PortSends p os s t) : ethAsym t p = ethAsym s p := by
  unfold Machine.ethAsym; rw [h.ethRi]

theorem ethPortId_of_regs {s t : State} (h : t.regs = s.regs) (p : Nat) : ethPortId t p = ethPortId s p := by
  unfold ethPortId ethClockId
  rw [r_of_regs h, r_of_regs h]

theorem ptpBytes_of_regs {s t : State} (h : t.regs = s.regs) (p k flags : Nat) (corr : Int) (seq ctrl : Nat) (interval : Int)
    (body : List Byte) : ptpBytes t p k flags corr seq ctrl interval body = ptpBytes s p k flags corr seq ctrl interval body := by
  unfold ptpBytes
  rw [r_of_regs h, ethPortId_of_regs h]

/-- One more message goes out, in the configuration the port had. -/
theorem PortSends.send {p : Nat} {os : List Out} {s t : State} (h : PortSends p os s t) (k flags : Nat) (corr : Int)
    (seq ctrl : Nat) (interval : Int) (body : List Byte) :
    PortSends p (os ++ [ptpOut s p k flags corr seq ctrl interval body]) s (ptpSend t p k flags corr seq ctrl interval body) := by
  have he : ptpSend t p k flags corr seq ctrl interval body = t.emit (ptpOut s p k flags corr seq ctrl interval body) := by
    unfold ptpSend ptpOut
    rw [h.ethRb, ptpBytes_of_regs h.regs]
  rw [he]
  exact ⟨h.regs, h.was, by rw [State.emit_out, h.out, List.append_assoc]⟩

/-- What goes out hangs on the same condition as the state. -/
theorem PortSends.ite {p : Nat} {as bs : List Out} {s t u : State} (c : Prop) [Decidable c] (h : PortSends p as s t)
    (k : PortSends p bs s u) : PortSends p (if c then as else bs) s (if c then t else u) := by
  split
  · exact h
  · exact k

/-- A command starts with nothing put out. -/
theorem PortSends.sent {p : Nat} {os : List Out} {s u : State} {i : Option Nat} (h : PortSends p os (s.start.atInst i) u) :
    u.out = os ∧ u.regs = s.regs :=
  ⟨h.out.trans (List.nil_append _), h.regs⟩

/-! ### What a command leaves -/

/-- A command leaves what its operation makes of the state it starts from, with the queue and the instant put back. -/
theorem exec_leaves {c : Instr} {s : State} {i : Option Nat} {f : State → State} {P : State → Prop}
    (hc : exec c s = withOutAt s i f) (hh : s.held = false) (hf : P (f (s.start.atInst i)))
    (hback : ∀ u : State, P u → P ((u.requeue s.pending).atInst s.inst)) :
    ∃ t, exec c s = .next t ∧ P t :=
  ⟨_, hc.trans (withOutAt_live s i f hh), hback _ hf⟩

/-! ### The stamp FIFO (R88, R96) -/

/-- The port once the FIFO has taken an egress stamp. -/
def stampKept (s : State) (p n : Nat) : State := setEthPort s p { ethPort s p with fifo := (ethPort s p).fifo - n + 1 }

theorem stampKept_sends (s : State) (p n : Nat) : PortSends p [] s (stampKept s p n) := (PortSends.rfl' p s).setEthPort _ rfl

/-- With room in the FIFO the egress stamp is taken. -/
theorem stampTake_room {s : State} {p n : Nat} (h : (ethPort s p).fifo - n < 8) :
    stampTake s p n = (true, stampKept s p n) := by
  unfold stampTake stampKept
  exact if_neg (Nat.not_le.2 h)

/-- The registers and the FIFO after a stamp that was missed. -/
def stampMissed (s : State) (p n : Nat) : State :=
  raise ((setEthPort s p { ethPort s p with fifo := (ethPort s p).fifo - n }).inc Reg.ETH_P_CNT.STAMP_MISS p) 36 p

theorem stampTake_full {s : State} {p n : Nat} (h : 8 ≤ (ethPort s p).fifo - n) :
    stampTake s p n = (false, stampMissed s p n) := by
  unfold stampTake stampMissed
  exact if_pos h

theorem stampMissed_counts (s : State) (p : Fin 2) (n : Nat) : pending (stampMissed s p n) 36 = true
    ∧ (stampMissed s p n).r Reg.ETH_P_CNT.STAMP_MISS p = satInc 32 (s.r Reg.ETH_P_CNT.STAMP_MISS p)
    ∧ RegsKept (Reg.ETH_P_CNT.STAMP_MISS.key p 0 :: evtKeys) s (stampMissed s p n) := by
  unfold stampMissed
  refine ⟨raise_sets_pending _ 36 _ (by decide), ?_, ?_⟩
  · rw [raise_field _ 36 _ _ _ _ (by decide) (ethKey_calm _ p (by decide)), State.r_inc_same]
    rfl
  · exact RegsKept.trans ((RegsKept.of_regs (setEthPort_regs s p _)).w _ _ p 0 List.mem_cons_self)
      fun k hk => raise_keys _ 36 _ k (by decide) fun h => hk (List.mem_cons_of_mem _ h)

end Sys2Proof.Machine

/-! PROOF. What the BMCA decides for the two ports and what it leaves as it was (R86, R92, R95, R98). -/

namespace Sys2Proof.Machine

open Sys2Proof

/-! ### What decisions leave as it was -/

/-- From s to t no master heard is forgotten or added, no configuration changes, no event ceases to be pending, and of the
registers only those listed and those of raisings change. -/
structure MastersKept (ks : List Nat) (s t : State) : Prop where
  foreign : ∀ q, (ethPort t q).foreign = (ethPort s q).foreign
  was : ∀ q, (ethPort t q).was = (ethPort s q).was
  pend : PendStay s t
  regs : RegsKept (ks ++ evtKeys) s t

theorem MastersKept.rfl' (ks : List Nat) (s : State) : MastersKept ks s s :=
  ⟨fun _ => rfl, fun _ => rfl, .rfl' s, .rfl' _ s⟩

theorem MastersKept.trans {ks : List Nat} {s t u : State} (h : MastersKept ks s t) (k : MastersKept ks t u) :
    MastersKept ks s u :=
  ⟨fun q => (k.foreign q).trans (h.foreign q), fun q => (k.was q).trans (h.was q), h.pend.trans k.pend, h.regs.trans k.regs⟩

theorem MastersKept.mono {ks ls : List Nat} {s t : State} (h : MastersKept ks s t) (hs : ∀ k ∈ ks, k ∈ ls) :
    MastersKept ls s t :=
  ⟨h.foreign, h.was, h.pend, h.regs.mono fun k hk => (List.mem_append.1 hk).elim
    (fun a => List.mem_append_left _ (hs k a)) (List.mem_append_right _)⟩

/-- A change that touches neither the ports' entries nor the registers. -/
theorem MastersKept.of_ports {ks : List Nat} {s t : State} (hp : t.eth.ports = s.eth.ports) (hr : t.regs = s.regs) :
    MastersKept ks s t := by
  have he : ∀ q, ethPort t q = ethPort s q := fun q => by unfold ethPort; rw [hp]
  exact ⟨fun q => by rw [he], fun q => by rw [he], .of_regs hr, .of_regs hr⟩

theorem raise_mastersKept (ks : List Nat) (s : State) (e d : Nat) (he : e < 512) : MastersKept ks s (raise s e d) := by
  have hp : ∀ q, ethPort (raise s e d) q = ethPort s q := fun q => by unfold ethPort; rw [raise_eth]
  exact ⟨fun q => by rw [hp], fun q => by rw [hp], raise_pendStay s e d,
    fun k hk => raise_keys s e d k he fun h => hk (List.mem_append_right _ h)⟩

theorem setEthPort_mastersKept (ks : List Nat) (s : State) (p : Nat) (e : EthPort) (hf : e.foreign = (ethPort s p).foreign)
    (hw : e.was = (ethPort s p).was) : MastersKept ks s (setEthPort s p e) := by
  have he : ∀ q, (ethPort (setEthPort s p e) q).foreign = (ethPort s q).foreign
      ∧ (ethPort (setEthPort s p e) q).was = (ethPort s q).was := fun q => by
    by_cases hq : q = p
    · rw [hq, ethPort_setEthPort_same]
      exact ⟨hf, hw⟩
    · rw [ethPort_setEthPort_ne _ _ hq]
      exact ⟨rfl, rfl⟩
  exact ⟨fun q => (he q).1, fun q => (he q).2, .of_regs rfl, .of_regs rfl⟩

/-! ### PORT_STATE -/

/-- PORT_STATE of a port. -/
def stateKey (p : Nat) : Nat := Reg.ETH_P_STATUS.PORT_STATE.key p 0

theorem stateKey_ne {p q : Fin 2} (h : p ≠ q) : stateKey p ≠ stateKey q := by
  revert p q; decide

/-- The registers a decision may write. -/
def portStateKeys : List Nat := [stateKey 0, stateKey 1]

theorem stateKey_mem (p : Fin 2) : ∀ k ∈ [stateKey p], k ∈ portStateKeys := by
  revert p; decide

theorem statusKeys_apart (p : Fin 2) :
    Reg.ETH_P_CFG.EN.key p 0 ∉ portStateKeys ∧ Reg.ETH_P_STATUS.IN_SERVICE.key p 0 ∉ portStateKeys
    ∧ Reg.ETH_P_STATUS.LINK.key p 0 ∉ portStateKeys := by
  revert p; decide

theorem inServiceKey_block (p : Fin 2) : blockOf (Reg.ETH_P_STATUS.IN_SERVICE.key p 0) ≠ 0xD := by
  revert p; decide

theorem stateKey_block (p : Fin 2) : blockOf (stateKey p) ≠ 0xD := by
  revert p; decide

theorem ethSetState_mastersKept (s : State) (p : Fin 2) (v : Nat) : MastersKept [stateKey p] s (ethSetState s p v) := by
  unfold ethSetState
  split
  · exact .rfl' _ s
  · have hw : MastersKept [stateKey p] s (s.w Reg.ETH_P_STATUS.PORT_STATE v p) :=
      ⟨fun _ => rfl, fun _ => rfl, w_pendStay s _ v p 0 (stateKey_block p),
        (RegsKept.rfl' _ s).w _ v p 0 List.mem_cons_self⟩
    exact hw.trans (raise_mastersKept _ _ 33 _ (by decide))

theorem ethState_ethSetState (s : State) (p : Fin 2) {v : Nat} (hv : v < 16) : ethState (ethSetState s p v) p = v := by
  unfold ethSetState
  split
  · assumption
  · exact (raise_field _ 33 _ _ _ _ (by decide) (ethKey_calm _ p (by decide))).trans
      ((State.r_w_same s Reg.ETH_P_STATUS.PORT_STATE v p 0).trans (Nat.mod_eq_of_lt hv))

/-- A field of a port reads as before where its key is not listed. -/
theorem MastersKept.r {ks : List Nat} {s t : State} (h : MastersKept ks s t) (f : Field) (p : Fin 2)
    (hc : 32 * (f.off + f.s1) + f.lsb < 32 * 0xD0000) (hk : f.key p 0 ∉ ks) : t.r f p = s.r f p :=
  h.regs.r f p 0 fun hm => (List.mem_append.1 hm).elim hk (ethKey_calm f p hc)

theorem MastersKept.ethState {ks : List Nat} {s t : State} (h : MastersKept ks s t) (p : Fin 2) (hk : stateKey p ∉ ks) :
    ethState t p = ethState s p := h.r _ p (by decide) hk

/-- Decisions leave LINK and IN_SERVICE as they were. -/
theorem MastersKept.status {s t : State} (h : MastersKept portStateKeys s t) (p : Fin 2) :
    t.r Reg.ETH_P_STATUS.IN_SERVICE p = s.r Reg.ETH_P_STATUS.IN_SERVICE p
    ∧ t.r Reg.ETH_P_STATUS.LINK p = s.r Reg.ETH_P_STATUS.LINK p := by
  obtain ⟨-, hserv, hlink⟩ := statusKeys_apart p
  exact ⟨h.r _ p (by decide) hserv, h.r _ p (by decide) hlink⟩

/-- Ports act after decisions as they did before. -/
theorem MastersKept.ethOn {s t : State} (h : MastersKept portStateKeys s t) (p : Fin 2) : ethOn t p = ethOn s p := by
  unfold Machine.ethOn ethRb State.rb
  rw [ethR_congr (h.was p) (h.r _ p (by decide) (statusKeys_apart p).1), (h.status p).1]

theorem ethTtu_eq (s : State) : ∃ port acc, ethTtu s = { s with ttu := { s.ttu with ptpPort := port, ptpAccPs := acc } } := by
  unfold ethTtu
  split
  · exact ⟨_, _, rfl⟩
  · exact ⟨_, _, rfl⟩

theorem ethTtu_mastersKept (ks : List Nat) (s : State) : MastersKept ks s (ethTtu s) := by
  obtain ⟨port, acc, h⟩ := ethTtu_eq s
  rw [h]
  exact .of_ports rfl rfl

/-! ### One port's decision (R92) -/

/-- The BMCA decides for port p: it acts, and is past the first state of its restart (R94). -/
def decided (s : State) (p : Nat) : Bool := ethOn s p && ethState s p != psInit

theorem not_decided (s : State) (p : Nat) : (!ethOn s p || ethState s p == psInit) = !decided s p := by
  unfold decided
  rw [Bool.not_and, bne, Bool.not_not]

theorem bmcaPort_undecided {s : State} {p : Nat} (best : Option Cand) (st : Nat) (h : decided s p = false) :
    bmcaPort s best p st = s :=
  if_pos (by rw [not_decided, h]; rfl)

theorem bmcaPort_decided {s : State} {p : Nat} (best : Option Cand) (st : Nat) (h : decided s p = true) :
    ∃ e, e.foreign = (ethPort s p).foreign ∧ e.was = (ethPort s p).was
      ∧ bmcaPort s best p st = ethSetState (setEthPort s p e) p st := by
  unfold bmcaPort
  rw [not_decided, h, if_neg (by decide)]
  extract_lets parent old e
  have he : e.foreign = old.foreign ∧ e.was = old.was := by
    unfold e
    split
    · exact ⟨rfl, rfl⟩
    · exact ⟨rfl, rfl⟩
  exact ⟨e, he.1, he.2, rfl⟩

theorem bmcaPort_mastersKept (s : State) (best : Option Cand) (p : Fin 2) (st : Nat) :
    MastersKept [stateKey p] s (bmcaPort s best p st) := by
  cases h : decided s p with
  | false =>
    rw [bmcaPort_undecided best st h]
    exact .rfl' _ s
  | true =>
    obtain ⟨e, hf, hw, he⟩ := bmcaPort_decided best st h
    rw [he]
    exact (setEthPort_mastersKept _ s p e hf hw).trans (ethSetState_mastersKept _ p st)

/-- The state a port shows once the BMCA has given it st. -/
def stateGiven (s : State) (p st : Nat) : Nat := if decided s p then st else ethState s p

theorem ethState_bmcaPort (s : State) (best : Option Cand) (p : Fin 2) {st : Nat} (hst : st < 16) :
    ethState (bmcaPort s best p st) p = stateGiven s p st := by
  unfold stateGiven
  cases h : decided s p with
  | false =>
    rw [bmcaPort_undecided best st h]
    rfl
  | true =>
    obtain ⟨e, -, -, he⟩ := bmcaPort_decided best st h
    rw [he]
    exact ethState_ethSetState _ p hst

theorem MastersKept.stateGiven {s t : State} {p q : Fin 2} (h : MastersKept [stateKey q] s t) (hne : p ≠ q) (st : Nat) :
    stateGiven t p st = stateGiven s p st := by
  have hs : Machine.ethState t p = Machine.ethState s p :=
    h.ethState p fun hm => stateKey_ne hne (List.mem_singleton.1 hm)
  unfold Machine.stateGiven decided
  rw [(h.mono (stateKey_mem q)).ethOn p, hs]

/-- Two ports decided in turn each take their own state. -/
theorem ethState_bmcaPort_both (s : State) (best : Option Cand) {a b : Fin 2} (hne : a ≠ b) {sa sb : Nat}
    (ha : sa < 16) (hb : sb < 16) :
    let t := bmcaPort (bmcaPort s best a sa) best b sb
    ethState t a = stateGiven s a sa ∧ ethState t b = stateGiven s b sb := by
  refine ⟨?_, ?_⟩
  · refine ((bmcaPort_mastersKept _ best b sb).ethState a fun hm => stateKey_ne hne (List.mem_singleton.1 hm)).trans ?_
    exact ethState_bmcaPort s best a ha
  · exact (ethState_bmcaPort _ best b hb).trans ((bmcaPort_mastersKept s best a sa).stateGiven hne.symm sb)

/-! ### The state the BMCA gives (R92, R95) -/

/-- A state the BMCA may give port p: SLAVE only to the port that received the best dataset. -/
def StateAllowed (best : Option Cand) (p v : Nat) : Prop := v < 16 ∧ (v = psSlave → ∃ b, best = some b ∧ b.rx = p + 1)

theorem StateAllowed.ite {best : Option Cand} {p v w : Nat} {c : Prop} [Decidable c] (h : StateAllowed best p v)
    (k : StateAllowed best p w) : StateAllowed best p (if c then v else w) := by
  split
  · exact h
  · exact k

theorem bmcaState_allowed (s : State) (best : Option Cand) (p : Nat) (out : Bool) :
    StateAllowed best p (bmcaState s best p out) := by
  have hl : StateAllowed best p psListening := ⟨by decide, fun h => absurd h (by decide)⟩
  have hm : StateAllowed best p psMaster := ⟨by decide, fun h => absurd h (by decide)⟩
  have hp : StateAllowed best p psPassive := ⟨by decide, fun h => absurd h (by decide)⟩
  unfold bmcaState
  extract_lets own me d0 st
  have hst : StateAllowed best p st := by
    unfold st
    refine .ite hl ?_
    split
    · split
      · exact hm
      · exact .ite hm hp
    · split
      · exact hm
      · refine .ite hm ?_
        split
        · rename_i b hb
          exact ⟨by decide, fun _ => ⟨b, rfl, hb⟩⟩
        · split
          · exact hm
          · exact .ite hm hp
  exact .ite hl hst

/-- The port that received the best dataset, better than the module's own, takes SLAVE. -/
theorem bmcaState_slave {s : State} {p : Nat} {b : Cand} (out : Bool) (hb : ethBest s p = some b) (hrx : b.rx = p + 1)
    (hc : ¬ (1 ≤ (ethOwnQuality s p).clockClass ∧ (ethOwnQuality s p).clockClass ≤ 127))
    (hd : dsCompare (ethClockId s)
      { gm := ethOwnQuality s p, steps := 0, src := { clock := ethClockId s, port := 0 }, rx := 0 } b ≤ 0) :
    bmcaState s (some b) p out = psSlave := by
  unfold bmcaState
  extract_lets own me d0 st
  have hst : st = psSlave := by
    unfold st
    rw [hb, if_neg (by simp), if_neg hc]
    dsimp only
    rw [if_neg (not_lt.2 hd), if_pos hrx]
  rw [hst]
  exact if_neg fun h => absurd h.1 (by decide)

theorem dsBest_rx {me rx : Nat} {o : Option Cand} {c : Cand} (ho : ∀ b, o = some b → b.rx = rx) (hc : c.rx = rx) :
    ∀ b, dsBest me o c = some b → b.rx = rx := by
  intro b hb
  unfold dsBest at hb
  split at hb
  · exact (Option.some.inj hb) ▸ hc
  · split at hb
    · exact (Option.some.inj hb) ▸ hc
    · exact ho b hb

theorem foldl_dsBest_rx (me rx : Nat) (fs : List Foreign) (o : Option Cand) (ho : ∀ b, o = some b → b.rx = rx) :
    ∀ b, fs.foldl (fun b f => dsBest me b { gm := f.gm, steps := f.steps, src := f.src, rx := rx }) o = some b →
      b.rx = rx := by
  induction fs generalizing o with
  | nil => exact ho
  | cons f fs ih => exact ih _ (dsBest_rx ho rfl)

/-- The best master a port hears is one it received itself, and only a port the BMCA decides for has one. -/
theorem ethBest_some {s : State} {p : Nat} {b : Cand} (h : ethBest s p = some b) : decided s p = true ∧ b.rx = p + 1 := by
  unfold ethBest at h
  split at h
  · rename_i hd
    exact ⟨hd, foldl_dsBest_rx _ _ _ none (fun c hc => nomatch hc) b h⟩
  · exact nomatch h

/-! ### Both ports -/

/-- The grandmaster the port in SLAVE state follows. -/
def heardGm (s : State) : Option Nat := (ethSlavePort s).bind fun q => (ethPort s q).parent.map (·.gm.id)

/-- Both ports decided, the one that takes SLAVE last. -/
def bmcaPorts (s : State) (best : Option Cand) (out : Option Nat) : State :=
  let st0 := bmcaState s best 0 (out == some 0)
  let st1 := bmcaState s best 1 (out == some 1)
  if st0 = psSlave then bmcaPort (bmcaPort s best 1 st1) best 0 st0 else bmcaPort (bmcaPort s best 0 st0) best 1 st1

/-- A change of grandmaster is kept and told (R98). -/
def gmTold (s : State) : State := if s.eth.gm = heardGm s then s else raise { s with eth := { s.eth with gm := heardGm s } } 34

theorem ethBmcaAt_eq (s : State) (pref : Nat) (out : Option Nat) :
    ethBmcaAt s pref out = ethTtu (gmTold (bmcaPorts s (ethBestAll s pref) out)) := rfl

theorem bmcaPort_kept_both (s : State) (best : Option Cand) (p : Fin 2) (st : Nat) :
    MastersKept portStateKeys s (bmcaPort s best p st) :=
  (bmcaPort_mastersKept s best p st).mono (stateKey_mem p)

theorem bmcaPorts_mastersKept (s : State) (best : Option Cand) (out : Option Nat) :
    MastersKept portStateKeys s (bmcaPorts s best out) := by
  unfold bmcaPorts
  dsimp only
  split
  · exact (bmcaPort_kept_both s best 1 _).trans (bmcaPort_kept_both _ best 0 _)
  · exact (bmcaPort_kept_both s best 0 _).trans (bmcaPort_kept_both _ best 1 _)

theorem gmTold_mastersKept (s : State) : MastersKept [] s (gmTold s) := by
  unfold gmTold
  split
  · exact .rfl' _ s
  · exact MastersKept.trans (t := { s with eth := { s.eth with gm := heardGm s } }) (.of_ports rfl rfl)
      (raise_mastersKept _ _ 34 _ (by decide))

theorem gmTold_eth (s : State) : (gmTold s).eth = { s.eth with gm := heardGm s } := by
  unfold gmTold
  split
  · rename_i h
    rw [← h]
  · rw [raise_eth]

/-- What the BMCA leaves after both ports are decided keeps their registers. -/
theorem ethBmcaAt_told (s : State) (pref : Nat) (out : Option Nat) :
    MastersKept [] (bmcaPorts s (ethBestAll s pref) out) (ethBmcaAt s pref out) :=
  ethBmcaAt_eq s pref out ▸ (gmTold_mastersKept _).trans (ethTtu_mastersKept _ _)

theorem ethBmcaAt_mastersKept (s : State) (pref : Nat) (out : Option Nat) :
    MastersKept portStateKeys s (ethBmcaAt s pref out) :=
  (bmcaPorts_mastersKept s _ out).trans ((ethBmcaAt_told s pref out).mono (fun _ h => nomatch h))

/-- A port the BMCA decides for shows the state given to it, and another keeps its own. -/
theorem ethState_ethBmcaAt (s : State) (pref : Nat) (out : Option Nat) (p : Fin 2) :
    ethState (ethBmcaAt s pref out) p = stateGiven s p (bmcaState s (ethBestAll s pref) p (out == some p.val)) := by
  rw [(ethBmcaAt_told s pref out).ethState p (List.not_mem_nil)]
  have hlt : ∀ q, bmcaState s (ethBestAll s pref) q (out == some q) < 16 := fun q => (bmcaState_allowed s _ q _).1
  unfold bmcaPorts
  dsimp only
  split
  · obtain ⟨h1, h0⟩ := ethState_bmcaPort_both s (ethBestAll s pref) (a := 1) (b := 0) (by decide) (hlt 1) (hlt 0)
    match p with
    | 0 => exact h0
    | 1 => exact h1
  · obtain ⟨h0, h1⟩ := ethState_bmcaPort_both s (ethBestAll s pref) (a := 0) (b := 1) (by decide) (hlt 0) (hlt 1)
    match p with
    | 0 => exact h0
    | 1 => exact h1

theorem heardGm_congr {s t : State} (he : t.eth.ports = s.eth.ports) (hs : ∀ p : Fin 2, ethState t p = ethState s p) :
    heardGm t = heardGm s := by
  have h0 : ethState t 0 = ethState s 0 := hs 0
  have h1 : ethState t 1 = ethState s 1 := hs 1
  unfold heardGm ethSlavePort ethPort
  rw [h0, h1, he]

/-- After the BMCA the grandmaster kept is the one followed. -/
theorem ethBmcaAt_gm (s : State) (pref : Nat) (out : Option Nat) :
    (ethBmcaAt s pref out).eth.gm = heardGm (ethBmcaAt s pref out) := by
  obtain ⟨port, acc, h⟩ := ethTtu_eq (gmTold (bmcaPorts s (ethBestAll s pref) out))
  have he : (ethBmcaAt s pref out).eth = { (bmcaPorts s (ethBestAll s pref) out).eth with
      gm := heardGm (bmcaPorts s (ethBestAll s pref) out) } := by
    rw [ethBmcaAt_eq, h]
    exact gmTold_eth _
  have hg := heardGm_congr (s := bmcaPorts s (ethBestAll s pref) out) (t := ethBmcaAt s pref out) (by rw [he])
    fun p => (ethBmcaAt_told s pref out).ethState p List.not_mem_nil
  rw [hg, he]

end Sys2Proof.Machine

/-! PROOF. What a port measures of completed exchanges, and what it answers (R85, R88, R90, R91, R92, R96). -/

namespace Sys2Proof.Machine

open Sys2Proof

/-! ### Frames received (R85, R86) -/

/-- Any other frame is counted. -/
theorem ethRx_other {s : State} {p : Nat} (ha : Awake s) (hl : s.rb Reg.ETH_P_STATUS.LINK p = true) :
    ethRx p .other s = s.inc Reg.ETH_P_CNT.RX_OTHER p := by
  obtain ⟨-, hb, hd⟩ := ha
  unfold ethRx
  rw [if_neg (by simp [hb, hd, hl])]

/-- A PTP message of the other transport is counted with them. -/
theorem ethRx_otherTransport {s : State} {p : Nat} {hd : PtpHdr} (m : PtpMsg) (ha : Awake s)
    (hl : s.rb Reg.ETH_P_STATUS.LINK p = true) (hu : hd.udp ≠ ethRb s Reg.ETH_P_CFG.TRANSPORT p) :
    ethRx p (.msg hd m) s = s.inc Reg.ETH_P_CNT.RX_OTHER p := by
  obtain ⟨-, hb, hdead⟩ := ha
  unfold ethRx
  rw [if_neg (by simp [hb, hdead, hl])]
  exact if_pos (bne_iff_ne.2 hu)

/-- Port p takes a message with header hd: it is in service, and the message is of its transport, domain and sdoId. -/
structure Hears (s : State) (p : Nat) (hd : PtpHdr) : Prop where
  awake : Awake s
  link : s.rb Reg.ETH_P_STATUS.LINK p = true
  on : ethOn s p = true
  udp : hd.udp = ethRb s Reg.ETH_P_CFG.TRANSPORT p
  domain : hd.domain = s.r Reg.ETH_PTP_CFG.DOMAIN
  sdoId : hd.sdoId = 0

theorem ethRx_msg {s : State} {p : Nat} {hd : PtpHdr} (h : Hears s p hd) (m : PtpMsg) :
    ethRx p (.msg hd m) s = ethMsg s p hd m := by
  obtain ⟨⟨-, hb, hdead⟩, hl, hon, hu, hdom, hsdo⟩ := h
  unfold ethRx
  rw [if_neg (by simp [hb, hdead, hl])]
  dsimp only
  rw [if_neg (by simp [hu]), if_neg (by simp [hon, hdom, hsdo])]

/-- The command leaves what the message makes of the state it starts from. -/
theorem ptpMessageRx_leaves {s u : State} {p : Fin 2} {hd : PtpHdr} {m : PtpMsg} {P : State → Prop} (h : Hears s p hd)
    (hu : ethMsg (s.start.atInst none) p hd m = u) (hP : P u)
    (hback : ∀ u : State, P u → P ((u.requeue s.pending).atInst s.inst)) :
    ∃ t, exec (.ptpMessageRx p (.msg hd m)) s = .next t ∧ P t := by
  have hx : Hears (s.start.atInst none) p hd := ⟨h.awake, h.link, h.on, h.udp, h.domain, h.sdoId⟩
  refine exec_leaves (f := ethRx p (.msg hd m)) (i := none) rfl h.awake.1 ?_ hback
  rw [ethRx_msg hx, hu]
  exact hP

/-- What is counted leaves all else as it was. -/
theorem counted_exec {c : Instr} {s : State} {f : State → State} (g : Field) (i : Nat) (hc : exec c s = withOut s f)
    (hh : s.held = false) (hf : f (s.start.atInst none) = (s.start.atInst none).inc g i) :
    ∃ t, exec c s = .next t ∧ t.r g i = satInc g.width (s.r g i) ∧ RegsOnly [g.key i 0] s t := by
  have hx : exec c s = _ := hc.trans (withOut_live s f hh)
  rw [hf] at hx
  exact ⟨_, hx, State.r_inc_same _ g i, (inc_regsOnly _ g i).frame⟩

/-! ### Offsets (R91) -/

/-- A value held within 32 bits reads back from the field it was written to. -/
theorem ri_wi_clamp32 (s : State) (f : Field) (v : Int) (i : Nat) (hw : f.width = 32) :
    (s.wi f (clamp32 v) i).ri f i = clamp32 v := by
  obtain ⟨h1, h2⟩ := clamp32_bounds v
  unfold State.ri State.wi
  rw [State.r_w_same, Nat.mod_eq_of_lt (ofSigned_lt ..), hw]
  exact toSigned_ofSigned_32 h1 h2

/-- From s to t port p has measured an offset: OFFSET_NS shows it, and TTU has the negated one. -/
def OffsetTaken (p : Nat) (off : Int) (s t : State) : Prop :=
  t.ri Reg.ETH_P_MEAS.OFFSET_NS p = clamp32 (off / uNs) ∧ t.ttu.ptpOffs.head? = some (-off) ∧ t.ttu.ptpTick = some s.tick
    ∧ RegsKept [Reg.ETH_P_MEAS.OFFSET_NS.key p 0] s t

/-- A completed Sync exchange after the last step of TB2 gives its offset. -/
theorem ethSync_takes {s : State} {p : Nat} (t1 : Int) {x : Exchange} (hs : ethState s p = psSlave)
    (hc : crossesStep s x.tick s.tick = false) :
    OffsetTaken p (x.stamp - t1 - x.corr - ethAsym s p - psUnits ((ethPort s p).mpd.getD 0)) s (ethSync s p t1 x)
    ∧ (ethPort (ethSync s p t1 x) p).sync = (ethPort s p).sync := by
  unfold ethSync
  rw [if_neg (not_not.2 hs), if_neg (by simp [hc])]
  extract_lets diff off e u v
  have hport : ethPort v p = { e with msDiff := some (diff, x.tick) } := ethPort_setEthPort_same s p _
  have hshown : v.ri Reg.ETH_P_MEAS.OFFSET_NS p = clamp32 (off / uNs) := ri_wi_clamp32 u _ _ p rfl
  have hregs : RegsKept [Reg.ETH_P_MEAS.OFFSET_NS.key p 0] s v :=
    (RegsKept.of_regs (setEthPort_regs s p _)).w _ _ p 0 List.mem_cons_self
  obtain ⟨port, acc, he⟩ := ethTtu_eq { v with ttu := { v.ttu with
    ptpTick := some v.tick, ptpOffs := (-off :: v.ttu.ptpOffs).take 16, ptpSlew := x.slew } }
  rw [he]
  exact ⟨⟨hshown, rfl, rfl, hregs⟩, (congrArg EthPort.sync hport :)⟩

/-- A Sync exchange with a step of TB2 between its stamp and now is discarded and counted (row 1 of R96). -/
theorem ethSync_crosses {s : State} {p : Nat} (t1 : Int) {x : Exchange} (hs : ethState s p = psSlave)
    (hc : crossesStep s x.tick s.tick = true) : ethSync s p t1 x = s.inc Reg.ETH_P_CNT.DISCARD_STEP p := by
  unfold ethSync
  rw [if_neg (not_not.2 hs), if_pos hc]

/-- No step of TB2 lies within one tick. -/
theorem crossesStep_self (s : State) (n : Nat) : crossesStep s n n = false := by
  unfold crossesStep
  cases s.eth.stepTick with
  | none => rfl
  | some t => simp

/-! ### Mean path delays (R90, R96) -/

/-- From s to t port p has taken its first delay sample, half of `twice`, as its mean path delay. -/
def FirstDelay (p : Nat) (twice : Int) (s t : State) : Prop :=
  (ethPort t p).mpd = some (twice * 1000 / (2 * 65536))
    ∧ t.r Reg.ETH_P_MEAS.MPD_PS p = min (twice * 1000 / (2 * 65536)).toNat 0xFFFFFFFF
    ∧ RegsKept [Reg.ETH_P_MEAS.MPD_PS.key p 0] s t

theorem ethDelay_first {s : State} {p : Nat} (twice : Int) {first last : Nat} (hc : crossesStep s first last = false)
    (hm : (ethPort s p).mpd = none) : FirstDelay p twice s (ethDelay s p twice first last) := by
  have he : ethDelay s p twice first last = ethMpd s p (twice * 1000 / (2 * 65536)) := by
    unfold ethDelay ethDelaySample
    rw [if_neg (by simp [hc]), hm]
  rw [he]
  refine ⟨congrArg EthPort.mpd (ethPort_setEthPort_same s p _), ?_,
    (RegsKept.of_regs (setEthPort_regs s p _)).w _ _ p 0 List.mem_cons_self⟩
  refine (State.r_w_same _ Reg.ETH_P_MEAS.MPD_PS _ p 0).trans (Nat.mod_eq_of_lt ?_)
  exact lt_of_le_of_lt (Nat.min_le_right ..) (by decide)

theorem ethDelay_crosses {s : State} {p : Nat} (twice : Int) {first last : Nat} (hc : crossesStep s first last = true) :
    ethDelay s p twice first last = s.inc Reg.ETH_P_CNT.DISCARD_STEP p := if_pos hc

/-! ### Messages received, one by one -/

section
variable {s : State} {p : Nat} {hd : PtpHdr}

/-- The port follows the message's sender. -/
theorem fromParent_of {g : Foreign} (hs : ethState s p = psSlave) (hp : (ethPort s p).parent = some g) (hg : g.src = hd.src) :
    fromParent s p hd = true := by
  unfold fromParent
  rw [hs, hp, Option.any_some, hg]
  simp

/-- The port's half of a Sync: who sent it, its ingress stamp and its corrections. -/
def syncHeard (s : State) (p : Nat) (hd : PtpHdr) (a : Nat) : Exchange :=
  { src := hd.src, seq := hd.seq, stamp := ethIngress s p (gmiiStamp s a), corr := hd.corr, tick := s.tick, slew := slewAt s a }

theorem ethMsg_oneStepSync (t1 : Int) (a : Nat) (hf : fromParent s p hd = true) : ethMsg s p hd (.sync t1 false a)
    = ethSync (setEthPort s p { ethPort s p with sync := none }) p t1 (syncHeard s p hd a) := by
  unfold ethMsg
  dsimp only
  rw [if_neg (by simp [hf]), if_neg Bool.false_ne_true]
  rfl

theorem ethMsg_twoStepSync (t1 : Int) (a : Nat) (hf : fromParent s p hd = true) : ethMsg s p hd (.sync t1 true a)
    = setEthPort s p { ethPort s p with sync := some (syncHeard s p hd a) } := by
  unfold ethMsg
  dsimp only
  rw [if_neg (by simp [hf]), if_pos rfl]
  rfl

theorem ethMsg_followUp (t1 : Int) {x : Exchange} (hx : (ethPort s p).sync = some x) (hsrc : x.src = hd.src)
    (hseq : x.seq = hd.seq) : ethMsg s p hd (.followUp t1)
    = ethSync (setEthPort s p { ethPort s p with sync := none }) p t1 { x with corr := x.corr + hd.corr } := by
  unfold ethMsg
  dsimp only
  rw [hx]
  exact if_pos ⟨hsrc, hseq⟩

theorem ethMsg_delayResp (t4 : Int) {x : Exchange} {d : Int} {t0 : Nat} (hp : ethRb s Reg.ETH_P_CFG.DELAY_MECH p = false)
    (hf : fromParent s p hd = true) (hx : (ethPort s p).req = some x) (hseq : x.seq = hd.seq)
    (hm : (ethPort s p).msDiff = some (d, t0)) : ethMsg s p hd (.delayResp t4 (ethPortId s p))
    = ethDelay (setEthPort s p { ethPort s p with req := none }) p (d + (t4 - x.stamp - hd.corr)) (min t0 x.tick)
      (max t0 x.tick) := by
  unfold ethMsg
  dsimp only
  rw [hx, hm]
  exact if_pos (by simp [hp, hf, hseq])

theorem ethMsg_pdelayResp (t2 : Int) (a : Nat) {x : Exchange} (hp : ethRb s Reg.ETH_P_CFG.DELAY_MECH p = true)
    (hx : (ethPort s p).req = some x) (hseq : x.seq = hd.seq) : ethMsg s p hd (.pdelayResp t2 false (ethPortId s p) a)
    = ethDelay (setEthPort s p { ethPort s p with req := none, resp := none }) p
      (ethIngress s p (gmiiStamp s a) - x.stamp - hd.corr - ethAsym s p) x.tick s.tick := by
  unfold ethMsg
  dsimp only
  rw [hx]
  exact if_pos (by simp [hp, hseq])

/-- The offset of a Sync is measured alike whatever the port still keeps of it. -/
theorem ethSync_forgotten_takes (t1 : Int) {x : Exchange} {diff : Int} (hs : ethState s p = psSlave)
    (hc : crossesStep s x.tick s.tick = false) (hd : diff = x.stamp - x.corr) :
    let t := ethSync (setEthPort s p { ethPort s p with sync := none }) p t1 x
    OffsetTaken p (diff - t1 - ethAsym s p - psUnits ((ethPort s p).mpd.getD 0)) s t ∧ (ethPort t p).sync = none := by
  have hcfg : PortSends p [] s (setEthPort s p { ethPort s p with sync := none }) := (PortSends.rfl' p s).setEthPort _ rfl
  obtain ⟨htaken, hsync⟩ := ethSync_takes (s := setEthPort s p { ethPort s p with sync := none }) t1 (x := x) hs hc
  rw [hcfg.ethAsym, ethPort_setEthPort_same] at htaken
  rw [ethPort_setEthPort_same] at hsync
  have hoff : diff - t1 - ethAsym s p - psUnits ((ethPort s p).mpd.getD 0)
      = x.stamp - t1 - x.corr - ethAsym s p - psUnits ((ethPort s p).mpd.getD 0) := by rw [hd]; ring
  rw [hoff]
  exact ⟨htaken, hsync⟩

/-- An exchange that is forgotten and discarded is counted. -/
theorem forgotten_counts (e : EthPort) : let t := (setEthPort s p e).inc Reg.ETH_P_CNT.DISCARD_STEP p
    t.r Reg.ETH_P_CNT.DISCARD_STEP p = satInc 32 (s.r Reg.ETH_P_CNT.DISCARD_STEP p) ∧ ethPort t p = e
    ∧ RegsKept [Reg.ETH_P_CNT.DISCARD_STEP.key p 0] s t :=
  ⟨State.r_inc_same .., ethPort_setEthPort_same .., (RegsKept.of_regs (setEthPort_regs s p e)).w _ _ p 0 List.mem_cons_self⟩

/-- A MASTER port answers a Delay_Req. -/
theorem ethMsg_delayReq_sends (a : Nat) (hp : ethRb s Reg.ETH_P_CFG.DELAY_MECH p = false) (hm : ethState s p = psMaster) :
    let x := ethIngress s p (gmiiStamp s a)
    PortSends p [ptpOut s p 9 0 (hd.corr - x % uNs) hd.seq 3 (ethRi s Reg.ETH_P_CFG.LOG_MIN_DELAY_REQ p)
      (ptpTime x ++ portIdBytes hd.src)] s (ethMsg s p hd (.delayReq a)) := by
  unfold ethMsg
  dsimp only
  rw [if_neg (by simp [hp, hm])]
  exact (PortSends.rfl' p s).send ..

/-- A P2P port answers a Pdelay_Req, in two-step with a Follow_Up. -/
theorem ethMsg_pdelayReq_sends (a x n : Nat) (hp : ethRb s Reg.ETH_P_CFG.DELAY_MECH p = true) (hn : (ethPort s p).fifo - n < 8) :
    let t2 := ethIngress s p (gmiiStamp s a)
    let t3 := ethEgress s p (gmiiStamp s x)
    PortSends p
      (if ethRb s Reg.ETH_P_CFG.ONE_STEP p then
        [ptpOut s p 3 0 (hd.corr + t3 - t2) hd.seq 5 127 (ptpTime 0 ++ portIdBytes hd.src)]
      else [ptpOut s p 3 0x0200 (-(t2 % uNs)) hd.seq 5 127 (ptpTime t2 ++ portIdBytes hd.src),
        ptpOut s p 10 0 (hd.corr + t3 % uNs) hd.seq 5 127 (ptpTime t3 ++ portIdBytes hd.src)])
      s (ethMsg s p hd (.pdelayReq a x n)) := by
  unfold ethMsg
  dsimp only
  rw [hp, stampTake_room hn]
  simp only [Bool.not_true, Bool.false_eq_true, if_false, if_true]
  have hu := stampKept_sends s p n
  rw [hu.ethRb]
  exact .ite _ (hu.send ..) ((hu.send ..).send ..)

/-- An Announce of another clock: the master heard takes its dataset, and the BMCA runs. -/
theorem ethMsg_announce (gm : GmData) {steps : Nat} (hc : hd.src.clock ≠ ethClockId s) (hs : steps < 255) :
    ∃ f, f.src = hd.src ∧ f.gm = gm ∧ f.steps = steps ∧ f.ticks.head? = some s.tick
      ∧ ∃ fs, ethMsg s p hd (.announce gm steps) = ethBmca (setEthPort s p { ethPort s p with foreign := fs ++ [f] }) := by
  unfold ethMsg ethAnnounceRx
  dsimp only
  rw [if_neg (by omega)]
  exact ⟨{ src := hd.src, gm := gm, steps := steps, ticks := _ }, rfl, rfl, rfl, rfl, _, rfl⟩

/-- The master heard stands among those of the port with its dataset, and the grandmaster kept is the one followed. -/
theorem ethMsg_announce_heard (gm : GmData) {steps : Nat} (hc : hd.src.clock ≠ ethClockId s) (hs : steps < 255) :
    let t := ethMsg s p hd (.announce gm steps)
    (∃ f ∈ (ethPort t p).foreign, f.src = hd.src ∧ f.gm = gm ∧ f.steps = steps ∧ f.ticks.head? = some s.tick)
    ∧ t.eth.gm = heardGm t := by
  obtain ⟨f, hsrc, hgm, hsteps, htick, fs, he⟩ := ethMsg_announce (p := p) gm hc hs
  dsimp only
  rw [he]
  refine ⟨⟨f, ?_, hsrc, hgm, hsteps, htick⟩, ethBmcaAt_gm ..⟩
  unfold ethBmca
  rw [(ethBmcaAt_mastersKept ..).foreign p, ethPort_setEthPort_same]
  exact List.mem_append_right _ (List.mem_singleton.2 rfl)

end

/-- Settles O26: each message of a port in service by what its operation does on the state the command starts from. -/
theorem ptpMessagesReceivedAreMeasuredAndAnswered : Obligations.ptp_messages_received_are_measured_and_answered := by
  unfold Obligations.ptp_messages_received_are_measured_and_answered
  intro s p ha hl
  refine ⟨?_, fun hd m hu => ?_, fun hd g hon hu hdom hsdo => ?_⟩
  · exact counted_exec Reg.ETH_P_CNT.RX_OTHER p rfl ha.1 (ethRx_other (s := s.start.atInst none) ha hl)
  · exact counted_exec Reg.ETH_P_CNT.RX_OTHER p rfl ha.1 (ethRx_otherTransport (s := s.start.atInst none) m ha hl hu)
  have hh : Hears s p hd := ⟨ha, hl, hon, hu, hdom, hsdo⟩
  refine ⟨fun t1 a ⟨hs, hp, hg⟩ => ⟨?_, ?_⟩, fun t1 x hs hsync hsrc hseq => ⟨fun hc => ?_, fun hc => ?_⟩,
    fun t4 d t0 x ⟨hs, hp, hg⟩ hmech hreq hseq hdiff => ⟨fun hc hmpd => ?_, fun hc => ?_⟩,
    fun t2 a x hmech hreq hseq hc hmpd => ?_, fun a hmech hm => ?_, fun a x n hmech hn => ?_, fun gm steps hclk hst => ?_⟩
  · have he := ethMsg_oneStepSync (s := s.start.atInst none) t1 a (fromParent_of hs hp hg)
    have hnow := crossesStep_self (s.start.atInst none) s.tick
    exact ptpMessageRx_leaves hh he (ethSync_forgotten_takes (s := s.start.atInst none) t1 hs hnow rfl).1 fun _ h => h
  · have he := ethMsg_twoStepSync (s := s.start.atInst none) t1 a (fromParent_of hs hp hg)
    have hport := ethPort_setEthPort_same (s.start.atInst none) p { ethPort s p with sync := some (syncHeard s p hd a) }
    obtain ⟨t, hx, hsync, hregs⟩ := ptpMessageRx_leaves
      (P := fun t => (ethPort t p).sync = some (syncHeard s p hd a) ∧ RegsKept [] s t) hh he
      ⟨(congrArg EthPort.sync hport :), .of_regs rfl⟩ fun _ h => h
    exact ⟨t, _, hx, hsync, rfl, rfl, rfl, rfl, rfl, hregs⟩
  · have he := (ethMsg_followUp (s := s.start.atInst none) t1 hsync hsrc hseq).trans (ethSync_crosses t1 hs hc)
    obtain ⟨hcount, hport, hregs⟩ := forgotten_counts (s := s.start.atInst none) (p := p) { ethPort s p with sync := none }
    exact ptpMessageRx_leaves hh he ⟨hcount, (congrArg EthPort.sync hport :), hregs⟩ fun _ h => h
  · have he := ethMsg_followUp (s := s.start.atInst none) t1 hsync hsrc hseq
    exact ptpMessageRx_leaves hh he (ethSync_forgotten_takes (s := s.start.atInst none) t1 hs hc (sub_sub ..)) fun _ h => h
  · have he := ethMsg_delayResp (s := s.start.atInst none) t4 hmech (fromParent_of hs hp hg) hreq hseq hdiff
    have hnone := (congrArg EthPort.mpd
      (ethPort_setEthPort_same (s.start.atInst none) p { ethPort s p with req := none })).trans hmpd
    exact ptpMessageRx_leaves hh he (ethDelay_first _ hc hnone) fun _ h => h
  · have he := (ethMsg_delayResp (s := s.start.atInst none) t4 hmech (fromParent_of hs hp hg) hreq hseq hdiff).trans
      (ethDelay_crosses _ hc)
    obtain ⟨hcount, hport, hregs⟩ := forgotten_counts (s := s.start.atInst none) (p := p) { ethPort s p with req := none }
    exact ptpMessageRx_leaves hh he
      ⟨(congrArg EthPort.mpd hport :), (congrArg EthPort.req hport :), hcount, hregs⟩ fun _ h => h
  · have he := ethMsg_pdelayResp (s := s.start.atInst none) t2 a hmech hreq hseq
    have hnone := (congrArg EthPort.mpd
      (ethPort_setEthPort_same (s.start.atInst none) p { ethPort s p with req := none, resp := none })).trans hmpd
    exact ptpMessageRx_leaves hh he (ethDelay_first _ hc hnone) fun _ h => h
  · exact ptpMessageRx_leaves hh rfl (ethMsg_delayReq_sends (s := s.start.atInst none) a hmech hm).sent fun _ h => h
  · exact ptpMessageRx_leaves hh rfl (ethMsg_pdelayReq_sends (s := s.start.atInst none) a x n hmech hn).sent fun _ h => h
  · exact ptpMessageRx_leaves hh rfl (ethMsg_announce_heard (s := s.start.atInst none) gm hclk hst) fun _ h => h

end Sys2Proof.Machine

/-! PROOF. What a port sends, and how it leaves and takes the SLAVE role (R87, R88, R90, R92, R93, R95, R96). -/

namespace Sys2Proof.Machine

open Sys2Proof

/-! ### Messages a port sends of itself -/

theorem ethActs_of {s : State} {p : Nat} (ha : Awake s) (hon : ethOn s p = true) : ethActs s p = true := by
  obtain ⟨-, hb, hd⟩ := ha
  simp [ethActs, hb, hd, hon]

section
variable {s : State} {p : Nat}

/-- A MASTER port sends Sync with its egress stamp, in two-step in a Follow_Up. -/
theorem ethSyncTx_sends {a n : Nat} (hacts : ethActs s p = true) (hm : ethState s p = psMaster)
    (hn : (ethPort s p).fifo - n < 8) :
    let x := ethEgress s p (gmiiStamp s a)
    let log := ethRi s Reg.ETH_P_CFG.LOG_SYNC p
    let q := (ethPort s p).syncSeq
    PortSends p
      (if ethRb s Reg.ETH_P_CFG.ONE_STEP p then [ptpOut s p 0 0 (x % uNs) q 0 log (ptpTime x)]
      else [ptpOut s p 0 0x0200 0 q 0 log (ptpTime 0), ptpOut s p 8 0 (x % uNs) q 2 log (ptpTime x)])
      s (ethSyncTx p a n s) := by
  unfold ethSyncTx
  rw [if_neg (by simp [hacts, hm]), stampTake_room hn]
  simp -zeta only [if_true]
  extract_lets one log q t e u v
  have hu : PortSends p [] s u := (stampKept_sends s p n).setEthPort _ rfl
  exact .ite _ (hu.send ..) ((hu.send ..).send ..)

/-- A MASTER port sends Announce with the quality of R93. -/
theorem ethAnnounceTx_sends (hacts : ethActs s p = true) (hm : ethState s p = psMaster) :
    let g := (ethQuality s p).1
    PortSends p [ptpOut s p 11 (8 + 4 * b2n g.utcValid) 0 (ethPort s p).annSeq 5 (ethR s Reg.ETH_P_CFG.LOG_ANNOUNCE p)
      (ptpTime 0 ++ be 2 g.utc ++ le 1 0 ++ le 1 g.prio1 ++ le 1 g.clockClass ++ le 1 g.accuracy ++ be 2 g.variance
        ++ le 1 g.prio2 ++ be 8 g.id ++ be 2 (ethQuality s p).2 ++ le 1 g.timeSource)] s (ethAnnounceTx p s) := by
  unfold ethAnnounceTx
  rw [if_neg (by simp [hacts, hm])]
  dsimp only
  have hu := (PortSends.rfl' p s).setEthPort { ethPort s p with annSeq := ((ethPort s p).annSeq + 1) % 65536 } rfl
  rw [hu.ethR]
  exact hu.send ..

/-- A P2P port or a SLAVE port sends its delay request. -/
theorem ethDelayReqTx_sends {a n : Nat} (hacts : ethActs s p = true)
    (hm : ethRb s Reg.ETH_P_CFG.DELAY_MECH p = true ∨ ethState s p = psSlave) (hn : (ethPort s p).fifo - n < 8) :
    let p2p := ethRb s Reg.ETH_P_CFG.DELAY_MECH p
    PortSends p [ptpOut s p (if p2p then 2 else 1) 0 (-ethAsym s p) (ethPort s p).reqSeq (if p2p then 5 else 1) 127
      (ptpTime 0 ++ (if p2p then List.replicate 10 0 else []))] s (ethDelayReqTx p a n s) := by
  have hguard : ¬ (!ethActs s p || !(ethRb s Reg.ETH_P_CFG.DELAY_MECH p || ethState s p == psSlave)) = true := by
    rcases hm with h | h <;> simp [hacts, h]
  unfold ethDelayReqTx
  extract_lets p2p q t
  rw [if_neg hguard, stampTake_room hn]
  dsimp -zeta only
  extract_lets x e u
  have hu : PortSends p [] s u := (stampKept_sends s p n).setEthPort _ rfl
  rw [hu.ethAsym]
  exact hu.send ..

end

/-- A Sync whose stamp is missed writes no register beyond what the missed stamp does. -/
theorem ethSyncTx_full_regs {s : State} {p a n : Nat} (hacts : ethActs s p = true) (hm : ethState s p = psMaster)
    (hn : 8 ≤ (ethPort s p).fifo - n) : (ethSyncTx p a n s).regs = (stampMissed s p n).regs := by
  unfold ethSyncTx
  rw [if_neg (by simp [hacts, hm]), stampTake_full hn]
  simp only [Bool.false_eq_true, if_false]
  split
  · rfl
  · rfl

/-- A MASTER port whose stamp is missed counts and raises it. -/
theorem ethSyncTx_misses {s : State} {p : Fin 2} {a n : Nat} (hacts : ethActs s p = true) (hm : ethState s p = psMaster)
    (hn : 8 ≤ (ethPort s p).fifo - n) : let t := ethSyncTx p a n s
    pending t 36 = true ∧ t.r Reg.ETH_P_CNT.STAMP_MISS p = satInc 32 (s.r Reg.ETH_P_CNT.STAMP_MISS p)
    ∧ RegsKept (Reg.ETH_P_CNT.STAMP_MISS.key p 0 :: evtKeys) s t := by
  have hregs := ethSyncTx_full_regs (a := a) hacts hm hn
  obtain ⟨h36, hcount, hkept⟩ := stampMissed_counts s p n
  exact ⟨(PendStay.of_regs hregs) 36 (by decide) h36, (r_of_regs hregs ..).trans hcount,
    RegsKept.trans hkept (.of_regs hregs)⟩

/-! ### A port goes out of service (R95, R96) -/

/-- A port in service goes out of service and is FAULTY, ETH_PORT_OUT is raised, and LINK reads as before. -/
theorem ethOut_faulty (s : State) (p : Fin 2) (fault : Bool) (hs : s.rb Reg.ETH_P_STATUS.IN_SERVICE p = true) :
    let t := ethOut s p fault
    ethState t p = psFaulty ∧ t.r Reg.ETH_P_STATUS.IN_SERVICE p = 0 ∧ pending t 38 = true ∧ PendStay s t
      ∧ t.r Reg.ETH_P_STATUS.LINK p = s.r Reg.ETH_P_STATUS.LINK p := by
  unfold ethOut
  extract_lets e u v
  have hv : v = raise (unitOut (u.wb Reg.ETH_P_STATUS.IN_SERVICE false p) 4 p fault) 38 p := if_pos hs
  have hserv : v.r Reg.ETH_P_STATUS.IN_SERVICE p = 0 := by
    rw [hv, raise_field _ 38 _ _ _ _ (by decide) (ethKey_calm _ p (by decide))]
    exact State.r_w_same u Reg.ETH_P_STATUS.IN_SERVICE 0 p 0
  have hlink : v.r Reg.ETH_P_STATUS.LINK p = s.r Reg.ETH_P_STATUS.LINK p := by
    rw [hv, raise_field _ 38 _ _ _ _ (by decide) (ethKey_calm _ p (by decide))]
    exact r_w_other u Reg.ETH_P_STATUS.IN_SERVICE Reg.ETH_P_STATUS.LINK 0 p rfl (by decide)
  have hraised : pending v 38 = true := hv ▸ raise_sets_pending _ 38 _ (by decide)
  have hpend : PendStay s v := by
    have hw : PendStay u (u.wb Reg.ETH_P_STATUS.IN_SERVICE false p) := w_pendStay u _ _ p 0 (inServiceKey_block p)
    have hu : PendStay (u.wb Reg.ETH_P_STATUS.IN_SERVICE false p)
        (unitOut (u.wb Reg.ETH_P_STATUS.IN_SERVICE false p) 4 p fault) :=
      .of_regs rfl
    exact (PendStay.of_regs (setEthPort_regs s p e)).trans (hw.trans (hu.trans (hv ▸ raise_pendStay _ 38 _)))
  have hend : MastersKept portStateKeys v (ethTtu (ethSetState v p psFaulty)) :=
    ((ethSetState_mastersKept v p psFaulty).mono (stateKey_mem p)).trans (ethTtu_mastersKept _ _)
  refine ⟨?_, (hend.status p).1.trans hserv, hend.pend 38 (by decide) hraised, hpend.trans hend.pend,
    (hend.status p).2.trans hlink⟩
  rw [(ethTtu_mastersKept [] _).ethState p List.not_mem_nil]
  exact ethState_ethSetState v p (by decide)

/-- A port out of service keeps its state through the BMCA. -/
theorem ethState_ethBmcaAt_out {s : State} {p : Fin 2} (pref : Nat) (out : Option Nat)
    (hs : s.r Reg.ETH_P_STATUS.IN_SERVICE p = 0) : ethState (ethBmcaAt s pref out) p = ethState s p := by
  have hoff : decided s p = false := by
    unfold decided ethOn State.rb
    rw [hs]
    simp
  rw [ethState_ethBmcaAt]
  unfold stateGiven
  rw [hoff]
  rfl

/-- LINK shows that the link is down, and the change is raised (R96). -/
theorem linkDown_raised (s : State) (p : Fin 2) : let t := raise (s.wb Reg.ETH_P_STATUS.LINK false p) 32 p
    t.r Reg.ETH_P_STATUS.LINK p = 0 ∧ t.r Reg.ETH_P_STATUS.IN_SERVICE p = s.r Reg.ETH_P_STATUS.IN_SERVICE p
    ∧ pending t 32 = true := by
  have hcalm : ∀ f : Field, 32 * (f.off + f.s1) + f.lsb < 32 * 0xD0000 →
      (raise (s.wb Reg.ETH_P_STATUS.LINK false p) 32 p).r f p = (s.wb Reg.ETH_P_STATUS.LINK false p).r f p :=
    fun f hf => raise_field _ 32 _ _ _ _ (by decide) (ethKey_calm f p hf)
  exact ⟨(hcalm _ (by decide)).trans (State.r_w_same s Reg.ETH_P_STATUS.LINK 0 p 0),
    (hcalm _ (by decide)).trans (r_w_other s Reg.ETH_P_STATUS.LINK _ 0 p rfl (by decide)),
    raise_sets_pending _ 32 _ (by decide)⟩

theorem ethLinkChange_down_eq {s : State} {p : Fin 2} (ha : Awake s) (hl : s.rb Reg.ETH_P_STATUS.LINK p = true) :
    ethLinkChange p false s = ethBmca (ethOut (raise (s.wb Reg.ETH_P_STATUS.LINK false p) 32 p) p true) := by
  obtain ⟨-, hb, hd⟩ := ha
  have hc : ¬ s.rb Reg.ETH_P_STATUS.LINK p = false := by rw [hl]; decide
  unfold ethLinkChange
  rw [if_neg (show ¬ (s.mode == .boot || s.mode == .dead) = true by simp [hb, hd]), if_neg hc]
  rfl

/-- The link of a port in service goes down: the port is out of service and FAULTY, and both events are raised. -/
theorem ethLinkChange_down {s : State} {p : Fin 2} (ha : Awake s) (hl : s.rb Reg.ETH_P_STATUS.LINK p = true)
    (hs : s.rb Reg.ETH_P_STATUS.IN_SERVICE p = true) :
    let t := ethLinkChange p false s
    t.rb Reg.ETH_P_STATUS.LINK p = false ∧ t.rb Reg.ETH_P_STATUS.IN_SERVICE p = false ∧ ethState t p = psFaulty
      ∧ pending t 32 = true ∧ pending t 38 = true := by
  obtain ⟨hdown, hin, h32⟩ := linkDown_raised s p
  obtain ⟨hfaulty, hout, h38, hpend, hlink⟩ := ethOut_faulty _ p true ((congrArg (decide <| · ≠ 0) hin).trans hs)
  rw [ethLinkChange_down_eq ha hl]
  unfold ethBmca
  generalize ethOut (raise (s.wb Reg.ETH_P_STATUS.LINK false p) 32 p) p true = u at *
  have hkept := ethBmcaAt_mastersKept u ((ethSlavePort u).getD (u.r Reg.ETH_PTP_CFG.PREF_SLAVE)) none
  obtain ⟨hout', hlink'⟩ := hkept.status p
  exact ⟨decide_eq_false (not_not.2 (hlink'.trans (hlink.trans hdown))), decide_eq_false (not_not.2 (hout'.trans hout)),
    (ethState_ethBmcaAt_out _ _ hout).trans hfaulty, hkept.pend 32 (by decide) (hpend 32 (by decide) h32),
    hkept.pend 38 (by decide) h38⟩

/-! ### Announce receipt timeout (R96) -/

/-- The masters a port still hears once the one it follows has fallen silent. -/
def mastersLeft (e : EthPort) : List Foreign :=
  match e.parent with
  | some g => e.foreign.filter fun f => f.src != g.src
  | none => []

/-- The SLAVE port once its Announce receipt has timed out: ETH_ANNOUNCE_TIMEOUT is raised, and it listens. -/
def timedOut (s : State) (p : Nat) : State :=
  ethSetState (setEthPort (raise s 35 p) p { ethPort s p with
    foreign := mastersLeft (ethPort s p), parent := none, sync := none, msDiff := none, req := none }) p psListening

theorem ethAnnounceTimeout_eq {s : State} {p : Fin 2} (ha : Awake s) (hon : ethOn s p = true) (hs : ethState s p = psSlave) :
    ∃ pref, ethAnnounceTimeout p s = ethBmcaAt (timedOut s p) pref (some p) := by
  have hport : ethPort (raise s 35 p) p = ethPort s p := by unfold ethPort; rw [raise_eth]
  have hguard : ¬ (!ethActs s p
      || !(ethState s p == psSlave || ethState s p == psListening || ethState s p == psPassive)) = true := by
    simp [ethActs_of ha hon, hs]
  unfold ethAnnounceTimeout timedOut
  dsimp only
  rw [if_neg hguard, if_pos hs, if_pos hs, hport]
  exact ⟨_, rfl⟩

theorem timedOut_raised (s : State) (p : Fin 2) : pending (timedOut s p) 35 = true :=
  (ethSetState_mastersKept _ p psListening).pend 35 (by decide)
    ((PendStay.of_regs (setEthPort_regs _ p _)) 35 (by decide) (raise_sets_pending s 35 _ (by decide)))

theorem timedOut_foreign (s : State) (p : Fin 2) : (ethPort (timedOut s p) p).foreign = mastersLeft (ethPort s p) :=
  ((ethSetState_mastersKept _ p psListening).foreign p).trans (congrArg EthPort.foreign (ethPort_setEthPort_same _ p _))

/-- The SLAVE port's Announce timeout raises its event, and the master it followed is heard no longer. -/
theorem ethAnnounceTimeout_slave {s : State} {p : Fin 2} (ha : Awake s) (hon : ethOn s p = true) (hs : ethState s p = psSlave) :
    let t := ethAnnounceTimeout p s
    pending t 35 = true ∧ ∀ g, (ethPort s p).parent = some g → ∀ f ∈ (ethPort t p).foreign, f.src ≠ g.src := by
  obtain ⟨pref, he⟩ := ethAnnounceTimeout_eq ha hon hs
  have hkept := ethBmcaAt_mastersKept (timedOut s p) pref (some p)
  dsimp only
  rw [he]
  refine ⟨hkept.pend 35 (by decide) (timedOut_raised s p), fun g hg f hf => ?_⟩
  rw [hkept.foreign p, timedOut_foreign, mastersLeft, hg] at hf
  exact bne_iff_ne.1 (List.mem_filter.1 hf).2

/-! ### The preferred port takes SLAVE back (R95) -/

/-- Where both ports hear the same grandmaster, the best master is that of the port asked for. -/
theorem ethBestAll_same {s : State} (pref : Nat) (h : sameGm s = true) : ethBestAll s pref = ethBest s pref := if_pos h

/-- Both ports hear a grandmaster, so the BMCA decides for both. -/
theorem decided_of_sameGm {s : State} (h : sameGm s = true) (p : Fin 2) : decided s p = true := by
  unfold sameGm at h
  split at h
  · rename_i a b h0 h1
    match p with
    | 0 => exact (ethBest_some h0).1
    | 1 => exact (ethBest_some h1).1
  · exact nomatch h

/-- The other port. -/
theorem otherPort_val (p : Fin 2) : 1 - p.val = (1 - p : Fin 2).val := by
  revert p; decide

/-- The preferred port, back long enough, takes SLAVE and the other leaves it. -/
theorem ethPortBack_takes {s : State} {p : Fin 2} {b : Cand} (ha : Awake s) (hpref : s.r Reg.ETH_PTP_CFG.PREF_SLAVE = p)
    (hon : ethOn s p = true) (hother : ethState s (1 - p.val) = psSlave) (hgm : sameGm s = true) (hb : ethBest s p = some b)
    (hc : ¬ (1 ≤ (ethOwnQuality s p).clockClass ∧ (ethOwnQuality s p).clockClass ≤ 127))
    (hd : dsCompare (ethClockId s)
      { gm := ethOwnQuality s p, steps := 0, src := { clock := ethClockId s, port := 0 }, rx := 0 } b ≤ 0)
    (hw : stableWatches s ≤ (ethPort s p).watches) :
    let t := ethPortBack s
    ethState t p = psSlave ∧ ethState t (1 - p.val) ≠ psSlave := by
  have he : ethPortBack s = ethBmcaAt s p none := by
    unfold ethPortBack
    rw [hpref]
    exact if_neg (by simp [ethActs_of ha hon, hother, hgm, hw])
  have hbest : ethBestAll s p = some b := (ethBestAll_same p hgm).trans hb
  have hrx : b.rx = p + 1 := (ethBest_some hb).2
  have hstate : ∀ q : Fin 2, ethState (ethBmcaAt s p none) q = bmcaState s (some b) q false := fun q => by
    rw [ethState_ethBmcaAt, hbest]
    unfold stateGiven
    rw [decided_of_sameGm hgm q]
    rfl
  dsimp only
  rw [he]
  refine ⟨(hstate p).trans (bmcaState_slave _ hb hrx hc hd), fun h => ?_⟩
  rw [otherPort_val p, hstate] at h
  obtain ⟨c, hbc, hq⟩ := (bmcaState_allowed s (some b) _ false).2 h
  have hcb : c = b := (Option.some.inj hbc).symm
  rw [hcb, hrx, ← otherPort_val p] at hq
  omega

/-- Settles O27: each transmission, and each change of a port's role, by what its operation does on the state the command
starts from. -/
theorem portsSendAndChangeState : Obligations.ports_send_and_change_state := by
  unfold Obligations.ports_send_and_change_state
  intro s p ha
  have hacts : ∀ i, ethOn s p = true → ethActs (s.start.atInst i) p = true := fun _ hon => ethActs_of ha hon
  refine ⟨fun hon hm => ⟨fun a n hn => ?_, fun a n hn => ?_, ?_⟩, fun a n hon hm hn => ?_, fun hon hs cyc => ?_,
    fun hl hs cyc => ?_, fun b hpref hon hother hgm hb hc hd hw => ?_⟩
  · exact exec_leaves (i := some a) rfl ha.1 (ethSyncTx_sends (hacts _ hon) hm hn).sent fun _ h => h
  · exact exec_leaves (i := some a) rfl ha.1 (ethSyncTx_misses (hacts _ hon) hm hn) fun _ h => h
  · exact exec_leaves (i := none) rfl ha.1 (ethAnnounceTx_sends (hacts _ hon) hm).sent fun _ h => h
  · exact exec_leaves (i := some a) rfl ha.1 (ethDelayReqTx_sends (hacts _ hon) hm hn).sent fun _ h => h
  · exact exec_leaves (i := some (cycU cyc)) rfl ha.1
      (ethAnnounceTimeout_slave (s := s.start.atInst (some (cycU cyc))) ha hon hs) fun _ h => h
  · exact exec_leaves (i := some (cycU cyc)) rfl ha.1
      (ethLinkChange_down (s := s.start.atInst (some (cycU cyc))) ha hl hs) fun _ h => h
  · exact exec_leaves (i := some 0) rfl ha.1
      (ethPortBack_takes (s := s.start.atInst (some 0)) ha hpref hon hother hgm hb hc hd hw) fun _ h => h

end Sys2Proof.Machine

/-! PROOF. The states of a receiver channel: what finds, holds and loses its satellite (R109, R111, R113, R114). -/

namespace Sys2Proof.Machine

open Sys2Proof

/-! ### Commands of running engines -/

theorem Engines.awake {s : State} (h : Engines s) : Awake s := by
  refine ⟨h.1, fun hm => ?_, fun hm => ?_⟩
  · simpa [State.slots, State.running, hm] using h.2
  · simpa [State.slots, State.running, hm] using h.2

/-- A command of an engine leaves what its operation makes of the state it starts from. -/
theorem engines_leaves {c : Instr} {s : State} {i : Option Nat} {f : State → State} {P : State → Prop} (he : Engines s)
    (hc : exec c s = withOutAt s i fun s => engines s f) (hf : P (f (s.start.atInst i)))
    (hback : ∀ u : State, P u → P ((u.requeue s.pending).atInst s.inst)) :
    ∃ t, exec c s = .next t ∧ P t :=
  exec_leaves hc he.1 ((engines_live f (s.start.atInst i) he.2).symm ▸ hf) hback

/-- The same, where the operation's result is known. -/
theorem engines_next {c : Instr} {s : State} {i : Option Nat} {f : State → State} (he : Engines s)
    (hc : exec c s = withOutAt s i fun s => engines s f) :
    exec c s = .next (((f (s.start.atInst i)).requeue s.pending).atInst s.inst) := by
  rw [hc, withOutAt_live _ _ _ he.1, engines_live f (s.start.atInst i) he.2]

/-! ### A channel's state and registers -/

/-- A write leaves a register of a lower address alone. -/
theorem r_w_below (s : State) (f g : Field) (v i j k l : Nat) (h : g.key k l < 32 * f.off) :
    (s.w f v i j).r g k l = s.r g k l := by
  refine State.r_w_ne _ _ _ _ _ _ _ _ fun he => ?_
  rw [he] at h
  unfold Field.key at h
  omega

@[simp] theorem sxtCh_setSxtCh_same (s : State) (c : Nat) (v : SxtCh) : sxtCh (setSxtCh s c v) c = v := mget_mput_same ..

theorem sxtCh_setSxtCh_ne (s : State) {c d : Nat} (v : SxtCh) (h : d ≠ c) : sxtCh (setSxtCh s c v) d = sxtCh s d :=
  mget_mput_ne _ _ _ h

@[simp] theorem sxtCh_w (s : State) (f : Field) (v i j c : Nat) : sxtCh (s.w f v i j) c = sxtCh s c := rfl

@[simp] theorem sxtCh_setChState (s : State) (c v d : Nat) : sxtCh (setChState s c v) d = sxtCh s d := rfl

@[simp] theorem setSxtCh_r (s : State) (c : Nat) (v : SxtCh) (f : Field) (i j : Nat) : (setSxtCh s c v).r f i j = s.r f i j := rfl

theorem chState_setChState (s : State) (c : Nat) {v : Nat} (h : v < 8) : chState (setChState s c v) c = v :=
  (State.r_w_same ..).trans (Nat.mod_eq_of_lt h)

/-- A change of state leaves the other fields of the channel. -/
theorem setChState_r (s : State) (c v : Nat) (f : Field) (hs : f.s1 = 0x10)
    (hf : 32 * f.off + f.lsb ≠ 32 * Reg.SXT_CH.STATE.off + Reg.SXT_CH.STATE.lsb) : (setChState s c v).r f c = s.r f c :=
  r_w_other s Reg.SXT_CH.STATE f v c hs hf

/-- No raising writes a field of a channel. -/
theorem chKey_calm (f : Field) {c : Nat} (hc : c < 1024) (hs : f.s1 = 0x10) (hf : f.off + 0x4000 < 0xD0000 ∧ f.lsb < 32) :
    f.key c 0 ∉ evtKeys := by
  refine not_evtKey ?_
  unfold Field.key
  rw [hs]
  omega

/-! ### A signal is found -/

theorem pullIn_enters (c g : Nat) (dop : Int) (s : State) :
    let t := pullIn c g dop s
    chState t c = 2 ∧ (sxtCh t c).carRate = dop ∧ (sxtCh t c).held = true ∧ RegsKept [Reg.SXT_CH.STATE.key c 0] s t := by
  unfold pullIn
  extract_lets v aid
  refine ⟨chState_setChState _ c (by decide), ?_, ?_, RegsKept.w (.of_regs rfl) _ _ c 0 (by simp)⟩
  · rw [sxtCh_setChState, sxtCh_setSxtCh_same]
  · rw [sxtCh_setChState, sxtCh_setSxtCh_same]

/-- A channel in REACQ finds its signal within its window. -/
theorem acqFound_reacq {c : Nat} {s : State} (g sv : Nat) (k dop : Int) (hc : chState s c = 4) (hl : (sxtCh s c).left ≠ 0)
    (hb : bandOn s (sigBand (s.r Reg.SXT_CH.SIG c)) = true) :
    acqFound c g sv k dop s = pullIn c (s.r Reg.SXT_CH.SIG c) dop (s.w Reg.SXT_CH.LOCK_MS 0 c) := by
  unfold acqFound
  dsimp only
  rw [if_pos hc, if_pos ⟨hl, hb⟩]

theorem acqFound_reacq_enters {c : Nat} {s : State} (g sv : Nat) (k dop : Int) (hc : chState s c = 4)
    (hl : (sxtCh s c).left ≠ 0) (hb : bandOn s (sigBand (s.r Reg.SXT_CH.SIG c)) = true) :
    let t := acqFound c g sv k dop s
    chState t c = 2 ∧ (sxtCh t c).carRate = dop
      ∧ RegsKept [Reg.SXT_CH.STATE.key c 0, Reg.SXT_CH.LOCK_MS.key c 0] s t := by
  dsimp only
  rw [acqFound_reacq g sv k dop hc hl hb]
  obtain ⟨hst, hcar, -, hregs⟩ := pullIn_enters c (s.r Reg.SXT_CH.SIG c) dop (s.w Reg.SXT_CH.LOCK_MS 0 c)
  exact ⟨hst, hcar, ((RegsKept.rfl' _ s).w _ _ c 0 (by simp)).trans (hregs.mono (by simp))⟩

/-- Channel c names a satellite. -/
def chNamed (c g sv f : Nat) (s : State) : State :=
  ((s.w Reg.SXT_CH.SIG g c).w Reg.SXT_CH.SV sv c).w Reg.SXT_CH.FREQ_K f c

theorem chNamed_names {g sv f : Nat} (c : Nat) (s : State) (hg : g < 32) (hsv : sv < 256) (hf : f < 256) :
    let t := chNamed c g sv f s
    t.r Reg.SXT_CH.SIG c = g ∧ t.r Reg.SXT_CH.SV c = sv ∧ t.r Reg.SXT_CH.FREQ_K c = f := by
  unfold chNamed
  refine ⟨?_, ?_, (State.r_w_same ..).trans (Nat.mod_eq_of_lt hf)⟩
  · rw [r_w_other _ Reg.SXT_CH.FREQ_K Reg.SXT_CH.SIG _ _ rfl (by decide),
      r_w_other _ Reg.SXT_CH.SV Reg.SXT_CH.SIG _ _ rfl (by decide), State.r_w_same]
    exact Nat.mod_eq_of_lt hg
  · rw [r_w_other _ Reg.SXT_CH.FREQ_K Reg.SXT_CH.SV _ _ rfl (by decide), State.r_w_same]
    exact Nat.mod_eq_of_lt hsv

theorem sigK_lt (g : Nat) (k : Int) : sigK g k < 256 := by
  unfold sigK
  split
  · exact ofSigned_lt 8 k
  · decide

/-- A free channel of the search pool finds a signal that it may take. -/
theorem acqFound_search {c g sv : Nat} {s : State} (k : Int) {dop : Int} (hc : chState s c = 1) (hh : (sxtCh s c).held = false)
    (hg : g < 18) (hp : pairTaken s c g sv = false) (he : bitAt (s.r Reg.SXT_SIG_EN.SIG_EN) g = true)
    (hb : bandOn s (sigBand g) = true) (hf : searchFinds s g sv dop = true) :
    acqFound c g sv k dop s = pullIn c g dop (chNamed c g sv (sigK g k) s) := by
  unfold acqFound
  dsimp only
  rw [if_neg (by simp [hc]), if_pos hc, if_pos (by simp [hg, hp, he, hb, hf, hh])]
  rfl

theorem acqFound_search_enters {c g sv : Nat} {s : State} (k : Int) {dop : Int} (hc : chState s c = 1)
    (hh : (sxtCh s c).held = false) (hg : g < 18) (hsv : sv < 256) (hp : pairTaken s c g sv = false)
    (he : bitAt (s.r Reg.SXT_SIG_EN.SIG_EN) g = true) (hb : bandOn s (sigBand g) = true)
    (hf : searchFinds s g sv dop = true) :
    let t := acqFound c g sv k dop s
    chState t c = 2 ∧ t.r Reg.SXT_CH.SIG c = g ∧ t.r Reg.SXT_CH.SV c = sv ∧ t.r Reg.SXT_CH.FREQ_K c = sigK g k
      ∧ (sxtCh t c).held = true := by
  dsimp only
  rw [acqFound_search k hc hh hg hp he hb hf]
  obtain ⟨hst, -, hheld, hregs⟩ := pullIn_enters c g dop (chNamed c g sv (sigK g k) s)
  obtain ⟨hsig, hsat, hk⟩ := chNamed_names (g := g) (f := sigK g k) c s (by omega) hsv (sigK_lt g k)
  have hkept (f : Field) (hs : f.s1 = 0x10) (hne : 32 * f.off + f.lsb ≠ 32 * Reg.SXT_CH.STATE.off + Reg.SXT_CH.STATE.lsb) :
      (pullIn c g dop (chNamed c g sv (sigK g k) s)).r f c = (chNamed c g sv (sigK g k) s).r f c :=
    hregs.r f c 0 fun h => key_ne f Reg.SXT_CH.STATE c c hs rfl hne (List.mem_singleton.1 h)
  exact ⟨hst, (hkept _ rfl (by decide)).trans hsig, (hkept _ rfl (by decide)).trans hsat,
    (hkept _ rfl (by decide)).trans hk, hheld⟩

/-! ### TRACK -/

/-- Channel c is in TRACK from now on. -/
def chLocked (c : Nat) (s : State) : State :=
  setChState ((setSxtCh s c { sxtCh s c with since := s.tick, loAt := none, weakAt := none }).w Reg.SXT_CH.LOCK_MS 0 c) c 3

/-- The calibration of band b runs. -/
def calStarted (b : Nat) (s : State) : State := setJamRef s b { jamRef s b with started := true }

/-- SXT_TRACK_READY is raised once four satellites of each constellation are in TRACK. -/
def readyShown (s : State) : State :=
  if !s.sxt.ready && trackReady s then raise { s with sxt := { s.sxt with ready := true } } 79 else s

theorem chTrack_eq {c : Nat} {s : State} (hc : chState s c = 2) (hf : forTicks s 100 (sxtCh s c).hiAt = true) :
    chTrack c s = readyShown (calStarted (sigBand ((chLocked c s).r Reg.SXT_CH.SIG c)) (chLocked c s)) := by
  unfold chTrack
  rw [if_neg (by simp [hc, hf])]
  rfl

theorem readyShown_sxtCh (s : State) (c : Nat) : sxtCh (readyShown s) c = sxtCh s c := by
  unfold readyShown
  split
  · unfold sxtCh
    rw [raise_sxt]
  · rfl

theorem readyShown_r (s : State) (f : Field) (i j : Nat) (h : f.key i j ∉ evtKeys) : (readyShown s).r f i j = s.r f i j := by
  unfold readyShown
  split
  · exact raise_field { s with sxt := { s.sxt with ready := true } } 79 _ f i j (by decide) h
  · rfl

theorem chTrack_enters {c : Nat} {s : State} (hlt : c < 1024) (hc : chState s c = 2)
    (hf : forTicks s 100 (sxtCh s c).hiAt = true) :
    let t := chTrack c s
    chState t c = 3 ∧ t.r Reg.SXT_CH.LOCK_MS c = 0 ∧ (sxtCh t c).since = s.tick := by
  dsimp only
  rw [chTrack_eq hc hf]
  refine ⟨?_, ?_, ?_⟩
  · exact (readyShown_r _ _ _ _ (chKey_calm _ hlt rfl (by decide))).trans (chState_setChState _ c (by decide))
  · refine (readyShown_r _ _ _ _ (chKey_calm _ hlt rfl (by decide))).trans ?_
    exact (setChState_r _ c 3 _ rfl (by decide)).trans (State.r_w_same ..)
  · rw [readyShown_sxtCh]
    exact congrArg SxtCh.since (sxtCh_setSxtCh_same s c _)

/-! ### REACQ and the search pool -/

/-- A channel that enters REACQ has its full window, REACQ_WATCHES of 0 counting as 1 (log entry 68), and owes LOCK_RESTART
(log entry 32). -/
theorem chReacq_enters (c : Nat) (s : State) :
    let t := chReacq s c
    chState t c = 4 ∧ (sxtCh t c).left = reacqWatches s ∧ (sxtCh t c).restart = true
      ∧ RegsKept [Reg.SXT_CH.STATE.key c 0] s t := by
  unfold chReacq
  refine ⟨chState_setChState _ c (by decide), ?_, ?_, RegsKept.w (.of_regs rfl) _ _ c 0 (by simp)⟩
  · rw [sxtCh_setChState, sxtCh_setSxtCh_same]
  · rw [sxtCh_setChState, sxtCh_setSxtCh_same]

theorem chLockLoss_eq {c : Nat} {s : State} (hc : chState s c = 3)
    (h : forTicks s 50 (sxtCh s c).loAt = true ∨ forTicks s 100 (sxtCh s c).weakAt = true) :
    chLockLoss c s = chReacq s c := by
  unfold chLockLoss
  exact if_pos ⟨hc, Bool.or_eq_true_iff.2 h⟩

theorem chToPool_frees (s : State) (c : Nat) : chState (chToPool s c) c = 1 ∧ sxtCh (chToPool s c) c = {} := by
  unfold chToPool
  exact ⟨chState_setChState _ c (by decide), sxtCh_setSxtCh_same s c {}⟩

theorem chToPool_lossCount (s : State) (c : Nat) :
    (chToPool s c).r Reg.SXT_COUNTS.LOCK_LOSS_COUNT = s.r Reg.SXT_COUNTS.LOCK_LOSS_COUNT := by
  unfold chToPool setChState
  simp (disch := decide) only [r_w_below, setSxtCh_r]

theorem reacqExpire_eq {c : Nat} {s : State} (hc : chState s c = 4) (hl : (sxtCh s c).left = 0) :
    reacqExpire c s = (chToPool s c).inc Reg.SXT_COUNTS.LOCK_LOSS_COUNT := by
  unfold reacqExpire
  exact if_pos ⟨hc, hl⟩

theorem reacqExpire_frees {c : Nat} {s : State} (hc : chState s c = 4) (hl : (sxtCh s c).left = 0) :
    let t := reacqExpire c s
    chState t c = 1 ∧ (sxtCh t c).held = false
      ∧ t.r Reg.SXT_COUNTS.LOCK_LOSS_COUNT = satInc 32 (s.r Reg.SXT_COUNTS.LOCK_LOSS_COUNT) := by
  dsimp only
  rw [reacqExpire_eq hc hl]
  obtain ⟨hst, hch⟩ := chToPool_frees s c
  refine ⟨?_, congrArg SxtCh.held hch, ?_⟩
  · refine (State.r_w_ne _ _ _ _ _ _ _ _ fun hk => ?_).trans hst
    simp only [Field.key, Reg.SXT_CH.STATE, Reg.SXT_COUNTS.LOCK_LOSS_COUNT, Field.idx, fld] at hk
    omega
  · rw [State.r_inc_same, chToPool_lossCount]
    rfl

/-! ### Synchronisation -/

theorem bitSync_eq {c : Nat} {s : State} (hc : chState s c = 2 ∨ chState s c = 3) (hd : sigData (s.r Reg.SXT_CH.SIG c) = true) :
    bitSync c false s
      = setSxtCh s c { sxtCh s c with sync := true, d2 := false, tcoh := sxtTCohEff s (s.r Reg.SXT_CH.SIG c) } := by
  unfold bitSync
  exact if_pos ⟨hc, hd⟩

theorem secondarySync_eq {c : Nat} {s : State} (hc : chState s c = 3) (hd : sigData (s.r Reg.SXT_CH.SIG c) = false) :
    secondarySync c s = setSxtCh s c { sxtCh s c with sync := true } := by
  unfold secondarySync
  exact if_pos ⟨hc, hd⟩

/-- Settles O28: each command by what its operation does on the state the command starts from. -/
theorem receiverChannelsMoveThroughTheirStates : Obligations.receiver_channels_move_through_their_states := by
  unfold Obligations.receiver_channels_move_through_their_states
  intro s c he
  refine ⟨fun g sv k dop hc hl hb => ?_, fun g sv k dop hc hh hg hsv hp hen hb hf => ?_, fun hc hf => ?_, fun hc hl => ?_,
    fun hc hl => ?_, fun hc hd => ?_, fun hc hd => ?_⟩
  · exact engines_leaves (i := none) he rfl (acqFound_reacq_enters (s := s.start.atInst none) g sv k dop hc hl hb) fun _ h => h
  · exact engines_leaves (i := none) he rfl
      (acqFound_search_enters (s := s.start.atInst none) k hc hh hg hsv hp hen hb hf) fun _ h => h
  · exact engines_leaves (i := none) he rfl (chTrack_enters (s := s.start.atInst none) c.isLt hc hf) fun _ h => h
  · exact engines_leaves (i := none) he rfl
      ((chLockLoss_eq (s := s.start.atInst none) hc hl).symm ▸ chReacq_enters c (s.start.atInst none)) fun _ h => h
  · exact engines_leaves (i := none) he rfl (reacqExpire_frees (s := s.start.atInst none) hc hl) fun _ h => h
  · have hx := engines_next (c := .bitSync c false) (i := none) he rfl
    rw [bitSync_eq (s := s.start.atInst none) hc hd] at hx
    exact ⟨_, hx, congrArg SxtCh.sync (sxtCh_setSxtCh_same s c _), congrArg SxtCh.tcoh (sxtCh_setSxtCh_same s c _), rfl⟩
  · have hx := engines_next (c := .secondaryCodeSync c) (i := none) he rfl
    rw [secondarySync_eq (s := s.start.atInst none) hc hd] at hx
    exact ⟨_, hx, congrArg SxtCh.sync (sxtCh_setSxtCh_same s c _), rfl⟩

end Sys2Proof.Machine

/-! PROOF. Antenna bias faults, notch requests and the noise reference (R101, R120, R121, R123). -/

namespace Sys2Proof.Machine

open Sys2Proof

/-! ### The antenna -/

/-- A command of a module that is not in DEAD leaves what its operation makes of the state it starts from. -/
theorem notDead_leaves {c : Instr} {s : State} {i : Option Nat} {f : State → State} {P : State → Prop} (hh : s.held = false)
    (hd : s.mode ≠ .dead) (hc : exec c s = withOutAt s i fun s => notDead s f) (hf : P (f (s.start.atInst i)))
    (hback : ∀ u : State, P u → P ((u.requeue s.pending).atInst s.inst)) :
    ∃ t, exec c s = .next t ∧ P t :=
  exec_leaves hc hh ((notDead_live f (s.start.atInst i) hd).symm ▸ hf) hback

/-- A row of R101 shows its ANT_STATE and raises its event. -/
theorem antRow_shows (s : State) {v e : Nat} (hv : v < 4) (he : e < 512) :
    let t := raise (s.w Reg.SXT_ANT_STATUS.ANT_STATE v) e
    antState t = v ∧ t.sxt = s.sxt ∧ pending t e = true
      ∧ RegsKept (Reg.SXT_ANT_STATUS.ANT_STATE.key 0 0 :: evtKeys) s t := by
  refine ⟨?_, raise_sxt _ e _, raise_sets_pending _ e _ he, ?_⟩
  · exact (raise_field _ e _ _ _ _ he (by decide)).trans ((State.r_w_same ..).trans (Nat.mod_eq_of_lt hv))
  · exact ((RegsKept.rfl' _ s).w _ _ 0 0 List.mem_cons_self).trans
      fun k hk => raise_keys _ e _ k he fun h => hk (List.mem_cons_of_mem _ h)

theorem antOpen_eq {s : State} (hen : s.rb Reg.SXT_ANT_CFG.BIAS_EN = true) (hb : s.sxt.bias = true) (hl : 100 ≤ s.sxt.antLow)
    (hs : antState s ≠ 2) : antOpen s = raise (s.w Reg.SXT_ANT_STATUS.ANT_STATE 2) 64 := by
  unfold antOpen
  exact if_pos (by simp [hen, hb, hl, hs])

theorem antOk_eq {s : State} (hen : s.rb Reg.SXT_ANT_CFG.BIAS_EN = true) (hb : s.sxt.bias = true)
    (hlo : 3 ≤ s.r Reg.SXT_ANT_STATUS.CURRENT_MA) (hhi : s.r Reg.SXT_ANT_STATUS.CURRENT_MA ≤ 110)
    (hs : antState s = 2 ∨ antState s = 3) : antOk s = raise (s.w Reg.SXT_ANT_STATUS.ANT_STATE 1) 66 := by
  unfold antOk
  exact if_pos (by simp [hen, hb, hlo, hhi, hs])

/-- The tick of the retry is noted with the bias on again. -/
theorem antRetry_eq {s : State} (hen : s.rb Reg.SXT_ANT_CFG.BIAS_EN = true) (hb : s.sxt.bias = false) (hs : antState s = 3)
    (ht : s.sxt.shortAt + 1000 ≤ s.tick) :
    antRetry s = { s with sxt := { s.sxt with bias := true, shortAt := s.tick } } := by
  unfold antRetry
  exact if_pos (by simp [hen, hb, hs, ht])

/-- Band b is UNCALIBRATED again. -/
def bandUncal (b : Nat) (s : State) : State :=
  ((((setJamRef s b {}).w Reg.SXT_BAND.JAM_STATE 0 b).w Reg.SXT_BAND.JAM_IND 0 b).w Reg.SXT_BAND.RESID_IND 0 b).wb
    Reg.SXT_BAND.CAL_CLAMPED false b

/-- The indicators of a band stand beside the JAM_STATE of every band. -/
theorem jamState_key_ne (f : Field) (b c : Nat) (hs : f.s1 = 0x80) (hf : f.off = 0x20200) (hl : f.lsb ≠ 16)
    (hw : f.lsb < 32) : Reg.SXT_BAND.JAM_STATE.key b 0 ≠ f.key c 0 := by
  simp only [Field.key, Reg.SXT_BAND.JAM_STATE, Field.idx, fld, hs, hf]
  omega

theorem bandUncal_jamState (b c : Nat) (s : State) : (bandUncal c s).r Reg.SXT_BAND.JAM_STATE b
    = (s.w Reg.SXT_BAND.JAM_STATE 0 c).r Reg.SXT_BAND.JAM_STATE b := by
  unfold bandUncal State.wb
  rw [State.r_w_ne _ Reg.SXT_BAND.CAL_CLAMPED _ _ _ _ _ _ (jamState_key_ne _ b c rfl rfl (by decide) (by decide)),
    State.r_w_ne _ Reg.SXT_BAND.RESID_IND _ _ _ _ _ _ (jamState_key_ne _ b c rfl rfl (by decide) (by decide)),
    State.r_w_ne _ Reg.SXT_BAND.JAM_IND _ _ _ _ _ _ (jamState_key_ne _ b c rfl rfl (by decide) (by decide))]
  rfl

theorem iter_bandUncal_jamState (n : Nat) (s : State) : ∀ b < n, (iter bandUncal n s).r Reg.SXT_BAND.JAM_STATE b = 0 := by
  induction n with
  | zero => exact fun b hb => absurd hb (Nat.not_lt_zero b)
  | succ n ih =>
    intro b hb
    rw [iter, bandUncal_jamState]
    by_cases he : b = n
    · rw [he, State.r_w_same]
      exact Nat.zero_mod _
    · rw [State.r_w_ne _ _ _ _ _ _ _ _ fun hk => he (by
        simp only [Field.key, Reg.SXT_BAND.JAM_STATE, Field.idx, fld] at hk
        omega)]
      exact ih b (by omega)

/-- The bias goes off, and every band is UNCALIBRATED. -/
def shortTaken (s : State) : State :=
  iter bandUncal 3 { s with sxt := { s.sxt with bias := false, shortAt := s.tick, antLow := 0 } }

theorem antShort_eq {s : State} (hen : s.rb Reg.SXT_ANT_CFG.BIAS_EN = true) (hb : s.sxt.bias = true)
    (hma : 110 < s.r Reg.SXT_ANT_STATUS.CURRENT_MA) (hs : antState s ≠ 3) :
    antShort s = raise ((shortTaken s).w Reg.SXT_ANT_STATUS.ANT_STATE 3) 65 := by
  unfold antShort
  rw [if_pos (by simp [hen, hb, hma])]
  simp only [hs, if_false]
  rfl

theorem antShort_shows {s : State} (hen : s.rb Reg.SXT_ANT_CFG.BIAS_EN = true) (hb : s.sxt.bias = true)
    (hma : 110 < s.r Reg.SXT_ANT_STATUS.CURRENT_MA) (hs : antState s ≠ 3) :
    let t := antShort s
    antState t = 3 ∧ t.sxt.bias = false ∧ pending t 65 = true ∧ ∀ b, b < 3 → t.r Reg.SXT_BAND.JAM_STATE b = 0 := by
  dsimp only
  rw [antShort_eq hen hb hma hs]
  obtain ⟨hst, hsxt, hp, hregs⟩ := antRow_shows (shortTaken s) (v := 3) (e := 65) (by decide) (by decide)
  refine ⟨hst, congrArg SxtState.bias hsxt, hp, fun b hb => ?_⟩
  have hkey : ∀ b < 3, Reg.SXT_BAND.JAM_STATE.key b 0 ∉ Reg.SXT_ANT_STATUS.ANT_STATE.key 0 0 :: evtKeys := by decide
  exact (hregs.r _ b 0 (hkey b hb)).trans (iter_bandUncal_jamState 3 _ b hb)

/-! ### Notches and the noise reference -/

theorem notchEngage_eq {s : State} {b : Nat} {bin : Int} (hd : lineDue s b bin = true) (hh : lineHeld s b bin = false) :
    notchEngage b bin s = { s with sxt := { s.sxt with engage := s.sxt.engage ++ [(b, bin)] } } := by
  unfold notchEngage
  exact if_pos (by simp [hd, hh])

theorem notchRelease_eq {s : State} {b n : Nat} (hg : lineGone s b n = true) :
    notchRelease b n s = { s with sxt := { s.sxt with release := s.sxt.release ++ [(b, n)] } } := by
  unfold notchRelease
  exact if_pos hg

@[simp] theorem jamRef_setJamRef_same (s : State) (b : Nat) (j : JamRef) : jamRef (setJamRef s b j) b = j := mget_mput_same ..

/-- Band b has its reference and is CLEAR. -/
def bandReferred (b r : Nat) (clamped : Bool) (s : State) : State :=
  ((setJamRef s b { jamRef s b with refTen := some r }).wb Reg.SXT_BAND.CAL_CLAMPED clamped b).w Reg.SXT_BAND.JAM_STATE 1 b

theorem jamCal_eq {s : State} {b : Nat} (hr : (jamRef s b).refTen = none) (ht : 10000 ≤ (jamRef s b).ticks) :
    let f := 1000 * (Config.factoryNoise b * 10000) ^ 10
    jamCal b s = raise (bandReferred b (min f ((jamRef s b).sum ^ 10)) (decide (f < (jamRef s b).sum ^ 10)) s) 67 b := by
  unfold jamCal
  extract_lets f j g hi s1
  have href : (if hi = true then 1000 * g ^ 10 else j.sum ^ 10) = min f (j.sum ^ 10) := by
    by_cases h : f < j.sum ^ 10
    · rw [if_pos (decide_eq_true h), Nat.min_eq_left h.le]
    · rw [if_neg (by simpa [hi] using h), Nat.min_eq_right (Nat.le_of_not_lt h)]
  rw [if_neg (by simp [j, hr, ht])]
  unfold s1
  rw [href]
  rfl

theorem bandReferred_shows (b : Fin 3) (r : Nat) (clamped : Bool) (s : State) :
    let t := raise (bandReferred b r clamped s) 67 b
    (jamRef t b).refTen = some r ∧ t.rb Reg.SXT_BAND.CAL_CLAMPED b = clamped ∧ t.r Reg.SXT_BAND.JAM_STATE b = 1
      ∧ pending t 67 = true := by
  have hkeys : ∀ b : Fin 3, Reg.SXT_BAND.CAL_CLAMPED.key b 0 ∉ evtKeys
      ∧ Reg.SXT_BAND.JAM_STATE.key b 0 ∉ evtKeys := by decide
  refine ⟨?_, ?_, ?_, raise_sets_pending _ 67 _ (by decide)⟩
  · have hj : jamRef (raise (bandReferred b r clamped s) 67 b) b = jamRef (bandReferred b r clamped s) b := by
      unfold jamRef
      rw [raise_sxt]
    rw [hj]
    exact congrArg JamRef.refTen (jamRef_setJamRef_same s b _)
  · unfold State.rb
    rw [raise_field _ 67 _ _ _ _ (by decide) (hkeys b).1]
    exact (State.rb_w_ne _ _ _ _ _ _ _ _ (jamState_key_ne _ b b rfl rfl (by decide) (by decide)).symm).trans
      (State.rb_wb_same _ _ _ _ _ rfl)
  · rw [raise_field _ 67 _ _ _ _ (by decide) (hkeys b).2]
    exact State.r_w_same ..

/-- Settles O29: the rows of R101 one by one, the two requests, and the end of a band's calibration. -/
theorem antennaNotchesAndNoiseReference : Obligations.antenna_notches_and_noise_reference := by
  unfold Obligations.antenna_notches_and_noise_reference
  refine ⟨fun s hh hd hen => ⟨fun hb hma hs => ?_, fun hb hs ht => ?_, fun hb hl hs => ?_, fun hb hlo hhi hs => ?_⟩,
    fun s b he => ⟨fun bin cyc hdue hheld => ?_, fun n hg => ?_, fun hr ht => ?_⟩⟩
  · exact notDead_leaves (i := none) hh hd rfl (antShort_shows (s := s.start.atInst none) hen hb hma hs) fun _ h => h
  · have hx : exec .antRetry s = _ := withOut_live s (fun s => notDead s antRetry) hh
    rw [notDead_live antRetry (s.start.atInst none) hd, antRetry_eq (s := s.start.atInst none) hen hb hs ht] at hx
    exact hx
  · exact notDead_leaves (i := none) hh hd rfl ((antOpen_eq (s := s.start.atInst none) hen hb hl hs).symm ▸
      antRow_shows (s.start.atInst none) (by decide) (by decide)) fun _ h => h
  · exact notDead_leaves (i := none) hh hd rfl ((antOk_eq (s := s.start.atInst none) hen hb hlo hhi hs).symm ▸
      antRow_shows (s.start.atInst none) (by decide) (by decide)) fun _ h => h
  · have hx := engines_next (c := .notchEngage b bin cyc) (i := some (cycU cyc)) he rfl
    rw [notchEngage_eq (s := s.start.atInst (some (cycU cyc))) hdue hheld] at hx
    exact hx
  · have hx := engines_next (c := .notchRelease b n) (i := none) he rfl
    rw [notchRelease_eq (s := s.start.atInst none) hg] at hx
    exact hx
  · exact engines_leaves (i := none) he rfl ((jamCal_eq (s := s.start.atInst none) (b := b) hr ht).symm ▸
      bandReferred_shows b _ _ (s.start.atInst none)) fun _ h => h

end Sys2Proof.Machine

/-! PROOF. Correlator banks: what takes one out, and how it comes back (R125, R476, R477). -/

namespace Sys2Proof.Machine

open Sys2Proof

/-- A command of an awake module ends in what its operation makes of the state it starts from. -/
theorem alive_next {c : Instr} {s : State} {i : Option Nat} {f : State → State} (ha : Awake s)
    (hc : exec c s = withOutAt s i fun s => alive s f) :
    exec c s = .next (((f (s.start.atInst i)).requeue s.pending).atInst s.inst) := by
  rw [hc, withOutAt_live _ _ _ ha.1, alive_live f (s.start.atInst i) ha.2.1 ha.2.2]

/-- The same, for what that state satisfies. -/
theorem alive_leaves {c : Instr} {s : State} {i : Option Nat} {f : State → State} {P : State → Prop} (ha : Awake s)
    (hc : exec c s = withOutAt s i fun s => alive s f) (hf : P (f (s.start.atInst i)))
    (hback : ∀ u : State, P u → P ((u.requeue s.pending).atInst s.inst)) :
    ∃ t, exec c s = .next t ∧ P t :=
  ⟨_, alive_next ha hc, hback _ hf⟩

/-! ### A bank fails -/

theorem bankFault_waits {s : State} {b : Nat} (bad : List Nat) (ho : (unit s 0 b).out = false)
    (hs : (unit s 0 b).standby = false) (hq : ∀ o ∈ s.sxt.bankOut, o.1 ≠ b) :
    bankFault b bad s = { s with sxt := { s.sxt with bankOut := s.sxt.bankOut ++ [(b, bad, true)] } } := by
  unfold bankFault
  dsimp only
  rw [ho, hs, if_neg Bool.false_ne_true, if_neg Bool.false_ne_true, if_neg fun ha => ?_]
  obtain ⟨o, hm, he⟩ := List.any_eq_true.1 ha
  exact hq o hm (beq_iff_eq.1 he)

/-- An OUT that waits for the boundary becomes a failure, with its channels as well (log entry 68). -/
theorem bankFault_joinsOut {s : State} {b : Nat} (bad : List Nat) {was : List Nat} {fault : Bool} (ho : (unit s 0 b).out = false)
    (hs : (unit s 0 b).standby = false) (hq : s.sxt.bankOut = [(b, was, fault)]) :
    bankFault b bad s = { s with sxt := { s.sxt with bankOut := [(b, was ++ bad, true)] } } := by
  unfold bankFault
  dsimp only
  rw [ho, hs, hq, if_neg Bool.false_ne_true, if_neg Bool.false_ne_true, if_pos (by simp), List.map_singleton, if_pos rfl]

/-! ### A bank comes back -/

/-- No raising writes a field of the bank map. -/
theorem bankMap_calm : Reg.SXT_BANK_MAP.STANDBY.key 0 0 ∉ evtKeys ∧ Reg.SXT_BANK_MAP.IN_SERVICE.key 0 0 ∉ evtKeys := by
  decide

theorem unit_raise (s : State) (e d c i : Nat) : unit (raise s e d) c i = unit s c i :=
  unit_congr (congrArg SvcState.units (raise_svc s e d)) c i

theorem unit_unitJoin (s : State) (c i : Nat) : unit (unitJoin s c i) c i = { standby := true } :=
  (unit_congr (congrArg SvcState.units (completeAll_svc _ _ _ _)) c i).trans (unit_setUnit s c i _)

theorem bankBack_eq {s : State} {b : Nat} (hp : s.ttu.pos = 0) (hm : unitMayJoin s 0 b = true) :
    bankBack b s = raise ((unitJoin s 0 b).w Reg.SXT_BANK_MAP.STANDBY b) 75 b := by
  unfold bankBack
  exact if_pos ⟨hp, hm⟩

theorem bankBack_joins {s : State} (b : Fin 17) (hp : s.ttu.pos = 0) (hm : unitMayJoin s 0 b = true) :
    let t := bankBack b s
    (unit t 0 b).standby = true ∧ t.r Reg.SXT_BANK_MAP.STANDBY = b ∧ pending t 75 = true := by
  dsimp only
  rw [bankBack_eq hp hm]
  refine ⟨?_, ?_, raise_sets_pending _ 75 _ (by decide)⟩
  · rw [unit_raise]
    exact congrArg UnitSt.standby (unit_unitJoin s 0 b)
  · rw [raise_field _ 75 _ _ _ _ (by decide) bankMap_calm.1, State.r_w_same]
    exact Nat.mod_eq_of_lt (Nat.lt_trans b.isLt (by decide))

/-- A logical channel of bank b is on it again. -/
def bankChBack (b : Nat) (s : State) (c : Nat) : State :=
  let s := s.w Reg.SXT_CH.PHYS_BANK b c
  if (sxtCh s c).bankOut then
    let s := setSxtCh s c { sxtCh s c with bankOut := false }
    if s.slots then setChState s c 1 else s
  else s

/-- From s to t the units stay, and every register below the table of the channels. -/
def BanksKept (s t : State) : Prop :=
  t.svc = s.svc ∧ ∀ (f : Field) (i j : Nat), f.key i j < 32 * 0x21000 → t.r f i j = s.r f i j

theorem BanksKept.trans {s t u : State} (h : BanksKept s t) (k : BanksKept t u) : BanksKept s u :=
  ⟨k.1.trans h.1, fun f i j a => (k.2 f i j a).trans (h.2 f i j a)⟩

/-- On the way back a channel changes its PHYS_BANK, what it holds, and its STATE. -/
theorem bankChBack_cases (b : Nat) (s : State) (c : Nat) :
    bankChBack b s c = s.w Reg.SXT_CH.PHYS_BANK b c
      ∨ (∃ v, bankChBack b s c = setSxtCh (s.w Reg.SXT_CH.PHYS_BANK b c) c v)
      ∨ ∃ v, bankChBack b s c = setChState (setSxtCh (s.w Reg.SXT_CH.PHYS_BANK b c) c v) c 1 := by
  unfold bankChBack
  extract_lets s1 v s2
  by_cases ho : (sxtCh s1 c).bankOut = true
  · rw [if_pos ho]
    by_cases hs : s2.slots = true
    · exact Or.inr (Or.inr ⟨_, if_pos hs⟩)
    · exact Or.inr (Or.inl ⟨_, if_neg hs⟩)
  · exact Or.inl (if_neg ho)

theorem bankChBack_banksKept (b : Nat) (s : State) (c : Nat) : BanksKept s (bankChBack b s c) := by
  have hphys (f : Field) (i j : Nat) (hk : f.key i j < 32 * 0x21000) : (s.w Reg.SXT_CH.PHYS_BANK b c).r f i j = s.r f i j :=
    r_w_below _ _ _ _ _ _ _ _ hk
  rcases bankChBack_cases b s c with h | ⟨v, h⟩ | ⟨v, h⟩
  · exact h ▸ ⟨rfl, hphys⟩
  · exact h ▸ ⟨rfl, hphys⟩
  · exact h ▸ ⟨rfl, fun f i j hk => (r_w_below _ _ _ _ _ _ _ _ hk).trans (hphys f i j hk)⟩

/-- The PHYS_BANK of every channel after channel c came back. -/
theorem bankChBack_physBank (b : Nat) (s : State) (c d : Nat) : (bankChBack b s c).r Reg.SXT_CH.PHYS_BANK d
    = (s.w Reg.SXT_CH.PHYS_BANK b c).r Reg.SXT_CH.PHYS_BANK d := by
  rcases bankChBack_cases b s c with h | ⟨v, h⟩ | ⟨v, h⟩
  · rw [h]
  · rw [h, setSxtCh_r]
  · rw [h]
    refine State.r_w_ne _ _ _ _ _ _ _ _ fun hk => ?_
    simp only [Field.key, Reg.SXT_CH.PHYS_BANK, Reg.SXT_CH.STATE, Field.idx, Field.resetBy, fld] at hk
    omega

/-- A channel on bank b stays there when another of its channels comes back. -/
theorem bankChBack_stays {b : Nat} {s : State} (c : Nat) {d : Nat} (h : d = c ∨ s.r Reg.SXT_CH.PHYS_BANK d = b % 32) :
    (bankChBack b s c).r Reg.SXT_CH.PHYS_BANK d = b % 32 := by
  rw [bankChBack_physBank]
  by_cases he : d = c
  · rw [he]
    exact State.r_w_same ..
  · rw [State.r_w_ne _ _ _ _ _ _ _ _ fun hk => he (by
      simp only [Field.key, Reg.SXT_CH.PHYS_BANK, Field.idx, Field.resetBy, fld] at hk
      omega)]
    exact h.resolve_left he

theorem foldl_bankChBack_banksKept (b : Nat) (l : List Nat) (s : State) : BanksKept s (l.foldl (bankChBack b) s) := by
  induction l generalizing s with
  | nil => exact ⟨rfl, fun _ _ _ _ => rfl⟩
  | cons c l ih => exact (bankChBack_banksKept b s c).trans (ih _)

/-- Every channel that came back is on bank b. -/
theorem foldl_bankChBack_physBank (b : Nat) (l : List Nat) (s : State) {d : Nat}
    (h : d ∈ l ∨ s.r Reg.SXT_CH.PHYS_BANK d = b % 32) : (l.foldl (bankChBack b) s).r Reg.SXT_CH.PHYS_BANK d = b % 32 := by
  induction l generalizing s with
  | nil => exact h.resolve_left List.not_mem_nil
  | cons c l ih =>
    refine ih _ ?_
    rcases h with h | h
    · rcases List.mem_cons.1 h with h | h
      · exact Or.inr (bankChBack_stays c (Or.inl h))
      · exact Or.inl h
    · exact Or.inr (bankChBack_stays c (Or.inr h))

/-- Bank b is in service, and none is standby. -/
def bankShownIn (b : Nat) (s : State) : State :=
  ((unitInService s 0 b).wset Reg.SXT_BANK_MAP.IN_SERVICE b true).w Reg.SXT_BANK_MAP.STANDBY 0x1F

/-- The spare is a spare again, or the channels of bank b leave the spare for it. -/
def bankLoaded (b : Nat) (s : State) : State :=
  if b = 16 then s.w Reg.SXT_BANK_MAP.SPARE_BANK 16
  else (bankChs b).foldl (bankChBack b)
    (if s.r Reg.SXT_BANK_MAP.SPARE_FOR = b then s.w Reg.SXT_BANK_MAP.SPARE_FOR 0x1F else s)

theorem bankRestored_eq {s : State} {b : Nat} (hp : s.ttu.pos = 0) (hs : unitStable s 0 b = true) :
    bankRestored b s = raise (bankLoaded b (bankShownIn b s)) 76 b := by
  unfold bankRestored
  rw [if_neg (by simp [hp, hs])]
  rfl

theorem bankShownIn_shows (b : Fin 17) (s : State) :
    unitIn (bankShownIn b s) 0 b = true ∧ bitAt ((bankShownIn b s).r Reg.SXT_BANK_MAP.IN_SERVICE) b = true
      ∧ (bankShownIn b s).r Reg.SXT_BANK_MAP.STANDBY = 0x1F := by
  have hu : unit (bankShownIn b s) 0 b = {} := unit_setUnit s 0 b {}
  refine ⟨?_, ?_, State.r_w_same ..⟩
  · unfold unitIn
    rw [hu]
    rfl
  · unfold bankShownIn
    rw [State.r_w_ne _ Reg.SXT_BANK_MAP.STANDBY Reg.SXT_BANK_MAP.IN_SERVICE _ _ _ _ _ (by decide)]
    exact bitAt_wset _ _ _ 0 b.isLt

/-- What carries the channels leaves the units, IN_SERVICE and STANDBY. -/
theorem bankLoaded_kept (b : Nat) (s : State) : (bankLoaded b s).svc = s.svc
    ∧ (bankLoaded b s).r Reg.SXT_BANK_MAP.IN_SERVICE = s.r Reg.SXT_BANK_MAP.IN_SERVICE
    ∧ (bankLoaded b s).r Reg.SXT_BANK_MAP.STANDBY = s.r Reg.SXT_BANK_MAP.STANDBY := by
  unfold bankLoaded
  split
  · exact ⟨rfl, State.r_w_ne _ _ _ _ _ _ _ _ (by decide), State.r_w_ne _ _ _ _ _ _ _ _ (by decide)⟩
  · obtain ⟨hsvc, hr⟩ := foldl_bankChBack_banksKept b (bankChs b)
      (if s.r Reg.SXT_BANK_MAP.SPARE_FOR = b then s.w Reg.SXT_BANK_MAP.SPARE_FOR 0x1F else s)
    rw [hsvc, hr _ 0 0 (by decide), hr _ 0 0 (by decide)]
    split
    · exact ⟨rfl, State.r_w_ne _ _ _ _ _ _ _ _ (by decide), State.r_w_ne _ _ _ _ _ _ _ _ (by decide)⟩
    · exact ⟨rfl, rfl, rfl⟩

theorem bankLoaded_physBank {b k : Nat} (s : State) (hb : b < 16) (hk : k < 64) :
    (bankLoaded b s).r Reg.SXT_CH.PHYS_BANK (64 * b + k) = b := by
  unfold bankLoaded
  have hmem : 64 * b + k ∈ bankChs b := List.mem_map.2 ⟨k, List.mem_range.2 hk, rfl⟩
  rw [if_neg (by omega), foldl_bankChBack_physBank b _ _ (Or.inl hmem)]
  omega

theorem bankRestored_restores {s : State} (b : Fin 17) (hp : s.ttu.pos = 0) (hs : unitStable s 0 b = true) :
    let t := bankRestored b s
    unitIn t 0 b = true ∧ bitAt (t.r Reg.SXT_BANK_MAP.IN_SERVICE) b = true ∧ t.r Reg.SXT_BANK_MAP.STANDBY = 0x1F
      ∧ pending t 76 = true ∧ (b.val < 16 → ∀ k, k < 64 → t.r Reg.SXT_CH.PHYS_BANK (64 * b + k) = b) := by
  dsimp only
  rw [bankRestored_eq hp hs]
  obtain ⟨hin, hbit, hstand⟩ := bankShownIn_shows b s
  obtain ⟨hsvc, hserv, hst⟩ := bankLoaded_kept b (bankShownIn b s)
  refine ⟨?_, ?_, ?_, raise_sets_pending _ 76 _ (by decide), fun hb k hk => ?_⟩
  · unfold unitIn at hin ⊢
    rw [unit_raise, unit_congr (congrArg SvcState.units hsvc)]
    exact hin
  · rw [raise_field _ 76 _ _ _ _ (by decide) bankMap_calm.2, hserv]
    exact hbit
  · rw [raise_field _ 76 _ _ _ _ (by decide) bankMap_calm.1, hst]
    exact hstand
  · rw [raise_field _ 76 _ _ _ _ (by decide) (chKey_calm _ (by omega) rfl (by decide))]
    exact bankLoaded_physBank _ hb hk

end Sys2Proof.Machine

/-! PROOF. The SXT slot: loop updates, and the measurement records of the epoch (R106, R110, R111, R116). -/

namespace Sys2Proof.Machine

open Sys2Proof

/-! ### What the measured use of the slot leaves -/

/-- The use of a slot is shown in MAX_USE alone. -/
theorem slotUsed_regs (s : State) (e held : Nat) : RegsKept [Reg.TTU_SLOT_USE.MAX_USE.key e 0] s (slotUsed s e held) := by
  unfold slotUsed
  dsimp only
  split
  · exact RegsKept.w (.of_regs rfl) _ _ e 0 List.mem_cons_self
  · exact .of_regs rfl

theorem slotUsed_sxt (s : State) (e held : Nat) : (slotUsed s e held).sxt = s.sxt := by
  unfold slotUsed
  dsimp only
  split <;> rfl

/-- Sextant's registers stand above MAX_USE of its slot. -/
theorem slotUsed_sxtReg (s : State) (held : Nat) (f : Field) (i j : Nat) (h : 0x20000 ≤ f.off) :
    (slotUsed s 1 held).r f i j = s.r f i j := by
  refine (slotUsed_regs s 1 held).r f i j fun hk => ?_
  have hm : Reg.TTU_SLOT_USE.MAX_USE.key 1 0 < 32 * 0x20000 := by decide
  rw [← List.mem_singleton.1 hk] at hm
  unfold Field.key at hm
  omega

theorem slotUsed_sxtCh (s : State) (e held c : Nat) : sxtCh (slotUsed s e held) c = sxtCh s c := by
  unfold sxtCh
  rw [slotUsed_sxt]

theorem loopUpdate_slotUsed (s : State) (held g : Nat) (pulling : Bool) (k : CorrIn) :
    loopUpdate (slotUsed s 1 held) g pulling k = loopUpdate s g pulling k := by
  unfold loopUpdate sxtPll sxtFll sxtDll State.rb
  simp (disch := decide) only [slotUsed_sxtReg, slotUsed_sxtCh, (slotUsed_stays s 1 held).tick]

/-! ### What the changes of state due leave -/

/-- From s to t the latch stays, and of every channel its prompt and noise correlators, its carrier rate, C/N0 and
Doppler. -/
structure LoopsKept (s t : State) : Prop where
  latch   : t.sxt.latch = s.sxt.latch
  prompt  : ∀ c, (sxtCh t c).prompt = (sxtCh s c).prompt
  noise   : ∀ c, (sxtCh t c).noise = (sxtCh s c).noise
  carRate : ∀ c, (sxtCh t c).carRate = (sxtCh s c).carRate
  cn0     : ∀ c, c < 1024 → t.r Reg.SXT_CH.CN0 c = s.r Reg.SXT_CH.CN0 c
  doppler : ∀ c, c < 1024 → t.r Reg.SXT_CH.DOPPLER c = s.r Reg.SXT_CH.DOPPLER c

theorem LoopsKept.rfl' (s : State) : LoopsKept s s :=
  ⟨rfl, fun _ => rfl, fun _ => rfl, fun _ => rfl, fun _ _ => rfl, fun _ _ => rfl⟩

theorem LoopsKept.trans {s t u : State} (h : LoopsKept s t) (k : LoopsKept t u) : LoopsKept s u :=
  ⟨k.latch.trans h.latch, fun c => (k.prompt c).trans (h.prompt c), fun c => (k.noise c).trans (h.noise c),
    fun c => (k.carRate c).trans (h.carRate c), fun c hc => (k.cn0 c hc).trans (h.cn0 c hc),
    fun c hc => (k.doppler c hc).trans (h.doppler c hc)⟩

theorem LoopsKept.ite {s a b : State} {c : Prop} [Decidable c] (h : LoopsKept s a) (k : LoopsKept s b) :
    LoopsKept s (if c then a else b) := by
  split
  · exact h
  · exact k

theorem foldl_loopsKept {α : Type} (f : State → α → State) (h : ∀ s a, LoopsKept s (f s a)) (l : List α) (s : State) :
    LoopsKept s (l.foldl f s) := by
  induction l generalizing s with
  | nil => exact .rfl' s
  | cons a l ih => exact (h s a).trans (ih _)

/-- Where the channels and the latch stay, C/N0 and Doppler alone are to be read. -/
theorem LoopsKept.of_sxt {s t : State} (hc : t.sxt.chans = s.sxt.chans) (hl : t.sxt.latch = s.sxt.latch)
    (hn : ∀ c, c < 1024 → t.r Reg.SXT_CH.CN0 c = s.r Reg.SXT_CH.CN0 c)
    (hd : ∀ c, c < 1024 → t.r Reg.SXT_CH.DOPPLER c = s.r Reg.SXT_CH.DOPPLER c) : LoopsKept s t := by
  have hch (c : Nat) : sxtCh t c = sxtCh s c := by unfold sxtCh; rw [hc]
  exact ⟨hl, fun c => by rw [hch], fun c => by rw [hch], fun c => by rw [hch], hn, hd⟩

theorem setChState_loopsKept (s : State) (c v : Nat) : LoopsKept s (setChState s c v) := by
  refine .of_sxt rfl rfl (fun d _ => State.r_w_ne _ _ _ _ _ _ _ _ ?_) fun d _ => State.r_w_ne _ _ _ _ _ _ _ _ ?_
  · simp only [Field.key, Reg.SXT_CH.CN0, Reg.SXT_CH.STATE, Field.idx, fld]
    omega
  · simp only [Field.key, Reg.SXT_CH.DOPPLER, Reg.SXT_CH.STATE, Field.idx, fld]
    omega

theorem lockMs_loopsKept (s : State) (v c : Nat) : LoopsKept s (s.w Reg.SXT_CH.LOCK_MS v c) := by
  refine .of_sxt rfl rfl (fun d _ => State.r_w_ne _ _ _ _ _ _ _ _ ?_) fun d _ => State.r_w_ne _ _ _ _ _ _ _ _ ?_
  · simp only [Field.key, Reg.SXT_CH.CN0, Reg.SXT_CH.LOCK_MS, Field.idx, fld]
    omega
  · simp only [Field.key, Reg.SXT_CH.DOPPLER, Reg.SXT_CH.LOCK_MS, Field.idx, fld]
    omega

theorem setSxtCh_loopsKept (s : State) (c : Nat) (v : SxtCh) (hp : v.prompt = (sxtCh s c).prompt)
    (hn : v.noise = (sxtCh s c).noise) (hr : v.carRate = (sxtCh s c).carRate) : LoopsKept s (setSxtCh s c v) := by
  have hch {α : Type} (g : SxtCh → α) (h : g v = g (sxtCh s c)) (d : Nat) : g (sxtCh (setSxtCh s c v) d) = g (sxtCh s d) := by
    by_cases he : d = c
    · rw [he, sxtCh_setSxtCh_same, h]
    · rw [sxtCh_setSxtCh_ne s v he]
  exact ⟨rfl, hch _ hp, hch _ hn, hch _ hr, fun _ _ => rfl, fun _ _ => rfl⟩

theorem raise_loopsKept (s : State) (e d : Nat) (he : e < 512) : LoopsKept s (raise s e d) :=
  .of_sxt (congrArg SxtState.chans (raise_sxt s e d)) (congrArg SxtState.latch (raise_sxt s e d))
    (fun _ hc => raise_field s e d _ _ _ he (chKey_calm _ hc rfl (by decide)))
    fun _ hc => raise_field s e d _ _ _ he (chKey_calm _ hc rfl (by decide))

theorem chLocked_loopsKept (c : Nat) (s : State) : LoopsKept s (chLocked c s) := by
  unfold chLocked
  refine ((setSxtCh_loopsKept s c _ ?_ ?_ ?_).trans (lockMs_loopsKept _ 0 c)).trans (setChState_loopsKept _ c 3) <;> rfl

theorem readyShown_loopsKept (s : State) : LoopsKept s (readyShown s) := by
  unfold readyShown
  refine .ite ?_ (.rfl' s)
  exact LoopsKept.trans (t := { s with sxt := { s.sxt with ready := true } })
    (.of_sxt rfl rfl (fun _ _ => rfl) fun _ _ => rfl) (raise_loopsKept _ 79 _ (by decide))

theorem chTrack_loopsKept (c : Nat) (s : State) : LoopsKept s (chTrack c s) := by
  by_cases h : chState s c ≠ 2 ∨ forTicks s 100 (sxtCh s c).hiAt = false
  · have hx : chTrack c s = s := by
      unfold chTrack
      exact if_pos h
    rw [hx]
    exact .rfl' s
  · obtain ⟨hc, hf⟩ := not_or.1 h
    rw [chTrack_eq (not_not.1 hc) (by simpa using hf)]
    have hcal (b : Nat) : LoopsKept (chLocked c s) (calStarted b (chLocked c s)) :=
      .of_sxt rfl rfl (fun _ _ => rfl) fun _ _ => rfl
    exact ((chLocked_loopsKept c s).trans (hcal _)).trans (readyShown_loopsKept _)

theorem chReacq_loopsKept (s : State) (c : Nat) : LoopsKept s (chReacq s c) := by
  unfold chReacq
  refine (setSxtCh_loopsKept s c _ ?_ ?_ ?_).trans (setChState_loopsKept _ c 4) <;> rfl

theorem chLockLoss_loopsKept (c : Nat) (s : State) : LoopsKept s (chLockLoss c s) := by
  unfold chLockLoss
  exact .ite (chReacq_loopsKept s c) (.rfl' s)

theorem chDue_loopsKept (s : State) (c : Nat) : LoopsKept s (chDue s c) := by
  unfold chDue
  exact .ite (.ite (chTrack_loopsKept c s) (.rfl' s)) (.ite (.ite (chLockLoss_loopsKept c s) (.rfl' s)) (.rfl' s))

/-! ### The slot -/

/-- After the loop updates: the changes of state due, and the lock times. -/
def loopsSettled (s : State) : State :=
  let s := (s.sxt.chans.map (·.1)).foldl chDue s
  s.sxt.chans.foldl (fun s p =>
    if chState s p.1 = 3 then s.w Reg.SXT_CH.LOCK_MS (min (s.tick - p.2.since) 0xFFFFFFFF) p.1 else s) s

theorem loopsSettled_loopsKept (s : State) : LoopsKept s (loopsSettled s) :=
  (foldl_loopsKept chDue chDue_loopsKept _ s).trans
    (foldl_loopsKept _ (fun _ _ => .ite (lockMs_loopsKept ..) (.rfl' _)) _ _)

/-- With no work left the slot carries its updates out. -/
theorem sxtSlot_eq {s : State} {use : SlotUse} (ks : List CorrIn) (ms : List MeasIn) (hu : use.pending = false)
    (hd : s.mode ≠ .dead) :
    sxtSlot use ks ms s = measEpoch ms (loopsSettled (ks.foldl (fun s k => chUpdate k s) (slotUsed s 1 use.held))) := by
  have hend : slotEnd s 1 use = slotUsed s 1 use.held := by
    unfold slotEnd
    exact if_neg (by simp [hu])
  unfold sxtSlot
  dsimp only
  rw [hend, if_neg (by simpa [(slotUsed_stays s 1 use.held).mode] using hd)]
  rfl

theorem measEpoch_sxtCh (ms : List MeasIn) (s : State) (c : Nat) : sxtCh (measEpoch ms s) c = sxtCh s c := by
  unfold measEpoch
  split <;> rfl

theorem measEpoch_r (ms : List MeasIn) (s : State) (f : Field) (i j : Nat) : (measEpoch ms s).r f i j = s.r f i j := by
  unfold measEpoch
  split <;> rfl

theorem chUpdate_due {s : State} {k : CorrIn} (hc : chState s k.ch = 2 ∨ chState s k.ch = 3)
    (hp : (sxtCh s k.ch).last + (sxtCh s k.ch).tcoh ≤ s.tick + 1) :
    let v := loopUpdate s (s.r Reg.SXT_CH.SIG k.ch) (chState s k.ch == 2) k
    chUpdate k s = ((setSxtCh s k.ch v.1).w Reg.SXT_CH.CN0 v.2 k.ch).wi Reg.SXT_CH.DOPPLER v.1.carRate k.ch := by
  unfold chUpdate
  exact if_pos ⟨hc, hp⟩

/-- A channel takes its correlators and shows the C/N0 and Doppler of its loops. -/
theorem chUpdate_shows {s : State} {k : CorrIn} (hc : chState s k.ch = 2 ∨ chState s k.ch = 3)
    (hp : (sxtCh s k.ch).last + (sxtCh s k.ch).tcoh ≤ s.tick + 1) :
    let v := loopUpdate s (s.r Reg.SXT_CH.SIG k.ch) (chState s k.ch == 2) k
    let t := chUpdate k s
    t.r Reg.SXT_CH.CN0 k.ch = v.2 % 65536 ∧ t.r Reg.SXT_CH.DOPPLER k.ch = ofSigned 32 v.1.carRate
      ∧ (sxtCh t k.ch).prompt = k.prompt ∧ (sxtCh t k.ch).noise = k.noise ∧ (sxtCh t k.ch).carRate = v.1.carRate := by
  have hx := chUpdate_due hc hp
  dsimp only at hx ⊢
  rw [hx]
  have hch := sxtCh_setSxtCh_same s k.ch (loopUpdate s (s.r Reg.SXT_CH.SIG k.ch) (chState s k.ch == 2) k).1
  refine ⟨?_, ?_, congrArg SxtCh.prompt hch, congrArg SxtCh.noise hch, congrArg SxtCh.carRate hch⟩
  · exact (r_w_other _ Reg.SXT_CH.DOPPLER Reg.SXT_CH.CN0 _ _ rfl (by decide)).trans (State.r_w_same ..)
  · exact (State.r_w_same ..).trans (Nat.mod_eq_of_lt (ofSigned_lt 32 _))

/-- The correlators of a channel whose period has ended, through the whole slot. -/
theorem sxtSlot_updates {s : State} {use : SlotUse} {k : CorrIn} (ms : List MeasIn) (hu : use.pending = false)
    (hd : s.mode ≠ .dead) (hk : k.ch < 1024) (hc : chState s k.ch = 2 ∨ chState s k.ch = 3)
    (hp : (sxtCh s k.ch).last + (sxtCh s k.ch).tcoh ≤ s.tick + 1) :
    let v := loopUpdate s (s.r Reg.SXT_CH.SIG k.ch) (chState s k.ch == 2) k
    let t := sxtSlot use [k] ms s
    t.r Reg.SXT_CH.CN0 k.ch = v.2 % 65536 ∧ t.r Reg.SXT_CH.DOPPLER k.ch = ofSigned 32 v.1.carRate
      ∧ (sxtCh t k.ch).prompt = k.prompt ∧ (sxtCh t k.ch).noise = k.noise ∧ (sxtCh t k.ch).carRate = v.1.carRate := by
  have hst : chState (slotUsed s 1 use.held) k.ch = chState s k.ch := slotUsed_sxtReg s _ _ _ _ (by decide)
  have hshow := chUpdate_shows (s := slotUsed s 1 use.held) (k := k) (by rwa [hst])
    (by rwa [slotUsed_sxtCh, (slotUsed_stays s 1 use.held).tick])
  dsimp only at hshow ⊢
  rw [hst, slotUsed_sxtReg _ _ _ _ _ (by decide), loopUpdate_slotUsed] at hshow
  obtain ⟨hcn0, hdop, hprompt, hnoise, hrate⟩ := hshow
  have hkept := loopsSettled_loopsKept (chUpdate k (slotUsed s 1 use.held))
  rw [sxtSlot_eq [k] ms hu hd, List.foldl_cons, List.foldl_nil, measEpoch_r, measEpoch_r, measEpoch_sxtCh]
  exact ⟨(hkept.cn0 _ hk).trans hcn0, (hkept.doppler _ hk).trans hdop, (hkept.prompt _).trans hprompt,
    (hkept.noise _).trans hnoise, (hkept.carRate _).trans hrate⟩

/-- The epoch delivers the record of the one channel that it latched. -/
theorem measEpoch_one {s : State} {l : LatchCh} {m : MeasIn} {epoch t0 : Nat} (hl : s.sxt.latch = some ([l], epoch, t0))
    (hm : m.ch = l.ch) : (measEpoch [m] s).sxt.latch = none
      ∧ (measEpoch [m] s).sxt.recs = if l.deliver then [measRec epoch l m] else [] := by
  unfold measEpoch
  rw [hl]
  refine ⟨rfl, ?_⟩
  cases hd : l.deliver with
  | true => simp [hd, hm]
  | false => simp [hd]

theorem sxtSlot_delivers {s : State} {use : SlotUse} {l : LatchCh} {m : MeasIn} {epoch t0 : Nat} (hu : use.pending = false)
    (hd : s.mode ≠ .dead) (hl : s.sxt.latch = some ([l], epoch, t0)) (hm : m.ch = l.ch) :
    let t := sxtSlot use [] [m] s
    t.sxt.latch = none ∧ t.sxt.recs = if l.deliver then [measRec epoch l m] else [] := by
  dsimp only
  rw [sxtSlot_eq [] [m] hu hd, List.foldl_nil]
  refine measEpoch_one (t0 := t0) ?_ hm
  exact ((loopsSettled_loopsKept _).latch.trans (congrArg SxtState.latch (slotUsed_sxt s 1 use.held))).trans hl

end Sys2Proof.Machine

/-! PROOF. A navigation unit: what OBS takes of one that passes its check, and of one that fails (R117, R118, R137). -/

namespace Sys2Proof.Machine

open Sys2Proof

/-! ### What the Cell Pool changes -/

/-- From s to t nothing changes but registers, the Cell Pool and what raisings change. -/
def PoolOnly (s t : State) : Prop :=
  t = { s with
    regs := t.regs, free := t.free, onceTick := t.onceTick, cpl := t.cpl
    log := { s.log with queue := t.log.queue }
    hst := { s.hst with evq := t.hst.evq, evOvf := t.hst.evOvf }
    glt := { s.glt with evts := t.glt.evts } }

theorem PoolOnly.rfl' (s : State) : PoolOnly s s := rfl

theorem PoolOnly.trans {s t u : State} (h : PoolOnly s t) (k : PoolOnly t u) : PoolOnly s u := by
  unfold PoolOnly at *
  rw [k, h]

theorem PoolOnly.ite {s a b : State} {c : Prop} [Decidable c] (h : PoolOnly s a) (k : PoolOnly s b) :
    PoolOnly s (if c then a else b) := by
  split
  · exact h
  · exact k

theorem EvtOnly.poolOnly {s t : State} (h : EvtOnly s t) : PoolOnly s t := by
  unfold EvtOnly at h
  unfold PoolOnly
  rw [h]

theorem raiseTickKey_poolOnly (s : State) (key e d : Nat) : PoolOnly s (raiseTickKey s key e d) := by
  unfold raiseTickKey
  exact .ite (.rfl' s) (PoolOnly.trans (t := { s with onceTick := s.onceTick ++ [key] }) rfl (raise_evtOnly ..).poolOnly)

theorem cplSetCells_poolOnly (s : State) (q c : Nat) : PoolOnly s (cplSetCells s q c) := by
  unfold cplSetCells
  extract_lets old mn free free' _ u v thr
  have hv : PoolOnly s v := rfl
  exact .ite (hv.trans (raise_evtOnly ..).poolOnly) hv

theorem cplDropOldest_poolOnly (s : State) (q g : Nat) : PoolOnly s (cplDropOldest s q g) := by
  unfold cplDropOldest
  extract_lets v out u w x
  have hw : PoolOnly s w := PoolOnly.trans (t := u) rfl (cplSetCells_poolOnly u q _)
  have hx : PoolOnly w (x.add Reg.CPL_Q.LOST g q) := rfl
  exact .ite (.rfl' s) ((hw.trans hx).trans (raiseTick_evtOnly ..).poolOnly)

theorem cplBegin_poolOnly (s : State) (q len : Nat) : PoolOnly s (cplBegin s q len).2 := by
  unfold cplBegin
  split
  · exact PoolOnly.trans (t := s.inc Reg.CPL_COUNTS.NOQ_DROP) rfl (raiseTick_evtOnly ..).poolOnly
  · extract_lets n v
    split
    · exact PoolOnly.trans (t := s.inc Reg.CPL_COUNTS.POOL_DROP) rfl (raiseTick_evtOnly ..).poolOnly
    · rename_i g _
      extract_lets u w x
      have hx : PoolOnly s x := PoolOnly.trans (cplDropOldest_poolOnly s q g) rfl
      exact hx.trans (cplSetCells_poolOnly x q _)

theorem cplCommit_poolOnly (s : State) (q : Nat) (data : List Byte) : PoolOnly s (cplCommit s q data) := by
  unfold cplCommit
  extract_lets v u w
  have hw : PoolOnly s w := rfl
  exact .ite (hw.trans (raiseTickKey_poolOnly ..)) hw

theorem cplPut_poolOnly (s : State) (q : Nat) (data : List Byte) : PoolOnly s (cplPut s q data) := by
  have h := cplBegin_poolOnly s q data.length
  unfold cplPut
  generalize cplBegin s q data.length = p at h
  obtain ⟨b, u⟩ := p
  cases b with
  | true => exact h.trans (cplCommit_poolOnly u q data)
  | false => exact h

theorem cplTake_poolOnly (s : State) (q : Nat) : PoolOnly s (cplTake s q).2 := by
  unfold cplTake
  dsimp only
  split
  · exact .rfl' s
  · exact PoolOnly.trans (t := (cplSetQ s q _).w Reg.CPL_Q.PKTS _ q) rfl (cplSetCells_poolOnly ..)

theorem cplTake_producerKept (ks : List Nat) (s : State) (q : Nat) : ProducerKept ks s (cplTake s q).2 := by
  unfold cplTake
  dsimp only
  split
  · exact .rfl' ks s
  · exact (w_producerKept_above ks (cplSetQ s q _) Reg.CPL_Q.PKTS _ q 0 (by decide)).trans (cplSetCells_producerKept ..)

/-! ### The record of a unit -/

/-- From s to t what OBS and the ports hold stays, and every register below HST's block. -/
structure RecordKept (s t : State) : Prop where
  obs  : t.obs = s.obs
  eth  : t.eth = s.eth
  regs : ∀ (f : Field) (i j : Nat), f.key i j < 32 * 0xD0000 → t.r f i j = s.r f i j

theorem RecordKept.trans {s t u : State} (h : RecordKept s t) (k : RecordKept t u) : RecordKept s u :=
  ⟨k.obs.trans h.obs, k.eth.trans h.eth, fun f i j a => (k.regs f i j a).trans (h.regs f i j a)⟩

theorem recordKept_of_pool {s t : State} (h : PoolOnly s t) (k : ProducerKept [] s t) : RecordKept s t := by
  refine ⟨?_, ?_, fun f i j a => k.r f i j a List.not_mem_nil⟩
  · rw [h]
  · rw [h]

theorem cplPut_recordKept (s : State) (q : Nat) (data : List Byte) : RecordKept s (cplPut s q data) :=
  recordKept_of_pool (cplPut_poolOnly s q data) (cplPut_producerKept [] s q data)

theorem cplTake_recordKept (s : State) (q : Nat) : RecordKept s (cplTake s q).2 :=
  recordKept_of_pool (cplTake_poolOnly s q) (cplTake_producerKept [] s q)

theorem raiseWatch_recordKept (s : State) (e d : Nat) (he : e < 512) : RecordKept s (raiseWatch s e d) := by
  have h := raiseWatch_evtOnly s e d
  unfold EvtOnly at h
  refine ⟨?_, ?_, fun f i j a => raiseWatch_r s e d f i j he (not_evtKey a)⟩
  · rw [h]
  · rw [h]

/-- The channel's polarity is resolved where the unit shows it. -/
def navPolar (c : Nat) (u : NavIn) (s : State) : State :=
  if u.polarity then setSxtCh s c { sxtCh s c with polar := true } else s

/-- A unit that fails its check is counted. -/
def navCounted (fail : Bool) (s : State) : State :=
  if fail then raiseWatch (s.inc Reg.SXT_COUNTS.NAV_FAIL_COUNT) 78 else s

/-- The record goes to OBS, and a copy to the host where one is enabled. -/
def navPassed (r : List Byte) (fail : Bool) (s : State) : State :=
  let s := (cplTake (cplPut s 129 r) 129).2
  if s.rb Reg.SXT_NAV_CFG.HOST_COPY && (!fail || s.rb Reg.SXT_NAV_CFG.FAIL_TO_HOST) then cplPut s 130 r else s

/-- What a unit of channel c leaves before OBS judges it. -/
def navRecorded (c : Nat) (u : NavIn) (s : State) : State :=
  navPassed (navBytes (navPolar c u s) c u) (navCheck (s.r Reg.SXT_CH.SIG c) u == 2)
    (navCounted (navCheck (s.r Reg.SXT_CH.SIG c) u == 2) (navPolar c u s))

theorem navUnit_eq {c : Nat} {s : State} (u : NavIn) (hc : chState s c = 3) :
    navUnit c u s = match navAccept (navRecorded c u s) (s.r Reg.SXT_CH.SIG c) (s.r Reg.SXT_CH.SV c) u with
      | (true, s') => navTake s' (s.r Reg.SXT_CH.SIG c) (s.r Reg.SXT_CH.SV c) u
      | (false, s') => s' := by
  unfold navUnit
  rw [if_neg (by simp [hc])]
  rfl

theorem navPassed_recordKept (r : List Byte) (fail : Bool) (s : State) : RecordKept s (navPassed r fail s) := by
  have h := (cplPut_recordKept s 129 r).trans (cplTake_recordKept _ 129)
  unfold navPassed
  dsimp only
  split
  · exact h.trans (cplPut_recordKept _ 130 r)
  · exact h

/-! ### CHECK PASS -/

theorem navUnit_pass {c : Nat} {u : NavIn} {s : State} (hc : chState s c = 3) (hp : navCheck (s.r Reg.SXT_CH.SIG c) u = 0) :
    navUnit c u s = navTake (navRecorded c u s) (s.r Reg.SXT_CH.SIG c) (s.r Reg.SXT_CH.SV c) u := by
  have ha : navAccept (navRecorded c u s) (s.r Reg.SXT_CH.SIG c) (s.r Reg.SXT_CH.SV c) u = (true, navRecorded c u s) := by
    unfold navAccept
    exact if_pos hp
  rw [navUnit_eq u hc, ha]

/-- GNSS time touches Sextant alone. -/
theorem navTake_kept (s : State) (g sv : Nat) (u : NavIn) :
    (navTake s g sv u).obs = (navParams (navUtc (navEph s g sv u) u) g u).obs
      ∧ (navTake s g sv u).regs = (navUtc (navEph s g sv u) u).regs := by
  unfold navTake
  dsimp only
  split <;> exact ⟨rfl, rfl⟩

theorem navUtc_obs (s : State) (u : NavIn) : (navUtc s u).obs = s.obs := by
  unfold navUtc
  split <;> rfl

/-- The ephemeris set that a unit completes waits for the next watch boundary. -/
theorem navTake_queues {u : NavIn} {ps : List Nat} (s : State) (g sv : Nat) (hu : u.eph = some ps) :
    (256 * sigConst g + sv, ({ stamp := u.stamp, params := ps } : EphSet)) ∈ (navTake s g sv u).obs.ephNext := by
  have hq : (navTake s g sv u).obs.ephNext = (navEph s g sv u).obs.ephNext := by
    rw [(navTake_kept s g sv u).1, ← navUtc_obs (navEph s g sv u) u]
    rfl
  rw [hq]
  unfold navEph
  rw [hu]
  exact List.mem_append_right _ List.mem_cons_self

theorem navTake_utc {u : NavIn} {v : Nat} (s : State) (g sv : Nat) (hv : v < 65536) (hu : u.utc = some v) :
    (navTake s g sv u).r Reg.ETH_UTC.UTC_OFFSET = v ∧ (navTake s g sv u).rb Reg.ETH_UTC.FROM_NAV = true := by
  unfold State.rb
  rw [r_of_regs (navTake_kept s g sv u).2, r_of_regs (navTake_kept s g sv u).2]
  unfold navUtc
  rw [hu]
  refine ⟨?_, State.rb_wb_same _ _ _ _ _ rfl⟩
  exact (State.r_w_ne _ _ _ _ _ _ _ _ (by decide)).trans ((State.r_w_same ..).trans (Nat.mod_eq_of_lt hv))

/-! ### CHECK FAIL -/

theorem navUnit_fail {c : Nat} {u : NavIn} {s : State} (hc : chState s c = 3) (hp : navCheck (s.r Reg.SXT_CH.SIG c) u = 2) :
    navUnit c u s = navRecorded c u s := by
  have ha : navAccept (navRecorded c u s) (s.r Reg.SXT_CH.SIG c) (s.r Reg.SXT_CH.SV c) u = (false, navRecorded c u s) := by
    unfold navAccept
    rw [hp]
    rfl
  rw [navUnit_eq u hc, ha]

theorem navPolar_kept (c : Nat) (u : NavIn) (s : State) : (navPolar c u s).obs = s.obs ∧ (navPolar c u s).eth = s.eth
    ∧ (navPolar c u s).regs = s.regs := by
  unfold navPolar
  split <;> exact ⟨rfl, rfl, rfl⟩

/-- A unit that fails is counted, and OBS and the ports keep what they hold. -/
theorem navUnit_counts {c : Nat} {u : NavIn} {s : State} (hc : chState s c = 3) (hp : navCheck (s.r Reg.SXT_CH.SIG c) u = 2) :
    let t := navUnit c u s
    t.obs = s.obs ∧ t.eth = s.eth ∧ t.r Reg.SXT_COUNTS.NAV_FAIL_COUNT = satInc 32 (s.r Reg.SXT_COUNTS.NAV_FAIL_COUNT) := by
  dsimp only
  rw [navUnit_fail hc hp]
  unfold navRecorded navCounted
  rw [hp]
  obtain ⟨hobs, heth, hregs⟩ := navPolar_kept c u s
  have hkept := (raiseWatch_recordKept ((navPolar c u s).inc Reg.SXT_COUNTS.NAV_FAIL_COUNT) 78 noDetail (by decide)).trans
    (navPassed_recordKept (navBytes (navPolar c u s) c u) true _)
  refine ⟨hkept.obs.trans hobs, hkept.eth.trans heth, (hkept.regs _ 0 0 (by decide)).trans ?_⟩
  rw [State.r_inc_same, r_of_regs hregs]
  rfl

/-- Settles O30: the faults and returns of a bank, the two uses of the slot, and the unit by its check, each by what its
operation does on the state the command starts from. -/
theorem correlatorBanksMeasurementsAndNavigationUnits :
    Obligations.correlator_banks_measurements_and_navigation_units := by
  unfold Obligations.correlator_banks_measurements_and_navigation_units
  refine ⟨fun s b he => ⟨fun bad ho hs hq => ?_, fun bad was fault ho hs hq => ?_, fun hp hm => ?_, fun hp hs => ?_⟩,
    fun s use he hu => ⟨fun k ms hk hc hp => ?_, fun l m epoch t0 hl hm => ?_⟩,
    fun s c u he hc => ⟨fun hp => ?_, fun hp => ?_⟩⟩
  · have hx := alive_next (c := .bankFault b bad) (i := none) he.awake rfl
    rw [bankFault_waits (s := s.start.atInst none) bad ho hs hq] at hx
    exact hx
  · have hx := alive_next (c := .bankFault b bad) (i := none) he.awake rfl
    rw [bankFault_joinsOut (s := s.start.atInst none) bad ho hs hq] at hx
    exact hx
  · exact alive_leaves (i := some 0) he.awake rfl (bankBack_joins (s := s.start.atInst (some 0)) b hp hm) fun _ h => h
  · exact alive_leaves (i := some 0) he.awake rfl (bankRestored_restores (s := s.start.atInst (some 0)) b hp hs) fun _ h => h
  · exact engines_leaves (i := none) he rfl
      (sxtSlot_updates (s := s.start.atInst none) ms hu he.awake.2.2 hk hc hp) fun _ h => h
  · exact engines_leaves (i := none) he rfl (sxtSlot_delivers (s := s.start.atInst none) hu he.awake.2.2 hl hm) fun _ h => h
  · refine engines_leaves (i := none) he rfl ((navUnit_pass (s := s.start.atInst none) hc hp).symm ▸ ?_) fun _ h => h
    exact ⟨fun ps hps => navTake_queues _ _ _ hps, fun v hv hv' => navTake_utc _ _ _ hv hv'⟩
  · exact engines_leaves (i := none) he rfl (navUnit_counts (s := s.start.atInst none) hc hp) fun _ h => h

end Sys2Proof.Machine

/-! PROOF. OBS_SET_POS: the positions taken and those refused (R136). -/

namespace Sys2Proof.Machine

open Sys2Proof

/-! ### Ring commands of LEAD and HALT -/

/-- A ring command taken in LEAD or HALT reaches its subsystem. -/
theorem leadRing_exec {c : Instr} {s : State} {h : Handle} {d : List Byte × BufIn} {body : State → State}
    (hc : exec c s = withOut s (ringOp leadModes h d body)) (ht : Taken leadModes s) :
    Taken anyRunMode s ∧ ∃ i xs n, exec c s = .next (((body (handed s i xs n)).requeue s.pending).atInst s.inst) := by
  have hsub : ∀ m ∈ leadModes, m ∈ anyRunMode := by decide
  have hany : Taken anyRunMode s := ⟨ht.1, hsub _ ht.2.1, ht.2.2⟩
  exact ⟨hany, ring_exec (hc.trans ((ringOp_taken leadModes h d body s ht (by decide)).trans
    (ringOp_taken anyRunMode h d body s hany (by decide)).symm)) hany⟩

/-! ### OBS_SET_POS -/

/-- OBS_SET_POS asks for a position outside the limits, or with a reserved field not 0 (R136). -/
def SetPosWrong (x y z : Int) (rsv : Nat) : Prop :=
  x * x + y * y + z * z < 63000000000 ^ 2 ∨ 64000000000 ^ 2 < x * x + y * y + z * z ∨ rsv ≠ 0

theorem posInRange_iff (x y z : Int) : posInRange x y z = true
    ↔ 63000000000 ^ 2 ≤ x * x + y * y + z * z ∧ x * x + y * y + z * z ≤ 64000000000 ^ 2 := by
  unfold posInRange
  generalize x * x + y * y + z * z = d
  simp only [Bool.and_eq_true, decide_eq_true_eq]
  omega

/-- What OBS refuses are the wrong positions. -/
theorem setPosWrong_iff (x y z : Int) (rsv : Nat) : SetPosWrong x y z rsv ↔ rsv ≠ 0 ∨ posInRange x y z = false := by
  rw [← Bool.not_eq_true, posInRange_iff]
  unfold SetPosWrong
  generalize x * x + y * y + z * z = d
  omega

theorem obsSetPos_refused {x y z : Int} {rsv : Nat} (h : Handle) (store : Bool) (s : State) (hw : SetPosWrong x y z rsv) :
    obsSetPos h x y z store rsv s = complete s h stPos := by
  unfold obsSetPos
  exact if_pos ((setPosWrong_iff x y z rsv).1 hw)

theorem obsSetPos_accepted {x y z : Int} {rsv : Nat} (h : Handle) (store : Bool) (s : State) (hw : ¬ SetPosWrong x y z rsv) :
    obsSetPos h x y z store rsv s = complete { s with obs := { s.obs with next := some (.set 2 x y z store) } } h stOk := by
  unfold obsSetPos
  exact if_neg fun hr => hw ((setPosWrong_iff x y z rsv).2 hr)

/-- A command handed over that completes leaves the completion due, and of OBS and the registers what it completes with. -/
theorem completed_exec {c : Instr} {s v : State} {h : Handle} {st : Nat} (ht : Taken anyRunMode s)
    (hx : exec c s = .next (((complete v h st).requeue s.pending).atInst s.inst)) (hk : CommandKept s v) :
    ∃ t, exec c s = .next t ∧ Posted s t h st 0 ∧ t.obs = v.obs ∧ t.regs = v.regs := by
  have hpost := hk.posted ht h st 0
  have hobs := complete_obs v h st 0
  have hregs := complete_regs v h st 0
  generalize complete v h st = w at hx hpost hobs hregs
  exact ⟨_, hx, hpost, hobs, hregs⟩

/-- Settles O31: the command handed over is refused where the position is wrong, and otherwise notes it. -/
theorem aPositionOutsideTheLimitsOrWithReservedBytesIsRefused :
    Obligations.a_position_outside_the_limits_or_with_reserved_bytes_is_refused := by
  unfold Obligations.a_position_outside_the_limits_or_with_reserved_bytes_is_refused
  intro s h x y z store rsv ht
  obtain ⟨hany, i, xs, n, hx⟩ := leadRing_exec (c := .obsSetPos h x y z store rsv) rfl ht
  refine ⟨fun hbad => ?_, fun hgood => ?_⟩
  · rw [obsSetPos_refused h store _ hbad] at hx
    exact completed_exec (v := handed s i xs n) hany hx ⟨rfl, rfl, rfl, rfl, rfl⟩
  · rw [obsSetPos_accepted h store _ hgood] at hx
    exact completed_exec hany hx ⟨rfl, rfl, rfl, rfl, rfl⟩

end Sys2Proof.Machine

/-! PROOF. The set of an epoch, the check of a stored position, and ephemerides in flash (R128 to R133, R138). -/

namespace Sys2Proof.Machine

open Sys2Proof

/-! ### What the set of an epoch rests on (R129) -/

/-- From s to t the mode, the tick, the records, OBS but for the frames that wait, the UTC offset and the state of the base
position stay. -/
structure SetInputsKept (s t : State) : Prop where
  mode : t.mode = s.mode
  tick : t.tick = s.tick
  sxt : t.sxt = s.sxt
  obs : t.obs = { s.obs with rtcm := t.obs.rtcm }
  utc : t.r Reg.ETH_UTC.UTC_OFFSET = s.r Reg.ETH_UTC.UTC_OFFSET
  pos : posState t = posState s

theorem SetInputsKept.rfl' (s : State) : SetInputsKept s s := ⟨rfl, rfl, rfl, rfl, rfl, rfl⟩

theorem SetInputsKept.trans {s t u : State} (h : SetInputsKept s t) (k : SetInputsKept t u) : SetInputsKept s u :=
  ⟨k.mode.trans h.mode, k.tick.trans h.tick, k.sxt.trans h.sxt, k.obs.trans (by rw [h.obs]), k.utc.trans h.utc,
    k.pos.trans h.pos⟩

theorem SetInputsKept.observable_eq {s t : State} (h : SetInputsKept s t) : observable t = observable s := by
  funext corr off m
  simp only [observable, epochWeek, sysOffset, h.utc]

theorem SetInputsKept.baseSol_eq {s t : State} (h : SetInputsKept s t) : baseSol t = baseSol s := by
  have hephOf : ephOf t = ephOf s := funext fun o => by unfold ephOf; rw [h.obs]
  have hsats : solSats t = solSats s := funext fun os => by unfold solSats; rw [hephOf]
  funext epoch os
  unfold baseSol
  rw [hsats, hephOf, h.pos, h.obs]

theorem slotUsed_setInputsKept (s : State) (held : Nat) : SetInputsKept s (slotUsed s 2 held) := by
  have hregs := slotUsed_regs s 2 held
  have hstays := slotUsed_stays s 2 held
  refine ⟨hstays.mode, hstays.tick, slotUsed_sxt s 2 held, ?_, hregs.r _ 0 0 (by decide),
    hregs.r Reg.OBS_POS_STATE.STATE 0 0 (by decide)⟩
  unfold slotUsed
  dsimp only
  split <;> rfl

theorem cplPut_setInputsKept (s : State) (q : Nat) (data : List Byte) : SetInputsKept s (cplPut s q data) := by
  have hpool := cplPut_poolOnly s q data
  have hkept := cplPut_recordKept s q data
  generalize cplPut s q data = t at hpool hkept
  unfold PoolOnly at hpool
  refine ⟨?_, ?_, ?_, by rw [hkept.obs], hkept.regs _ 0 0 (by decide), hkept.regs Reg.OBS_POS_STATE.STATE 0 0 (by decide)⟩ <;>
    rw [hpool]

/-- The frames of the last watch, counted and put into the Cell Pool. -/
theorem rtcmQueue_setInputsKept (s : State) : SetInputsKept s (rtcmQueue s) := by
  have hput (fs : List (List Byte)) (u : State) :
      SetInputsKept u (fs.foldl (fun s f => cplPut (s.inc Reg.OBS_RTCM_COUNT.FRAMES) 131 f) u) := by
    induction fs generalizing u with
    | nil => exact .rfl' u
    | cons f fs ih =>
      have hinc : SetInputsKept u (u.inc Reg.OBS_RTCM_COUNT.FRAMES) :=
        ⟨rfl, rfl, rfl, rfl, State.r_w_ne _ _ _ _ _ _ _ _ (by decide),
          State.r_w_ne _ _ Reg.OBS_POS_STATE.STATE _ _ _ _ _ (by decide)⟩
      exact (hinc.trans (cplPut_setInputsKept ..)).trans (ih _)
  have hnone : SetInputsKept s { s with obs := { s.obs with rtcm := [] } } := ⟨rfl, rfl, rfl, rfl, rfl, rfl⟩
  exact hnone.trans (hput _ _)

/-! ### The parts of the slot (R128 to R133) -/

/-- The records the set is formed of: those whose time of week is known. -/
def slotRecs (s : State) : List MeasRec := s.sxt.recs.filter fun m => !m.towUnk

/-- The epoch of the records, or the slot's own instant where there is none. -/
def slotEpoch (s : State) : Nat :=
  match s.sxt.recs.head? with
  | some m => m.epoch
  | none => s.tb1 0

/-- The observables of the epoch before the clock offset is removed. -/
def slotRaw (s : State) : List Observable := (slotRecs s).map (observable s false 0)

/-- The base time solution of the epoch. -/
def slotSol (s : State) : Option (Nat × Nat × Int) := baseSol s (slotEpoch s) (slotRaw s)

/-- The observables of the epoch, the clock offset removed where there is a solution. -/
def slotObs (s : State) : List Observable :=
  (slotRecs s).map (observable s (slotSol s).isSome (((slotSol s).map fun f => f.2.2).getD 0))

/-- The set of the epoch. -/
def slotSet (s : State) (drift : Int) : ObsSet :=
  { tick := s.tick, epoch := slotEpoch s, corr := (slotSol s).isSome, obs := slotObs s, drift := drift }

/-- The records consumed, the epoch counted and its solution kept, and OBS_EPOCH_STATUS showing both. -/
def epochShown (s : State) : State :=
  let t : State := { s with
    sxt := { s.sxt with recs := [] }
    obs := { s.obs with epochs := s.obs.epochs + 1 }
    ttu := if (slotSol s).isSome then { s.ttu with gnssSol := slotSol s, gnssNew := true, gnssSlew := s.ttu.slewSum } else s.ttu }
  (t.w Reg.OBS_EPOCH_STATUS.N_OBS (slotObs s).length).wb Reg.OBS_EPOCH_STATUS.CLK_CORR (slotSol s).isSome

/-- The same, with OBS_EMPTY_EPOCH raised where the epoch has no record. -/
def epochTaken (s : State) : State := if s.sxt.recs.isEmpty then raise (epochShown s) 102 else epochShown s

/-- The RTCM frames of the set in use, formed. -/
def framesFormed (s : State) : State :=
  match s.obs.set with
  | some st => { s with obs := { s.obs with rtcm := rtcmFrames s st } }
  | none => s

/-- The set taken into use, with its RTCM frames formed. -/
def setTaken (st : ObsSet) (s : State) : State := framesFormed (obsOwnSet st s)

/-- What the position makes of the epoch: a survey's step, its start, or a check's step. -/
def positionTaken (spp : Option (Int × Int × Int × Nat)) (corr : Bool) (s : State) : State :=
  if posState s = 1 then surveyEpoch spp s
  else if posState s = 0 then (if corr then surveyStart s else s)
  else if s.obs.checking then obsPosCheck (checkEpoch spp s)
  else s

theorem epochTaken_mode (s : State) : (epochTaken s).mode = s.mode := by
  unfold epochTaken
  split
  · exact raise_mode ..
  · rfl

/-- The slot as it begins: its use measured, and the frames of the last watch queued. -/
def slotBegun (held : Nat) (s : State) : State := rtcmQueue (slotUsed s 2 held)

theorem slotBegun_setInputsKept (held : Nat) (s : State) : SetInputsKept s (slotBegun held s) :=
  (slotUsed_setInputsKept s held).trans (rtcmQueue_setInputsKept _)

/-- The slot of a lead with no work left takes the epoch, the set and the position in turn. -/
theorem obsSlot_eq {s u : State} {use : SlotUse} (o : ObsIn) (hu : use.pending = false) (hs : s.mode ≠ .shadow)
    (hd : s.mode ≠ .dead) (hbegun : slotBegun use.held s = u) :
    obsSlot use o s = positionTaken (pointPos u (slotEpoch u) (slotRaw u)) (slotSol u).isSome
      (setTaken (slotSet u o.drift) (epochTaken u)) := by
  have hused : (slotUsed s 2 use.held).mode ≠ .dead := by rwa [(slotUsed_setInputsKept s use.held).mode]
  have hlead : (epochTaken u).mode ≠ .shadow := by
    rwa [epochTaken_mode, ← hbegun, (slotBegun_setInputsKept use.held s).mode]
  unfold obsSlot
  rw [slotEnd_done s 2 use hu]
  extract_lets _ v recs epoch used raw sol spp corr st _ _ _ counted shown taken inUse _ formed
  have hv : v = u := hbegun
  have htaken : taken = epochTaken v := rfl
  have hinUse : inUse = obsOwnSet st taken := congrArg (obsOwnSet st) (if_neg (by simpa [htaken, hv] using hlead))
  have hformed : formed = framesFormed inUse := rfl
  rw [if_neg (by simpa using hused)]
  clear_value formed inUse taken v
  subst hformed hinUse htaken hv
  have hset : (framesFormed (obsOwnSet st (epochTaken v))).mode ≠ .shadow := hlead
  rw [if_neg (by simp [hlead]), if_neg fun h => hset (eq_of_beq h)]
  rfl

/-! ### What the epoch and the set show -/

/-- The records are consumed, the epoch counted, and OBS_EPOCH_STATUS shows what it holds. -/
theorem epochShown_shows (s : State) : (epochShown s).r Reg.OBS_EPOCH_STATUS.N_OBS = (slotRecs s).length % 2048
    ∧ (epochShown s).rb Reg.OBS_EPOCH_STATUS.CLK_CORR = (slotSol s).isSome := by
  refine ⟨?_, State.rb_wb_same _ _ _ _ _ rfl⟩
  refine (State.r_w_ne _ Reg.OBS_EPOCH_STATUS.CLK_CORR _ _ 0 0 0 0 (by decide)).trans ((State.r_w_same ..).trans ?_)
  rw [slotObs, List.length_map]
  rfl

/-- From s to t the records, the set in use, the count of epochs and OBS_EPOCH_STATUS stay, and events pending stay so. -/
structure EpochKept (s t : State) : Prop where
  sxt : t.sxt = s.sxt
  epochs : t.obs.epochs = s.obs.epochs
  set : t.obs.set = s.obs.set
  status : ∀ f ∈ [Reg.OBS_EPOCH_STATUS.N_OBS, Reg.OBS_EPOCH_STATUS.CLK_CORR], t.r f = s.r f
  pend : PendStay s t

theorem EpochKept.rfl' (s : State) : EpochKept s s := ⟨rfl, rfl, rfl, fun _ _ => rfl, .rfl' s⟩

theorem EpochKept.trans {s t u : State} (h : EpochKept s t) (k : EpochKept t u) : EpochKept s u :=
  ⟨k.sxt.trans h.sxt, k.epochs.trans h.epochs, k.set.trans h.set, fun f hf => (k.status f hf).trans (h.status f hf),
    h.pend.trans k.pend⟩

theorem EpochKept.ite {s a b : State} {c : Prop} [Decidable c] (h : EpochKept s a) (k : EpochKept s b) :
    EpochKept s (if c then a else b) := by
  split
  · exact h
  · exact k

theorem raise_epochKept (s : State) (e d : Nat) (he : e < 512) : EpochKept s (raise s e d) :=
  ⟨raise_sxt s e d, by rw [raise_obs], by rw [raise_obs],
    fun f hf => raise_field s e d f 0 0 he (by revert f; decide), raise_pendStay s e d⟩

/-- A write of a register of OBS other than OBS_EPOCH_STATUS. -/
theorem w_epochKept (s : State) (f : Field) (v : Nat) (hb : blockOf (f.key 0 0) = 3)
    (hf : ∀ g ∈ [Reg.OBS_EPOCH_STATUS.N_OBS, Reg.OBS_EPOCH_STATUS.CLK_CORR], g.key 0 0 ≠ f.key 0 0) :
    EpochKept s (s.w f v) :=
  ⟨rfl, rfl, rfl, fun g hg => State.r_w_ne _ _ _ _ _ _ _ _ (hf g hg), w_pendStay s f v 0 0 (by rw [hb]; decide)⟩

/-- A change of OBS that leaves the set and the count of epochs. -/
theorem setObs_epochKept (s : State) (o : ObsState) (he : o.epochs = s.obs.epochs) (hs : o.set = s.obs.set) :
    EpochKept s { s with obs := o } := ⟨rfl, he, hs, fun _ _ => rfl, .of_regs rfl⟩

/-! ### What the position leaves of the epoch (R131 to R133) -/

theorem posNext_epochKept (s : State) (n : PosNext) : EpochKept s (posNext s n) := by
  unfold posNext
  split
  · exact .rfl' s
  · exact setObs_epochKept s _ rfl rfl

theorem surveyStart_epochKept (s : State) : EpochKept s (surveyStart s) := by
  unfold surveyStart
  extract_lets s1 s2 s3
  have h1 : EpochKept s s1 := setObs_epochKept s _ rfl rfl
  have h2 : EpochKept s1 s2 := (w_epochKept s1 Reg.OBS_POS_STATE.STATE 1 rfl (by decide)).trans
    (w_epochKept _ Reg.OBS_POS_STATE.SOURCE 0 rfl (by decide))
  have h3 : EpochKept s2 s3 := (w_epochKept s2 Reg.OBS_POS_STATE.SURVEY_ELAPSED 0 rfl (by decide)).trans
    (w_epochKept _ Reg.OBS_SURVEY_SIGMA.SIGMA_MM _ rfl (by decide))
  have h := (h1.trans h2).trans h3
  exact .ite h (h.trans (raise_epochKept s3 99 _ (by decide)))

theorem surveyEpoch_epochKept (spp : Option (Int × Int × Int × Nat)) (s : State) : EpochKept s (surveyEpoch spp s) := by
  unfold surveyEpoch
  split
  · exact .rfl' s
  · extract_lets _ s1 s2 c
    have h1 : EpochKept s s1 := setObs_epochKept s _ rfl rfl
    have h2 : EpochKept s1 s2 := (w_epochKept s1 Reg.OBS_POS_STATE.SURVEY_ELAPSED _ rfl (by decide)).trans
      (w_epochKept _ Reg.OBS_SURVEY_SIGMA.SIGMA_MM _ rfl (by decide))
    have h := h1.trans h2
    have hslow : EpochKept s2 { s2 with obs := { s2.obs with slow := true } } := setObs_epochKept s2 _ rfl rfl
    exact .ite (.rfl' s) (.ite h (.ite (h.trans (posNext_epochKept ..)) (.ite h
      (h.trans (hslow.trans (raise_epochKept _ 101 _ (by decide)))))))

theorem checkEpoch_epochKept (spp : Option (Int × Int × Int × Nat)) (s : State) : EpochKept s (checkEpoch spp s) := by
  unfold checkEpoch
  split
  · exact .rfl' s
  · exact .ite (.rfl' s) (setObs_epochKept s _ rfl rfl)

theorem obsPosCheck_epochKept (s : State) : EpochKept s (obsPosCheck s) := by
  unfold obsPosCheck
  extract_lets d dist lim _ s1
  have h1 : EpochKept s s1 := setObs_epochKept s _ rfl rfl
  exact .ite (.rfl' s) (.ite (h1.trans (w_epochKept s1 Reg.OBS_POS_STATE.CHECK_DONE _ rfl (by decide)))
    (h1.trans (posNext_epochKept ..)))

theorem positionTaken_epochKept (spp : Option (Int × Int × Int × Nat)) (corr : Bool) (s : State) :
    EpochKept s (positionTaken spp corr s) :=
  .ite (surveyEpoch_epochKept ..) (.ite (.ite (surveyStart_epochKept s) (.rfl' s))
    (.ite ((checkEpoch_epochKept ..).trans (obsPosCheck_epochKept _)) (.rfl' s)))

theorem epochTaken_epochKept (s : State) : EpochKept (epochShown s) (epochTaken s) :=
  .ite (raise_epochKept _ 102 _ (by decide)) (.rfl' _)

/-! ### The slot of a lead -/

/-- With no difference held, the set in use is the set of the epoch (R328). -/
theorem setTaken_set {s : State} (st : ObsSet) (hd : s.obs.diffs = []) (hf : s.obs.first = false) :
    (setTaken st s).obs.set = some st := by
  have hid : diffApply s.obs.diffs s.obs.terms s.obs.first = id := by
    rw [hd, hf]
    rfl
  have hused : (setTaken st s).obs.set
      = some { st with obs := st.obs.map (diffApply s.obs.diffs s.obs.terms s.obs.first) } := rfl
  rw [hused, hid, List.map_id]

/-- What the slot of a lead leaves of the epoch it took. -/
theorem obsSlot_shows {s u : State} {use : SlotUse} (o : ObsIn) (hu : use.pending = false) (hs : s.mode ≠ .shadow)
    (hd : s.mode ≠ .dead) (hbegun : slotBegun use.held s = u) :
    let t := obsSlot use o s
    t.sxt.recs = [] ∧ t.obs.epochs = u.obs.epochs + 1
      ∧ t.r Reg.OBS_EPOCH_STATUS.N_OBS = (slotRecs u).length % 2048 ∧ t.rb Reg.OBS_EPOCH_STATUS.CLK_CORR = (slotSol u).isSome
      ∧ (u.obs.diffs = [] → u.obs.first = false → t.obs.set = some (slotSet u o.drift))
      ∧ (u.sxt.recs = [] → pending t 102 = true) := by
  dsimp only
  rw [obsSlot_eq o hu hs hd hbegun]
  have htaken := epochTaken_epochKept u
  have hpos := positionTaken_epochKept (pointPos u (slotEpoch u) (slotRaw u)) (slotSol u).isSome
    (setTaken (slotSet u o.drift) (epochTaken u))
  obtain ⟨hn, hc⟩ := epochShown_shows u
  have hobs : (epochTaken u).obs = (epochShown u).obs := by
    unfold epochTaken
    split
    · exact raise_obs ..
    · rfl
  refine ⟨?_, ?_, ?_, ?_, fun hdiffs hfirst => ?_, fun hempty => ?_⟩
  · exact congrArg SxtState.recs (hpos.sxt.trans htaken.sxt)
  · exact hpos.epochs.trans htaken.epochs
  · exact (hpos.status _ (by simp)).trans ((htaken.status _ (by simp)).trans hn)
  · have hclk := (hpos.status Reg.OBS_EPOCH_STATUS.CLK_CORR (by simp)).trans (htaken.status _ (by simp))
    unfold State.rb at hc ⊢
    rw [hclk]
    exact hc
  · exact hpos.set.trans (setTaken_set _ (by rw [hobs]; exact hdiffs) (by rw [hobs]; exact hfirst))
  · refine hpos.pend 102 (by decide) ?_
    have hraised : epochTaken u = raise (epochShown u) 102 := if_pos (by rw [hempty]; rfl)
    have hp : pending (epochTaken u) 102 = true := hraised ▸ raise_sets_pending _ 102 _ (by decide)
    exact hp

/-- The solution of the epoch is that of its records, whichever epoch stands for none. -/
theorem slotSol_begun {s u : State} (h : SetInputsKept s u) : slotSol u
    = baseSol s ((s.sxt.recs.head?.map (·.epoch)).getD 0) ((slotRecs s).map (observable s false 0)) := by
  unfold slotSol slotRaw slotEpoch slotRecs
  rw [h.baseSol_eq, h.observable_eq, h.sxt]
  cases s.sxt.recs with
  | nil => rfl
  | cons m ms => rfl

/-- The slot of a lead, by the records and the state it starts from. -/
theorem obsSlot_forms {s : State} {use : SlotUse} (o : ObsIn) (hu : use.pending = false) (hs : s.mode ≠ .shadow)
    (hd : s.mode ≠ .dead) :
    let sol := baseSol s ((s.sxt.recs.head?.map (·.epoch)).getD 0) ((slotRecs s).map (observable s false 0))
    let t := obsSlot use o s
    t.sxt.recs = [] ∧ t.obs.epochs = s.obs.epochs + 1
      ∧ t.r Reg.OBS_EPOCH_STATUS.N_OBS = (slotRecs s).length % 2048 ∧ t.rb Reg.OBS_EPOCH_STATUS.CLK_CORR = sol.isSome
      ∧ (s.obs.diffs = [] → s.obs.first = false → ∃ st, t.obs.set = some st ∧ st.tick = s.tick ∧ st.corr = sol.isSome
        ∧ st.obs = (slotRecs s).map (observable s sol.isSome ((sol.map fun f => f.2.2).getD 0)))
      ∧ (s.sxt.recs = [] → pending t 102 = true) := by
  have hkept := slotBegun_setInputsKept use.held s
  have hshow := obsSlot_shows o hu hs hd rfl
  generalize slotBegun use.held s = u at hkept hshow
  have hsol := slotSol_begun hkept
  have hrecs : slotRecs u = slotRecs s := by unfold slotRecs; rw [hkept.sxt]
  have hepochs : u.obs.epochs = s.obs.epochs := by rw [hkept.obs]
  have hdiffs : u.obs.diffs = s.obs.diffs := by rw [hkept.obs]
  have hfirst : u.obs.first = s.obs.first := by rw [hkept.obs]
  have hset : (slotSet u o.drift).obs
      = (slotRecs u).map (observable u (slotSol u).isSome (((slotSol u).map fun f => f.2.2).getD 0)) := rfl
  rw [hrecs, hsol, hkept.observable_eq] at hset
  dsimp only at hshow ⊢
  rw [hrecs, hsol, hepochs, hdiffs, hfirst, hkept.sxt] at hshow
  obtain ⟨hconsumed, hcount, hn, hclk, hused, hempty⟩ := hshow
  exact ⟨hconsumed, hcount, hn, hclk,
    fun hd hf => ⟨_, hused hd hf, hkept.tick, congrArg Option.isSome hsol, hset⟩, hempty⟩

/-! ### The check of a stored position (R133) -/

/-- The average of the 100 epochs counted lies within CHECK_M of the stored position (both sides squared, in units of
0.001 mm). -/
def CheckNear (s : State) : Prop :=
  (s.obs.sums.1 - 100 * s.obs.x) * (s.obs.sums.1 - 100 * s.obs.x)
      + (s.obs.sums.2.1 - 100 * s.obs.y) * (s.obs.sums.2.1 - 100 * s.obs.y)
      + (s.obs.sums.2.2 - 100 * s.obs.z) * (s.obs.sums.2.2 - 100 * s.obs.z)
    ≤ (((s.r Reg.OBS_POS_CHECK.CHECK_M * 10000 * 100) ^ 2 : Nat) : Int)

/-- The check of a lead is due: 100 epochs are counted, and CHECK_M does not disable it. -/
structure CheckDue (s : State) : Prop where
  lead : s.mode ≠ .shadow
  checking : s.obs.checking = true
  counted : 100 ≤ s.obs.count
  enabled : s.r Reg.OBS_POS_CHECK.CHECK_M ≠ 0

/-- The check over, its outcome not yet drawn. -/
def checkEnded (s : State) : State := { s with obs := { s.obs with checking := false } }

theorem obsPosCheck_due {s : State} (h : CheckDue s) [Decidable (CheckNear s)] : obsPosCheck s
    = if CheckNear s then (checkEnded s).wb Reg.OBS_POS_STATE.CHECK_DONE true else posNext (checkEnded s) .invalid := by
  unfold obsPosCheck
  rw [if_neg (by simp [h.lead, h.checking, h.counted, h.enabled])]
  refine if_congr ?_ rfl rfl
  unfold CheckNear
  rw [Int.toNat_le, pow_two]

/-- An OBS_SET_POS accepted prevails (R131). -/
theorem posNext_host {s : State} {x y z : Int} {b : Bool} (n : PosNext) (h : s.obs.next = some (.set 2 x y z b)) :
    posNext s n = s := by
  unfold posNext
  rw [h]
  rfl

theorem posNext_waits {s : State} (n : PosNext) (h : ∀ x y z b, s.obs.next ≠ some (.set 2 x y z b)) :
    posNext s n = { s with obs := { s.obs with next := some n } } := by
  unfold posNext
  split
  · rename_i hn
    exact absurd hn (h _ _ _ _)
  · rfl

/-! ### Ephemerides in flash (R138) -/

theorem mem_ephPut (m : List (Nat × EphSet)) (sat : Nat) (e : EphSet) : (sat, e) ∈ ephPut m sat e :=
  List.mem_append_right _ List.mem_cons_self

/-- The set of a satellite that was not stored in the last 10 min goes to flash. -/
theorem ephStore_stores {s : State} {sat : Nat} {e : EphSet} (he : s.obs.eph.find? (fun p => p.1 == sat) = some (sat, e))
    (hold : ∀ p ∈ s.obs.ephAt, p.1 = sat → p.2 + 600000 ≤ (s.tick : Int)) :
    let t := ephStore sat s
    (sat, e) ∈ t.obs.flash ∧ (sat, (s.tick : Int)) ∈ t.obs.ephAt ∧ t = { s with obs := t.obs } := by
  have hrecent : (s.obs.ephAt.any fun p => p.1 == sat && decide ((s.tick : Int) < p.2 + 600000)) = false := by
    rw [List.any_eq_false]
    intro p hp hr
    simp only [Bool.and_eq_true, beq_iff_eq, decide_eq_true_eq] at hr
    have := hold p hp hr.1
    omega
  dsimp only
  unfold ephStore
  rw [he]
  dsimp only
  rw [hrecent]
  exact ⟨mem_ephPut .., List.mem_append_right _ List.mem_cons_self, rfl⟩

/-- Settles O32: the slot by its records, the check by whether the average is near, and the set stored. -/
theorem theBaseEpochThePositionCheckAndStoredEphemerides :
    Obligations.the_base_epoch_the_position_check_and_stored_ephemerides := by
  unfold Obligations.the_base_epoch_the_position_check_and_stored_ephemerides
  refine ⟨fun s use o he hs hp hu => ?_, fun s he hs hc hn hm => ?_, fun s sat e ha hf hold => ?_⟩
  · refine engines_leaves (i := none) (f := fun s => if s.ttu.pos = 0 then obsSlot use o s else s) he rfl ?_ fun _ h => h
    rw [if_pos (show (s.start.atInst none).ttu.pos = 0 from hp)]
    exact obsSlot_forms (s := s.start.atInst none) o hu hs he.awake.2.2
  · classical
    have hx := engines_next (c := .obsPosCheck) (i := none) (f := obsPosCheck) he rfl
    rw [obsPosCheck_due (s := s.start.atInst none) ⟨hs, hc, hn, hm⟩] at hx
    refine ⟨fun hnear => ?_, fun hfar hfree => ?_, fun hfar x y z b hset => ?_⟩
    · rw [if_pos (show CheckNear (s.start.atInst none) from hnear)] at hx
      have hkept : RegsKept [Reg.OBS_POS_STATE.CHECK_DONE.key 0 0] s
          ((checkEnded (s.start.atInst none)).wb Reg.OBS_POS_STATE.CHECK_DONE true) :=
        RegsKept.w (.of_regs rfl) _ _ 0 0 List.mem_cons_self
      exact ⟨_, hx, State.rb_wb_same _ Reg.OBS_POS_STATE.CHECK_DONE true 0 0 rfl, rfl, fun k hk => hkept k hk⟩
    · rw [if_neg (show ¬ CheckNear (s.start.atInst none) from hfar),
        posNext_waits (s := checkEnded (s.start.atInst none)) _ hfree] at hx
      exact hx
    · rw [if_neg (show ¬ CheckNear (s.start.atInst none) from hfar),
        posNext_host (s := checkEnded (s.start.atInst none)) _ hset] at hx
      exact hx
  · obtain ⟨hflash, hat, honly⟩ := ephStore_stores (s := s.start.atInst none) hf hold
    have hx := alive_next (c := .ephStore sat) (i := none) (f := ephStore sat) ha rfl
    generalize ephStore sat (s.start.atInst none) = u at hx hflash hat honly
    refine ⟨_, hx, hflash, hat, ?_⟩
    rw [honly]
    rfl

end Sys2Proof.Machine

/-! PROOF. FIX_ROVER_SET: the settings accepted within the rate load, and those refused (R146, R147, R177). -/

namespace Sys2Proof.Machine

open Sys2Proof

/-- The rate load once rover r is enabled at a rate, beside what the commands accepted so far bring (R146). -/
def loadWith (s : State) (r rate : Nat) : Nat := ((List.range 128).map fun q => if q = r then 0 else loadAfter s q).sum + 1 + rate

/-- A setting no load allows: a reserved byte not 0, a rover above 127, or enabling at another rate (R147). -/
def RoverSetWrong (act r rate rsv : Nat) : Prop := rsv ≠ 0 ∨ 127 < r ∨ (act = 1 ∧ 1 < rate)

/-- FIX with one more setting for the next boundary. -/
def settingNoted (s : State) (r act rate : Nat) : State := { s with fix := { s.fix with cmds := s.fix.cmds ++ [(r, act, rate)] } }

theorem fixRoverSet_wrong {act r rate rsv : Nat} (h : Handle) (s : State) (hw : RoverSetWrong act r rate rsv) :
    fixRoverSet act h r rate rsv s = complete s h stRover := if_pos hw

theorem fixRoverSet_overload {r rate rsv : Nat} (h : Handle) {s : State} (hw : ¬ RoverSetWrong 1 r rate rsv)
    (hl : 128 < loadWith s r rate) : fixRoverSet 1 h r rate rsv s = complete s h stRate :=
  (if_neg hw).trans (if_pos ⟨rfl, hl⟩)

theorem fixRoverSet_accepted {act r rate rsv : Nat} (h : Handle) {s : State} (hw : ¬ RoverSetWrong act r rate rsv)
    (hl : act = 1 → loadWith s r rate ≤ 128) :
    fixRoverSet act h r rate rsv s = complete (settingNoted s r act rate) h stOk :=
  (if_neg hw).trans (if_neg fun ⟨ha, hover⟩ => absurd (hl ha) (Nat.not_le.2 hover))

/-- The setting is accepted: it completes with OK and waits for the next boundary. -/
def SettingWaits (s : State) (h : Handle) (r act rate : Nat) (t : State) : Prop :=
  Posted s t h stOk 0 ∧ t.regs = s.regs ∧ t.fix = { s.fix with cmds := s.fix.cmds ++ [(r, act, rate)] }

/-- The setting is refused with a status: FIX and the registers stay. -/
def SettingRefused (s : State) (h : Handle) (status : Nat) (t : State) : Prop :=
  Posted s t h status 0 ∧ t.regs = s.regs ∧ t.fix = s.fix

/-- A command handed over that completes leaves the completion due, and the registers and FIX as they were when it completed. -/
theorem completed_leaves {c : Instr} {s v : State} {h : Handle} {st : Nat} (ht : Taken anyRunMode s)
    (hx : exec c s = .next (((complete v h st).requeue s.pending).atInst s.inst)) (hk : CommandKept s v) :
    ∃ t, exec c s = .next t ∧ Posted s t h st 0 ∧ t.regs = v.regs ∧ t.fix = v.fix := by
  have hpost := hk.posted ht h st 0
  have hregs := complete_regs v h st 0
  have hfix := complete_fix v h st 0
  generalize complete v h st = w at hx hpost hregs hfix
  exact ⟨_, hx, hpost, hregs, hfix⟩

/-- A FIX_ROVER_SET of any action, by its fields and the load. -/
theorem fixRoverSet_exec {c : Instr} {s : State} {h : Handle} {d : List Byte × BufIn} {act r rate rsv : Nat}
    (hc : exec c s = withOut s (ringOp leadModes h d (fixRoverSet act h r rate rsv))) (ht : Taken leadModes s) :
    (¬ RoverSetWrong act r rate rsv → (act = 1 → loadWith s r rate ≤ 128) →
      ∃ t, exec c s = .next t ∧ SettingWaits s h r act rate t)
    ∧ (¬ RoverSetWrong act r rate rsv → act = 1 → 128 < loadWith s r rate →
      ∃ t, exec c s = .next t ∧ SettingRefused s h stRate t)
    ∧ (RoverSetWrong act r rate rsv → ∃ t, exec c s = .next t ∧ SettingRefused s h stRover t) := by
  obtain ⟨hany, i, xs, n, hx⟩ := leadRing_exec hc ht
  have hhanded : CommandKept s (handed s i xs n) := ⟨rfl, rfl, rfl, rfl, rfl⟩
  refine ⟨fun hw hl => ?_, fun hw ha hl => ?_, fun hw => ?_⟩
  · rw [fixRoverSet_accepted (s := handed s i xs n) h hw hl] at hx
    exact completed_leaves hany hx hhanded
  · subst ha
    rw [fixRoverSet_overload (s := handed s i xs n) h hw hl] at hx
    exact completed_leaves hany (v := handed s i xs n) hx hhanded
  · rw [fixRoverSet_wrong h (handed s i xs n) hw] at hx
    exact completed_leaves hany (v := handed s i xs n) hx hhanded

/-- Settles O33: each action by its fields and, for enabling, the load it brings. -/
theorem roverSettingsAreJudgedAgainstTheRateLoad : Obligations.rover_settings_are_judged_against_the_rate_load := by
  unfold Obligations.rover_settings_are_judged_against_the_rate_load
  intro s h r rate rsv ht load waits refused
  obtain ⟨hdis, _, hdisBad⟩ := fixRoverSet_exec (c := .fixRoverDisable h r rate rsv) rfl ht
  obtain ⟨hreset, _, hresetBad⟩ := fixRoverSet_exec (c := .fixRoverReset h r rate rsv) rfl ht
  obtain ⟨hen, hover, henBad⟩ := fixRoverSet_exec (c := .fixRoverEnable h r rate rsv) rfl ht
  have hfields {act : Nat} (hrsv : rsv = 0) (hr : r < 128) (hrate : act = 1 → rate < 2) : ¬ RoverSetWrong act r rate rsv := by
    unfold RoverSetWrong
    omega
  refine ⟨fun hrsv hr => ⟨?_, ?_, fun hrate hl => ?_, fun hrate hl => ?_⟩, fun hbad => ⟨?_, ?_⟩, fun hbad => ?_⟩
  · exact hdis (hfields hrsv hr nofun) nofun
  · exact hreset (hfields hrsv hr nofun) nofun
  · exact hen (hfields hrsv hr fun _ => hrate) fun _ => hl
  · exact hover (hfields hrsv hr fun _ => hrate) rfl hl
  · exact hdisBad (hbad.imp_right Or.inl)
  · exact hresetBad (hbad.imp_right Or.inl)
  · exact henBad (hbad.imp_right (Or.imp_right fun hrate => ⟨rfl, hrate⟩))

end Sys2Proof.Machine

/-! PROOF. What the work of FIX leaves: its jobs and window, the rovers that are LOST, and registers (R153, R154, R163, R173 to
R176). -/

namespace Sys2Proof.Machine

open Sys2Proof

/-! ### What stays -/

/-- From s to t the tick, OBS, FIX's jobs and upload window, which rovers are LOST, and the registers listed stay. -/
structure WorkKept (ks : List Nat) (s t : State) : Prop where
  tick : t.tick = s.tick
  obs : t.obs = s.obs
  jobs : t.fix.jobs = s.fix.jobs
  win : t.fix.win = s.fix.win
  lost : ∀ r, (fixRover t r).lost = (fixRover s r).lost
  regs : ∀ k ∈ ks, mget 0 t.regs k = mget 0 s.regs k

theorem WorkKept.rfl' (ks : List Nat) (s : State) : WorkKept ks s s := ⟨rfl, rfl, rfl, rfl, fun _ => rfl, fun _ _ => rfl⟩

theorem WorkKept.trans {ks : List Nat} {s t u : State} (h : WorkKept ks s t) (k : WorkKept ks t u) : WorkKept ks s u :=
  ⟨k.tick.trans h.tick, k.obs.trans h.obs, k.jobs.trans h.jobs, k.win.trans h.win, fun r => (k.lost r).trans (h.lost r),
    fun i hi => (k.regs i hi).trans (h.regs i hi)⟩

theorem WorkKept.ite {ks : List Nat} {s a b : State} {c : Prop} [Decidable c] (h : WorkKept ks s a) (k : WorkKept ks s b) :
    WorkKept ks s (if c then a else b) := by
  split
  · exact h
  · exact k

theorem WorkKept.r {ks : List Nat} {s t : State} (h : WorkKept ks s t) (f : Field) (i j : Nat) (hk : f.key i j ∈ ks) :
    t.r f i j = s.r f i j := by
  unfold State.r
  rw [h.regs _ hk]

theorem WorkKept.rb {ks : List Nat} {s t : State} (h : WorkKept ks s t) (f : Field) (i j : Nat) (hk : f.key i j ∈ ks) :
    t.rb f i j = s.rb f i j := by
  unfold State.rb
  rw [h.r f i j hk]

/-- A change of nothing FIX holds. -/
theorem WorkKept.of_fix {ks : List Nat} {s t : State} (ht : t.tick = s.tick) (ho : t.obs = s.obs) (hf : t.fix = s.fix)
    (hr : ∀ k ∈ ks, mget 0 t.regs k = mget 0 s.regs k) : WorkKept ks s t :=
  ⟨ht, ho, by rw [hf], by rw [hf], fun r => by unfold fixRover; rw [hf], hr⟩

theorem PoolOnly.workKept {ks : List Nat} {s t : State} (h : PoolOnly s t) (hr : ∀ k ∈ ks, mget 0 t.regs k = mget 0 s.regs k) :
    WorkKept ks s t :=
  .of_fix (by rw [h]) (by rw [h]) (by rw [h]) hr

theorem foldl_workKept {α : Type} {ks : List Nat} (f : State → α → State) (h : ∀ s a, WorkKept ks s (f s a)) (l : List α)
    (s : State) : WorkKept ks s (l.foldl f s) := by
  induction l generalizing s with
  | nil => exact .rfl' ks s
  | cons a l ih => exact (h s a).trans (ih _)

theorem w_workKept {ks : List Nat} (s : State) (f : Field) (v i j : Nat) (h : f.key i j ∉ ks) : WorkKept ks s (s.w f v i j) :=
  .of_fix rfl rfl rfl fun _ hk => mget_mput_ne 0 s.regs _ fun he => h (he ▸ hk)

/-- What FIX holds of a rover changes, but not whether it is LOST. -/
theorem setFixRover_workKept {ks : List Nat} (s : State) (r : Nat) (v : FixRover) (hl : v.lost = (fixRover s r).lost)
    (h : Reg.FIX_ROVER.FSTATE.key r 0 ∉ ks) : WorkKept ks s (setFixRover s r v) := by
  refine ⟨rfl, rfl, rfl, rfl, fun q => ?_, fun k hk => mget_mput_ne 0 s.regs _ fun he => h (he ▸ hk)⟩
  by_cases hq : q = r
  · rw [hq, ← hl]
    exact congrArg FixRover.lost (mget_mput_same ..)
  · exact congrArg FixRover.lost (mget_mput_ne _ _ _ hq)

/-! ### Raisings and the Cell Pool -/

/-- Neither a raising nor the Cell Pool writes the register: it stands below HST's block, or at bit 4 of its word. -/
def QuietKey (k : Nat) : Prop := k < 32 * 0xD0000 ∨ k % 32 = 4

theorem QuietKey.not_evtKey {k : Nat} (h : QuietKey k) : k ∉ evtKeys := fun hm => by
  have hall : ∀ k ∈ evtKeys, 32 * 0xD0000 ≤ k ∧ k % 32 = 0 := by decide
  have := hall k hm
  unfold QuietKey at h
  omega

/-- A write from HST's block on, at bit 0 of its word. -/
theorem QuietKey.w {k : Nat} (h : QuietKey k) (s : State) (f : Field) (v i : Nat) (ho : 0xD0000 ≤ f.off) (hl : f.lsb = 0) :
    mget 0 (s.w f v i).regs k = mget 0 s.regs k := by
  refine mget_mput_ne 0 s.regs _ fun he => ?_
  unfold QuietKey at h
  unfold Field.key at he
  omega

theorem QuietKey.cplSetCells {k : Nat} (h : QuietKey k) (s : State) (q c : Nat) :
    mget 0 (cplSetCells s q c).regs k = mget 0 s.regs k := by
  unfold Machine.cplSetCells
  extract_lets old mn free free' _ u v thr
  have hv : mget 0 v.regs k = mget 0 s.regs k := (h.w _ Reg.CPL_STATUS.FREE_CELLS free' 0 (by decide) rfl).trans
    (h.w u Reg.CPL_Q.CELLS c q (by decide) rfl)
  clear_value v
  split
  · exact (raise_keys v 450 _ k (by decide) h.not_evtKey).trans hv
  · exact hv

theorem QuietKey.cplTakeAt {k : Nat} (h : QuietKey k) (s : State) (q n : Nat) :
    mget 0 (cplTakeAt s q n).2.regs k = mget 0 s.regs k := by
  unfold Machine.cplTakeAt
  dsimp only
  split
  · rfl
  · exact (h.cplSetCells _ q _).trans (h.w (cplSetQ s q _) Reg.CPL_Q.PKTS _ q (by decide) rfl)

theorem cplTakeAt_poolOnly (s : State) (q n : Nat) : PoolOnly s (cplTakeAt s q n).2 := by
  unfold cplTakeAt
  dsimp only
  split
  · exact .rfl' s
  · exact PoolOnly.trans (t := (cplSetQ s q _).w Reg.CPL_Q.PKTS _ q) rfl (cplSetCells_poolOnly ..)

/-- The record of a rover is taken from its queue. -/
theorem fixTake_workKept {ks : List Nat} (s : State) (r : Nat) (h : ∀ k ∈ ks, QuietKey k) : WorkKept ks s (fixTake s r).2 :=
  (cplTakeAt_poolOnly ..).workKept fun k hk => (h k hk).cplTakeAt ..

/-- Which record that is follows from the pool and the upload window. -/
theorem fixTake_congr {s t : State} (hc : t.cpl = s.cpl) (hw : t.fix.win = s.fix.win) (r : Nat) :
    (fixTake t r).1 = (fixTake s r).1 := by
  unfold fixTake cplTakeAt cplQ
  rw [hc, hw]
  dsimp only
  split <;> rfl

section
variable {ks : List Nat} (hlow : ∀ k ∈ ks, k < 32 * 0xD0000)
include hlow

theorem raise_workKept (s : State) (e d : Nat) (he : e < 512) : WorkKept ks s (raise s e d) :=
  (raise_evtOnly s e d).poolOnly.workKept fun k hk => raise_keys s e d k he (not_evtKey (hlow k hk))

theorem raiseWatch_workKept (s : State) (e d : Nat) (he : e < 512) : WorkKept ks s (raiseWatch s e d) := by
  have hlist : WorkKept ks s { s with onceWatch := (raiseWatch s e d).onceWatch } := .of_fix rfl rfl rfl fun _ _ => rfl
  exact hlist.trans ((raiseWatch_evtOnly s e d).poolOnly.workKept
    fun k hk => raiseWatch_keys s e d k he (not_evtKey (hlow k hk)))

theorem cplPut_workKept (s : State) (q : Nat) (data : List Byte) : WorkKept ks s (cplPut s q data) :=
  (cplPut_poolOnly s q data).workKept fun k hk => (cplPut_producerKept [] s q data).2 k (hlow k hk) List.not_mem_nil

theorem cplTake_workKept (s : State) (q : Nat) : WorkKept ks s (cplTake s q).2 :=
  (cplTake_poolOnly s q).workKept fun k hk => (cplTake_producerKept [] s q).2 k (hlow k hk) List.not_mem_nil

theorem noBaseRaise_workKept (s : State) (te : Nat) : WorkKept ks s (noBaseRaise s te) := by
  unfold noBaseRaise
  have hnoted : WorkKept ks s { s with fix := { s.fix with noBase := s.fix.noBase ++ [te] } } :=
    ⟨rfl, rfl, rfl, rfl, fun _ => rfl, fun _ _ => rfl⟩
  exact .ite (.rfl' ks s) (hnoted.trans (raise_workKept hlow _ 135 _ (by decide)))

end

theorem reflect_workKept (ks : List Nat) (s : State) (i : ReflItem) : WorkKept ks s (reflect s i) := by
  unfold reflect
  exact .ite (.of_fix rfl rfl rfl fun _ _ => rfl) (.rfl' ks s)

theorem busyUsed_workKept (ks : List Nat) (s : State) (j : FixJob) : WorkKept ks s (busyUsed s j) := by
  unfold busyUsed
  exact .ite ⟨rfl, rfl, rfl, rfl, fun _ => rfl, fun _ _ => rfl⟩ (.rfl' ks s)

/-! ### The registers of a rover -/

/-- A field of the table of rovers. -/
def RoverField (f : Field) : Prop := 32 * 0x40400 ≤ f.key 0 0 ∧ f.key 0 0 < 32 * 0x40410 ∧ f.s1 = 0x10

/-- Two such fields share a register only as one field of one rover. -/
theorem RoverField.key_inj {f g : Field} (hf : RoverField f) (hg : RoverField g) {r q : Nat} (h : f.key r 0 = g.key q 0) :
    r = q ∧ f.key 0 0 = g.key 0 0 := by
  obtain ⟨hflo, hfhi, hfs⟩ := hf
  obtain ⟨hglo, hghi, hgs⟩ := hg
  unfold Field.key at *
  rw [hfs, hgs] at h
  omega

theorem RoverField.key_low {f : Field} (hf : RoverField f) {r : Nat} (hr : r < 128) :
    32 * 0x40400 ≤ f.key r 0 ∧ f.key r 0 < 32 * 0x40C00 := by
  obtain ⟨hlo, hhi, hs⟩ := hf
  unfold Field.key at *
  rw [hs] at *
  omega

/-- The fields of a rover a solution record is shown in. -/
def solFields : List Field := [Reg.FIX_ROVER.FSTATE, Reg.FIX_ROVER.QUALITY, Reg.FIX_ROVER.N_AMB_FIXED, Reg.FIX_ROVER.REASON,
  Reg.FIX_ROVER.CONSEC_FIXED, Reg.FIX_ROVER.RATIO]

/-- The registers a solution record of rover r is shown in. -/
def solKeys (r : Nat) : List Nat :=
  solFields.map (·.key r 0) ++ [Reg.FIX_STATUS.N_FIXED.key 0 0, Reg.FIX_STATUS.N_FLOAT.key 0 0]

theorem solFields_rover : ∀ f ∈ solFields, RoverField f := by
  unfold RoverField
  decide

/-- A record of rover q is not shown in a register of another rover, nor in another field. -/
theorem RoverField.not_solKeys {f : Field} (hf : RoverField f) {r q : Nat}
    (h : r ≠ q ∨ f.key 0 0 ∉ solFields.map (·.key 0 0)) : f.key r 0 ∉ solKeys q := by
  intro hk
  rcases List.mem_append.1 hk with hk | hk
  · obtain ⟨g, hg, he⟩ := List.mem_map.1 hk
    obtain ⟨hrq, hkey⟩ := hf.key_inj (solFields_rover g hg) he.symm
    exact h.elim (fun hne => hne hrq) fun hno => hno (List.mem_map.2 ⟨g, hg, hkey.symm⟩)
  · have hall : ∀ k ∈ [Reg.FIX_STATUS.N_FIXED.key 0 0, Reg.FIX_STATUS.N_FLOAT.key 0 0], k < 32 * 0x40400 := by decide
    have := hall _ hk
    obtain ⟨hlo, _, _⟩ := hf
    have hle : f.key 0 0 ≤ f.key r 0 := by unfold Field.key; omega
    omega

theorem below_not_solKeys {k : Nat} (h : k < 32 * 0x40000) (r : Nat) : k ∉ solKeys r := by
  intro hk
  rcases List.mem_append.1 hk with hk | hk
  · obtain ⟨g, hg, he⟩ := List.mem_map.1 hk
    obtain ⟨hlo, _, _⟩ := solFields_rover g hg
    have hle : g.key 0 0 ≤ g.key r 0 := by unfold Field.key; omega
    omega
  · have hall : ∀ k ∈ [Reg.FIX_STATUS.N_FIXED.key 0 0, Reg.FIX_STATUS.N_FLOAT.key 0 0], 32 * 0x40000 ≤ k := by decide
    have := hall _ hk
    omega

/-! ### A record without a position (R169, R175) -/

theorem fixShow_workKept {ks : List Nat} (s : State) (r consec : Nat) (q : SolRec) (old : Nat) (v : FixRover)
    (hl : v.lost = (fixRover s r).lost) (h : ∀ k ∈ ks, k ∉ solKeys r) : WorkKept ks s (fixShow s r consec q old v) := by
  have hf (f : Field) (hm : f ∈ solFields) : f.key r 0 ∉ ks :=
    fun hk => h _ hk (List.mem_append_left _ (List.mem_map.2 ⟨f, hm, rfl⟩))
  have hst (k : Nat) (hm : k ∈ [Reg.FIX_STATUS.N_FIXED.key 0 0, Reg.FIX_STATUS.N_FLOAT.key 0 0]) : k ∉ ks :=
    fun hk => h _ hk (List.mem_append_right _ hm)
  unfold fixShow
  extract_lets a b c d
  have ha : WorkKept ks s a := setFixRover_workKept s r v hl (hf _ (by simp [solFields]))
  have hb : WorkKept ks a b := ((w_workKept a Reg.FIX_ROVER.QUALITY _ r 0 (hf _ (by simp [solFields]))).trans
    (w_workKept _ Reg.FIX_ROVER.N_AMB_FIXED _ r 0 (hf _ (by simp [solFields])))).trans
    (w_workKept _ Reg.FIX_ROVER.REASON _ r 0 (hf _ (by simp [solFields])))
  have hc : WorkKept ks b c := (w_workKept b Reg.FIX_ROVER.CONSEC_FIXED _ r 0 (hf _ (by simp [solFields]))).trans
    (w_workKept _ Reg.FIX_ROVER.RATIO _ r 0 (hf _ (by simp [solFields])))
  have hd : WorkKept ks c d := w_workKept c Reg.FIX_STATUS.N_FIXED _ 0 0 (hst _ (by simp))
  exact (((ha.trans hb).trans hc).trans hd).trans (w_workKept d Reg.FIX_STATUS.N_FLOAT _ 0 0 (hst _ (by simp)))

/-- A record that is not FIXED goes out without containment. -/
theorem fixSend_workKept {ks : List Nat} (hlow : ∀ k ∈ ks, k < 32 * 0xD0000) (s : State) (r te : Nat) (q : SolRec)
    (old consec : Nat) (bytes : List Byte) (fe : Int × Int × Int) (fl : FixFilt) (cyc : Nat) (hq : q.quality ≠ 2) :
    WorkKept ks s (fixSend s r te q old consec bytes fe fl cyc) := by
  unfold fixSend
  extract_lets u v _ w x y
  have hv : WorkKept ks u v := .ite (raise_workKept hlow u 129 r (by decide)) (.rfl' ks u)
  have hw : WorkKept ks v w := ⟨rfl, rfl, rfl, rfl, fun _ => rfl, fun _ _ => rfl⟩
  have hy : WorkKept ks w y := (cplPut_workKept hlow w 132 bytes).trans (reflect_workKept ks x _)
  have hu : u = s := if_neg fun h => hq h.1
  rw [if_neg hq]
  exact hu ▸ (hv.trans hw).trans hy

theorem fixNone_eq (s : State) (r te epoch : Nat) (u : Option Nat) (quality reason : Nat) :
    let q : SolRec := { quality := quality, reason := reason }
    ∃ v bytes fe fl, v.lost = (fixRover s r).lost ∧ fixNone s r te epoch u quality reason
      = fixSend (fixShow s r (fixConsec s r q) q (s.r Reg.FIX_ROVER.QUALITY r) v) r te q (s.r Reg.FIX_ROVER.QUALITY r)
        (fixConsec s r q) bytes fe fl 0 := by
  refine ⟨_, _, _, _, ?_, rfl⟩
  rfl

/-- A record without a position changes what FIX shows and holds of its rover, and is queued and reflected. -/
theorem fixNone_workKept {ks : List Nat} {s : State} {r te epoch : Nat} {u : Option Nat} {quality reason : Nat} (hq : quality ≠ 2)
    (hlow : ∀ k ∈ ks, k < 32 * 0xD0000) (h : ∀ k ∈ ks, k ∉ solKeys r) :
    WorkKept ks s (fixNone s r te epoch u quality reason) := by
  obtain ⟨v, bytes, fe, fl, hl, he⟩ := fixNone_eq s r te epoch u quality reason
  rw [he]
  exact (fixShow_workKept s r _ _ _ v hl h).trans (fixSend_workKept hlow _ r te _ _ _ _ _ _ 0 hq)

theorem fixNone_shows (s : State) {r : Nat} (te epoch : Nat) (u : Option Nat) {quality reason : Nat} (hr : r < 128)
    (hq : quality < 8) (hre : reason < 256) :
    let t := fixNone s r te epoch u quality reason
    t.r Reg.FIX_ROVER.QUALITY r = quality ∧ t.r Reg.FIX_ROVER.REASON r = reason := by
  obtain ⟨⟨hquality, hreason, _, _⟩, _⟩ :=
    fixWrite_shows s r te epoch u {} { quality := quality, reason := reason } (fixRover s r).filt 0 hr
  exact ⟨hquality.trans (Nat.mod_eq_of_lt hq), hreason.trans (Nat.mod_eq_of_lt hre)⟩

/-! ### Solutions that begin (R172) -/

/-- Of a job nothing changes but whether its S2 has begun. -/
def BegunOnly (x y : FixJob) : Prop := y = { x with begun := y.begun }

theorem BegunOnly.trans {x y z : FixJob} (h : BegunOnly x y) (k : BegunOnly y z) : BegunOnly x z := by
  unfold BegunOnly at *
  rw [k, h]

theorem BegunOnly.kept {x y : FixJob} (h : BegunOnly x y) :
    y.rover = x.rover ∧ y.te = x.te ∧ y.u = x.u ∧ y.cl = x.cl ∧ y.cost = x.cost := by
  unfold BegunOnly at h
  rw [h]
  exact ⟨rfl, rfl, rfl, rfl, rfl⟩

/-- Jobs begin, each in its place. -/
theorem fixBegin_jobs (s : State) : ∃ f : FixJob → FixJob, (∀ x, BegunOnly x (f x))
    ∧ (fixBegin s).fix.jobs = s.fix.jobs.map f := by
  unfold fixBegin
  extract_lets en
  generalize 9 = n
  induction n with
  | zero => exact ⟨id, fun _ => rfl, (List.map_id _).symm⟩
  | succ n ih =>
    obtain ⟨f, hf, hjobs⟩ := ih
    rw [iter]
    generalize iter _ n s = u at hjobs
    split
    · rename_i j _
      split
      · exact ⟨f, hf, hjobs⟩
      · refine ⟨(fun x => if x = j then { j with begun := true } else x) ∘ f, fun x => (hf x).trans ?_, ?_⟩
        · unfold BegunOnly
          dsimp only [Function.comp_apply]
          split
          · rename_i he
            rw [he]
          · rfl
        · rw [← List.map_map, ← hjobs]
          rfl
    · exact ⟨f, hf, hjobs⟩

end Sys2Proof.Machine

/-! PROOF. The loads of the FIX slot (R153, R172 to R174). -/

namespace Sys2Proof.Machine

open Sys2Proof

/-! ### What a load reads -/

/-- The registers a load reads whatever its rover. -/
def loadFixed : List Nat :=
  [Reg.SXT_SIG_EN.SIG_EN.key 0 0, Reg.OBS_POS_STATE.STATE.key 0 0, Reg.FIX_CLUSTER_MAP.IN_SERVICE.key 0 0,
    Reg.FIX_CLUSTER_MAP.SPARE.key 0 0, Reg.FIX_CLUSTER_MAP.SPARE_FOR.key 0 0]

/-- The registers a load of rover r reads. -/
def loadKeys (r : Nat) : List Nat := Reg.FIX_ROVER.RATE.key r 0 :: loadFixed

theorem loadFixed_mem {k : Nat} (r : Nat) (h : k ∈ loadFixed) : k ∈ loadKeys r := List.mem_cons_of_mem _ h

/-- They stand from Sextant's block to FIX's counts, or at bit 4 of a word in the table of rovers. -/
theorem loadKeys_place {r k : Nat} (h : k ∈ loadKeys r) :
    32 * 0x20000 ≤ k ∧ (k < 32 * 0x40040 ∨ k % 32 = 4) := by
  rcases List.mem_cons.1 h with h | h
  · have hrate : Reg.FIX_ROVER.RATE.key r 0 = 32 * (0x40400 + 0x10 * r + 0 * 0) + 4 := rfl
    omega
  · have hall : ∀ k ∈ loadFixed, 32 * 0x20000 ≤ k ∧ k < 32 * 0x40040 := by decide
    obtain ⟨hlo, hhi⟩ := hall k h
    exact ⟨hlo, .inl hhi⟩

theorem loadKeys_quiet {r k : Nat} (h : k ∈ loadKeys r) : QuietKey k := by
  have := loadKeys_place h
  unfold QuietKey
  omega

/-- A load reads no field of the table of rovers but RATE. -/
theorem RoverField.not_loadKeys {f : Field} (hf : RoverField f) (hb : f.lsb % 32 ≠ 4) (q r : Nat) : f.key q 0 ∉ loadKeys r := by
  intro h
  obtain ⟨_, h⟩ := loadKeys_place h
  obtain ⟨hlo, _, _⟩ := hf
  unfold Field.key at *
  omega

theorem WorkKept.nextReady_eq {ks : List Nat} {s t : State} (h : WorkKept ks s t) : nextReady t = nextReady s := by
  unfold nextReady
  rw [h.jobs, h.tick]

/-- The cluster picked follows from the cluster map and the jobs on each cluster. -/
theorem clPick_congr {s t : State} (hr : ∀ f : Field, f.key 0 0 ∈ loadFixed → t.r f = s.r f)
    (hj : ∀ c, clJobs t c = clJobs s c) : clPick t = clPick s := by
  unfold clPick clActive clQueued
  rw [hr Reg.FIX_CLUSTER_MAP.IN_SERVICE (by decide), hr Reg.FIX_CLUSTER_MAP.SPARE (by decide),
    hr Reg.FIX_CLUSTER_MAP.SPARE_FOR (by decide)]
  simp only [hj]

theorem recordRefusal_congr {s t : State} {j : FixJob} (h : t.rb Reg.FIX_ROVER.RATE j.rover = s.rb Reg.FIX_ROVER.RATE j.rover)
    (b : List Byte) : recordRefusal t j b = recordRefusal s j b := by
  unfold recordRefusal
  rw [h]

theorem noBaseSet_congr {s t : State} (h : t.obs = s.obs) : noBaseSet t = noBaseSet s := by
  unfold noBaseSet
  rw [baseSetFor_of_base h]

/-! ### The load of one rover -/

/-- The ready rover found waits for a cluster. -/
theorem nextReady_waits {s : State} {j : FixJob} (h : nextReady s = some j) : j.cl = none := by
  refine List.foldlRecOn (motive := fun best : Option FixJob => ∀ b, best = some b → b.cl = none) s.fix.jobs _ (by simp)
    (fun best hbest a _ => ?_) j h
  split
  · rename_i hready
    have ha : a.cl = none := Option.isNone_iff_eq_none.1 (Bool.and_eq_true_iff.1 hready).1
    have hsome : ∀ b, some a = some b → b.cl = none := fun b he => Option.some.inj he ▸ ha
    split
    · split
      · exact hsome
      · exact hbest
    · exact hsome
  · exact hbest

/-- Dropping a job that waits for a cluster leaves the jobs on each cluster. -/
theorem clJobs_dropJob {s : State} {j : FixJob} (hcl : j.cl = none)
    (honly : ∀ x ∈ s.fix.jobs, x.rover = j.rover → x.te = j.te → x = j) (c : Nat) : clJobs (dropJob s j) c = clJobs s c := by
  unfold clJobs dropJob
  dsimp only
  rw [List.filter_filter]
  refine List.filter_congr fun x hx => ?_
  by_cases hxj : x.rover = j.rover ∧ x.te = j.te
  · have hcl' : x.cl = none := by rw [honly x hx hxj.1 hxj.2, hcl]
    simp [hcl']
  · have hkeep : (x.rover == j.rover && x.te == j.te) = false := by simpa using hxj
    simp [hkeep]

/-- The solution a record brings, loaded on cluster c. -/
def loadedJob (s : State) (j : FixJob) (p : Pkt) (c : Nat) : FixJob :=
  { j with cost := clusterCost (entriesUsed (s.r Reg.SXT_SIG_EN.SIG_EN) p.data).length, data := p.data, cl := some c }

/-- A record that passes its checks, with a base to solve against, is loaded on the cluster picked. -/
theorem fixLoad_loads {s : State} {j : FixJob} {p : Pkt} {c : Nat} (hcl : j.cl = none)
    (honly : ∀ x ∈ s.fix.jobs, x.rover = j.rover → x.te = j.te → x = j) (hpick : clPick s = some c)
    (htake : (fixTake s j.rover).1 = some p) (hrec : recordRefusal s j p.data = none) (hpos : posState s = 2)
    (hset : noBaseSet s j.te j.half = false) : (fixLoad j s).fix.jobs.getLast? = some (loadedJob s j p c) := by
  have hkept := fixTake_workKept (ks := loadKeys j.rover) s j.rover fun _ hk => loadKeys_quiet hk
  unfold fixLoad
  generalize fixTake s j.rover = q at hkept htake
  obtain ⟨o, u⟩ := q
  dsimp only at hkept htake ⊢
  subst htake
  have hr (f : Field) (hf : f.key 0 0 ∈ loadFixed) : (dropJob u j).r f = s.r f := hkept.r f 0 0 (loadFixed_mem _ hf)
  have hrate : (dropJob u j).rb Reg.FIX_ROVER.RATE j.rover = s.rb Reg.FIX_ROVER.RATE j.rover :=
    hkept.rb _ j.rover 0 List.mem_cons_self
  have hobs : (dropJob u j).obs = s.obs := hkept.obs
  have hon (k : Nat) : clJobs (dropJob u j) k = clJobs s k := by
    rw [clJobs_dropJob hcl (hkept.jobs ▸ honly)]
    unfold clJobs
    rw [hkept.jobs]
  rw [recordRefusal_congr hrate, hrec]
  dsimp only
  have hvalid : posState (dropJob u j) = 2 := (hr Reg.OBS_POS_STATE.STATE (by decide)).trans hpos
  rw [if_neg (by simp [hvalid]), if_neg (by simp [noBaseSet_congr hobs, hset]), clPick_congr hr hon, hpick,
    hr Reg.SXT_SIG_EN.SIG_EN (by decide)]
  exact List.getLast?_concat ..

/-! ### The slot -/

/-- The slot's stores: the filters of the oldest full output buffers. -/
def slotStored (stores : Nat) (s : State) : State :=
  (s.fix.outs.take stores).foldl fixStore { s with fix := { s.fix with outs := s.fix.outs.drop stores } }

theorem fixStore_workKept (r : Nat) (s : State) (o : OutBuf) : WorkKept (loadKeys r) s (fixStore s o) := by
  have hfield (f : Field) (hf : RoverField f) (hb : f.lsb % 32 ≠ 4) : f.key o.rover 0 ∉ loadKeys r := hf.not_loadKeys hb _ _
  unfold fixStore
  split
  · exact (setFixRover_workKept s o.rover _ (by rfl) (hfield _ (by unfold RoverField; decide) (by decide))).trans
      (w_workKept _ Reg.FIX_ROVER.GAP_WATCHES _ o.rover 0 (hfield _ (by unfold RoverField; decide) (by decide)))
  · exact .rfl' _ s

theorem slotStored_workKept (r stores : Nat) (s : State) : WorkKept (loadKeys r) s (slotStored stores s) := by
  have houts : WorkKept (loadKeys r) s { s with fix := { s.fix with outs := s.fix.outs.drop stores } } :=
    ⟨rfl, rfl, rfl, rfl, fun _ => rfl, fun _ _ => rfl⟩
  exact houts.trans (foldl_workKept fixStore (fixStore_workKept r) _ _)

theorem slotStored_cpl (stores : Nat) (s : State) : (slotStored stores s).cpl = s.cpl := by
  have hstore (s : State) (o : OutBuf) : (fixStore s o).cpl = s.cpl := by
    unfold fixStore
    split <;> rfl
  exact List.foldlRecOn (motive := fun u : State => u.cpl = s.cpl) _ fixStore rfl fun u hu o _ => (hstore u o).trans hu

theorem slotUsed_workKept (r held : Nat) (s : State) : WorkKept (loadKeys r) s (slotUsed s 3 held) := by
  have hregs (k : Nat) (hk : k ∈ loadKeys r) : mget 0 (slotUsed s 3 held).regs k = mget 0 s.regs k := by
    refine slotUsed_regs s 3 held k fun hm => ?_
    have hlow : Reg.TTU_SLOT_USE.MAX_USE.key 3 0 < 32 * 0x20000 := by decide
    have := loadKeys_place hk
    rw [← List.mem_singleton.1 hm] at hlow
    omega
  refine .of_fix (slotUsed_stays s 3 held).tick ?_ ?_ hregs <;>
    (unfold slotUsed; dsimp only; split <;> rfl)

theorem slotUsed_cpl (s : State) (e held : Nat) : (slotUsed s e held).cpl = s.cpl := by
  unfold slotUsed
  dsimp only
  split <;> rfl

theorem fixSlot_eq {s : State} {use : SlotUse} (stores loads : Nat) (hu : use.pending = false) (hd : s.mode ≠ .dead) :
    fixSlot use stores loads s = fixBegin (fixLoads loads (slotStored stores (slotUsed s 3 use.held))) := by
  unfold fixSlot
  rw [slotEnd_done s 3 use hu]
  exact if_neg (by simpa [(slotUsed_stays s 3 use.held).mode] using hd)

theorem fixLoads_one {s : State} {j : FixJob} {c : Nat} (hnext : nextReady s = some j) (hpick : clPick s = some c)
    (hcost : j.cost = 0) : fixLoads 1 s = fixLoad j s := by
  simp only [fixLoads, hnext, hpick, hcost, if_true]

/-- The slot loads the ready rover of the earliest deadline, whose record passes its checks, on the cluster picked. -/
theorem fixSlot_loads {s : State} {use : SlotUse} {stores c : Nat} {j : FixJob} {p : Pkt} (hu : use.pending = false)
    (hd : s.mode ≠ .dead) (hnext : nextReady s = some j) (honly : ∀ x ∈ s.fix.jobs, x.rover = j.rover → x.te = j.te → x = j)
    (hpick : clPick s = some c) (hcost : j.cost = 0) (htake : (fixTake s j.rover).1 = some p)
    (hrec : recordRefusal s j p.data = none) (hpos : posState s = 2) (hset : noBaseSet s j.te j.half = false) :
    ∃ j', (fixSlot use stores 1 s).fix.jobs.getLast? = some j' ∧ BegunOnly (loadedJob s j p c) j' := by
  rw [fixSlot_eq stores 1 hu hd]
  have hkept := (slotUsed_workKept j.rover use.held s).trans (slotStored_workKept j.rover stores _)
  have hcpl := (slotStored_cpl stores _).trans (slotUsed_cpl s 3 use.held)
  generalize slotStored stores (slotUsed s 3 use.held) = u at hkept hcpl
  have hr (f : Field) (hf : f.key 0 0 ∈ loadFixed) : u.r f = s.r f := hkept.r f 0 0 (loadFixed_mem _ hf)
  have hpick' : clPick u = some c := (clPick_congr hr fun k => by unfold clJobs; rw [hkept.jobs]).trans hpick
  rw [fixLoads_one (hkept.nextReady_eq.trans hnext) hpick' hcost]
  have hlast := fixLoad_loads (s := u) (nextReady_waits hnext) (hkept.jobs ▸ honly) hpick'
    ((fixTake_congr hcpl hkept.win j.rover).trans htake)
    ((recordRefusal_congr (hkept.rb _ j.rover 0 List.mem_cons_self) p.data).trans hrec)
    ((hr Reg.OBS_POS_STATE.STATE (by decide)).trans hpos) (by rw [noBaseSet_congr hkept.obs, hset])
  have hjob : loadedJob u j p c = loadedJob s j p c := by
    unfold loadedJob
    rw [hr Reg.SXT_SIG_EN.SIG_EN (by decide)]
  obtain ⟨f, hf, hjobs⟩ := fixBegin_jobs (fixLoad j u)
  refine ⟨f (loadedJob s j p c), ?_, hf _⟩
  rw [hjobs, List.getLast?_map, hlast, hjob]
  rfl

end Sys2Proof.Machine

/-! PROOF. Late solutions, the close of an upload window, and a filter that expires (R154, R163, R176). -/

namespace Sys2Proof.Machine

open Sys2Proof

/-- Rover r shows a quality and a reason. -/
def SolShown (r quality reason : Nat) (s : State) : Prop :=
  s.r Reg.FIX_ROVER.QUALITY r = quality ∧ s.r Reg.FIX_ROVER.REASON r = reason

/-! ### Solutions that pass their deadline (R176) -/

/-- A solution abandoned at its deadline is off its cluster, and its record has left the Cell Pool. -/
def lateDropped (s : State) (j : FixJob) : State := dropJob (busyUsed (if j.cost = 0 then fixFree s j.rover else s) j) j

/-- One more late solution in this watch. -/
def oneMoreLate (s : State) : State := { s with fix := { s.fix with wLate := s.fix.wLate + 1 } }

/-- It is counted, and other solutions begin. -/
def lateCounted (s : State) (j : FixJob) : State :=
  oneMoreLate (fixBegin ((lateDropped s j).inc Reg.FIX_ROVER.LATE_COUNT j.rover))

/-- What the deadline makes of one solution. -/
def lateStep (s : State) (j : FixJob) : State :=
  raiseWatch (fixNone (lateCounted s j) j.rover j.te j.epoch (some j.u) 3 0x0C) 128 j.rover

/-- The solutions past their deadline. -/
def lateJobs (s : State) : List FixJob := s.fix.jobs.filter fun j => decide (j.u + 20 ≤ s.tick)

theorem fixDeadline_eq (s : State) : fixDeadline s = (lateJobs s).foldl lateStep s := by
  delta lateStep lateCounted oneMoreLate lateDropped
  rfl

/-- Freeing a record and counting its cluster time leave FIX's jobs and the registers below HST's block. -/
theorem lateFreed_workKept {ks : List Nat} (s : State) (j : FixJob) (h : ∀ k ∈ ks, QuietKey k) :
    WorkKept ks s (busyUsed (if j.cost = 0 then fixFree s j.rover else s) j) :=
  (WorkKept.ite (fixTake_workKept s j.rover h) (.rfl' ks s)).trans (busyUsed_workKept ..)

theorem lateDropped_jobs (s : State) (j : FixJob) :
    (lateDropped s j).fix.jobs = s.fix.jobs.filter fun x => !(x.rover == j.rover && x.te == j.te) :=
  congrArg (List.filter _) (lateFreed_workKept (ks := []) s j (List.forall_mem_nil _)).jobs

theorem oneMoreLate_workKept (ks : List Nat) (s : State) : WorkKept ks s (oneMoreLate s) :=
  ⟨rfl, rfl, rfl, rfl, fun _ => rfl, fun _ _ => rfl⟩

theorem lateCounted_jobs (s : State) (j : FixJob) :
    ∃ f : FixJob → FixJob, (∀ x, BegunOnly x (f x)) ∧ (lateCounted s j).fix.jobs = (lateDropped s j).fix.jobs.map f := by
  obtain ⟨f, hf, hjobs⟩ := fixBegin_jobs ((lateDropped s j).inc Reg.FIX_ROVER.LATE_COUNT j.rover)
  refine ⟨f, hf, ?_⟩
  unfold lateCounted
  rw [(oneMoreLate_workKept [] _).jobs, hjobs, State.inc_fix]

/-- The record of a late solution, once the others have begun. -/
theorem lateStep_workKept {ks : List Nat} (s : State) (j : FixJob) (hlow : ∀ k ∈ ks, k < 32 * 0xD0000)
    (h : ∀ k ∈ ks, k ∉ solKeys j.rover) : WorkKept ks (lateCounted s j) (lateStep s j) := by
  unfold lateStep
  exact (fixNone_workKept (by decide) hlow h).trans (raiseWatch_workKept hlow _ 128 j.rover (by decide))

/-- What is left are jobs from before, none of the same rover and epoch. -/
theorem lateStep_jobs {s : State} {j y : FixJob} (h : y ∈ (lateStep s j).fix.jobs) :
    ∃ x ∈ s.fix.jobs, BegunOnly x y ∧ ¬ (x.rover = j.rover ∧ x.te = j.te) := by
  obtain ⟨f, hf, hjobs⟩ := lateCounted_jobs s j
  rw [(lateStep_workKept (ks := []) s j (List.forall_mem_nil _) (List.forall_mem_nil _)).jobs, hjobs, lateDropped_jobs] at h
  obtain ⟨x, hx, hy⟩ := List.mem_map.1 h
  obtain ⟨hmem, hkeep⟩ := List.mem_filter.1 hx
  exact ⟨x, hmem, hy ▸ hf x, fun ⟨hrover, hte⟩ => by simp [hrover, hte] at hkeep⟩

/-- Of several solutions abandoned, none leaves a job of its rover and epoch. -/
theorem foldl_lateStep_jobs (l : List FixJob) {s : State} {y : FixJob} (h : y ∈ (l.foldl lateStep s).fix.jobs) :
    ∃ x ∈ s.fix.jobs, BegunOnly x y ∧ ∀ j ∈ l, ¬ (x.rover = j.rover ∧ x.te = j.te) := by
  induction l generalizing s with
  | nil => exact ⟨y, h, rfl, List.forall_mem_nil _⟩
  | cons j l ih =>
    obtain ⟨z, hz, hzy, hlater⟩ := ih h
    obtain ⟨x, hx, hxz, hnot⟩ := lateStep_jobs hz
    obtain ⟨hrover, hte, _⟩ := hxz.kept
    rw [hrover, hte] at hlater
    exact ⟨x, hx, hxz.trans hzy, List.forall_mem_cons.2 ⟨hnot, hlater⟩⟩

theorem fixDeadline_jobs (s : State) : ∀ y ∈ (fixDeadline s).fix.jobs, s.tick < y.u + 20 := by
  intro y hy
  rw [fixDeadline_eq] at hy
  obtain ⟨x, hx, hxy, hgone⟩ := foldl_lateStep_jobs _ hy
  obtain ⟨_, _, hu, _⟩ := hxy.kept
  by_contra hlate
  exact hgone x (List.mem_filter.2 ⟨hx, by simp; omega⟩) ⟨rfl, rfl⟩

theorem lateCount_rover : RoverField Reg.FIX_ROVER.LATE_COUNT := by
  unfold RoverField
  decide

/-- Beginning others and counting the watch leave the registers of rovers. -/
theorem lateCounted_r (s : State) (j : FixJob) {f : Field} {r : Nat} (hf : RoverField f) (hr : r < 128) :
    (lateCounted s j).r f r = ((lateDropped s j).inc Reg.FIX_ROVER.LATE_COUNT j.rover).r f r := by
  have hkey := hf.key_low hr
  have hdrop : Reg.FIX_COUNTS.ENTRY_DROP_COUNT.key 0 0 < 32 * 0x40400 := by decide
  have hbegin := (fixBegin_kept ((lateDropped s j).inc Reg.FIX_ROVER.LATE_COUNT j.rover)).r f r 0 (by omega)
  unfold lateCounted
  rw [(oneMoreLate_workKept [f.key r 0] _).r f r 0 List.mem_cons_self, hbegin]

/-- A solution abandoned reads FIX_LATE. -/
theorem lateStep_solShown (s : State) {j : FixJob} (hr : j.rover < 128) : SolShown j.rover 3 0x0C (lateStep s j) := by
  have hraise (f : Field) (hf : f ∈ solFields) : (lateStep s j).r f j.rover
      = (fixNone (lateCounted s j) j.rover j.te j.epoch (some j.u) 3 0x0C).r f j.rover := by
    have := (solFields_rover f hf).key_low hr
    exact raiseWatch_r _ 128 j.rover f j.rover 0 (by decide) (not_evtKey (by omega))
  obtain ⟨hquality, hreason⟩ := fixNone_shows (lateCounted s j) j.te j.epoch (some j.u) hr (quality := 3) (reason := 0x0C)
    (by decide) (by decide)
  exact ⟨(hraise _ (by simp [solFields])).trans hquality, (hraise _ (by simp [solFields])).trans hreason⟩

/-- It is counted. -/
theorem lateStep_counts (s : State) {j : FixJob} (hr : j.rover < 128) : (lateStep s j).r Reg.FIX_ROVER.LATE_COUNT j.rover
    = satInc Reg.FIX_ROVER.LATE_COUNT.width (s.r Reg.FIX_ROVER.LATE_COUNT j.rover) := by
  have hfield : RoverField Reg.FIX_ROVER.LATE_COUNT := by unfold RoverField; decide
  have hkey := hfield.key_low hr
  have hlow : ∀ k ∈ [Reg.FIX_ROVER.LATE_COUNT.key j.rover 0], k < 32 * 0xD0000 := by
    rw [List.forall_mem_singleton]
    omega
  have hstep := lateStep_workKept s j hlow (List.forall_mem_singleton.2 (hfield.not_solKeys (.inr (by decide))))
  have hfreed : (lateDropped s j).r Reg.FIX_ROVER.LATE_COUNT j.rover = s.r Reg.FIX_ROVER.LATE_COUNT j.rover :=
    (lateFreed_workKept s j fun k hk => .inl (hlow k hk)).r _ j.rover 0 List.mem_cons_self
  rw [hstep.r _ j.rover 0 List.mem_cons_self, lateCounted_r s j hfield hr, State.r_inc_same, hfreed]

/-! ### The close of an upload window (R154) -/

/-- What the close of window w makes of one rover. -/
def closeRover (w : FixWin) (r : Nat) (s : State) : State :=
  if !fixEnabled s r || w.done.contains r || (w.half && !s.rb Reg.FIX_ROVER.RATE r) then s
  else if (fixRover s r).lost then fixNone s r w.te w.epoch none 4 0x0D
  else if posState s ≠ 2 then fixNone s r w.te w.epoch none 0 6
  else if noBaseSet s w.te w.half then fixNone s r w.te w.epoch none 0 5
  else fixNone s r w.te w.epoch none 0 (if r ∈ w.frags then 4 else 1)

/-- The window is closed: the uploads not used are freed, and a missing base set is reported. -/
def windowClosed (w : FixWin) (s : State) : State :=
  let s := w.free.foldl fixFreeOld { s with fix := { s.fix with win := none } }
  let any := (List.range 128).any fun r => fixEnabled s r && (!w.half || s.rb Reg.FIX_ROVER.RATE r)
  if any && noBaseSet s w.te w.half then noBaseRaise s w.te else s

theorem uploadClose_eq {s : State} {w : FixWin} (hw : s.fix.win = some w) (hend : w.last < tiw s ∨ s.ttu.pos = 0)
    (hvoid : w.void = false) : uploadClose s = iter (closeRover w) 128 (windowClosed w s) := by
  unfold uploadClose
  rw [hw]
  dsimp only
  rw [if_neg (by omega), hvoid]
  rfl

theorem closeRover_cases (w : FixWin) (r : Nat) (s : State) : closeRover w r s = s
    ∨ ∃ quality reason, quality ≠ 2 ∧ closeRover w r s = fixNone s r w.te w.epoch none quality reason := by
  unfold closeRover
  split
  · exact .inl rfl
  · split
    · exact .inr ⟨4, _, by decide, rfl⟩
    · split
      · exact .inr ⟨0, _, by decide, rfl⟩
      · split
        · exact .inr ⟨0, _, by decide, rfl⟩
        · exact .inr ⟨0, _, by decide, rfl⟩

theorem closeRover_workKept {ks : List Nat} (w : FixWin) (r : Nat) (s : State) (hlow : ∀ k ∈ ks, k < 32 * 0xD0000)
    (h : ∀ k ∈ ks, k ∉ solKeys r) : WorkKept ks s (closeRover w r s) := by
  rcases closeRover_cases w r s with he | ⟨quality, reason, hq, he⟩
  · rw [he]
    exact .rfl' ks s
  · rw [he]
    exact fixNone_workKept hq hlow h

/-- The window closes for rover r: it is enabled, without a complete record, and takes part in the epoch. -/
def CloseDue (w : FixWin) (r : Nat) (s : State) : Prop :=
  fixEnabled s r = true ∧ r ∉ w.done ∧ (w.half = true → s.rb Reg.FIX_ROVER.RATE r = true)

/-- The close does not pass such a rover over. -/
theorem CloseDue.taken {w : FixWin} {r : Nat} {s : State} (h : CloseDue w r s) :
    (!fixEnabled s r || w.done.contains r || (w.half && !s.rb Reg.FIX_ROVER.RATE r)) = false := by
  obtain ⟨he, hd, hh⟩ := h
  cases hw : w.half with
  | false => simp [he, hd]
  | true => simp [he, hd, hh hw]

theorem closeRover_lost {w : FixWin} {r : Nat} {s : State} (h : CloseDue w r s) (hl : (fixRover s r).lost = true) :
    closeRover w r s = fixNone s r w.te w.epoch none 4 0x0D := by
  unfold closeRover
  rw [h.taken, if_neg Bool.false_ne_true, if_pos hl]

theorem closeRover_missing {w : FixWin} {r : Nat} {s : State} (h : CloseDue w r s) (hl : (fixRover s r).lost = false)
    (hp : posState s = 2) (hb : noBaseSet s w.te w.half = false) :
    closeRover w r s = fixNone s r w.te w.epoch none 0 (if r ∈ w.frags then 4 else 1) := by
  unfold closeRover
  rw [h.taken, if_neg Bool.false_ne_true, if_neg (by simp [hl]), if_neg (by simp [hp]), if_neg (by simp [hb])]

/-- The registers the close reads of rover r. -/
def closeKeys (r : Nat) : List Nat :=
  [Reg.FIX_ROVER.ENABLED.key r 0, Reg.FIX_ROVER.RATE.key r 0, Reg.OBS_POS_STATE.STATE.key 0 0]

theorem closeFields_rover : RoverField Reg.FIX_ROVER.ENABLED ∧ RoverField Reg.FIX_ROVER.RATE := by
  unfold RoverField
  decide

theorem closeKeys_low {r : Nat} (hr : r < 128) : ∀ k ∈ closeKeys r, k < 32 * 0xD0000 := by
  have he := closeFields_rover.1.key_low hr
  have hrate := closeFields_rover.2.key_low hr
  simp only [closeKeys, List.forall_mem_cons, List.not_mem_nil, false_implies, implies_true, and_true]
  exact ⟨by omega, by omega, by decide⟩

/-- No record is shown in them. -/
theorem closeKeys_not_solKeys (r q : Nat) : ∀ k ∈ closeKeys r, k ∉ solKeys q := by
  simp only [closeKeys, List.forall_mem_cons, List.not_mem_nil, false_implies, implies_true, and_true]
  exact ⟨closeFields_rover.1.not_solKeys (.inr (by decide)), closeFields_rover.2.not_solKeys (.inr (by decide)),
    below_not_solKeys (by decide) q⟩

theorem WorkKept.closeDue {w : FixWin} {r : Nat} {s t : State} (k : WorkKept (closeKeys r) s t) (h : CloseDue w r s) :
    CloseDue w r t := by
  have he : fixEnabled t r = fixEnabled s r := k.rb _ r 0 (by simp [closeKeys])
  have hrate : t.rb Reg.FIX_ROVER.RATE r = s.rb Reg.FIX_ROVER.RATE r := k.rb _ r 0 (by simp [closeKeys])
  unfold CloseDue at *
  rwa [he, hrate]

theorem WorkKept.closePos {r : Nat} {s t : State} (k : WorkKept (closeKeys r) s t) : posState t = posState s :=
  k.r Reg.OBS_POS_STATE.STATE 0 0 (by simp [closeKeys])

/-- One index of an iteration brings Q, where the others before it keep P and those after it keep Q. -/
theorem iter_reaches {f : Nat → State → State} {P Q : State → Prop} {r : Nat} (hP : ∀ k u, k ≠ r → P u → P (f k u))
    (hr : ∀ u, P u → Q (f r u)) (hQ : ∀ k u, k ≠ r → Q u → Q (f k u)) {s : State} (h : P s) (n : Nat) :
    (n ≤ r → P (iter f n s)) ∧ (r < n → Q (iter f n s)) := by
  induction n with
  | zero => exact ⟨fun _ => h, fun hn => absurd hn (Nat.not_lt_zero r)⟩
  | succ n ih =>
    obtain ⟨hbefore, hafter⟩ := ih
    refine ⟨fun hn => hP n _ (by omega) (hbefore (by omega)), fun hn => ?_⟩
    by_cases he : n = r
    · rw [iter, he]
      exact hr _ (he ▸ hbefore (by omega))
    · exact hQ n _ he (hafter (by omega))

/-- What the close shows of another rover stays. -/
theorem closeRover_solShown {w : FixWin} {r k quality reason : Nat} {s : State} (hr : r < 128) (hk : k ≠ r)
    (h : SolShown r quality reason s) : SolShown r quality reason (closeRover w k s) := by
  have hq : RoverField Reg.FIX_ROVER.QUALITY := solFields_rover _ (by simp [solFields])
  have hre : RoverField Reg.FIX_ROVER.REASON := solFields_rover _ (by simp [solFields])
  have hqlow := hq.key_low hr
  have hrelow := hre.key_low hr
  have hkept : WorkKept [Reg.FIX_ROVER.QUALITY.key r 0, Reg.FIX_ROVER.REASON.key r 0] s (closeRover w k s) := by
    refine closeRover_workKept w k s ?_ ?_ <;>
      simp only [List.forall_mem_cons, List.not_mem_nil, false_implies, implies_true, and_true]
    · omega
    · exact ⟨hq.not_solKeys (.inl hk.symm), hre.not_solKeys (.inl hk.symm)⟩
  exact ⟨(hkept.r _ r 0 (by simp)).trans h.1, (hkept.r _ r 0 (by simp)).trans h.2⟩

/-- The record the close makes for rover r is shown once it has passed all rovers. -/
theorem iter_closeRover_shows {w : FixWin} {r quality reason : Nat} {s : State} (hr : r < 128) (hq : quality < 8)
    (hre : reason < 256)
    (h : ∀ u, WorkKept (closeKeys r) s u → closeRover w r u = fixNone u r w.te w.epoch none quality reason) :
    SolShown r quality reason (iter (closeRover w) 128 s) := by
  have hreach := iter_reaches (f := closeRover w) (P := WorkKept (closeKeys r) s) (Q := SolShown r quality reason) (r := r)
    (fun k u _ hu => hu.trans (closeRover_workKept w k u (closeKeys_low hr) (closeKeys_not_solKeys r k)))
    (fun u hu => h u hu ▸ fixNone_shows u w.te w.epoch none hr hq hre) (fun k u hk => closeRover_solShown hr hk) (.rfl' _ s) 128
  exact hreach.2 hr

theorem windowClosed_workKept {ks : List Nat} (w : FixWin) (s : State) (hlow : ∀ k ∈ ks, k < 32 * 0xD0000) :
    WorkKept ks { s with fix := { s.fix with win := none } } (windowClosed w s) := by
  unfold windowClosed
  have hfreed := foldl_workKept fixFreeOld (fun s r => cplTake_workKept hlow s r) w.free
    { s with fix := { s.fix with win := none } }
  exact .ite (hfreed.trans (noBaseRaise_workKept hlow _ w.te)) hfreed

theorem uploadClose_win {s : State} {w : FixWin} (hw : s.fix.win = some w) (hend : w.last < tiw s ∨ s.ttu.pos = 0)
    (hvoid : w.void = false) : (uploadClose s).fix.win = none := by
  rw [uploadClose_eq hw hend hvoid]
  have hall (n : Nat) : WorkKept [] (windowClosed w s) (iter (closeRover w) n (windowClosed w s)) := by
    induction n with
    | zero => exact .rfl' _ _
    | succ n ih => exact ih.trans (closeRover_workKept w n _ (List.forall_mem_nil _) (List.forall_mem_nil _))
  exact (hall 128).win.trans (windowClosed_workKept w s (List.forall_mem_nil _)).win

/-- What a rover without a complete record reads once its window has closed. -/
theorem uploadClose_shows {s : State} {w : FixWin} {r : Nat} (hw : s.fix.win = some w) (hend : w.last < tiw s ∨ s.ttu.pos = 0)
    (hvoid : w.void = false) (hr : r < 128) (hdue : CloseDue w r s) :
    ((fixRover s r).lost = true → SolShown r 4 0x0D (uploadClose s))
    ∧ ((fixRover s r).lost = false → posState s = 2 → noBaseSet s w.te w.half = false →
      SolShown r 0 (if r ∈ w.frags then 4 else 1) (uploadClose s)) := by
  rw [uploadClose_eq hw hend hvoid]
  have hclosed := windowClosed_workKept w s (closeKeys_low hr)
  refine ⟨fun hl => iter_closeRover_shows hr (by decide) (by decide) fun u hu => ?_,
    fun hl hp hb => iter_closeRover_shows hr (by decide) (by split <;> decide) fun u hu => ?_⟩
  · have hk := hclosed.trans hu
    exact closeRover_lost (hk.closeDue hdue) ((hk.lost r).trans hl)
  · have hk := hclosed.trans hu
    exact closeRover_missing (hk.closeDue hdue) ((hk.lost r).trans hl) (hk.closePos.trans hp)
      (by rw [noBaseSet_congr hk.obs]; exact hb)

/-! ### A filter that expires (row 4 of R163) -/

theorem filterExpired_expires {s : State} {r u : Nat} (hp : (fixRover s r).paused = some u) (hu : u + 1000 < s.tick) :
    let t := filterExpired r s
    (fixRover t r).filt = {} ∧ (fixRover t r).paused = none ∧ pending t 133 = true
      ∧ RegsKept (Reg.FIX_ROVER.FSTATE.key r 0 :: evtKeys) s t := by
  have he : filterExpired r s = raise (setFixRover s r { fixRover s r with filt := {}, paused := none }) 133 r := by
    unfold filterExpired
    rw [hp]
    exact if_pos hu
  have hrover : fixRover (filterExpired r s) r = { fixRover s r with filt := {}, paused := none } := by
    rw [he]
    unfold fixRover
    rw [raise_fix]
    exact mget_mput_same ..
  have hregs : RegsKept (Reg.FIX_ROVER.FSTATE.key r 0 :: evtKeys) s
      (setFixRover s r { fixRover s r with filt := {}, paused := none }) :=
    RegsKept.w (t := { s with fix := _ }) (.of_regs rfl) Reg.FIX_ROVER.FSTATE _ r 0 List.mem_cons_self
  refine ⟨congrArg FixRover.filt hrover, congrArg FixRover.paused hrover, ?_, ?_⟩
  · rw [he]
    exact raise_sets_pending _ 133 r (by decide)
  · rw [he]
    exact hregs.trans fun k hk => raise_keys _ 133 r k (by decide) fun hm => hk (List.mem_cons_of_mem _ hm)

/-- Settles O35: the load of the slot, the fold over late solutions, the pass over the rovers of a window, and row 4 of R163. -/
theorem theFixSlotAndItsDeadlines : Obligations.the_fix_slot_and_its_deadlines := by
  unfold Obligations.the_fix_slot_and_its_deadlines
  refine ⟨fun s use stores c j p he hu hnext honly hpick hcost htake hrec hpos hset => ?_, fun s he => ?_,
    fun s w he hw hend hvoid => ?_, fun s r u he hp hu => ?_⟩
  · have hx := engines_next (c := .fixSlot use stores 1) (i := none) he rfl
    have htaken := (fixTake_congr (s := s) (t := s.start.atInst none) rfl rfl j.rover).trans htake
    obtain ⟨j', hlast, hjob⟩ := fixSlot_loads (s := s.start.atInst none) (stores := stores) hu he.awake.2.2 hnext honly hpick
      hcost htaken hrec hpos hset
    generalize fixSlot use stores 1 (s.start.atInst none) = v at hx hlast
    obtain ⟨hrover, hte, _, hcl, hcost'⟩ := hjob.kept
    exact ⟨_, j', hx, hlast, hrover, hte, hcl, hcost'⟩
  · refine engines_leaves (i := none) he rfl ⟨fixDeadline_jobs (s.start.atInst none), fun j hj hr hlate => ?_⟩ fun _ h => h
    have hone : fixDeadline (s.start.atInst none) = lateStep (s.start.atInst none) j := by
      have hjobs : lateJobs (s.start.atInst none) = [j] := by
        unfold lateJobs
        rw [State.atInst_fix, State.start_fix, hj]
        exact List.filter_eq_self.2 (List.forall_mem_singleton.2 (decide_eq_true hlate))
      rw [fixDeadline_eq, hjobs]
      rfl
    rw [hone]
    obtain ⟨hquality, hreason⟩ := lateStep_solShown (s.start.atInst none) hr
    exact ⟨hquality, hreason, lateStep_counts (s.start.atInst none) hr⟩
  · have hshows {r : Nat} := uploadClose_shows (s := s.start.atInst none) (r := r) hw hend hvoid
    exact engines_leaves (i := none) he rfl ⟨uploadClose_win (s := s.start.atInst none) hw hend hvoid,
      fun r hr hen hdone hhalf => hshows hr ⟨hen, hdone, hhalf⟩⟩ fun _ h => h
  · exact engines_leaves (i := none) he rfl (filterExpired_expires (s := s.start.atInst none) hp hu) fun _ h => h

end Sys2Proof.Machine

/-! PROOF. Clusters: what takes one out, its known-answer test, and how it comes back (R178, R179, R477). -/

namespace Sys2Proof.Machine

open Sys2Proof

/-- No raising writes a field of the cluster map. -/
theorem clusterMap_calm : Reg.FIX_CLUSTER_MAP.STANDBY.key 0 0 ∉ evtKeys ∧ Reg.FIX_CLUSTER_MAP.IN_SERVICE.key 0 0 ∉ evtKeys := by
  decide

/-! ### A cluster fails -/

/-- Cluster c goes out at the next boundary, by a fault. -/
def clusterFailing (s : State) (c : Nat) : State := { s with fix := { s.fix with clOut := s.fix.clOut ++ [(c, true)] } }

theorem clusterFault_waits {s : State} {c : Nat} (ho : (unit s 1 c).out = false) (hs : (unit s 1 c).standby = false) :
    clusterFault c s = clusterFailing s c := by
  unfold clusterFault
  dsimp only
  rw [ho, hs, if_neg Bool.false_ne_true, if_neg Bool.false_ne_true]
  rfl

/-- The known-answer test of one cluster that is not out: passed, it changes nothing; failed, it is a fault. -/
theorem fixKat_single {s : State} (c : Fin 9) (pass : Bool) (ht : tiw s = 45) (ho : (unit s 1 c).out = false) :
    fixKat [(c.val, pass)] s = if pass then s else clusterFault c s := by
  have hc : ¬ 8 < c.val := by omega
  unfold fixKat
  simp [ht, hc, ho]

/-! ### A cluster comes back -/

theorem clusterBack_eq {s : State} {c : Nat} (hp : s.ttu.pos = 0) (hm : unitMayJoin s 1 c = true) :
    clusterBack c s = raise ((unitJoin s 1 c).w Reg.FIX_CLUSTER_MAP.STANDBY c) 138 c := if_pos ⟨hp, hm⟩

theorem clusterBack_joins {s : State} (c : Fin 9) (hp : s.ttu.pos = 0) (hm : unitMayJoin s 1 c = true) :
    let t := clusterBack c s
    (unit t 1 c).standby = true ∧ t.r Reg.FIX_CLUSTER_MAP.STANDBY = c ∧ pending t 138 = true := by
  dsimp only
  rw [clusterBack_eq hp hm]
  refine ⟨?_, ?_, raise_sets_pending _ 138 _ (by decide)⟩
  · rw [unit_raise]
    exact congrArg UnitSt.standby (unit_unitJoin s 1 c)
  · rw [raise_field _ 138 _ _ _ _ (by decide) clusterMap_calm.1, State.r_w_same]
    exact Nat.mod_eq_of_lt (Nat.lt_trans c.isLt (by decide))

/-- Cluster c is in service, and none is standby. -/
def clusterShownIn (c : Nat) (s : State) : State :=
  ((unitInService s 1 c).wset Reg.FIX_CLUSTER_MAP.IN_SERVICE c true).w Reg.FIX_CLUSTER_MAP.STANDBY 0xF

/-- The spare is a spare again, or no longer stands in for cluster c. -/
def clusterRelieved (c : Nat) (s : State) : State :=
  if c = 8 then s.w Reg.FIX_CLUSTER_MAP.SPARE 8
  else if s.r Reg.FIX_CLUSTER_MAP.SPARE_FOR = c then s.w Reg.FIX_CLUSTER_MAP.SPARE_FOR 0xF else s

theorem clusterRestored_eq {s : State} {c : Nat} (ht : tiw s = 45) (hs : unitStable s 1 c = true) :
    clusterRestored c s = raise (clusterRelieved c (clusterShownIn c s)) 139 c := by
  unfold clusterRestored
  rw [if_neg (by simp [ht, hs])]
  rfl

theorem clusterShownIn_shows (c : Fin 9) (s : State) :
    unitIn (clusterShownIn c s) 1 c = true ∧ bitAt ((clusterShownIn c s).r Reg.FIX_CLUSTER_MAP.IN_SERVICE) c = true
      ∧ (clusterShownIn c s).r Reg.FIX_CLUSTER_MAP.STANDBY = 0xF := by
  have hu : unit (clusterShownIn c s) 1 c = {} := unit_setUnit s 1 c {}
  refine ⟨?_, ?_, State.r_w_same ..⟩
  · unfold unitIn
    rw [hu]
    rfl
  · unfold clusterShownIn
    rw [State.r_w_ne _ Reg.FIX_CLUSTER_MAP.STANDBY Reg.FIX_CLUSTER_MAP.IN_SERVICE _ _ _ _ _ (by decide)]
    exact bitAt_wset _ _ _ 0 c.isLt

/-- What relieves the spare leaves the units, IN_SERVICE and STANDBY. -/
theorem clusterRelieved_kept (c : Nat) (s : State) : (clusterRelieved c s).svc = s.svc
    ∧ (clusterRelieved c s).r Reg.FIX_CLUSTER_MAP.IN_SERVICE = s.r Reg.FIX_CLUSTER_MAP.IN_SERVICE
    ∧ (clusterRelieved c s).r Reg.FIX_CLUSTER_MAP.STANDBY = s.r Reg.FIX_CLUSTER_MAP.STANDBY := by
  unfold clusterRelieved
  split
  · exact ⟨rfl, State.r_w_ne _ _ _ _ _ _ _ _ (by decide), State.r_w_ne _ _ _ _ _ _ _ _ (by decide)⟩
  · split
    · exact ⟨rfl, State.r_w_ne _ _ _ _ _ _ _ _ (by decide), State.r_w_ne _ _ _ _ _ _ _ _ (by decide)⟩
    · exact ⟨rfl, rfl, rfl⟩

theorem clusterRestored_restores {s : State} (c : Fin 9) (ht : tiw s = 45) (hs : unitStable s 1 c = true) :
    let t := clusterRestored c s
    unitIn t 1 c = true ∧ bitAt (t.r Reg.FIX_CLUSTER_MAP.IN_SERVICE) c = true ∧ t.r Reg.FIX_CLUSTER_MAP.STANDBY = 0xF
      ∧ pending t 139 = true := by
  dsimp only
  rw [clusterRestored_eq ht hs]
  obtain ⟨hin, hbit, hstand⟩ := clusterShownIn_shows c s
  obtain ⟨hsvc, hserv, hst⟩ := clusterRelieved_kept c (clusterShownIn c s)
  refine ⟨?_, ?_, ?_, raise_sets_pending _ 139 _ (by decide)⟩
  · unfold unitIn at hin ⊢
    rw [unit_raise, unit_congr (congrArg SvcState.units hsvc)]
    exact hin
  · rw [raise_field _ 139 _ _ _ _ (by decide) clusterMap_calm.2, hserv]
    exact hbit
  · rw [raise_field _ 139 _ _ _ _ (by decide) clusterMap_calm.1, hst]
    exact hstand

/-- Settles O36: the fault and the test of a cluster that carries its role, its return to standby and to service. -/
theorem clustersGoOutAndComeBack : Obligations.clusters_go_out_and_come_back := by
  unfold Obligations.clusters_go_out_and_come_back
  intro s c he failed
  refine ⟨fun ho hs => ?_, fun hp hm => ?_, fun ht hs => ?_⟩
  · have hfault : clusterFault c (s.start.atInst none) = clusterFailing (s.start.atInst none) c :=
      clusterFault_waits (s := s.start.atInst none) ho hs
    have hx := engines_next (c := .clusterFault c) (i := none) he rfl
    rw [hfault] at hx
    refine ⟨hx, fun ht => ?_⟩
    have hkat (pass : Bool) := engines_next (c := .fixKat [(c.val, pass)]) (i := none) he rfl
    simp only [fixKat_single (s := s.start.atInst none) c _ ht ho, hfault] at hkat
    exact ⟨hkat false, hkat true⟩
  · exact engines_leaves (i := some 0) he rfl (clusterBack_joins (s := s.start.atInst (some 0)) c hp hm) fun _ h => h
  · exact engines_leaves (i := some 0) he rfl (clusterRestored_restores (s := s.start.atInst (some 0)) c ht hs) fun _ h => h

end Sys2Proof.Machine
